-- ==== Sys2Proof/Word.lean ====
section
/-! DEFINITION. Word.lean: the bit-vector names of the GZ-6425 model (R6, R8). Everything that computes on them stands in
Machine/Ops.lean. -/

namespace Sys2Proof

/-- A 32-bit word: a register, a descriptor word, a word of host memory (R6). -/
abbrev Word := BitVec 32
/-- A byte. -/
abbrev Byte := BitVec 8
/-- A position, pos32.8, carried in 40 bits (R8). -/
abbrev Pos := BitVec 40
/-- A speed, signed 16.16 counts per tick (R8). -/
abbrev Speed := BitVec 32
/-- A current in current LSB, signed 16 bits (R8). -/
abbrev Cur := BitVec 16

end Sys2Proof
end

