-- ==== Sys2Proof/Syntax.lean ====
section
/-! DEFINITION. Syntax.lean: the commands of the block, one constructor per row of spec/opcode_table.json.
Operands are the command's own fields (descriptor words, register values) or what the environment supplies for an event
(levels, measured values, read data). `off` is a time in hub clocks (2.5 ns) since the present tick boundary (R11, R22). -/

namespace Sys2Proof

/-- A descriptor, eight words DW0 to DW7 (R6, R58). -/
structure Desc where
  w0 : Word
  w1 : Word
  w2 : Word
  w3 : Word
  w4 : Word
  w5 : Word
  w6 : Word
  w7 : Word
  deriving DecidableEq, Repr

/-- The three kinds of ring (R4). -/
inductive RingKind where
  | sq
  | cq
  | bq
  deriving DecidableEq, Repr

/-- What the ring engine does between a tick boundary and the fetch cutoff of that tick, 12.0 µs later (R22, R33). -/
inductive Early where
  /-- A read of the host area completes with its 196 words, or fails (R54, R80). -/
  | doorbell (r : Option (List Word))
  /-- A descriptor fetch of a ring completes, or fails (R33, R80). -/
  | fetch (sq : Fin 128) (r : Option Desc)
  /-- A write of HIF_KICK (R33, R54). -/
  | kick
  deriving DecidableEq, Repr

/-- Why the PCI Express link serves the ring engine no longer (R46). -/
inductive LinkLoss where
  | down
  | d3hot
  deriving DecidableEq, Repr

/-- How the power stage answers one edge of a leg: the time in ns from the turn-off command of the outgoing switch until its gate has
been below 1.5 V for 20 ns (R304), and what PN reads of the node, in 100 mV at instants in ns after the edge, ascending (R301). -/
structure Answer where
  fall : Nat
  node : List (Nat × Nat)
  deriving DecidableEq, Repr

/-- What one axis's sense circuits deliver at a period start: the readings of converters A and B over their windows of the period
that ended, as converted, in 1/32,768 of the range, in the rising half (or the whole edge-aligned period) and in the falling half
(R244, R245, R248), read where the window is valid; whether an input lay beyond the range; the readings of the extra windows
(R254); the bootstraps at the pins of U, V, W and X, BST − SH in 10 mV, and that of X at the starts of its own periods that begin in the
coming period (R280, R315); the answers to the edges at the pins of U, V, W and X in the period that ended, in their order. -/
structure Meas where
  a      : Cur
  b      : Cur
  a2     : Cur
  b2     : Cur
  clip   : Bool
  extraA : Cur
  extraB : Cur
  bst    : List Nat
  bstX   : List Nat
  gates  : List (List Answer)
  deriving DecidableEq, Repr

/-- The short-circuit senses of an axis at an instant, in mV (R306): V(DDP) − V(DDN); V(SL) − V(PGS) at the pins of U, V, W and X;
V(ISP) − V(ISN). -/
structure Senses where
  bus   : Int
  sl    : List Int
  shunt : Int
  deriving DecidableEq, Repr

/-- An instant of the PWM period, in units of 125 ps, and how the power stage has answered the edges at the pins of U, V, W and X up to
it (R302, R306). -/
structure InPeriod where
  t     : Nat
  gates : List (List Answer)
  deriving DecidableEq, Repr

/-- A di/dt condition of an axis: its senses at an instant of the PWM period, which has lasted for `since` ns without interruption; the
gates of U, V, W and X that conduct fall below 2 V this many ns after a soft turn-off begins (R306, R307, R309). -/
structure DidtEvent where
  v     : Senses
  at_   : InPeriod
  since : Nat
  soft  : List Nat
  deriving DecidableEq, Repr

/-- The blank of a leg ends, with the senses of the axis there (R307). -/
structure BlankEnd where
  ax  : Fin 64
  leg : Fin 4
  v   : Senses
  at_ : InPeriod
  deriving DecidableEq, Repr

/-- The shunt of an axis reads this many mV, and its condition has lasted for `since` ns; `soft` as in `DidtEvent` (R308). -/
structure OcEvent where
  ax    : Fin 64
  shunt : Int
  at_   : InPeriod
  since : Nat
  soft  : List Nat
  deriving DecidableEq, Repr

/-- The opposite gate of a leg has been commanded off `since` ns ago and has not satisfied R304; `soft` as in `DidtEvent` (R305). -/
structure StuckEvent where
  leg   : Fin 4
  at_   : InPeriod
  since : Nat
  soft  : List Nat
  deriving DecidableEq, Repr

/-- The bootstrap at the pins of a leg, in 10 mV, at an instant of the PWM period (R191, R316). -/
structure BstEvent where
  leg : Fin 4
  bst : Nat
  at_ : InPeriod
  deriving DecidableEq, Repr

/-- A comparator event `off` hub clocks into the movement's tick, at a phase that has gone `swing` mV beyond the virtual star (R228). -/
structure CrossAt where
  swing : Nat
  off   : Nat
  deriving DecidableEq, Repr

/-- New levels of an axis's feedback pins have been seen in `held` consecutive samples `off` hub clocks into the tick (R362). -/
structure Held where
  held : Nat
  off  : Nat
  deriving DecidableEq, Repr

/-- STEP has risen: 50 MHz samples since the edge before, samples for which it has been low before and high since (R140, R567). -/
structure StepHeld where
  gap  : Nat
  low  : Nat
  high : Nat
  deriving DecidableEq, Repr

/-- MAINS_SYNC has risen: the time in ns for which it has been low before and high since, and the instant of the edge behind the filter in hub
clocks after the tick boundary (R21, R566). -/
structure MainsHeld where
  low  : Nat
  high : Nat
  off  : Nat
  deriving DecidableEq, Repr

/-- An axis, and an instant in hub clocks after its movement's last tick boundary. -/
structure AxisAt where
  ax  : Fin 64
  off : Nat
  deriving DecidableEq, Repr

/-- FZ of an axis is high, and has been so in `held` consecutive samples (R362). -/
structure AxisHeld where
  ax   : Fin 64
  held : Nat
  off  : Nat
  deriving DecidableEq, Repr

/-- The level of a switch input, seen in `held` consecutive samples (R362). -/
structure LevelHeld where
  level : Bool
  held  : Nat
  off   : Nat
  deriving DecidableEq, Repr

/-- The active vectors of U, V and W of an axis, oldest first: how long each lasted, in ns, and what the SLC comparator saw at its end,
in µV (R455). -/
structure SlcEvent where
  ax      : Fin 64
  samples : List (Nat × Int)
  deriving DecidableEq, Repr

/-- VCORE, VANA, VIO or VAON (0 to 3) has shown this many mV for 5 µs (R489). -/
structure RailReading where
  rail : Fin 4
  mv   : Nat
  deriving DecidableEq, Repr

/-- The nodes of U, V, W and X as PN measures them at the start and at the end of a step of an OFFTEST, in 100 mV (R318). -/
structure TestStep where
  start : List Int
  stop  : List Int
  deriving DecidableEq, Repr

/-- The conversions of one converter in a calibration, in 1/32,768 of the range (R258): the sums of its 256 with shorted inputs at 350 ns
and of its 256 at 1,400 ns, and the sums of its 384 of the reference at +75 % and at −75 % of the range. -/
structure CalSums where
  at350  : Int
  at1400 : Int
  plus   : Int
  minus  : Int
  deriving DecidableEq, Repr

/-- The conversions of the two converters of an axis. -/
structure CalData where
  a : CalSums
  b : CalSums
  deriving DecidableEq, Repr

/-- A frame on the message bus (R76). -/
structure Frame where
  id   : BitVec 29
  ide  : Bool
  fdf  : Bool
  brs  : Bool
  esi  : Bool
  rtr  : Bool
  dlc  : BitVec 4
  data : List Byte
  deriving DecidableEq, Repr

/-- What a CAN controller sees go wrong (R388, R402). -/
inductive BusErr where
  | arbitrationLost
  /-- An error while transmitting, LEC code 1 to 6, in the arbitration or the data phase. `mild`: of a missing acknowledgment, the passive
  error flag has met no dominant bit; of a stuff error, it was a recessive stuff bit of the arbitration field that reads dominant. -/
  | tx (code : BitVec 3) (dataPhase : Bool) (mild : Bool)
  /-- An error while receiving; `dominantAfter` when a dominant bit follows the device's own error flag. -/
  | rx (code : BitVec 3) (dataPhase : Bool) (dominantAfter : Bool)
  /-- A bit error in the device's own active error flag or overload flag, or another eight dominant bits behind a flag; `sending`: the
  device was the transmitter of the frame. -/
  | flag (sending : Bool)
  deriving DecidableEq, Repr

/-- The check of the escapement that fails (R439, R442, R443, R444). -/
inductive EscCause where
  | clock
  | tick
  | readback
  | selftest
  deriving DecidableEq, Repr

/-- The three events that end SS1 (R449). -/
inductive Ss1Cause where
  | still
  | tmax
  | accelerating
  deriving DecidableEq, Repr

/-- Which dual-rail pair breaks (R409, R410). -/
inductive Pair where
  /-- FLT pair of a source in the movement, at its gatherer. -/
  | source (id : BitVec 12)
  /-- FLT pair or a data pair of the gatherer, at the collector. -/
  | flt
  | data (b : Fin 16)
  /-- FLT pair or a data pair of hub presenter k (R581), at the collector. -/
  | hubFlt (k : Fin 9)
  | hubData (k : Fin 9) (b : Fin 16)
  /-- DSTO_REQ of a movement, at the collector. -/
  | dstoReq
  /-- AXSTO of one local axis, at the movement. -/
  | axsto (j : Fin 8)
  | msto
  | dsto
  /-- SAFEHOLD or ORPH (R441). -/
  | safehold
  | orph
  deriving DecidableEq, Repr

/-- The 64-bit pairs with a snapshot (R545). -/
inductive Wide where
  | tickCount
  | unitLeaf (u : Fin 512)
  | strikeKey (i : Fin 1024)
  | capTick
  deriving DecidableEq, Repr

/-- What caused a device reset (R516, R532). -/
inductive ResetCause where
  | perst
  | hotReset
  | rstCmd
  deriving DecidableEq, Repr

/-- What a temperature sensor measures (R476): 1/16 °C of an on-die sensor, ΔVBE in µV of a diode, the ratio of an NTC's pin to the 1.8 V reference in 1/1,048,576; `broken`:
a remote input is open or shorted (R483). -/
structure TempSample where
  raw    : Int
  broken : Bool
  deriving DecidableEq, Repr

/-- The commands: one constructor per row of the table of operations and events. -/
inductive Instr where
  | tickBoundary (early : List Early) (room : Nat)
  | doorbellReadComplete (r : Option (List Word))
  | descriptorFetch (sq : Fin 128) (r : Option Desc)
  | moderatedMessage (v : Fin 68)
  | hifKick (value : Word) (off : Nat)
  | doorbellEnable (value : Word) (off : Nat)
  | ringEnable (k : RingKind) (i : Fin 128) (value : Word) (off : Nat)
  | ringDisable (k : RingKind) (i : Fin 128) (value : Word) (off : Nat)
  | hostSilent
  | hostLinkLost (why : LinkLoss)
  | functionLevelReset
  | badOpcode (sq : Fin 128) (slot : BitVec 16) (d : Desc)
  | move (sq : Fin 128) (slot : BitVec 16) (d : Desc)
  | stop (sq : Fin 128) (slot : BitVec 16) (d : Desc)
  | resume (sq : Fin 128) (slot : BitVec 16) (d : Desc)
  | speed (sq : Fin 128) (slot : BitVec 16) (d : Desc)
  | setprofile (sq : Fin 128) (slot : BitVec 16) (d : Desc)
  | setpoint (sq : Fin 128) (slot : BitVec 16) (d : Desc)
  | strikeArm (sq : Fin 128) (slot : BitVec 16) (d : Desc)
  | strikeDisarm (sq : Fin 128) (slot : BitVec 16) (d : Desc)
  | start (sq : Fin 128) (slot : BitVec 16) (d : Desc)
  | catchRotor (sq : Fin 128) (slot : BitVec 16) (d : Desc)
  | brake (sq : Fin 128) (slot : BitVec 16) (d : Desc)
  | float (sq : Fin 128) (slot : BitVec 16) (d : Desc)
  | arm (sq : Fin 128) (slot : BitVec 16) (d : Desc)
  | disarm (sq : Fin 128) (slot : BitVec 16) (d : Desc)
  | auxPwm (sq : Fin 128) (slot : BitVec 16) (d : Desc)
  | offtest (sq : Fin 128) (slot : BitVec 16) (d : Desc)
  | calibrate (sq : Fin 128) (slot : BitVec 16) (d : Desc)
  | signLoad (sq : Fin 128) (slot : BitVec 16) (d : Desc)
  | learn (sq : Fin 128) (slot : BitVec 16) (d : Desc)
  | bind (sq : Fin 128) (slot : BitVec 16) (d : Desc)
  | unbind (sq : Fin 128) (slot : BitVec 16) (d : Desc)
  | canTx (sq : Fin 128) (slot : BitVec 16) (d : Desc)
  | snapshot (sq : Fin 128) (slot : BitVec 16) (d : Desc)
  | fence (sq : Fin 128) (slot : BitVec 16) (d : Desc)
  | fenceRelease (sq : Fin 128)
  | fenceTimeout (sq : Fin 128)
  | nop (sq : Fin 128) (slot : BitVec 16) (d : Desc)
  | standstill (ax : Fin 64)
  | moveEnd (ax : Fin 64)
  | settleTimeout (ax : Fin 64)
  | reversalBrakingEnd (ax : Fin 64)
  | rebase (ax : Fin 64) (value : Word) (off : Nat)
  | cmdEngage (c : Fin 8) (value : Word) (off : Nat)
  | cmdDisengage (c : Fin 8) (value : Word) (off : Nat)
  /-- The samples of CMD pin c meet its LOST condition (R137). -/
  | cmdLost (c : Fin 8)
  /-- A rising STEP edge of pin pair i with the level of DIR, `gap` ns after the previous edge (R140). -/
  | stepEdge (i : Fin 4) (dir : Bool) (gap : StepHeld) (off : Nat)
  | unitRefWrite (u : Fin 512) (value : Word) (off : Nat)
  | tickRateChange (value : Word) (off : Nat)
  | movementTickBoundary (m : Fin 8)
  /-- A tick mark, `diff` movement clocks from the movement's own boundary, with the skew in 0.5 ns steps (R15, R16). -/
  | tickMark (m : Fin 8) (diff : Int) (skew : BitVec 8)
  | setpointFrame (m : Fin 8)
  | setpointFrameMiss (m : Fin 8) (crc : Bool)
  | latchFrameMiss (m : Fin 8) (crc : Bool)
  | orphanEntry (m : Fin 8) (byMonitor : Bool)
  | linkTrainingDone (m : Fin 8) (skew : BitVec 8)
  | trainFail (m : Fin 8)
  /-- A period start (or, with `mid`, a period centre) of movement m; one measurement per local axis; the voltage of its VBS ball in mV
  (R487); VDRV in 100 mV (R313). -/
  | pwmBoundary (m : Fin 8) (mid : Bool) (meas : List Meas) (vbs : BitVec 12) (vdrv : BitVec 8)
  | prechargeEnd (e : AxisAt)
  | park (m : Fin 8)
  | wakeEnd (m : Fin 8)
  | shortDidt (ax : Fin 64) (e : DidtEvent)
  | shuntOc (e : OcEvent)
  | interlockStuck (ax : Fin 64) (e : StuckEvent)
  | bstUv (ax : Fin 64) (e : BstEvent)
  | vdrvFault (m : Fin 8) (ov : Bool) (reading : BitVec 8)
  /-- The eight steps of an OFFTEST have run: sink and source of U, V, W and X (R318). -/
  | offtestEnd (ax : Fin 64) (steps : List TestStep)
  | calibrationEnd (m : Fin 8) (factors : List CalData)
  | alignEnd (ax : Fin 64)
  /-- The comparator at the pins of a phase (0 U, 1 V, 2 W) sees a zero crossing: `half` tells the transition of an angle of 180°, 300°
  or 60° (U, V, W) from that of 0°, 120° or 240° (R216, R223, R227). -/
  | bemfCrossing (ax : Fin 64) (phase : Fin 3) (half : Bool) (x : CrossAt)
  | retryBrakeEnd (ax : Fin 64)
  | catchWindowEnd (ax : Fin 64)
  /-- A brake probe has floated the phases of axis `j` of movement `m` for its two PWM periods (R193). -/
  | speedProbe (m j : Fin 8)
  /-- The comparator sample of a float window: the floated phase against the virtual star, in the unit of the observer's amplitude
  (R224). -/
  | floatWindowSample (ax : Fin 64) (v : Int)
  /-- The levels of FA, FB and FZ; `h` is of those that differ from the filtered ones (R362). -/
  | feedbackEdge (ax : Fin 64) (fa fb fz : Bool) (h : Held)
  | indexLatch (e : AxisHeld)
  | switchLatch (ax : Fin 64) (swb : Bool) (e : LevelHeld)
  | speedTimeout (ax : Fin 64)
  | signStarved (ax : Fin 64)
  | reopen (ax : Fin 64)
  /-- A 64-byte read of cells: block number, its generation, its 16 cells or a failure (R345, R346). -/
  | remontoireRead (ax : Fin 64) (block : Nat) (gen : Nat) (cells : Option (List Word))
  /-- Pairs that change to asserted in one hub clock: gatherers 0 to 7, hub presenters 8 to 16 (R415, R581), 17 the
  collector's own RAIL_BROKEN. -/
  | faultArrival (from_ : List (Fin 18))
  /-- The end of the reaction sequence; the second read of the data pairs where it differs from the first (R417). -/
  | reactionSequenceEnd (second : Option (BitVec 16))
  | alertPulseEnd (m : Fin 8)
  | railBroken (m : Fin 9) (p : Pair)
  | railRestored (m : Fin 9) (p : Pair)
  | fltAck (value : Word) (off : Nat)
  | fltClear (value : Word) (off : Nat)
  | stoActive (m : Fin 8) (pinB : Bool)
  | stoPinRelease (m : Fin 8) (pinB : Bool)
  | stoDiscrepancy (m : Fin 8)
  | escFault (cause : EscCause)
  | selftestEnd (pass : Bool)
  | safePinRelease
  | safeCondition
  | ss1Trip (ax : Fin 64) (cause : Ss1Cause)
  | slsExceeded (ax : Fin 64) (channel2 : Bool)
  /-- The channels of axis `j` of movement `m` disagree (R454). -/
  | slsDiscrepancy (m j : Fin 8)
  | slcExceeded (e : SlcEvent)
  | slcBlind (ax : Fin 64)
  | clockMonitorTrip (m : Fin 8)
  | clockRecovery (m : Fin 8)
  | dllLost (m : Fin 8)
  | dllLock (m : Fin 8)
  /-- A TAP request: 0 to 7 a movement, 8 the hub (R287). -/
  | debugHalt (m : Fin 9)
  | debugResume (m : Fin 9)
  | pllLoss
  | mainsEdge (off : MainsHeld)
  | mainsTimeout
  /-- Die 0 to 7 a movement, 8 the hub; one reading per sensor of the die (R476, R477). -/
  | tempMeasurement (die : Fin 9) (readings : List TempSample)
  /-- The VBS ball has shown this many mV for 10 µs, or for 100 µs (R488). -/
  | vbusOv (m : Fin 8) (reading : BitVec 12)
  | vbusUv (m : Fin 8) (reading : BitVec 12)
  | supplyFault (e : RailReading)
  | monitorConversionDone (c : Fin 8) (value : BitVec 20) (clip : Bool)
  | monUrgent (value : Word) (off : Nat)
  | canEnable (c : Fin 4) (value : Word) (off : Nat)
  | canDisable (c : Fin 4) (value : Word) (off : Nat)
  | integrationDone (c : Fin 4)
  | canFrameReceived (c : Fin 4) (f : Frame)
  | canTxAttempt (c : Fin 4) (tdcv : Option Nat)
  | canTxSuccess (c : Fin 4)
  | canError (c : Fin 4) (e : BusErr)
  | busOff (c : Fin 4)
  | busOffRecoveryDone (c : Fin 4)
  | recover (c : Fin 4) (value : Word) (off : Nat)
  | flush (c : Fin 4) (value : Word) (off : Nat)
  /-- The data read of the indirect frame that CAN_TX number `key` queued completes, or fails (R395). -/
  | canDataRead (c : Fin 4) (key : Nat) (data : Option (List Byte))
  | password (value : Word) (off : Nat)
  | challenge (value : Word) (off : Nat)
  | response (value : Word) (off : Nat)
  | relock (value : Word) (off : Nat)
  | setpw (value : Word) (off : Nat)
  | lockCommandDone
  | nonceExpiry
  | lockoutExpiry
  | nvsRead (value : Word) (off : Nat)
  | nvsProgram (value : Word) (off : Nat)
  | nvsErase (value : Word) (off : Nat)
  | nvsCommandDone (verified : Bool)
  /-- Power-on reset is released; bit m of `vcl` tells VCLm at or above 1.08 V (R505, R518). -/
  | powerOnReset (vcl : BitVec 8)
  | deviceReset (cause : ResetCause) (vcl : BitVec 8)
  | movementReset (m : Fin 8)
  | imageLoadDone
  | movementSwitchOff (m : Fin 8) (value : Word) (off : Nat)
  | movementSwitchOn (m : Fin 8) (value : Word) (off : Nat)
  | hubDomainSwitch (value : Word) (off : Nat)
  | lowHalfRead (p : Wide)
  | highHalfRead (p : Wide)
  | badAccess (write : Bool)
  | unmappedAccess (write : Bool) (addr : BitVec 20)
  | registerWrite (addr : BitVec 20) (value : Word) (off : Nat)
  | configurationRequest (write : Bool) (reg : BitVec 12) (value : Word)
  | hostLinkReturn
  | pllLock
  | didtEarly (e : BlankEnd)
  | gathererPresentationEnd (p : Fin 17)
  | monitorRestEnd (c : Fin 8)
  | movementResetRelease (m : Fin 8)
  deriving DecidableEq, Repr

end Sys2Proof
end

