-- ==== Sys2Proof/Decode.lean ====
section
/-! DEFINITION. Decode.lean: the table of operations and events gives no row any bits: the commands of this block are messages,
register accesses and events, not words of an instruction stream. -/

namespace Sys2Proof

/-- The command that a word spells by the table's bits: no row has bits, so no word spells one. -/
def decodeTableWord (_nbits _w : Nat) : Option Instr := none

end Sys2Proof
end

