-- ==== Sys2Proof/Config.lean ====
section
/-! DEFINITION. Config.lean: what an implementation fixes and what the spec leaves open. Every constant here is opaque: no
proof can see its value (log entry 2). -/

namespace Sys2Proof.Config

/-- A fresh open value; the argument is the counter of State. -/
opaque freeWord : Nat → Word

/-- Silicon revision (R547). -/
opaque revision : BitVec 8

/-- Which way a result is rounded whose exact value the spec defines and whose rounding it leaves open (R171, R174, R176 to R178,
R252): up, by the exact value's numerator and denominator. -/
opaque roundUp : Int → Nat → Bool

/-- Observer of a sensorless axis (R222): angle, speed and BEMF amplitude after one loop run, from the voltage vector, the
currents, the axis's observer parameters and the old observer state. -/
opaque obsAngle : Int → Int → Cur → Cur → Nat → BitVec 16 → BitVec 16
opaque obsSpeed : Int → Int → Cur → Cur → Nat → Speed → Speed
opaque obsEmf   : Int → Int → Cur → Cur → Nat → BitVec 16 → BitVec 16

/-- The back-EMF estimate of a phase (0 U, 1 V, 2 W) in mV, from the observer's amplitude, angle and speed (R222, R252). -/
opaque bemf : Nat → BitVec 16 → BitVec 16 → Speed → Int

/-- The 128-bit random nonce of the access lock (R462), from the counter of State. -/
opaque nonce : Nat → BitVec 128

/-- Offsets in configuration space of the capabilities that R41 names without giving their places: PCI Express, MSI-X and power
management; the capabilities pointer, and the byte that follows each capability's identifier. -/
opaque pcieCap : BitVec 12
opaque msixCap : BitVec 12
opaque pmCap : BitVec 12
opaque capNext : Nat → BitVec 8

/-- The instant of a change inside a PWM period, in units of 125 ps from its start, where the command that brings the change does not tell
it: by the start of the tick, the number of the period, the axis, and how many such changes the period has had (log entry 186). -/
opaque instant : Nat → Nat → Nat → Nat → Nat

/-- The device key (R465), where programmed. -/
opaque deviceKey : Option (BitVec 256)

end Sys2Proof.Config
end

