-- ==== Sys2Proof/Machine/RegMap.lean ====
section
/-! DEFINITION. RegMap.lean: the register map of BAR0: the place of every register (R546 to R553) and the fields of every
register (the register tables of the chapters; the rule of each table stands beside its row). -/

namespace Sys2Proof.Machine

/-- The registers of the set-up map (R536), one constructor per name; an index picks the instance. -/
inductive Reg where
  | devInfo
  | regStatus
  | tickCfg
  | tickCountLo
  | tickCountHi
  | mainsStatus
  | mainsCount
  | unitStatus
  | strikeStatus
  | signEngStatus
  | cmdCfg
  | cmdScale
  | cmdGain
  | hifDbBaseLo
  | hifDbBaseHi
  | hifCfg
  | hifKick
  | hifStatus
  | hifWdog
  | pwrCtrl
  | pwrStatus
  | pwrEvt
  | pwrPark
  | clkStatus
  | rstCmd
  | rstStatus
  | imgStatus
  | nvsCmd
  | nvsAddr
  | nvsStatus
  | nvsData
  | fltCap
  | fltCapOvf
  | fltCapTickLo
  | fltCapTickHi
  | fltAck
  | fltClear
  | fltCfg
  | fltAlert
  | fltStatus
  | fltLatch
  | fltClass
  | stoStatus
  | stoCfg
  | escStatus
  | escCfg
  | lockStatus
  | lockWait
  | lockCmd
  | lockRejAddr
  | lockPw
  | lockNonce
  | lockResp
  | thermHubcfg
  | thermHubstatus
  | thermChk
  | supplyStatus
  | monCfg
  | monEn
  | monUrgent
  | monStatus
  | monRes
  | temp
  | sqBaseLo
  | sqBaseHi
  | sqCfg
  | sqStatus
  | cqBaseLo
  | cqBaseHi
  | cqCfg
  | cqStatus
  | cqDropped
  | bqBaseLo
  | bqBaseHi
  | bqCfg
  | bqStatus
  | bqDropped
  | msixTable
  | msixPba
  | unitInfo
  | unitLeafLo
  | unitLeafHi
  | unitRef
  | unitRollup
  | unitState
  | strikeInfo
  | strikeKeyLo
  | strikeKeyHi
  | strikeLast
  | canCfg
  | canNbt
  | canDbt
  | canCmd
  | canStatus
  | canErrcnt
  | canErrlog
  | canXfiltId
  | canXfiltMask
  | canRoute
  | linkStatus
  | escMvstatus
  | isenseCalStatus
  | pwmMvcfg
  | pwmPeriod
  | pwmMvstatus
  | gateBst
  | gateMvstatus
  | thermCfg
  | thermStatus
  | trCfg
  | trNtc
  | vbusCfg
  | vbusLim
  | vbusStatus
  | motionDmax
  | motionStill
  | motionInpos
  | motionRebaseLo
  | motionRebaseHi
  | motionStatus
  | swCfg
  | loopCur
  | loopSpd
  | loopPos
  | loopLimit
  | elecCfg
  | driveCfg
  | revCfg
  | axisSafe
  | axisStatus
  | slAlign
  | slRamp
  | slHand
  | slSync
  | slLoss
  | slCatch
  | slObs
  | slObsCfg
  | slStatus
  | isenseCfg
  | isenseScale
  | isenseGain
  | isenseOfs
  | isenseOfsw
  | isenseExtra
  | isenseTrack
  | isenseStatus
  | pwmXcfg
  | pwmXstat
  | pwmOvr
  | pwmStatus
  | gateSc
  | gateAxstatus
  | offtStatus
  | fbCfg
  | hallMap
  | fbZcfg
  | fbSpd
  | fbZlatch
  | fbStatus
  | escSs1
  | escSlsPos
  | escSlsNeg
  | escSlsCfg
  | escSlc
  | escAxstatus
  | signCfg
  | signVmin
  | signCeil
  | signReopen
  | signTbl
  | signStatus
  | fltSticky
  | pwmLegcfg
  | pwmTrig01
  | pwmTrig23
  | gateProfile
  | gateStatus
  | canObj
  deriving DecidableEq, Repr

/-- The place a register lives in (R537, the Domain column of R546 to R553). -/
inductive Dom where
  | aon
  | safe
  | hif
  | disp
  | motion
  | sign
  | bus
  | monitor
  | nvs
  | mv
  deriving DecidableEq, Repr

/-- Access types (R539). `flag` is RW1C of flag bits, `count` is RW1C of a count. -/
inductive Access where
  | ro
  | rw
  | flag
  | count
  | wo
  deriving DecidableEq, Repr

/-- Effect timings (R10). -/
inductive Effect where
  | live
  | boundary
  | staged
  | idle
  deriving DecidableEq, Repr

/-- A field of a register table: bits [lo + width - 1 : lo], access, reset value, effect, and whether scope 1 gates it (R544). -/
structure Field where
  lo     : Nat
  width  : Nat
  access : Access
  reset  : Nat
  effect : Effect
  gated  : Bool
  deriving DecidableEq, Repr

/-- Where the instances of a register stand: instance i at base + stride1 * (i / n2) + stride2 * (i mod n2). -/
structure Place where
  base    : Nat
  stride1 : Nat
  n1      : Nat
  stride2 : Nat
  n2      : Nat
  dom     : Dom
  deriving DecidableEq, Repr

/-- The layout tables of R546, R549 to R553. -/
def Reg.place : Reg → Place
  | .devInfo => ⟨0x00000, 0x4, 1, 0x4, 1, .aon⟩
  | .regStatus => ⟨0x00004, 0x4, 1, 0x4, 1, .aon⟩
  | .tickCfg => ⟨0x00010, 0x4, 1, 0x4, 1, .aon⟩
  | .tickCountLo => ⟨0x00014, 0x4, 1, 0x4, 1, .aon⟩
  | .tickCountHi => ⟨0x00018, 0x4, 1, 0x4, 1, .aon⟩
  | .mainsStatus => ⟨0x0001C, 0x4, 1, 0x4, 1, .aon⟩
  | .mainsCount => ⟨0x00020, 0x4, 1, 0x4, 1, .aon⟩
  | .unitStatus => ⟨0x00040, 0x4, 1, 0x4, 1, .disp⟩
  | .strikeStatus => ⟨0x00044, 0x4, 1, 0x4, 1, .motion⟩
  | .signEngStatus => ⟨0x00048, 0x4, 1, 0x4, 1, .sign⟩
  | .cmdCfg => ⟨0x00080, 0x4, 8, 0x4, 1, .motion⟩
  | .cmdScale => ⟨0x000A0, 0x4, 8, 0x4, 1, .motion⟩
  | .cmdGain => ⟨0x000C0, 0x4, 8, 0x4, 1, .motion⟩
  | .hifDbBaseLo => ⟨0x00100, 0x4, 1, 0x4, 1, .hif⟩
  | .hifDbBaseHi => ⟨0x00104, 0x4, 1, 0x4, 1, .hif⟩
  | .hifCfg => ⟨0x00108, 0x4, 1, 0x4, 1, .hif⟩
  | .hifKick => ⟨0x0010C, 0x4, 1, 0x4, 1, .hif⟩
  | .hifStatus => ⟨0x00110, 0x4, 1, 0x4, 1, .hif⟩
  | .hifWdog => ⟨0x00114, 0x4, 1, 0x4, 1, .hif⟩
  | .pwrCtrl => ⟨0x00200, 0x4, 1, 0x4, 1, .aon⟩
  | .pwrStatus => ⟨0x00204, 0x4, 1, 0x4, 1, .aon⟩
  | .pwrEvt => ⟨0x00208, 0x4, 1, 0x4, 1, .aon⟩
  | .pwrPark => ⟨0x0020C, 0x4, 1, 0x4, 1, .aon⟩
  | .clkStatus => ⟨0x00210, 0x4, 1, 0x4, 1, .aon⟩
  | .rstCmd => ⟨0x00214, 0x4, 1, 0x4, 1, .aon⟩
  | .rstStatus => ⟨0x00218, 0x4, 1, 0x4, 1, .aon⟩
  | .imgStatus => ⟨0x0021C, 0x4, 1, 0x4, 1, .aon⟩
  | .nvsCmd => ⟨0x00300, 0x4, 1, 0x4, 1, .nvs⟩
  | .nvsAddr => ⟨0x00304, 0x4, 1, 0x4, 1, .nvs⟩
  | .nvsStatus => ⟨0x00308, 0x4, 1, 0x4, 1, .nvs⟩
  | .nvsData => ⟨0x00400, 0x4, 64, 0x4, 1, .nvs⟩
  | .fltCap => ⟨0x00500, 0x4, 1, 0x4, 1, .safe⟩
  | .fltCapOvf => ⟨0x00504, 0x4, 1, 0x4, 1, .safe⟩
  | .fltCapTickLo => ⟨0x00508, 0x4, 1, 0x4, 1, .safe⟩
  | .fltCapTickHi => ⟨0x0050C, 0x4, 1, 0x4, 1, .safe⟩
  | .fltAck => ⟨0x00510, 0x4, 1, 0x4, 1, .safe⟩
  | .fltClear => ⟨0x00514, 0x4, 1, 0x4, 1, .safe⟩
  | .fltCfg => ⟨0x00518, 0x4, 1, 0x4, 1, .safe⟩
  | .fltAlert => ⟨0x0051C, 0x4, 1, 0x4, 1, .safe⟩
  | .fltStatus => ⟨0x00520, 0x4, 1, 0x4, 1, .safe⟩
  | .fltLatch => ⟨0x00524, 0x4, 1, 0x4, 1, .safe⟩
  | .fltClass => ⟨0x00600, 0x4, 256, 0x4, 1, .safe⟩
  | .stoStatus => ⟨0x00A00, 0x4, 1, 0x4, 1, .safe⟩
  | .stoCfg => ⟨0x00A04, 0x4, 1, 0x4, 1, .safe⟩
  | .escStatus => ⟨0x00A08, 0x4, 1, 0x4, 1, .safe⟩
  | .escCfg => ⟨0x00A0C, 0x4, 1, 0x4, 1, .safe⟩
  | .lockStatus => ⟨0x00A10, 0x4, 1, 0x4, 1, .safe⟩
  | .lockWait => ⟨0x00A14, 0x4, 1, 0x4, 1, .safe⟩
  | .lockCmd => ⟨0x00A18, 0x4, 1, 0x4, 1, .safe⟩
  | .lockRejAddr => ⟨0x00A1C, 0x4, 1, 0x4, 1, .safe⟩
  | .lockPw => ⟨0x00A20, 0x4, 8, 0x4, 1, .safe⟩
  | .lockNonce => ⟨0x00A40, 0x4, 4, 0x4, 1, .safe⟩
  | .lockResp => ⟨0x00A50, 0x4, 4, 0x4, 1, .safe⟩
  | .thermHubcfg => ⟨0x00B00, 0x4, 1, 0x4, 1, .monitor⟩
  | .thermHubstatus => ⟨0x00B04, 0x4, 1, 0x4, 1, .monitor⟩
  | .thermChk => ⟨0x00B08, 0x4, 1, 0x4, 1, .monitor⟩
  | .supplyStatus => ⟨0x00B0C, 0x4, 1, 0x4, 1, .aon⟩
  | .monCfg => ⟨0x00B10, 0x4, 1, 0x4, 1, .monitor⟩
  | .monEn => ⟨0x00B14, 0x4, 1, 0x4, 1, .monitor⟩
  | .monUrgent => ⟨0x00B18, 0x4, 1, 0x4, 1, .monitor⟩
  | .monStatus => ⟨0x00B1C, 0x4, 1, 0x4, 1, .monitor⟩
  | .monRes => ⟨0x00B80, 0x4, 32, 0x4, 1, .monitor⟩
  | .temp => ⟨0x00C00, 0x4, 52, 0x4, 1, .monitor⟩
  | .sqBaseLo => ⟨0x01000, 0x10, 128, 0x4, 1, .hif⟩
  | .sqBaseHi => ⟨0x01004, 0x10, 128, 0x4, 1, .hif⟩
  | .sqCfg => ⟨0x01008, 0x10, 128, 0x4, 1, .hif⟩
  | .sqStatus => ⟨0x0100C, 0x10, 128, 0x4, 1, .hif⟩
  | .cqBaseLo => ⟨0x01800, 0x20, 64, 0x4, 1, .hif⟩
  | .cqBaseHi => ⟨0x01804, 0x20, 64, 0x4, 1, .hif⟩
  | .cqCfg => ⟨0x01808, 0x20, 64, 0x4, 1, .hif⟩
  | .cqStatus => ⟨0x0180C, 0x20, 64, 0x4, 1, .hif⟩
  | .cqDropped => ⟨0x01810, 0x20, 64, 0x4, 1, .hif⟩
  | .bqBaseLo => ⟨0x02000, 0x20, 4, 0x4, 1, .hif⟩
  | .bqBaseHi => ⟨0x02004, 0x20, 4, 0x4, 1, .hif⟩
  | .bqCfg => ⟨0x02008, 0x20, 4, 0x4, 1, .hif⟩
  | .bqStatus => ⟨0x0200C, 0x20, 4, 0x4, 1, .hif⟩
  | .bqDropped => ⟨0x02010, 0x20, 4, 0x4, 1, .hif⟩
  | .msixTable => ⟨0x03000, 0x10, 72, 0x4, 4, .hif⟩
  | .msixPba => ⟨0x03800, 0x4, 4, 0x4, 1, .hif⟩
  | .unitInfo => ⟨0x04000, 0x20, 512, 0x4, 1, .disp⟩
  | .unitLeafLo => ⟨0x04004, 0x20, 512, 0x4, 1, .disp⟩
  | .unitLeafHi => ⟨0x04008, 0x20, 512, 0x4, 1, .disp⟩
  | .unitRef => ⟨0x0400C, 0x20, 512, 0x4, 1, .disp⟩
  | .unitRollup => ⟨0x04010, 0x20, 512, 0x4, 1, .disp⟩
  | .unitState => ⟨0x04014, 0x20, 512, 0x4, 1, .disp⟩
  | .strikeInfo => ⟨0x08000, 0x10, 1024, 0x4, 1, .motion⟩
  | .strikeKeyLo => ⟨0x08004, 0x10, 1024, 0x4, 1, .motion⟩
  | .strikeKeyHi => ⟨0x08008, 0x10, 1024, 0x4, 1, .motion⟩
  | .strikeLast => ⟨0x0800C, 0x10, 1024, 0x4, 1, .motion⟩
  | .canCfg => ⟨0x0D000, 0x400, 4, 0x4, 1, .bus⟩
  | .canNbt => ⟨0x0D004, 0x400, 4, 0x4, 1, .bus⟩
  | .canDbt => ⟨0x0D008, 0x400, 4, 0x4, 1, .bus⟩
  | .canCmd => ⟨0x0D00C, 0x400, 4, 0x4, 1, .bus⟩
  | .canStatus => ⟨0x0D010, 0x400, 4, 0x4, 1, .bus⟩
  | .canErrcnt => ⟨0x0D014, 0x400, 4, 0x4, 1, .bus⟩
  | .canErrlog => ⟨0x0D018, 0x400, 4, 0x4, 1, .bus⟩
  | .canXfiltId => ⟨0x0D040, 0x400, 4, 0x4, 8, .bus⟩
  | .canXfiltMask => ⟨0x0D060, 0x400, 4, 0x4, 8, .bus⟩
  | .canRoute => ⟨0x0D200, 0x400, 4, 0x4, 128, .bus⟩
  | .linkStatus => ⟨0x0E000, 0x100, 8, 0x4, 1, .aon⟩
  | .escMvstatus => ⟨0x0E004, 0x100, 8, 0x4, 1, .safe⟩
  | .isenseCalStatus => ⟨0x0E008, 0x100, 8, 0x4, 1, .mv⟩
  | .pwmMvcfg => ⟨0x0E010, 0x100, 8, 0x4, 1, .mv⟩
  | .pwmPeriod => ⟨0x0E014, 0x100, 8, 0x4, 1, .mv⟩
  | .pwmMvstatus => ⟨0x0E018, 0x100, 8, 0x4, 1, .mv⟩
  | .gateBst => ⟨0x0E020, 0x100, 8, 0x4, 1, .mv⟩
  | .gateMvstatus => ⟨0x0E024, 0x100, 8, 0x4, 1, .mv⟩
  | .thermCfg => ⟨0x0E030, 0x100, 8, 0x4, 1, .mv⟩
  | .thermStatus => ⟨0x0E034, 0x100, 8, 0x4, 1, .mv⟩
  | .trCfg => ⟨0x0E038, 0x100, 8, 0x4, 1, .mv⟩
  | .trNtc => ⟨0x0E03C, 0x100, 8, 0x4, 1, .mv⟩
  | .vbusCfg => ⟨0x0E040, 0x100, 8, 0x4, 1, .mv⟩
  | .vbusLim => ⟨0x0E044, 0x100, 8, 0x4, 1, .mv⟩
  | .vbusStatus => ⟨0x0E048, 0x100, 8, 0x4, 1, .mv⟩
  | .motionDmax => ⟨0x10000, 0x400, 64, 0x4, 1, .motion⟩
  | .motionStill => ⟨0x10004, 0x400, 64, 0x4, 1, .motion⟩
  | .motionInpos => ⟨0x10008, 0x400, 64, 0x4, 1, .motion⟩
  | .motionRebaseLo => ⟨0x1000C, 0x400, 64, 0x4, 1, .motion⟩
  | .motionRebaseHi => ⟨0x10010, 0x400, 64, 0x4, 1, .motion⟩
  | .motionStatus => ⟨0x10014, 0x400, 64, 0x4, 1, .motion⟩
  | .swCfg => ⟨0x10018, 0x400, 64, 0x4, 1, .motion⟩
  | .loopCur => ⟨0x10040, 0x400, 64, 0x4, 1, .mv⟩
  | .loopSpd => ⟨0x10044, 0x400, 64, 0x4, 1, .mv⟩
  | .loopPos => ⟨0x10048, 0x400, 64, 0x4, 1, .mv⟩
  | .loopLimit => ⟨0x1004C, 0x400, 64, 0x4, 1, .mv⟩
  | .elecCfg => ⟨0x10050, 0x400, 64, 0x4, 1, .mv⟩
  | .driveCfg => ⟨0x10054, 0x400, 64, 0x4, 1, .mv⟩
  | .revCfg => ⟨0x10058, 0x400, 64, 0x4, 1, .mv⟩
  | .axisSafe => ⟨0x1005C, 0x400, 64, 0x4, 1, .mv⟩
  | .axisStatus => ⟨0x10060, 0x400, 64, 0x4, 1, .mv⟩
  | .slAlign => ⟨0x10080, 0x400, 64, 0x4, 1, .mv⟩
  | .slRamp => ⟨0x10084, 0x400, 64, 0x4, 1, .mv⟩
  | .slHand => ⟨0x10088, 0x400, 64, 0x4, 1, .mv⟩
  | .slSync => ⟨0x1008C, 0x400, 64, 0x4, 1, .mv⟩
  | .slLoss => ⟨0x10090, 0x400, 64, 0x4, 1, .mv⟩
  | .slCatch => ⟨0x10094, 0x400, 64, 0x4, 1, .mv⟩
  | .slObs => ⟨0x10098, 0x400, 64, 0x4, 1, .mv⟩
  | .slObsCfg => ⟨0x1009C, 0x400, 64, 0x4, 1, .mv⟩
  | .slStatus => ⟨0x100A0, 0x400, 64, 0x4, 1, .mv⟩
  | .isenseCfg => ⟨0x100C0, 0x400, 64, 0x4, 1, .mv⟩
  | .isenseScale => ⟨0x100C4, 0x400, 64, 0x4, 1, .mv⟩
  | .isenseGain => ⟨0x100C8, 0x400, 64, 0x4, 1, .mv⟩
  | .isenseOfs => ⟨0x100CC, 0x400, 64, 0x4, 1, .mv⟩
  | .isenseOfsw => ⟨0x100D0, 0x400, 64, 0x4, 1, .mv⟩
  | .isenseExtra => ⟨0x100D4, 0x400, 64, 0x4, 1, .mv⟩
  | .isenseTrack => ⟨0x100D8, 0x400, 64, 0x4, 1, .mv⟩
  | .isenseStatus => ⟨0x100DC, 0x400, 64, 0x4, 1, .mv⟩
  | .pwmXcfg => ⟨0x10100, 0x400, 64, 0x4, 1, .mv⟩
  | .pwmXstat => ⟨0x10104, 0x400, 64, 0x4, 1, .mv⟩
  | .pwmOvr => ⟨0x10108, 0x400, 64, 0x4, 1, .mv⟩
  | .pwmStatus => ⟨0x1010C, 0x400, 64, 0x4, 1, .mv⟩
  | .gateSc => ⟨0x10140, 0x400, 64, 0x4, 1, .mv⟩
  | .gateAxstatus => ⟨0x10144, 0x400, 64, 0x4, 1, .mv⟩
  | .offtStatus => ⟨0x10148, 0x400, 64, 0x4, 1, .mv⟩
  | .fbCfg => ⟨0x10180, 0x400, 64, 0x4, 1, .mv⟩
  | .hallMap => ⟨0x10184, 0x400, 64, 0x4, 1, .mv⟩
  | .fbZcfg => ⟨0x10188, 0x400, 64, 0x4, 1, .mv⟩
  | .fbSpd => ⟨0x1018C, 0x400, 64, 0x4, 1, .mv⟩
  | .fbZlatch => ⟨0x10190, 0x400, 64, 0x4, 1, .mv⟩
  | .fbStatus => ⟨0x10194, 0x400, 64, 0x4, 1, .mv⟩
  | .escSs1 => ⟨0x101C0, 0x400, 64, 0x4, 1, .mv⟩
  | .escSlsPos => ⟨0x101C4, 0x400, 64, 0x4, 1, .mv⟩
  | .escSlsNeg => ⟨0x101C8, 0x400, 64, 0x4, 1, .mv⟩
  | .escSlsCfg => ⟨0x101CC, 0x400, 64, 0x4, 1, .mv⟩
  | .escSlc => ⟨0x101D0, 0x400, 64, 0x4, 1, .mv⟩
  | .escAxstatus => ⟨0x101D4, 0x400, 64, 0x4, 1, .mv⟩
  | .signCfg => ⟨0x10200, 0x400, 64, 0x4, 1, .sign⟩
  | .signVmin => ⟨0x10204, 0x400, 64, 0x4, 1, .sign⟩
  | .signCeil => ⟨0x10208, 0x400, 64, 0x4, 1, .sign⟩
  | .signReopen => ⟨0x1020C, 0x400, 64, 0x4, 1, .sign⟩
  | .signTbl => ⟨0x10210, 0x400, 64, 0x4, 2, .sign⟩
  | .signStatus => ⟨0x10218, 0x400, 64, 0x4, 1, .sign⟩
  | .fltSticky => ⟨0x10240, 0x400, 64, 0x4, 1, .aon⟩
  | .pwmLegcfg => ⟨0x10300, 0x400, 64, 0x40, 4, .mv⟩
  | .pwmTrig01 => ⟨0x10304, 0x400, 64, 0x40, 4, .mv⟩
  | .pwmTrig23 => ⟨0x10308, 0x400, 64, 0x40, 4, .mv⟩
  | .gateProfile => ⟨0x1030C, 0x400, 64, 0x40, 4, .mv⟩
  | .gateStatus => ⟨0x10310, 0x400, 64, 0x40, 4, .mv⟩
  | .canObj => ⟨0x20000, 0x28000, 4, 0x4, 40960, .bus⟩

/-- The field tables of the chapters. A reset value that a table gives per index is 0 here and set by `resetWord`. Reserved
bits stand in no row: they read 0 and ignore writes (R7). -/
def Reg.fields : Reg → List Field
  | .devInfo => [  -- R547
      ⟨0, 16, .ro, 0x6425, .live, false⟩,  -- DEVICE
      ⟨16, 8, .ro, 0, .live, false⟩,  -- REV
      ⟨24, 1, .ro, 0, .live, false⟩]  -- OTP_KEY
  | .regStatus => [  -- R548
      ⟨0, 1, .flag, 0, .live, false⟩,  -- UNMAPPED
      ⟨1, 1, .flag, 0, .live, false⟩,  -- OFF_DOMAIN
      ⟨2, 1, .flag, 0, .live, false⟩,  -- ORPHAN_WRITE
      ⟨3, 1, .flag, 0, .live, false⟩,  -- WRITE_REJECTED
      ⟨12, 20, .ro, 0, .live, false⟩]  -- ADDR
  | .tickCfg => [  -- R36
      ⟨0, 2, .rw, 0, .idle, false⟩,  -- RATE
      ⟨2, 1, .ro, 0, .live, false⟩]  -- K_CHECK
  | .tickCountLo => [  -- R38
      ⟨0, 32, .ro, 0, .live, false⟩]  -- COUNT_LO
  | .tickCountHi => [  -- R38
      ⟨0, 16, .ro, 0, .live, false⟩,  -- COUNT_HI
      ⟨16, 1, .ro, 0, .live, false⟩]  -- SNAP_STALE
  | .mainsStatus => [  -- R39
      ⟨0, 1, .ro, 0, .live, false⟩,  -- VALID
      ⟨1, 31, .ro, 0, .live, false⟩]  -- PERIOD
  | .mainsCount => [  -- R39
      ⟨0, 32, .ro, 0, .live, false⟩]  -- COUNT
  | .unitStatus => [  -- R112
      ⟨0, 1, .flag, 0, .live, false⟩,  -- WRITE_REJECTED
      ⟨1, 1, .flag, 0, .live, false⟩,  -- REF_REJECTED
      ⟨2, 1, .flag, 0, .live, false⟩,  -- SNAP_STALE
      ⟨16, 9, .ro, 0, .live, false⟩]  -- GROUPS
  | .strikeStatus => [  -- R170
      ⟨0, 11, .ro, 0, .live, false⟩,  -- LIVE
      ⟨11, 1, .flag, 0, .live, false⟩,  -- SNAP_STALE
      ⟨12, 1, .flag, 0, .live, false⟩,  -- SUPPRESSED
      ⟨16, 16, .count, 0, .live, false⟩]  -- FIRINGS
  | .signEngStatus => [  -- R360
      ⟨0, 8, .ro, 0, .live, false⟩]  -- TAGS
  | .cmdCfg => [  -- R151
      ⟨0, 3, .rw, 0, .idle, false⟩,  -- MODE
      ⟨3, 1, .rw, 0, .idle, false⟩,  -- FUNC
      ⟨4, 9, .rw, 0, .idle, false⟩,  -- UNIT
      ⟨13, 1, .rw, 0, .boundary, false⟩,  -- ENGAGE
      ⟨14, 1, .ro, 0, .live, false⟩,  -- ENGAGED
      ⟨15, 1, .flag, 0, .live, false⟩,  -- LOST
      ⟨16, 1, .flag, 0, .live, false⟩,  -- ENGAGE_REJ
      ⟨17, 1, .flag, 0, .live, false⟩]  -- REV_DROP
  | .cmdScale => [  -- R152
      ⟨0, 16, .rw, 0x8000, .boundary, false⟩,  -- ZERO
      ⟨16, 8, .rw, 0x10, .boundary, false⟩]  -- DEAD
  | .cmdGain => [  -- R152
      ⟨0, 32, .rw, 0, .boundary, false⟩]  -- GAIN
  | .hifDbBaseLo => [  -- R81
      ⟨12, 20, .rw, 0, .staged, false⟩]  -- ADDR_LO
  | .hifDbBaseHi => [  -- R81
      ⟨0, 32, .rw, 0, .staged, false⟩]  -- ADDR_HI
  | .hifCfg => [  -- R82
      ⟨0, 1, .rw, 0, .boundary, false⟩,  -- DB_EN
      ⟨8, 8, .rw, 0xC0, .boundary, false⟩]  -- SIGN_TAGS
  | .hifKick => [  -- R83
      ⟨0, 32, .wo, 0, .live, false⟩]  -- KICK
  | .hifStatus => [  -- R84
      ⟨0, 1, .ro, 0, .live, false⟩,  -- DB_ACTIVE
      ⟨1, 1, .ro, 0, .live, false⟩,  -- EXT_TAGS
      ⟨2, 1, .flag, 0, .live, false⟩,  -- DB_READ_FAIL
      ⟨3, 1, .flag, 0, .live, false⟩,  -- BAD_ACCESS
      ⟨4, 1, .ro, 0, .live, false⟩,  -- RING_ERROR
      ⟨5, 1, .flag, 0, .live, false⟩,  -- HOST_SILENT
      ⟨6, 1, .flag, 0, .live, false⟩]  -- LINK_LOST
  | .hifWdog => [  -- R85
      ⟨0, 16, .rw, 0, .live, false⟩,  -- TICKS
      ⟨16, 3, .rw, 2, .boundary, true⟩]  -- CLASS
  | .pwrCtrl => [  -- R529
      ⟨0, 8, .rw, 0xFF, .idle, false⟩,  -- MV
      ⟨8, 1, .rw, 1, .idle, false⟩,  -- DISP
      ⟨9, 1, .rw, 1, .idle, false⟩,  -- MOTION
      ⟨10, 1, .rw, 1, .idle, false⟩,  -- SIGN
      ⟨11, 1, .rw, 1, .boundary, false⟩,  -- BUS
      ⟨12, 1, .rw, 1, .boundary, false⟩,  -- MONITOR
      ⟨13, 1, .rw, 1, .boundary, false⟩]  -- NVS
  | .pwrStatus => [  -- R530
      ⟨0, 8, .ro, 0, .live, false⟩,  -- MV_ON
      ⟨8, 8, .ro, 0, .live, false⟩,  -- PARKED
      ⟨16, 8, .ro, 0, .live, false⟩,  -- VCL_OK
      ⟨24, 6, .ro, 0, .live, false⟩,  -- HUB_ON
      ⟨30, 1, .flag, 0, .live, false⟩]  -- WRITE_REJECTED
  | .pwrEvt => [  -- R530
      ⟨0, 8, .flag, 0, .live, false⟩,  -- TRAIN_FAIL
      ⟨8, 8, .count, 0, .live, false⟩]  -- WAKE_LATE
  | .pwrPark => [  -- R531
      ⟨0, 16, .rw, 0x64, .boundary, false⟩]  -- PARKTIME
  | .clkStatus => [  -- R531
      ⟨0, 1, .ro, 0, .live, false⟩,  -- PLL_LOCK
      ⟨1, 1, .flag, 0, .live, false⟩]  -- PLL_LOST
  | .rstCmd => [  -- R532
      ⟨0, 16, .wo, 0, .live, false⟩]  -- KEY
  | .rstStatus => [  -- R532
      ⟨0, 3, .ro, 0, .live, false⟩]  -- CAUSE
  | .imgStatus => [  -- R535
      ⟨0, 2, .ro, 2, .live, false⟩,  -- SLOT
      ⟨2, 1, .ro, 0, .live, false⟩,  -- DONE
      ⟨3, 1, .ro, 0, .live, false⟩,  -- HMAC_OK
      ⟨4, 1, .ro, 0, .live, false⟩,  -- SLOT0_BAD
      ⟨5, 1, .ro, 0, .live, false⟩,  -- SLOT1_BAD
      ⟨8, 8, .ro, 0, .live, false⟩,  -- SKIPPED
      ⟨16, 16, .ro, 0, .live, false⟩]  -- GEN
  | .nvsCmd => [  -- R533
      ⟨0, 2, .wo, 0, .live, false⟩,  -- OP
      ⟨2, 1, .wo, 0, .live, false⟩]  -- SLOT
  | .nvsAddr => [  -- R533
      ⟨8, 11, .rw, 0, .live, false⟩]  -- PAGE
  | .nvsStatus => [  -- R534
      ⟨0, 1, .ro, 0, .live, false⟩,  -- BUSY
      ⟨1, 1, .flag, 0, .live, false⟩,  -- DONE
      ⟨2, 1, .flag, 0, .live, false⟩,  -- REFUSED
      ⟨3, 3, .ro, 0, .live, false⟩,  -- REASON
      ⟨6, 1, .flag, 0, .live, false⟩]  -- VERIFY_FAIL
  | .nvsData => [  -- R533
      ⟨0, 32, .rw, 0, .live, false⟩]  -- DATA
  | .fltCap => [  -- R424
      ⟨0, 12, .ro, 0, .live, false⟩,  -- ID
      ⟨12, 2, .ro, 0, .live, false⟩,  -- LEVEL
      ⟨14, 1, .ro, 0, .live, false⟩,  -- REREAD
      ⟨15, 1, .ro, 0, .live, false⟩,  -- VALID
      ⟨16, 9, .ro, 0, .live, false⟩,  -- UNIT
      ⟨25, 3, .ro, 0, .live, false⟩]  -- CLASS
  | .fltCapOvf => [  -- R425
      ⟨0, 8, .ro, 0, .live, false⟩,  -- COUNT
      ⟨8, 1, .ro, 0, .live, false⟩]  -- OVF
  | .fltCapTickLo => [  -- R425
      ⟨0, 32, .ro, 0, .live, false⟩]  -- TICK_LO
  | .fltCapTickHi => [  -- R425
      ⟨0, 16, .ro, 0, .live, false⟩]  -- TICK_HI
  | .fltAck => [  -- R426
      ⟨0, 8, .wo, 0, .live, false⟩]  -- COUNT
  | .fltClear => [  -- R428
      ⟨0, 9, .wo, 0, .boundary, false⟩]  -- UNIT
  | .fltCfg => [  -- R429
      ⟨0, 1, .rw, 0, .live, false⟩,  -- IRQ_EN
      ⟨8, 8, .rw, 0xA, .live, false⟩,  -- PULSE
      ⟨16, 8, .rw, 1, .live, false⟩]  -- HUBMAP
  | .fltAlert => [  -- R429
      ⟨0, 8, .rw, 0, .live, false⟩]  -- LEVEL
  | .fltStatus => [  -- R430
      ⟨0, 1, .flag, 0, .live, false⟩,  -- CLASS_REJECTED
      ⟨1, 1, .flag, 0, .live, false⟩,  -- ACK_STALE
      ⟨2, 1, .flag, 0, .live, false⟩,  -- CLEAR_REFUSED
      ⟨3, 1, .flag, 0, .live, false⟩,  -- SNAP_STALE
      ⟨4, 1, .ro, 0, .live, false⟩,  -- SEQ
      ⟨16, 7, .ro, 0, .live, false⟩]  -- CLEAR_AXIS
  | .fltLatch => [  -- R430
      ⟨0, 8, .ro, 0, .live, false⟩,  -- MSTO
      ⟨8, 1, .ro, 0, .live, false⟩,  -- DSTO
      ⟨16, 8, .ro, 0, .live, false⟩,  -- BROKEN
      ⟨24, 1, .ro, 0, .live, false⟩]  -- BROKEN_HUB
  | .fltClass => [  -- R427
      ⟨0, 3, .rw, 0, .boundary, true⟩,  -- CLASS
      ⟨4, 3, .ro, 0, .live, false⟩,  -- MIN
      ⟨8, 3, .ro, 0, .live, false⟩]  -- MAX
  | .stoStatus => [  -- R466
      ⟨0, 8, .ro, 0xFF, .live, false⟩,  -- PIN_A
      ⟨8, 8, .ro, 0xFF, .live, false⟩,  -- PIN_B
      ⟨16, 8, .ro, 0xFF, .live, false⟩,  -- PATH_A
      ⟨24, 8, .ro, 0xFF, .live, false⟩]  -- PATH_B
  | .stoCfg => [  -- R466
      ⟨0, 8, .rw, 0x14, .boundary, true⟩]  -- DISC
  | .escStatus => [  -- R467
      ⟨0, 1, .ro, 1, .live, false⟩,  -- SAFE_A
      ⟨1, 1, .ro, 1, .live, false⟩,  -- SAFE_B
      ⟨2, 1, .ro, 0, .live, false⟩,  -- SELFTEST_OK
      ⟨3, 1, .ro, 0, .live, false⟩,  -- OSC_FAIL
      ⟨4, 1, .ro, 0, .live, false⟩,  -- TICK_FAIL
      ⟨5, 1, .ro, 0, .live, false⟩,  -- READBACK_FAIL
      ⟨8, 8, .ro, 0, .live, false⟩,  -- SAFEHOLD
      ⟨16, 8, .ro, 0, .live, false⟩]  -- ORPH
  | .escCfg => [  -- R467
      ⟨0, 1, .rw, 0, .live, false⟩]  -- IRQ_EN
  | .lockStatus => [  -- R473
      ⟨0, 3, .ro, 0, .live, false⟩,  -- SCOPES
      ⟨3, 1, .ro, 1, .live, false⟩,  -- LOCKOUT
      ⟨4, 1, .ro, 0, .live, false⟩,  -- BUSY
      ⟨5, 1, .ro, 0, .live, false⟩,  -- PW_SET
      ⟨6, 1, .ro, 0, .live, false⟩,  -- NONCE_VALID
      ⟨7, 1, .flag, 0, .live, false⟩,  -- REJECTED
      ⟨8, 1, .flag, 0, .live, false⟩,  -- REFUSED
      ⟨9, 1, .flag, 0, .live, false⟩,  -- NO_NONCE
      ⟨10, 2, .ro, 0, .live, false⟩,  -- LAST
      ⟨16, 8, .ro, 8, .live, false⟩]  -- FAILS
  | .lockWait => [  -- R473
      ⟨0, 16, .ro, 0x3C, .live, false⟩]  -- WAIT
  | .lockCmd => [  -- R474
      ⟨0, 3, .wo, 0, .live, false⟩,  -- OP
      ⟨4, 3, .wo, 0, .live, false⟩]  -- SCOPE
  | .lockRejAddr => [  -- R475
      ⟨0, 20, .ro, 0, .live, false⟩]  -- ADDR
  | .lockPw => [  -- R475
      ⟨0, 32, .wo, 0, .live, false⟩]  -- PW
  | .lockNonce => [  -- R475
      ⟨0, 32, .ro, 0, .live, false⟩]  -- NONCE
  | .lockResp => [  -- R475
      ⟨0, 32, .wo, 0, .live, false⟩]  -- RESP
  | .thermHubcfg => [  -- R495
      ⟨0, 4, .rw, 0xF, .boundary, false⟩,  -- SEL
      ⟨8, 8, .rw, 0x69, .boundary, false⟩,  -- WARN
      ⟨16, 8, .rw, 0x78, .boundary, true⟩]  -- TRIP
  | .thermHubstatus => [  -- R498
      ⟨0, 16, .ro, 0x7FFF, .live, false⟩,  -- TEMP
      ⟨16, 1, .ro, 0, .live, false⟩,  -- VALID
      ⟨17, 1, .ro, 0, .live, false⟩,  -- FAST
      ⟨18, 1, .ro, 0, .live, false⟩,  -- WARN
      ⟨19, 1, .ro, 0, .live, false⟩,  -- TRIP
      ⟨20, 1, .flag, 0, .live, false⟩,  -- WRITE_REJECTED
      ⟨21, 1, .ro, 0, .live, false⟩]  -- NVS_OK
  | .thermChk => [  -- R497
      ⟨0, 6, .rw, 0x2D, .boundary, false⟩,  -- LIM
      ⟨8, 4, .rw, 3, .boundary, false⟩]  -- N
  | .supplyStatus => [  -- R500
      ⟨0, 4, .ro, 0, .live, false⟩,  -- NOW
      ⟨4, 4, .flag, 0, .live, false⟩]  -- SEEN
  | .monCfg => [  -- R501
      ⟨0, 3, .rw, 0, .boundary, false⟩,  -- NPER
      ⟨4, 4, .rw, 1, .boundary, false⟩,  -- GAP
      ⟨8, 16, .rw, 0x4E20, .boundary, false⟩]  -- DEFPER
  | .monEn => [  -- R501
      ⟨0, 32, .rw, 0xFFFFFFFF, .boundary, false⟩]  -- EN
  | .monUrgent => [  -- R501
      ⟨0, 5, .wo, 0, .live, false⟩]  -- INPUT
  | .monStatus => [  -- R503
      ⟨0, 8, .ro, 0, .live, false⟩,  -- BUSY
      ⟨8, 8, .count, 0, .live, false⟩,  -- URG_DROP
      ⟨16, 1, .ro, 1, .live, false⟩]  -- NOSYNC
  | .monRes => [  -- R502
      ⟨0, 20, .ro, 0, .live, false⟩,  -- VALUE
      ⟨20, 8, .ro, 0, .live, false⟩,  -- SEQ
      ⟨28, 1, .ro, 0, .live, false⟩,  -- NOSYNC
      ⟨29, 1, .ro, 0, .live, false⟩,  -- URGENT
      ⟨30, 1, .ro, 0, .live, false⟩]  -- CLIP
  | .temp => [  -- R494
      ⟨0, 16, .ro, 0, .live, false⟩,  -- VALUE
      ⟨16, 1, .ro, 1, .live, false⟩,  -- OFF
      ⟨17, 1, .flag, 0, .live, false⟩,  -- SUSPECT
      ⟨18, 1, .flag, 0, .live, false⟩]  -- BROKEN
  | .sqBaseLo => [  -- R81
      ⟨12, 20, .rw, 0, .staged, false⟩]  -- ADDR_LO
  | .sqBaseHi => [  -- R81
      ⟨0, 32, .rw, 0, .staged, false⟩]  -- ADDR_HI
  | .sqCfg => [  -- R86
      ⟨0, 1, .rw, 0, .boundary, false⟩,  -- ENABLE
      ⟨1, 2, .rw, 1, .staged, false⟩,  -- PRIO
      ⟨3, 1, .rw, 0, .staged, false⟩,  -- ANYUNIT
      ⟨4, 5, .rw, 4, .staged, false⟩,  -- SIZE
      ⟨9, 9, .rw, 0, .staged, false⟩,  -- UNIT
      ⟨18, 6, .rw, 0, .staged, false⟩]  -- DEFCQ
  | .sqStatus => [  -- R87
      ⟨0, 16, .ro, 0, .live, false⟩,  -- CONSUMER
      ⟨16, 1, .ro, 0, .live, false⟩,  -- ACTIVE
      ⟨17, 1, .ro, 0, .live, false⟩,  -- FENCE_WAIT
      ⟨24, 8, .ro, 0, .live, false⟩]  -- ERROR
  | .cqBaseLo => [  -- R81
      ⟨12, 20, .rw, 0, .staged, false⟩]  -- ADDR_LO
  | .cqBaseHi => [  -- R81
      ⟨0, 32, .rw, 0, .staged, false⟩]  -- ADDR_HI
  | .cqCfg => [  -- R88
      ⟨0, 1, .rw, 0, .boundary, false⟩,  -- ENABLE
      ⟨1, 1, .rw, 0, .live, false⟩,  -- IRQ_EN
      ⟨2, 5, .rw, 4, .staged, false⟩,  -- SIZE
      ⟨8, 8, .rw, 0, .live, false⟩]  -- MOD_TICKS
  | .cqStatus => [  -- R89
      ⟨0, 16, .ro, 0, .live, false⟩,  -- PRODUCER
      ⟨16, 1, .ro, 0, .live, false⟩,  -- ACTIVE
      ⟨17, 1, .ro, 0, .live, false⟩,  -- PHASE
      ⟨18, 1, .ro, 0, .live, false⟩,  -- PENDING
      ⟨24, 8, .ro, 0, .live, false⟩]  -- ERROR
  | .cqDropped => [  -- R90
      ⟨0, 32, .count, 0, .live, false⟩]  -- COUNT
  | .bqBaseLo => [  -- R81
      ⟨12, 20, .rw, 0, .staged, false⟩]  -- ADDR_LO
  | .bqBaseHi => [  -- R81
      ⟨0, 32, .rw, 0, .staged, false⟩]  -- ADDR_HI
  | .bqCfg => [  -- R88
      ⟨0, 1, .rw, 0, .boundary, false⟩,  -- ENABLE
      ⟨1, 1, .rw, 0, .live, false⟩,  -- IRQ_EN
      ⟨2, 5, .rw, 4, .staged, false⟩,  -- SIZE
      ⟨8, 8, .rw, 0, .live, false⟩]  -- MOD_TICKS
  | .bqStatus => [  -- R89
      ⟨0, 16, .ro, 0, .live, false⟩,  -- PRODUCER
      ⟨16, 1, .ro, 0, .live, false⟩,  -- ACTIVE
      ⟨17, 1, .ro, 0, .live, false⟩,  -- PHASE
      ⟨24, 8, .ro, 0, .live, false⟩]  -- ERROR
  | .bqDropped => [  -- R90
      ⟨0, 32, .count, 0, .live, false⟩]  -- COUNT
  | .msixTable => [  -- R550
      ⟨0, 32, .rw, 0, .live, false⟩]  -- WORD
  | .msixPba => [  -- R550
      ⟨0, 32, .ro, 0, .live, false⟩]  -- WORD
  | .unitInfo => [  -- R107
      ⟨0, 9, .ro, 0, .live, false⟩,  -- PARENT
      ⟨9, 1, .ro, 0, .live, false⟩,  -- HAS_PARENT
      ⟨10, 1, .ro, 0, .live, false⟩,  -- BOUND
      ⟨11, 7, .ro, 0, .live, false⟩,  -- MEMBERS
      ⟨18, 9, .ro, 0, .live, false⟩]  -- REF_NOW
  | .unitLeafLo => [  -- R108
      ⟨0, 32, .ro, 0, .live, false⟩]  -- LEAF_LO
  | .unitLeafHi => [  -- R108
      ⟨0, 32, .ro, 0, .live, false⟩]  -- LEAF_HI
  | .unitRef => [  -- R109
      ⟨0, 9, .rw, 0, .boundary, false⟩,  -- REF
      ⟨9, 1, .rw, 0, .boundary, false⟩]  -- MODE
  | .unitRollup => [  -- R110
      ⟨0, 3, .rw, 0, .boundary, true⟩]  -- CLASS
  | .unitState => [  -- R111
      ⟨0, 3, .ro, 0, .live, false⟩,  -- STATE
      ⟨3, 1, .ro, 0, .live, false⟩]  -- ARMED
  | .strikeInfo => [  -- R167
      ⟨0, 3, .ro, 0, .live, false⟩,  -- STATE
      ⟨3, 9, .ro, 0, .live, false⟩,  -- UNIT
      ⟨12, 2, .ro, 0, .live, false⟩,  -- KEY
      ⟨14, 2, .ro, 0, .live, false⟩,  -- MODE
      ⟨16, 1, .ro, 0, .live, false⟩,  -- REPEAT
      ⟨17, 1, .ro, 0, .live, false⟩,  -- FIRE_IF_PASSED
      ⟨18, 3, .ro, 0, .live, false⟩,  -- ACTION
      ⟨21, 9, .ro, 0, .live, false⟩]  -- ACTION_UNIT
  | .strikeKeyLo => [  -- R168
      ⟨0, 32, .ro, 0, .live, false⟩]  -- KEY_LO
  | .strikeKeyHi => [  -- R168
      ⟨0, 8, .ro, 0, .live, false⟩]  -- KEY_HI
  | .strikeLast => [  -- R169
      ⟨0, 32, .ro, 0, .live, false⟩]  -- TICK
  | .canCfg => [  -- R399
      ⟨0, 1, .rw, 0, .boundary, false⟩,  -- ENABLE
      ⟨1, 1, .rw, 0, .boundary, false⟩,  -- RESTRICT
      ⟨2, 1, .rw, 1, .staged, false⟩,  -- BOFF_AUTO
      ⟨3, 1, .rw, 0, .staged, false⟩,  -- BOFF_FLUSH
      ⟨4, 1, .rw, 0, .staged, false⟩]  -- SELFRX
  | .canNbt => [  -- R400
      ⟨0, 8, .rw, 1, .staged, false⟩,  -- NBRP
      ⟨8, 8, .rw, 0x7F, .staged, false⟩,  -- NSEG1
      ⟨16, 7, .rw, 0x20, .staged, false⟩,  -- NSEG2
      ⟨23, 7, .rw, 0x20, .staged, false⟩]  -- NSJW
  | .canDbt => [  -- R400
      ⟨0, 5, .rw, 1, .staged, false⟩,  -- DBRP
      ⟨5, 5, .rw, 0x1D, .staged, false⟩,  -- DSEG1
      ⟨10, 4, .rw, 0xA, .staged, false⟩,  -- DSEG2
      ⟨14, 4, .rw, 0xA, .staged, false⟩,  -- DSJW
      ⟨18, 1, .rw, 1, .staged, false⟩,  -- TDC_EN
      ⟨19, 7, .rw, 0x1E, .staged, false⟩]  -- TDCO
  | .canCmd => [  -- R401
      ⟨0, 1, .wo, 0, .live, false⟩,  -- RECOVER
      ⟨1, 1, .wo, 0, .live, false⟩]  -- FLUSH
  | .canStatus => [  -- R402
      ⟨0, 2, .ro, 3, .live, false⟩,  -- STATE
      ⟨2, 3, .ro, 0, .live, false⟩,  -- LEC
      ⟨5, 3, .ro, 0, .live, false⟩,  -- DLEC
      ⟨8, 1, .flag, 0, .live, false⟩,  -- BT_ERR
      ⟨9, 1, .ro, 0, .live, false⟩,  -- BOFF_WAIT
      ⟨10, 1, .ro, 0, .live, false⟩,  -- RECOVERING
      ⟨16, 7, .ro, 0, .live, false⟩,  -- TDCV
      ⟨23, 6, .ro, 0, .live, false⟩]  -- TXQ
  | .canErrcnt => [  -- R403
      ⟨0, 9, .ro, 0, .live, false⟩,  -- TEC
      ⟨16, 8, .ro, 0, .live, false⟩]  -- REC
  | .canErrlog => [  -- R403
      ⟨0, 16, .count, 0, .live, false⟩,  -- ERRFRAMES
      ⟨16, 8, .count, 0, .live, false⟩,  -- BOFF_CNT
      ⟨24, 8, .count, 0, .live, false⟩]  -- RX_OVF
  | .canXfiltId => [  -- R405
      ⟨0, 29, .rw, 0, .boundary, false⟩,  -- ID
      ⟨31, 1, .rw, 0, .boundary, false⟩]  -- EN
  | .canXfiltMask => [  -- R405
      ⟨0, 29, .rw, 0x1FFFFFFF, .boundary, false⟩]  -- MASK
  | .canRoute => [  -- R404
      ⟨0, 32, .rw, 0x55555555, .boundary, false⟩]  -- ROUTE
  | .linkStatus => [  -- R40
      ⟨0, 1, .ro, 0, .live, false⟩,  -- TRAINED
      ⟨1, 1, .flag, 0, .live, false⟩,  -- LATCH_MISS
      ⟨2, 1, .flag, 0, .live, false⟩,  -- SETPOINT_MISSED
      ⟨8, 8, .ro, 0, .live, false⟩,  -- SKEW
      ⟨16, 16, .count, 0, .live, false⟩]  -- CRC_ERRORS
  | .escMvstatus => [  -- R472
      ⟨0, 1, .ro, 0, .live, false⟩,  -- ORPHAN
      ⟨1, 1, .ro, 0, .live, false⟩,  -- BY_MONITOR
      ⟨8, 8, .count, 0, .live, false⟩]  -- BEAT_MISS
  | .isenseCalStatus => [  -- R268
      ⟨0, 1, .ro, 0, .live, false⟩,  -- DONE
      ⟨1, 1, .ro, 0, .live, false⟩,  -- RUNNING
      ⟨2, 1, .flag, 0, .live, false⟩,  -- LIMIT
      ⟨8, 8, .ro, 0, .live, false⟩]  -- FAIL_AXES
  | .pwmMvcfg => [  -- R290
      ⟨0, 4, .rw, 3, .idle, false⟩,  -- K
      ⟨4, 1, .rw, 0, .idle, false⟩,  -- ALIGN
      ⟨5, 1, .rw, 0, .boundary, false⟩]  -- MIDUPD
  | .pwmPeriod => [  -- R292
      ⟨0, 16, .ro, 0x208D, .live, false⟩,  -- PLEN
      ⟨16, 4, .ro, 1, .live, false⟩]  -- LONG
  | .pwmMvstatus => [  -- R299
      ⟨0, 1, .ro, 0, .live, false⟩,  -- DLL_LOCK
      ⟨1, 1, .flag, 0, .live, false⟩,  -- DLL_LOST
      ⟨2, 1, .flag, 0, .live, false⟩,  -- CLK_TRIP
      ⟨3, 1, .ro, 0, .live, false⟩]  -- DBG_HALT
  | .gateBst => [  -- R326
      ⟨0, 5, .rw, 0xC, .idle, false⟩,  -- BSTUV
      ⟨5, 1, .rw, 1, .idle, false⟩]  -- TRICKLE_EN
  | .gateMvstatus => [  -- R329
      ⟨0, 1, .ro, 0, .live, false⟩,  -- VDRV_OK
      ⟨1, 1, .flag, 0, .live, false⟩,  -- VDRV_UV
      ⟨2, 1, .flag, 0, .live, false⟩,  -- VDRV_OV
      ⟨8, 8, .ro, 0, .live, false⟩]  -- VDRV
  | .thermCfg => [  -- R495
      ⟨0, 6, .rw, 0xF, .boundary, false⟩,  -- SEL
      ⟨8, 8, .rw, 0x87, .boundary, false⟩,  -- WARN
      ⟨16, 8, .rw, 0x96, .boundary, true⟩,  -- TRIP
      ⟨24, 1, .rw, 0, .boundary, false⟩]  -- RPAIR
  | .thermStatus => [  -- R498
      ⟨0, 16, .ro, 0x7FFF, .live, false⟩,  -- TEMP
      ⟨16, 1, .ro, 0, .live, false⟩,  -- VALID
      ⟨17, 1, .ro, 0, .live, false⟩,  -- FAST
      ⟨18, 1, .ro, 0, .live, false⟩,  -- WARN
      ⟨19, 1, .ro, 0, .live, false⟩,  -- TRIP
      ⟨20, 1, .flag, 0, .live, false⟩]  -- WRITE_REJECTED
  | .trCfg => [  -- R496
      ⟨0, 2, .rw, 0, .idle, false⟩,  -- MODE0
      ⟨2, 2, .rw, 0, .idle, false⟩,  -- MODE1
      ⟨4, 13, .rw, 0xD6B, .idle, false⟩]  -- B
  | .trNtc => [  -- R496
      ⟨0, 16, .rw, 0x3E8, .idle, false⟩,  -- R25
      ⟨16, 8, .rw, 0, .idle, false⟩]  -- DOFS
  | .vbusCfg => [  -- R499
      ⟨0, 12, .rw, 0x960, .idle, false⟩]  -- FS
  | .vbusLim => [  -- R499
      ⟨0, 12, .rw, 0, .boundary, false⟩,  -- UV
      ⟨16, 12, .rw, 0x640, .boundary, true⟩]  -- OV
  | .vbusStatus => [  -- R499
      ⟨0, 12, .ro, 0, .live, false⟩,  -- VBS
      ⟨12, 1, .ro, 0, .live, false⟩,  -- UV_NOW
      ⟨13, 1, .ro, 0, .live, false⟩]  -- OV_NOW
  | .motionDmax => [  -- R145
      ⟨0, 32, .rw, 0xFFFFFFFF, .live, false⟩]  -- DMAX
  | .motionStill => [  -- R146
      ⟨0, 16, .rw, 0x83, .live, false⟩,  -- SPEED
      ⟨16, 8, .rw, 8, .live, false⟩]  -- TICKS
  | .motionInpos => [  -- R147
      ⟨0, 8, .rw, 2, .live, false⟩,  -- WINDOW
      ⟨8, 16, .rw, 0x3E8, .live, false⟩,  -- SETTLE
      ⟨24, 8, .rw, 0x40, .live, false⟩]  -- FOLLOW
  | .motionRebaseLo => [  -- R148
      ⟨0, 32, .rw, 0, .staged, false⟩]  -- POS_LO
  | .motionRebaseHi => [  -- R148
      ⟨0, 8, .rw, 0, .staged, false⟩,  -- POS_HI
      ⟨8, 1, .rw, 0, .staged, false⟩]  -- REL
  | .motionStatus => [  -- R149
      ⟨0, 1, .flag, 0, .live, false⟩,  -- WRITE_REJECTED
      ⟨1, 1, .flag, 1, .live, false⟩,  -- POS_UNVERIFIED
      ⟨2, 1, .flag, 0, .live, false⟩,  -- SWA_NEW
      ⟨3, 1, .flag, 0, .live, false⟩,  -- SWB_NEW
      ⟨4, 1, .flag, 0, .live, false⟩,  -- STREAM_UNDERRUN
      ⟨5, 3, .ro, 0, .live, false⟩,  -- MODE
      ⟨8, 1, .ro, 0, .live, false⟩,  -- DOWN
      ⟨16, 5, .ro, 0, .live, false⟩]  -- QUEUE
  | .swCfg => [  -- R150
      ⟨0, 2, .rw, 0, .live, false⟩,  -- EDGE_A
      ⟨2, 1, .rw, 0, .live, false⟩,  -- ONCE_A
      ⟨4, 2, .rw, 0, .live, false⟩,  -- EDGE_B
      ⟨6, 1, .rw, 0, .live, false⟩]  -- ONCE_B
  | .loopCur => [  -- R202
      ⟨0, 16, .rw, 0, .boundary, false⟩,  -- KP
      ⟨16, 16, .rw, 0, .boundary, false⟩]  -- KI
  | .loopSpd => [  -- R203
      ⟨0, 16, .rw, 0, .boundary, false⟩,  -- KP
      ⟨16, 16, .rw, 0, .boundary, false⟩]  -- KI
  | .loopPos => [  -- R204
      ⟨0, 16, .rw, 0, .boundary, false⟩,  -- KP
      ⟨16, 8, .rw, 0x80, .boundary, false⟩]  -- FF
  | .loopLimit => [  -- R205
      ⟨0, 16, .rw, 0x1000, .boundary, true⟩,  -- IMAX
      ⟨16, 16, .rw, 0x800, .boundary, false⟩]  -- IHOLD
  | .elecCfg => [  -- R206
      ⟨0, 16, .rw, 0, .idle, false⟩,  -- CPE
      ⟨16, 16, .rw, 0, .idle, false⟩]  -- OFFSET
  | .driveCfg => [  -- R207
      ⟨0, 16, .rw, 0xF333, .boundary, false⟩,  -- VLIM
      ⟨16, 3, .rw, 3, .boundary, false⟩,  -- IQFILT
      ⟨20, 6, .rw, 0xA, .idle, false⟩,  -- PRECHARGE
      ⟨26, 4, .rw, 1, .boundary, false⟩]  -- ALT
  | .revCfg => [  -- R208
      ⟨0, 24, .rw, 0x51F, .idle, false⟩,  -- THRESH
      ⟨24, 1, .rw, 0, .idle, false⟩,  -- REVMODE
      ⟨25, 7, .rw, 0xA, .boundary, false⟩]  -- PROBE
  | .axisSafe => [  -- R209
      ⟨0, 1, .rw, 0, .idle, true⟩,  -- ORPHAN
      ⟨1, 1, .rw, 0, .idle, true⟩]  -- HALT
  | .axisStatus => [  -- R210
      ⟨0, 4, .ro, 0, .live, false⟩,  -- DRIVE
      ⟨4, 1, .ro, 0, .live, false⟩,  -- VOLTAGE_LIMITED
      ⟨5, 1, .flag, 0, .live, false⟩,  -- VLIM_SEEN
      ⟨6, 1, .ro, 0, .live, false⟩,  -- REV_BRAKING
      ⟨7, 1, .ro, 0, .live, false⟩,  -- IQ_HELD
      ⟨8, 1, .flag, 0, .live, false⟩,  -- PRECHARGE_CUT
      ⟨9, 1, .flag, 0, .live, false⟩]  -- WRITE_REJECTED
  | .slAlign => [  -- R235
      ⟨0, 16, .rw, 0x800, .idle, false⟩,  -- IALIGN
      ⟨16, 16, .rw, 0x3E8, .idle, false⟩]  -- ALIGN_TICKS
  | .slRamp => [  -- R236
      ⟨0, 16, .rw, 0x800, .idle, false⟩,  -- IRAMP
      ⟨16, 16, .rw, 0x100, .idle, false⟩]  -- ISTEP
  | .slHand => [  -- R237
      ⟨0, 24, .rw, 0xA3D, .idle, false⟩,  -- VHAND
      ⟨24, 4, .rw, 6, .idle, false⟩,  -- ZCCOUNT
      ⟨28, 2, .rw, 3, .idle, false⟩]  -- STARTRETRY
  | .slSync => [  -- R238
      ⟨0, 8, .rw, 0x18, .idle, false⟩,  -- SYNCMAX
      ⟨8, 6, .rw, 0xF, .idle, false⟩,  -- SYNCWIN
      ⟨16, 16, .rw, 0x3E8, .idle, false⟩]  -- CATCHWINDOW
  | .slLoss => [  -- R239
      ⟨0, 16, .rw, 0x1555, .idle, false⟩,  -- LOSSANGLE
      ⟨16, 4, .rw, 3, .idle, false⟩,  -- LOSSCOUNT
      ⟨20, 2, .rw, 1, .idle, false⟩,  -- FLOATPER
      ⟨22, 2, .rw, 3, .idle, true⟩,  -- CATCHTRIES
      ⟨24, 1, .rw, 1, .idle, true⟩]  -- WFLOAT_EN
  | .slCatch => [  -- R240
      ⟨0, 24, .rw, 0x51F, .idle, false⟩,  -- VCATCH
      ⟨24, 8, .rw, 0xA, .boundary, false⟩]  -- HYST
  | .slObs => [  -- R241
      ⟨0, 16, .rw, 0, .idle, false⟩,  -- RPH
      ⟨16, 16, .rw, 0, .idle, false⟩]  -- LPH
  | .slObsCfg => [  -- R241
      ⟨0, 24, .rw, 0x51F, .boundary, false⟩,  -- VLOW
      ⟨24, 8, .rw, 0x14, .boundary, false⟩]  -- BW
  | .slStatus => [  -- R242
      ⟨0, 4, .ro, 0, .live, false⟩,  -- PHASE
      ⟨4, 1, .ro, 0, .live, false⟩,  -- ANGLE_KNOWN
      ⟨5, 2, .ro, 0, .live, false⟩,  -- ATTEMPT
      ⟨7, 2, .ro, 0, .live, false⟩,  -- CATCH_TRY
      ⟨9, 3, .ro, 0, .live, false⟩,  -- LOSS_RUN
      ⟨12, 1, .flag, 0, .live, false⟩,  -- START_RETRIED
      ⟨13, 1, .flag, 0, .live, false⟩,  -- LOSS_SEEN
      ⟨14, 1, .flag, 0, .live, false⟩,  -- NO_HANDOVER
      ⟨15, 1, .flag, 0, .live, false⟩,  -- WRITE_REJECTED
      ⟨16, 8, .count, 0, .live, false⟩,  -- BEYOND
      ⟨24, 8, .count, 0, .live, false⟩]  -- WSKIP
  | .isenseCfg => [  -- R262
      ⟨0, 2, .rw, 2, .idle, false⟩,  -- RANGE
      ⟨2, 10, .rw, 0xFA, .boundary, false⟩,  -- BLANK
      ⟨12, 1, .rw, 0, .boundary, false⟩,  -- TRIG_EN
      ⟨13, 1, .rw, 0, .boundary, false⟩,  -- OFFTRACK
      ⟨14, 4, .rw, 8, .boundary, false⟩]  -- OFFTC
  | .isenseScale => [  -- R263
      ⟨0, 16, .rw, 0xFA, .idle, true⟩,  -- ISCALE
      ⟨16, 16, .rw, 0x3E8, .idle, true⟩]  -- RSH
  | .isenseGain => [  -- R264
      ⟨0, 16, .rw, 0x8000, .idle, true⟩,  -- GAIN_A
      ⟨16, 16, .rw, 0x8000, .idle, true⟩]  -- GAIN_B
  | .isenseOfs => [  -- R265
      ⟨0, 16, .rw, 0, .idle, true⟩,  -- OFS0_A
      ⟨16, 16, .rw, 0, .idle, true⟩]  -- OFS0_B
  | .isenseOfsw => [  -- R265
      ⟨0, 16, .rw, 0, .idle, true⟩,  -- OFS1_A
      ⟨16, 16, .rw, 0, .idle, true⟩]  -- OFS1_B
  | .isenseExtra => [  -- R266
      ⟨0, 16, .ro, 0, .live, false⟩,  -- EXTRA_A
      ⟨16, 16, .ro, 0, .live, false⟩]  -- EXTRA_B
  | .isenseTrack => [  -- R266
      ⟨0, 16, .ro, 0, .live, false⟩,  -- TRK_A
      ⟨16, 16, .ro, 0, .live, false⟩]  -- TRK_B
  | .isenseStatus => [  -- R267
      ⟨0, 16, .count, 0, .live, false⟩,  -- NARROW
      ⟨16, 1, .ro, 0, .live, false⟩,  -- PREDICTED
      ⟨17, 1, .flag, 0, .live, false⟩,  -- CLIP
      ⟨18, 1, .flag, 0, .live, false⟩,  -- OFS_DRIFT
      ⟨19, 1, .flag, 0, .live, false⟩,  -- TRIG_SKIP
      ⟨20, 1, .flag, 0, .live, false⟩]  -- WRITE_REJECTED
  | .pwmXcfg => [  -- R294
      ⟨0, 1, .rw, 0, .idle, false⟩]  -- XMODE
  | .pwmXstat => [  -- R295
      ⟨0, 16, .ro, 0, .live, false⟩,  -- DUTY
      ⟨16, 4, .ro, 0, .live, false⟩,  -- XK
      ⟨20, 1, .ro, 1, .live, false⟩]  -- XOFF
  | .pwmOvr => [  -- R296
      ⟨0, 2, .rw, 0, .idle, true⟩,  -- SWAP
      ⟨2, 1, .rw, 0, .idle, false⟩]  -- INVX
  | .pwmStatus => [  -- R298
      ⟨0, 1, .flag, 0, .live, false⟩,  -- COMPARE_BEYOND_PERIOD
      ⟨1, 1, .flag, 0, .live, false⟩,  -- WRITE_REJECTED
      ⟨2, 1, .ro, 0, .live, false⟩,  -- HALTED
      ⟨8, 8, .count, 0, .live, false⟩,  -- MP_DROP
      ⟨16, 8, .count, 0, .live, false⟩,  -- MP_STRETCH
      ⟨24, 8, .count, 0, .live, false⟩]  -- LATE_COMMIT
  | .gateSc => [  -- R325
      ⟨0, 5, .rw, 0xA, .idle, true⟩,  -- DDTH
      ⟨5, 5, .rw, 0xA, .idle, true⟩,  -- SLTH
      ⟨10, 4, .rw, 5, .idle, true⟩,  -- FILT
      ⟨14, 8, .rw, 0x96, .idle, true⟩,  -- OCTH
      ⟨22, 4, .rw, 8, .idle, true⟩,  -- OCFILT
      ⟨26, 3, .rw, 3, .idle, true⟩]  -- SOFT_I
  | .gateAxstatus => [  -- R328
      ⟨0, 1, .flag, 0, .live, false⟩,  -- SHUNT_OC
      ⟨1, 1, .flag, 0, .live, false⟩,  -- SOFT_OFF
      ⟨2, 1, .flag, 0, .live, false⟩,  -- WRITE_REJECTED
      ⟨8, 8, .count, 0, .live, false⟩]  -- DIDT_EARLY
  | .offtStatus => [  -- R330
      ⟨0, 13, .ro, 0, .live, false⟩,  -- VERDICT
      ⟨13, 1, .ro, 0, .live, false⟩,  -- PASSED
      ⟨14, 1, .ro, 0, .live, false⟩]  -- RUNNING
  | .fbCfg => [  -- R376
      ⟨0, 2, .rw, 0, .idle, false⟩,  -- MODE
      ⟨2, 1, .rw, 0, .idle, false⟩,  -- INV
      ⟨3, 8, .rw, 0x32, .boundary, false⟩,  -- FILT
      ⟨11, 8, .rw, 0x32, .boundary, false⟩,  -- SWFILT
      ⟨19, 1, .rw, 0, .boundary, false⟩]  -- ZEN
  | .hallMap => [  -- R377
      ⟨0, 18, .rw, 0x1D850, .idle, false⟩]  -- MAP
  | .fbZcfg => [  -- R378
      ⟨0, 16, .rw, 0, .boundary, false⟩,  -- CPR
      ⟨16, 8, .rw, 2, .boundary, false⟩]  -- ZTOL
  | .fbSpd => [  -- R379
      ⟨0, 8, .rw, 0x10, .boundary, false⟩,  -- WIN
      ⟨8, 16, .rw, 0x3E8, .boundary, false⟩]  -- TMO
  | .fbZlatch => [  -- R380
      ⟨0, 32, .ro, 0, .live, false⟩]  -- ZPOS
  | .fbStatus => [  -- R381
      ⟨0, 1, .flag, 0, .live, false⟩,  -- ZSEEN
      ⟨1, 1, .flag, 0, .live, false⟩,  -- ZDRIFT
      ⟨2, 1, .flag, 0, .live, false⟩,  -- QERR
      ⟨3, 1, .flag, 0, .live, false⟩,  -- HALL_ILLEGAL
      ⟨4, 1, .flag, 0, .live, false⟩,  -- HALL_SKIP
      ⟨5, 1, .flag, 0, .live, false⟩,  -- WRAP
      ⟨6, 1, .flag, 0, .live, false⟩,  -- MAP_REJECTED
      ⟨7, 1, .flag, 0, .live, false⟩,  -- WRITE_REJECTED
      ⟨8, 3, .ro, 0, .live, false⟩,  -- LEVEL
      ⟨11, 2, .ro, 0, .live, false⟩,  -- SWLEVEL
      ⟨16, 8, .ro, 0, .live, false⟩,  -- ZDEV
      ⟨24, 8, .count, 0, .live, false⟩]  -- QERR_CNT
  | .escSs1 => [  -- R468
      ⟨0, 1, .rw, 0, .idle, true⟩,  -- EN
      ⟨1, 15, .rw, 0x3E8, .idle, true⟩,  -- TMAX
      ⟨16, 8, .rw, 0x32, .idle, true⟩]  -- STILL
  | .escSlsPos => [  -- R469
      ⟨0, 24, .rw, 0, .idle, true⟩]  -- LIM
  | .escSlsNeg => [  -- R469
      ⟨0, 24, .rw, 0, .idle, true⟩]  -- LIM
  | .escSlsCfg => [  -- R469
      ⟨0, 1, .rw, 0, .idle, true⟩,  -- EN
      ⟨1, 3, .rw, 2, .idle, true⟩,  -- N
      ⟨4, 4, .rw, 3, .idle, true⟩,  -- DTOL
      ⟨8, 4, .rw, 2, .idle, true⟩]  -- DN
  | .escSlc => [  -- R470
      ⟨0, 1, .rw, 0, .idle, true⟩,  -- EN
      ⟨1, 10, .rw, 0x3FF, .idle, true⟩,  -- TH
      ⟨11, 4, .rw, 2, .idle, true⟩]  -- N
  | .escAxstatus => [  -- R471
      ⟨0, 1, .ro, 0, .live, false⟩,  -- SS1
      ⟨1, 1, .ro, 0, .live, false⟩,  -- HOLD
      ⟨2, 1, .flag, 0, .live, false⟩,  -- SLC_BLIND
      ⟨3, 1, .flag, 0, .live, false⟩,  -- WRITE_REJECTED
      ⟨8, 8, .ro, 0, .live, false⟩]  -- DCNT
  | .signCfg => [  -- R355
      ⟨0, 1, .rw, 0, .idle, true⟩,  -- EN
      ⟨1, 4, .rw, 2, .idle, true⟩,  -- SIGN_N
      ⟨5, 4, .rw, 8, .idle, true⟩,  -- SLACK_N
      ⟨9, 2, .rw, 1, .idle, true⟩,  -- OBST_REACT
      ⟨11, 2, .rw, 1, .idle, true⟩,  -- SLACK_REACT
      ⟨13, 8, .rw, 0x14, .idle, true⟩]  -- HOLDMAX
  | .signVmin => [  -- R356
      ⟨0, 24, .rw, 0x83, .boundary, false⟩,  -- VMIN
      ⟨24, 4, .rw, 4, .boundary, false⟩]  -- LEADTICKS
  | .signCeil => [  -- R357
      ⟨0, 16, .rw, 0x2000, .idle, true⟩]  -- CEIL
  | .signReopen => [  -- R357
      ⟨0, 16, .rw, 0x190, .idle, false⟩,  -- D
      ⟨16, 9, .rw, 0, .idle, false⟩]  -- UNIT
  | .signTbl => [  -- R358
      ⟨0, 17, .ro, 0, .live, false⟩,  -- NCELLS
      ⟨17, 4, .ro, 0, .live, false⟩,  -- PITCH
      ⟨21, 1, .ro, 0, .live, false⟩]  -- LEARNING
  | .signStatus => [  -- R359
      ⟨0, 1, .ro, 0, .live, false⟩,  -- SIGN_HOLD
      ⟨1, 1, .flag, 0, .live, false⟩,  -- OUT_OF_TABLE
      ⟨2, 1, .flag, 0, .live, false⟩,  -- READ_ERR
      ⟨3, 1, .flag, 0, .live, false⟩,  -- REACT_UNIT_LOST
      ⟨4, 1, .flag, 0, .live, false⟩,  -- CEIL_HIT
      ⟨5, 1, .flag, 0, .live, false⟩,  -- WRITE_REJECTED
      ⟨8, 4, .ro, 0, .live, false⟩,  -- OBST_RUN
      ⟨12, 4, .ro, 0, .live, false⟩,  -- SLACK_RUN
      ⟨16, 8, .count, 0, .live, false⟩,  -- MISS
      ⟨24, 8, .count, 0, .live, false⟩]  -- PRED_SKIP
  | .fltSticky => [  -- R431
      ⟨0, 1, .flag, 0, .live, false⟩,  -- SHORT_DIDT
      ⟨1, 1, .flag, 0, .live, false⟩,  -- SHUNT_OC
      ⟨2, 1, .flag, 0, .live, false⟩,  -- INTERLOCK_STUCK
      ⟨3, 1, .flag, 0, .live, false⟩,  -- BST_UV
      ⟨4, 1, .flag, 0, .live, false⟩,  -- FOLLOW_ERROR
      ⟨5, 1, .flag, 0, .live, false⟩,  -- START_FAIL
      ⟨6, 1, .flag, 0, .live, false⟩,  -- ROTOR_LOSS
      ⟨7, 1, .flag, 0, .live, false⟩,  -- ENC_QERR
      ⟨8, 1, .flag, 0, .live, false⟩,  -- HALL_FAULT
      ⟨9, 1, .flag, 0, .live, false⟩,  -- ENC_DRIFT
      ⟨10, 1, .flag, 0, .live, false⟩,  -- SIGN_STARVED
      ⟨11, 1, .flag, 0, .live, false⟩,  -- OFFTEST_FAIL
      ⟨12, 1, .flag, 0, .live, false⟩,  -- SAFETY_FN
      ⟨13, 1, .flag, 0, .live, false⟩,  -- VDRV
      ⟨14, 1, .flag, 0, .live, false⟩,  -- MV_CLOCK
      ⟨15, 1, .flag, 0, .live, false⟩,  -- LINK
      ⟨16, 1, .flag, 0, .live, false⟩,  -- RAIL_BROKEN
      ⟨17, 1, .flag, 0, .live, false⟩,  -- STO_PIN
      ⟨18, 1, .flag, 0, .live, false⟩,  -- ORPHAN
      ⟨19, 1, .flag, 0, .live, false⟩,  -- THERMAL
      ⟨20, 1, .flag, 0, .live, false⟩,  -- VBUS
      ⟨21, 1, .flag, 0, .live, false⟩,  -- CAL_LIMIT
      ⟨22, 1, .flag, 0, .live, false⟩,  -- HOST
      ⟨23, 1, .flag, 0, .live, false⟩,  -- CAN_BUS_OFF
      ⟨24, 1, .flag, 0, .live, false⟩,  -- HUB_OTHER
      ⟨25, 1, .flag, 0, .live, false⟩,  -- ROLLUP
      ⟨29, 3, .ro, 0, .live, false⟩]  -- CLASS
  | .pwmLegcfg => [  -- R293
      ⟨0, 9, .rw, 0x32, .boundary, false⟩,  -- DEAD
      ⟨9, 8, .rw, 0x64, .boundary, false⟩,  -- MINPULSE
      ⟨17, 1, .rw, 0, .boundary, false⟩]  -- MPMODE
  | .pwmTrig01 => [  -- R297
      ⟨0, 16, .rw, 0xFFFF, .boundary, false⟩,  -- CMP0
      ⟨16, 16, .rw, 0xFFFF, .boundary, false⟩]  -- CMP1
  | .pwmTrig23 => [  -- R297
      ⟨0, 16, .rw, 0xFFFF, .boundary, false⟩,  -- CMP2
      ⟨16, 16, .rw, 0xFFFF, .boundary, false⟩]  -- CMP3
  | .gateProfile => [  -- R324
      ⟨0, 3, .rw, 3, .boundary, false⟩,  -- ON_PRE_I
      ⟨3, 4, .rw, 1, .boundary, false⟩,  -- ON_PRE_T
      ⟨7, 3, .rw, 1, .boundary, false⟩,  -- ON_SLOPE_I
      ⟨10, 1, .rw, 1, .boundary, false⟩,  -- ON_ADAPT
      ⟨11, 5, .rw, 8, .boundary, false⟩,  -- ON_SLOPE_T
      ⟨16, 3, .rw, 3, .boundary, false⟩,  -- OFF_PRE_I
      ⟨19, 4, .rw, 2, .boundary, false⟩,  -- OFF_PRE_T
      ⟨23, 3, .rw, 1, .boundary, false⟩,  -- OFF_SLOPE_I
      ⟨26, 1, .rw, 1, .boundary, false⟩,  -- OFF_ADAPT
      ⟨27, 5, .rw, 8, .boundary, false⟩]  -- OFF_SLOPE_T
  | .gateStatus => [  -- R327
      ⟨0, 1, .flag, 0, .live, false⟩,  -- SHORT
      ⟨1, 1, .flag, 0, .live, false⟩,  -- IL_STUCK
      ⟨2, 1, .flag, 0, .live, false⟩,  -- BST_UV
      ⟨3, 1, .flag, 0, .live, false⟩,  -- BST_REFRESHED
      ⟨8, 8, .count, 0, .live, false⟩,  -- IL_LATE
      ⟨16, 8, .count, 0, .live, false⟩]  -- REFRESH
  | .canObj => []  -- R392

/-- Every register, in the order of its base. -/
def Reg.all : List Reg := [
  .devInfo, .regStatus, .tickCfg, .tickCountLo, .tickCountHi, .mainsStatus, .mainsCount, .unitStatus,
  .strikeStatus, .signEngStatus, .cmdCfg, .cmdScale, .cmdGain, .hifDbBaseLo, .hifDbBaseHi, .hifCfg,
  .hifKick, .hifStatus, .hifWdog, .pwrCtrl, .pwrStatus, .pwrEvt, .pwrPark, .clkStatus,
  .rstCmd, .rstStatus, .imgStatus, .nvsCmd, .nvsAddr, .nvsStatus, .nvsData, .fltCap,
  .fltCapOvf, .fltCapTickLo, .fltCapTickHi, .fltAck, .fltClear, .fltCfg, .fltAlert, .fltStatus,
  .fltLatch, .fltClass, .stoStatus, .stoCfg, .escStatus, .escCfg, .lockStatus, .lockWait,
  .lockCmd, .lockRejAddr, .lockPw, .lockNonce, .lockResp, .thermHubcfg, .thermHubstatus, .thermChk,
  .supplyStatus, .monCfg, .monEn, .monUrgent, .monStatus, .monRes, .temp, .sqBaseLo,
  .sqBaseHi, .sqCfg, .sqStatus, .cqBaseLo, .cqBaseHi, .cqCfg, .cqStatus, .cqDropped,
  .bqBaseLo, .bqBaseHi, .bqCfg, .bqStatus, .bqDropped, .msixTable, .msixPba, .unitInfo,
  .unitLeafLo, .unitLeafHi, .unitRef, .unitRollup, .unitState, .strikeInfo, .strikeKeyLo, .strikeKeyHi,
  .strikeLast, .canCfg, .canNbt, .canDbt, .canCmd, .canStatus, .canErrcnt, .canErrlog,
  .canXfiltId, .canXfiltMask, .canRoute, .linkStatus, .escMvstatus, .isenseCalStatus, .pwmMvcfg, .pwmPeriod,
  .pwmMvstatus, .gateBst, .gateMvstatus, .thermCfg, .thermStatus, .trCfg, .trNtc, .vbusCfg,
  .vbusLim, .vbusStatus, .motionDmax, .motionStill, .motionInpos, .motionRebaseLo, .motionRebaseHi, .motionStatus,
  .swCfg, .loopCur, .loopSpd, .loopPos, .loopLimit, .elecCfg, .driveCfg, .revCfg,
  .axisSafe, .axisStatus, .slAlign, .slRamp, .slHand, .slSync, .slLoss, .slCatch,
  .slObs, .slObsCfg, .slStatus, .isenseCfg, .isenseScale, .isenseGain, .isenseOfs, .isenseOfsw,
  .isenseExtra, .isenseTrack, .isenseStatus, .pwmXcfg, .pwmXstat, .pwmOvr, .pwmStatus, .gateSc,
  .gateAxstatus, .offtStatus, .fbCfg, .hallMap, .fbZcfg, .fbSpd, .fbZlatch, .fbStatus,
  .escSs1, .escSlsPos, .escSlsNeg, .escSlsCfg, .escSlc, .escAxstatus, .signCfg, .signVmin,
  .signCeil, .signReopen, .signTbl, .signStatus, .fltSticky, .pwmLegcfg, .pwmTrig01, .pwmTrig23,
  .gateProfile, .gateStatus, .canObj]

/-- BAR0 offset of instance i of a register. -/
def Reg.offset (r : Reg) (i : Nat) : Nat :=
  r.place.base + r.place.stride1 * (i / r.place.n2) + r.place.stride2 * (i % r.place.n2)

/-- The instance of r at offset a, if a is one of its offsets. -/
def Reg.atOffset (r : Reg) (a : Nat) : Option Nat :=
  let p := r.place
  if a < p.base then none
  else
    let d := a - p.base
    let q := d / p.stride1
    let rest := d % p.stride1
    if q < p.n1 ∧ rest % p.stride2 = 0 ∧ rest / p.stride2 < p.n2 then some (q * p.n2 + rest / p.stride2) else none

/-- The register and instance at a BAR0 offset; none where the offset is unmapped (R536). -/
def findReg (a : Nat) : List Reg → Option (Reg × Nat)
  | [] => none
  | r :: rs => match r.atOffset a with
    | some i => some (r, i)
    | none => findReg a rs

/-- The register map of R536 as a function of the offset. -/
def decodeOffset (a : Nat) : Option (Reg × Nat) := findReg a Reg.all

/-- A named field: the register, its lowest bit and its width. -/
structure Fld where
  reg   : Reg
  lo    : Nat
  width : Nat
  deriving DecidableEq, Repr

namespace Fl
/-- DEV_INFO.DEVICE (R547). -/
abbrev devInfoDevice : Fld := ⟨.devInfo, 0, 16⟩
/-- DEV_INFO.REV (R547). -/
abbrev devInfoRev : Fld := ⟨.devInfo, 16, 8⟩
/-- DEV_INFO.OTP_KEY (R547). -/
abbrev devInfoOtpKey : Fld := ⟨.devInfo, 24, 1⟩
/-- REG_STATUS.UNMAPPED (R548). -/
abbrev regStatusUnmapped : Fld := ⟨.regStatus, 0, 1⟩
/-- REG_STATUS.OFF_DOMAIN (R548). -/
abbrev regStatusOffDomain : Fld := ⟨.regStatus, 1, 1⟩
/-- REG_STATUS.ORPHAN_WRITE (R548). -/
abbrev regStatusOrphanWrite : Fld := ⟨.regStatus, 2, 1⟩
/-- REG_STATUS.WRITE_REJECTED (R548). -/
abbrev regStatusWriteRejected : Fld := ⟨.regStatus, 3, 1⟩
/-- REG_STATUS.ADDR (R548). -/
abbrev regStatusAddr : Fld := ⟨.regStatus, 12, 20⟩
/-- TICK_CFG.RATE (R36). -/
abbrev tickCfgRate : Fld := ⟨.tickCfg, 0, 2⟩
/-- TICK_CFG.K_CHECK (R36). -/
abbrev tickCfgKCheck : Fld := ⟨.tickCfg, 2, 1⟩
/-- TICK_COUNT_LO.COUNT_LO (R38). -/
abbrev tickCountLoCountLo : Fld := ⟨.tickCountLo, 0, 32⟩
/-- TICK_COUNT_HI.COUNT_HI (R38). -/
abbrev tickCountHiCountHi : Fld := ⟨.tickCountHi, 0, 16⟩
/-- TICK_COUNT_HI.SNAP_STALE (R38). -/
abbrev tickCountHiSnapStale : Fld := ⟨.tickCountHi, 16, 1⟩
/-- MAINS_STATUS.VALID (R39). -/
abbrev mainsStatusValid : Fld := ⟨.mainsStatus, 0, 1⟩
/-- MAINS_STATUS.PERIOD (R39). -/
abbrev mainsStatusPeriod : Fld := ⟨.mainsStatus, 1, 31⟩
/-- MAINS_COUNT.COUNT (R39). -/
abbrev mainsCountCount : Fld := ⟨.mainsCount, 0, 32⟩
/-- UNIT_STATUS.WRITE_REJECTED (R112). -/
abbrev unitStatusWriteRejected : Fld := ⟨.unitStatus, 0, 1⟩
/-- UNIT_STATUS.REF_REJECTED (R112). -/
abbrev unitStatusRefRejected : Fld := ⟨.unitStatus, 1, 1⟩
/-- UNIT_STATUS.SNAP_STALE (R112). -/
abbrev unitStatusSnapStale : Fld := ⟨.unitStatus, 2, 1⟩
/-- UNIT_STATUS.GROUPS (R112). -/
abbrev unitStatusGroups : Fld := ⟨.unitStatus, 16, 9⟩
/-- STRIKE_STATUS.LIVE (R170). -/
abbrev strikeStatusLive : Fld := ⟨.strikeStatus, 0, 11⟩
/-- STRIKE_STATUS.SNAP_STALE (R170). -/
abbrev strikeStatusSnapStale : Fld := ⟨.strikeStatus, 11, 1⟩
/-- STRIKE_STATUS.SUPPRESSED (R170). -/
abbrev strikeStatusSuppressed : Fld := ⟨.strikeStatus, 12, 1⟩
/-- STRIKE_STATUS.FIRINGS (R170). -/
abbrev strikeStatusFirings : Fld := ⟨.strikeStatus, 16, 16⟩
/-- SIGN_ENG_STATUS.TAGS (R360). -/
abbrev signEngStatusTags : Fld := ⟨.signEngStatus, 0, 8⟩
/-- CMD_CFG.MODE (R151). -/
abbrev cmdCfgMode : Fld := ⟨.cmdCfg, 0, 3⟩
/-- CMD_CFG.FUNC (R151). -/
abbrev cmdCfgFunc : Fld := ⟨.cmdCfg, 3, 1⟩
/-- CMD_CFG.UNIT (R151). -/
abbrev cmdCfgUnit : Fld := ⟨.cmdCfg, 4, 9⟩
/-- CMD_CFG.ENGAGE (R151). -/
abbrev cmdCfgEngage : Fld := ⟨.cmdCfg, 13, 1⟩
/-- CMD_CFG.ENGAGED (R151). -/
abbrev cmdCfgEngaged : Fld := ⟨.cmdCfg, 14, 1⟩
/-- CMD_CFG.LOST (R151). -/
abbrev cmdCfgLost : Fld := ⟨.cmdCfg, 15, 1⟩
/-- CMD_CFG.ENGAGE_REJ (R151). -/
abbrev cmdCfgEngageRej : Fld := ⟨.cmdCfg, 16, 1⟩
/-- CMD_CFG.REV_DROP (R151). -/
abbrev cmdCfgRevDrop : Fld := ⟨.cmdCfg, 17, 1⟩
/-- CMD_SCALE.ZERO (R152). -/
abbrev cmdScaleZero : Fld := ⟨.cmdScale, 0, 16⟩
/-- CMD_SCALE.DEAD (R152). -/
abbrev cmdScaleDead : Fld := ⟨.cmdScale, 16, 8⟩
/-- CMD_GAIN.GAIN (R152). -/
abbrev cmdGainGain : Fld := ⟨.cmdGain, 0, 32⟩
/-- HIF_DB_BASE_LO.ADDR_LO (R81). -/
abbrev hifDbBaseLoAddrLo : Fld := ⟨.hifDbBaseLo, 12, 20⟩
/-- HIF_DB_BASE_HI.ADDR_HI (R81). -/
abbrev hifDbBaseHiAddrHi : Fld := ⟨.hifDbBaseHi, 0, 32⟩
/-- HIF_CFG.DB_EN (R82). -/
abbrev hifCfgDbEn : Fld := ⟨.hifCfg, 0, 1⟩
/-- HIF_CFG.SIGN_TAGS (R82). -/
abbrev hifCfgSignTags : Fld := ⟨.hifCfg, 8, 8⟩
/-- HIF_KICK.KICK (R83). -/
abbrev hifKickKick : Fld := ⟨.hifKick, 0, 32⟩
/-- HIF_STATUS.DB_ACTIVE (R84). -/
abbrev hifStatusDbActive : Fld := ⟨.hifStatus, 0, 1⟩
/-- HIF_STATUS.EXT_TAGS (R84). -/
abbrev hifStatusExtTags : Fld := ⟨.hifStatus, 1, 1⟩
/-- HIF_STATUS.DB_READ_FAIL (R84). -/
abbrev hifStatusDbReadFail : Fld := ⟨.hifStatus, 2, 1⟩
/-- HIF_STATUS.BAD_ACCESS (R84). -/
abbrev hifStatusBadAccess : Fld := ⟨.hifStatus, 3, 1⟩
/-- HIF_STATUS.RING_ERROR (R84). -/
abbrev hifStatusRingError : Fld := ⟨.hifStatus, 4, 1⟩
/-- HIF_STATUS.HOST_SILENT (R84). -/
abbrev hifStatusHostSilent : Fld := ⟨.hifStatus, 5, 1⟩
/-- HIF_STATUS.LINK_LOST (R84). -/
abbrev hifStatusLinkLost : Fld := ⟨.hifStatus, 6, 1⟩
/-- HIF_WDOG.TICKS (R85). -/
abbrev hifWdogTicks : Fld := ⟨.hifWdog, 0, 16⟩
/-- HIF_WDOG.CLASS (R85). -/
abbrev hifWdogClass : Fld := ⟨.hifWdog, 16, 3⟩
/-- PWR_CTRL.MV (R529). -/
abbrev pwrCtrlMv : Fld := ⟨.pwrCtrl, 0, 8⟩
/-- PWR_CTRL.DISP (R529). -/
abbrev pwrCtrlDisp : Fld := ⟨.pwrCtrl, 8, 1⟩
/-- PWR_CTRL.MOTION (R529). -/
abbrev pwrCtrlMotion : Fld := ⟨.pwrCtrl, 9, 1⟩
/-- PWR_CTRL.SIGN (R529). -/
abbrev pwrCtrlSign : Fld := ⟨.pwrCtrl, 10, 1⟩
/-- PWR_CTRL.BUS (R529). -/
abbrev pwrCtrlBus : Fld := ⟨.pwrCtrl, 11, 1⟩
/-- PWR_CTRL.MONITOR (R529). -/
abbrev pwrCtrlMonitor : Fld := ⟨.pwrCtrl, 12, 1⟩
/-- PWR_CTRL.NVS (R529). -/
abbrev pwrCtrlNvs : Fld := ⟨.pwrCtrl, 13, 1⟩
/-- PWR_STATUS.MV_ON (R530). -/
abbrev pwrStatusMvOn : Fld := ⟨.pwrStatus, 0, 8⟩
/-- PWR_STATUS.PARKED (R530). -/
abbrev pwrStatusParked : Fld := ⟨.pwrStatus, 8, 8⟩
/-- PWR_STATUS.VCL_OK (R530). -/
abbrev pwrStatusVclOk : Fld := ⟨.pwrStatus, 16, 8⟩
/-- PWR_STATUS.HUB_ON (R530). -/
abbrev pwrStatusHubOn : Fld := ⟨.pwrStatus, 24, 6⟩
/-- PWR_STATUS.WRITE_REJECTED (R530). -/
abbrev pwrStatusWriteRejected : Fld := ⟨.pwrStatus, 30, 1⟩
/-- PWR_EVT.TRAIN_FAIL (R530). -/
abbrev pwrEvtTrainFail : Fld := ⟨.pwrEvt, 0, 8⟩
/-- PWR_EVT.WAKE_LATE (R530). -/
abbrev pwrEvtWakeLate : Fld := ⟨.pwrEvt, 8, 8⟩
/-- PWR_PARK.PARKTIME (R531). -/
abbrev pwrParkParktime : Fld := ⟨.pwrPark, 0, 16⟩
/-- CLK_STATUS.PLL_LOCK (R531). -/
abbrev clkStatusPllLock : Fld := ⟨.clkStatus, 0, 1⟩
/-- CLK_STATUS.PLL_LOST (R531). -/
abbrev clkStatusPllLost : Fld := ⟨.clkStatus, 1, 1⟩
/-- RST_CMD.KEY (R532). -/
abbrev rstCmdKey : Fld := ⟨.rstCmd, 0, 16⟩
/-- RST_STATUS.CAUSE (R532). -/
abbrev rstStatusCause : Fld := ⟨.rstStatus, 0, 3⟩
/-- IMG_STATUS.SLOT (R535). -/
abbrev imgStatusSlot : Fld := ⟨.imgStatus, 0, 2⟩
/-- IMG_STATUS.DONE (R535). -/
abbrev imgStatusDone : Fld := ⟨.imgStatus, 2, 1⟩
/-- IMG_STATUS.HMAC_OK (R535). -/
abbrev imgStatusHmacOk : Fld := ⟨.imgStatus, 3, 1⟩
/-- IMG_STATUS.SLOT0_BAD (R535). -/
abbrev imgStatusSlot0Bad : Fld := ⟨.imgStatus, 4, 1⟩
/-- IMG_STATUS.SLOT1_BAD (R535). -/
abbrev imgStatusSlot1Bad : Fld := ⟨.imgStatus, 5, 1⟩
/-- IMG_STATUS.SKIPPED (R535). -/
abbrev imgStatusSkipped : Fld := ⟨.imgStatus, 8, 8⟩
/-- IMG_STATUS.GEN (R535). -/
abbrev imgStatusGen : Fld := ⟨.imgStatus, 16, 16⟩
/-- NVS_CMD.OP (R533). -/
abbrev nvsCmdOp : Fld := ⟨.nvsCmd, 0, 2⟩
/-- NVS_CMD.SLOT (R533). -/
abbrev nvsCmdSlot : Fld := ⟨.nvsCmd, 2, 1⟩
/-- NVS_ADDR.PAGE (R533). -/
abbrev nvsAddrPage : Fld := ⟨.nvsAddr, 8, 11⟩
/-- NVS_STATUS.BUSY (R534). -/
abbrev nvsStatusBusy : Fld := ⟨.nvsStatus, 0, 1⟩
/-- NVS_STATUS.DONE (R534). -/
abbrev nvsStatusDone : Fld := ⟨.nvsStatus, 1, 1⟩
/-- NVS_STATUS.REFUSED (R534). -/
abbrev nvsStatusRefused : Fld := ⟨.nvsStatus, 2, 1⟩
/-- NVS_STATUS.REASON (R534). -/
abbrev nvsStatusReason : Fld := ⟨.nvsStatus, 3, 3⟩
/-- NVS_STATUS.VERIFY_FAIL (R534). -/
abbrev nvsStatusVerifyFail : Fld := ⟨.nvsStatus, 6, 1⟩
/-- NVS_DATA.DATA (R533). -/
abbrev nvsDataData : Fld := ⟨.nvsData, 0, 32⟩
/-- FLT_CAP.ID (R424). -/
abbrev fltCapId : Fld := ⟨.fltCap, 0, 12⟩
/-- FLT_CAP.LEVEL (R424). -/
abbrev fltCapLevel : Fld := ⟨.fltCap, 12, 2⟩
/-- FLT_CAP.REREAD (R424). -/
abbrev fltCapReread : Fld := ⟨.fltCap, 14, 1⟩
/-- FLT_CAP.VALID (R424). -/
abbrev fltCapValid : Fld := ⟨.fltCap, 15, 1⟩
/-- FLT_CAP.UNIT (R424). -/
abbrev fltCapUnit : Fld := ⟨.fltCap, 16, 9⟩
/-- FLT_CAP.CLASS (R424). -/
abbrev fltCapClass : Fld := ⟨.fltCap, 25, 3⟩
/-- FLT_CAP_OVF.COUNT (R425). -/
abbrev fltCapOvfCount : Fld := ⟨.fltCapOvf, 0, 8⟩
/-- FLT_CAP_OVF.OVF (R425). -/
abbrev fltCapOvfOvf : Fld := ⟨.fltCapOvf, 8, 1⟩
/-- FLT_CAP_TICK_LO.TICK_LO (R425). -/
abbrev fltCapTickLoTickLo : Fld := ⟨.fltCapTickLo, 0, 32⟩
/-- FLT_CAP_TICK_HI.TICK_HI (R425). -/
abbrev fltCapTickHiTickHi : Fld := ⟨.fltCapTickHi, 0, 16⟩
/-- FLT_ACK.COUNT (R426). -/
abbrev fltAckCount : Fld := ⟨.fltAck, 0, 8⟩
/-- FLT_CLEAR.UNIT (R428). -/
abbrev fltClearUnit : Fld := ⟨.fltClear, 0, 9⟩
/-- FLT_CFG.IRQ_EN (R429). -/
abbrev fltCfgIrqEn : Fld := ⟨.fltCfg, 0, 1⟩
/-- FLT_CFG.PULSE (R429). -/
abbrev fltCfgPulse : Fld := ⟨.fltCfg, 8, 8⟩
/-- FLT_CFG.HUBMAP (R429). -/
abbrev fltCfgHubmap : Fld := ⟨.fltCfg, 16, 8⟩
/-- FLT_ALERT.LEVEL (R429). -/
abbrev fltAlertLevel : Fld := ⟨.fltAlert, 0, 8⟩
/-- FLT_STATUS.CLASS_REJECTED (R430). -/
abbrev fltStatusClassRejected : Fld := ⟨.fltStatus, 0, 1⟩
/-- FLT_STATUS.ACK_STALE (R430). -/
abbrev fltStatusAckStale : Fld := ⟨.fltStatus, 1, 1⟩
/-- FLT_STATUS.CLEAR_REFUSED (R430). -/
abbrev fltStatusClearRefused : Fld := ⟨.fltStatus, 2, 1⟩
/-- FLT_STATUS.SNAP_STALE (R430). -/
abbrev fltStatusSnapStale : Fld := ⟨.fltStatus, 3, 1⟩
/-- FLT_STATUS.SEQ (R430). -/
abbrev fltStatusSeq : Fld := ⟨.fltStatus, 4, 1⟩
/-- FLT_STATUS.CLEAR_AXIS (R430). -/
abbrev fltStatusClearAxis : Fld := ⟨.fltStatus, 16, 7⟩
/-- FLT_LATCH.MSTO (R430). -/
abbrev fltLatchMsto : Fld := ⟨.fltLatch, 0, 8⟩
/-- FLT_LATCH.DSTO (R430). -/
abbrev fltLatchDsto : Fld := ⟨.fltLatch, 8, 1⟩
/-- FLT_LATCH.BROKEN (R430). -/
abbrev fltLatchBroken : Fld := ⟨.fltLatch, 16, 8⟩
/-- FLT_LATCH.BROKEN_HUB (R430). -/
abbrev fltLatchBrokenHub : Fld := ⟨.fltLatch, 24, 1⟩
/-- FLT_CLASS.CLASS (R427). -/
abbrev fltClassClass : Fld := ⟨.fltClass, 0, 3⟩
/-- FLT_CLASS.MIN (R427). -/
abbrev fltClassMin : Fld := ⟨.fltClass, 4, 3⟩
/-- FLT_CLASS.MAX (R427). -/
abbrev fltClassMax : Fld := ⟨.fltClass, 8, 3⟩
/-- STO_STATUS.PIN_A (R466). -/
abbrev stoStatusPinA : Fld := ⟨.stoStatus, 0, 8⟩
/-- STO_STATUS.PIN_B (R466). -/
abbrev stoStatusPinB : Fld := ⟨.stoStatus, 8, 8⟩
/-- STO_STATUS.PATH_A (R466). -/
abbrev stoStatusPathA : Fld := ⟨.stoStatus, 16, 8⟩
/-- STO_STATUS.PATH_B (R466). -/
abbrev stoStatusPathB : Fld := ⟨.stoStatus, 24, 8⟩
/-- STO_CFG.DISC (R466). -/
abbrev stoCfgDisc : Fld := ⟨.stoCfg, 0, 8⟩
/-- ESC_STATUS.SAFE_A (R467). -/
abbrev escStatusSafeA : Fld := ⟨.escStatus, 0, 1⟩
/-- ESC_STATUS.SAFE_B (R467). -/
abbrev escStatusSafeB : Fld := ⟨.escStatus, 1, 1⟩
/-- ESC_STATUS.SELFTEST_OK (R467). -/
abbrev escStatusSelftestOk : Fld := ⟨.escStatus, 2, 1⟩
/-- ESC_STATUS.OSC_FAIL (R467). -/
abbrev escStatusOscFail : Fld := ⟨.escStatus, 3, 1⟩
/-- ESC_STATUS.TICK_FAIL (R467). -/
abbrev escStatusTickFail : Fld := ⟨.escStatus, 4, 1⟩
/-- ESC_STATUS.READBACK_FAIL (R467). -/
abbrev escStatusReadbackFail : Fld := ⟨.escStatus, 5, 1⟩
/-- ESC_STATUS.SAFEHOLD (R467). -/
abbrev escStatusSafehold : Fld := ⟨.escStatus, 8, 8⟩
/-- ESC_STATUS.ORPH (R467). -/
abbrev escStatusOrph : Fld := ⟨.escStatus, 16, 8⟩
/-- ESC_CFG.IRQ_EN (R467). -/
abbrev escCfgIrqEn : Fld := ⟨.escCfg, 0, 1⟩
/-- LOCK_STATUS.SCOPES (R473). -/
abbrev lockStatusScopes : Fld := ⟨.lockStatus, 0, 3⟩
/-- LOCK_STATUS.LOCKOUT (R473). -/
abbrev lockStatusLockout : Fld := ⟨.lockStatus, 3, 1⟩
/-- LOCK_STATUS.BUSY (R473). -/
abbrev lockStatusBusy : Fld := ⟨.lockStatus, 4, 1⟩
/-- LOCK_STATUS.PW_SET (R473). -/
abbrev lockStatusPwSet : Fld := ⟨.lockStatus, 5, 1⟩
/-- LOCK_STATUS.NONCE_VALID (R473). -/
abbrev lockStatusNonceValid : Fld := ⟨.lockStatus, 6, 1⟩
/-- LOCK_STATUS.REJECTED (R473). -/
abbrev lockStatusRejected : Fld := ⟨.lockStatus, 7, 1⟩
/-- LOCK_STATUS.REFUSED (R473). -/
abbrev lockStatusRefused : Fld := ⟨.lockStatus, 8, 1⟩
/-- LOCK_STATUS.NO_NONCE (R473). -/
abbrev lockStatusNoNonce : Fld := ⟨.lockStatus, 9, 1⟩
/-- LOCK_STATUS.LAST (R473). -/
abbrev lockStatusLast : Fld := ⟨.lockStatus, 10, 2⟩
/-- LOCK_STATUS.FAILS (R473). -/
abbrev lockStatusFails : Fld := ⟨.lockStatus, 16, 8⟩
/-- LOCK_WAIT.WAIT (R473). -/
abbrev lockWaitWait : Fld := ⟨.lockWait, 0, 16⟩
/-- LOCK_CMD.OP (R474). -/
abbrev lockCmdOp : Fld := ⟨.lockCmd, 0, 3⟩
/-- LOCK_CMD.SCOPE (R474). -/
abbrev lockCmdScope : Fld := ⟨.lockCmd, 4, 3⟩
/-- LOCK_REJ_ADDR.ADDR (R475). -/
abbrev lockRejAddrAddr : Fld := ⟨.lockRejAddr, 0, 20⟩
/-- LOCK_PW.PW (R475). -/
abbrev lockPwPw : Fld := ⟨.lockPw, 0, 32⟩
/-- LOCK_NONCE.NONCE (R475). -/
abbrev lockNonceNonce : Fld := ⟨.lockNonce, 0, 32⟩
/-- LOCK_RESP.RESP (R475). -/
abbrev lockRespResp : Fld := ⟨.lockResp, 0, 32⟩
/-- THERM_HUBCFG.SEL (R495). -/
abbrev thermHubcfgSel : Fld := ⟨.thermHubcfg, 0, 4⟩
/-- THERM_HUBCFG.WARN (R495). -/
abbrev thermHubcfgWarn : Fld := ⟨.thermHubcfg, 8, 8⟩
/-- THERM_HUBCFG.TRIP (R495). -/
abbrev thermHubcfgTrip : Fld := ⟨.thermHubcfg, 16, 8⟩
/-- THERM_HUBSTATUS.TEMP (R498). -/
abbrev thermHubstatusTemp : Fld := ⟨.thermHubstatus, 0, 16⟩
/-- THERM_HUBSTATUS.VALID (R498). -/
abbrev thermHubstatusValid : Fld := ⟨.thermHubstatus, 16, 1⟩
/-- THERM_HUBSTATUS.FAST (R498). -/
abbrev thermHubstatusFast : Fld := ⟨.thermHubstatus, 17, 1⟩
/-- THERM_HUBSTATUS.WARN (R498). -/
abbrev thermHubstatusWarn : Fld := ⟨.thermHubstatus, 18, 1⟩
/-- THERM_HUBSTATUS.TRIP (R498). -/
abbrev thermHubstatusTrip : Fld := ⟨.thermHubstatus, 19, 1⟩
/-- THERM_HUBSTATUS.WRITE_REJECTED (R498). -/
abbrev thermHubstatusWriteRejected : Fld := ⟨.thermHubstatus, 20, 1⟩
/-- THERM_HUBSTATUS.NVS_OK (R498). -/
abbrev thermHubstatusNvsOk : Fld := ⟨.thermHubstatus, 21, 1⟩
/-- THERM_CHK.LIM (R497). -/
abbrev thermChkLim : Fld := ⟨.thermChk, 0, 6⟩
/-- THERM_CHK.N (R497). -/
abbrev thermChkN : Fld := ⟨.thermChk, 8, 4⟩
/-- SUPPLY_STATUS.NOW (R500). -/
abbrev supplyStatusNow : Fld := ⟨.supplyStatus, 0, 4⟩
/-- SUPPLY_STATUS.SEEN (R500). -/
abbrev supplyStatusSeen : Fld := ⟨.supplyStatus, 4, 4⟩
/-- MON_CFG.NPER (R501). -/
abbrev monCfgNper : Fld := ⟨.monCfg, 0, 3⟩
/-- MON_CFG.GAP (R501). -/
abbrev monCfgGap : Fld := ⟨.monCfg, 4, 4⟩
/-- MON_CFG.DEFPER (R501). -/
abbrev monCfgDefper : Fld := ⟨.monCfg, 8, 16⟩
/-- MON_EN.EN (R501). -/
abbrev monEnEn : Fld := ⟨.monEn, 0, 32⟩
/-- MON_URGENT.INPUT (R501). -/
abbrev monUrgentInput : Fld := ⟨.monUrgent, 0, 5⟩
/-- MON_STATUS.BUSY (R503). -/
abbrev monStatusBusy : Fld := ⟨.monStatus, 0, 8⟩
/-- MON_STATUS.URG_DROP (R503). -/
abbrev monStatusUrgDrop : Fld := ⟨.monStatus, 8, 8⟩
/-- MON_STATUS.NOSYNC (R503). -/
abbrev monStatusNosync : Fld := ⟨.monStatus, 16, 1⟩
/-- MON_RES.VALUE (R502). -/
abbrev monResValue : Fld := ⟨.monRes, 0, 20⟩
/-- MON_RES.SEQ (R502). -/
abbrev monResSeq : Fld := ⟨.monRes, 20, 8⟩
/-- MON_RES.NOSYNC (R502). -/
abbrev monResNosync : Fld := ⟨.monRes, 28, 1⟩
/-- MON_RES.URGENT (R502). -/
abbrev monResUrgent : Fld := ⟨.monRes, 29, 1⟩
/-- MON_RES.CLIP (R502). -/
abbrev monResClip : Fld := ⟨.monRes, 30, 1⟩
/-- TEMP.VALUE (R494). -/
abbrev tempValue : Fld := ⟨.temp, 0, 16⟩
/-- TEMP.OFF (R494). -/
abbrev tempOff : Fld := ⟨.temp, 16, 1⟩
/-- TEMP.SUSPECT (R494). -/
abbrev tempSuspect : Fld := ⟨.temp, 17, 1⟩
/-- TEMP.BROKEN (R494). -/
abbrev tempBroken : Fld := ⟨.temp, 18, 1⟩
/-- SQ_BASE_LO.ADDR_LO (R81). -/
abbrev sqBaseLoAddrLo : Fld := ⟨.sqBaseLo, 12, 20⟩
/-- SQ_BASE_HI.ADDR_HI (R81). -/
abbrev sqBaseHiAddrHi : Fld := ⟨.sqBaseHi, 0, 32⟩
/-- SQ_CFG.ENABLE (R86). -/
abbrev sqCfgEnable : Fld := ⟨.sqCfg, 0, 1⟩
/-- SQ_CFG.PRIO (R86). -/
abbrev sqCfgPrio : Fld := ⟨.sqCfg, 1, 2⟩
/-- SQ_CFG.ANYUNIT (R86). -/
abbrev sqCfgAnyunit : Fld := ⟨.sqCfg, 3, 1⟩
/-- SQ_CFG.SIZE (R86). -/
abbrev sqCfgSize : Fld := ⟨.sqCfg, 4, 5⟩
/-- SQ_CFG.UNIT (R86). -/
abbrev sqCfgUnit : Fld := ⟨.sqCfg, 9, 9⟩
/-- SQ_CFG.DEFCQ (R86). -/
abbrev sqCfgDefcq : Fld := ⟨.sqCfg, 18, 6⟩
/-- SQ_STATUS.CONSUMER (R87). -/
abbrev sqStatusConsumer : Fld := ⟨.sqStatus, 0, 16⟩
/-- SQ_STATUS.ACTIVE (R87). -/
abbrev sqStatusActive : Fld := ⟨.sqStatus, 16, 1⟩
/-- SQ_STATUS.FENCE_WAIT (R87). -/
abbrev sqStatusFenceWait : Fld := ⟨.sqStatus, 17, 1⟩
/-- SQ_STATUS.ERROR (R87). -/
abbrev sqStatusError : Fld := ⟨.sqStatus, 24, 8⟩
/-- CQ_BASE_LO.ADDR_LO (R81). -/
abbrev cqBaseLoAddrLo : Fld := ⟨.cqBaseLo, 12, 20⟩
/-- CQ_BASE_HI.ADDR_HI (R81). -/
abbrev cqBaseHiAddrHi : Fld := ⟨.cqBaseHi, 0, 32⟩
/-- CQ_CFG.ENABLE (R88). -/
abbrev cqCfgEnable : Fld := ⟨.cqCfg, 0, 1⟩
/-- CQ_CFG.IRQ_EN (R88). -/
abbrev cqCfgIrqEn : Fld := ⟨.cqCfg, 1, 1⟩
/-- CQ_CFG.SIZE (R88). -/
abbrev cqCfgSize : Fld := ⟨.cqCfg, 2, 5⟩
/-- CQ_CFG.MOD_TICKS (R88). -/
abbrev cqCfgModTicks : Fld := ⟨.cqCfg, 8, 8⟩
/-- CQ_STATUS.PRODUCER (R89). -/
abbrev cqStatusProducer : Fld := ⟨.cqStatus, 0, 16⟩
/-- CQ_STATUS.ACTIVE (R89). -/
abbrev cqStatusActive : Fld := ⟨.cqStatus, 16, 1⟩
/-- CQ_STATUS.PHASE (R89). -/
abbrev cqStatusPhase : Fld := ⟨.cqStatus, 17, 1⟩
/-- CQ_STATUS.PENDING (R89). -/
abbrev cqStatusPending : Fld := ⟨.cqStatus, 18, 1⟩
/-- CQ_STATUS.ERROR (R89). -/
abbrev cqStatusError : Fld := ⟨.cqStatus, 24, 8⟩
/-- CQ_DROPPED.COUNT (R90). -/
abbrev cqDroppedCount : Fld := ⟨.cqDropped, 0, 32⟩
/-- BQ_BASE_LO.ADDR_LO (R81). -/
abbrev bqBaseLoAddrLo : Fld := ⟨.bqBaseLo, 12, 20⟩
/-- BQ_BASE_HI.ADDR_HI (R81). -/
abbrev bqBaseHiAddrHi : Fld := ⟨.bqBaseHi, 0, 32⟩
/-- BQ_CFG.ENABLE (R88). -/
abbrev bqCfgEnable : Fld := ⟨.bqCfg, 0, 1⟩
/-- BQ_CFG.IRQ_EN (R88). -/
abbrev bqCfgIrqEn : Fld := ⟨.bqCfg, 1, 1⟩
/-- BQ_CFG.SIZE (R88). -/
abbrev bqCfgSize : Fld := ⟨.bqCfg, 2, 5⟩
/-- BQ_CFG.MOD_TICKS (R88). -/
abbrev bqCfgModTicks : Fld := ⟨.bqCfg, 8, 8⟩
/-- BQ_STATUS.PRODUCER (R89). -/
abbrev bqStatusProducer : Fld := ⟨.bqStatus, 0, 16⟩
/-- BQ_STATUS.ACTIVE (R89). -/
abbrev bqStatusActive : Fld := ⟨.bqStatus, 16, 1⟩
/-- BQ_STATUS.PHASE (R89). -/
abbrev bqStatusPhase : Fld := ⟨.bqStatus, 17, 1⟩
/-- BQ_STATUS.ERROR (R89). -/
abbrev bqStatusError : Fld := ⟨.bqStatus, 24, 8⟩
/-- BQ_DROPPED.COUNT (R90). -/
abbrev bqDroppedCount : Fld := ⟨.bqDropped, 0, 32⟩
/-- MSIX_TABLE.WORD (R550). -/
abbrev msixTableWord : Fld := ⟨.msixTable, 0, 32⟩
/-- MSIX_PBA.WORD (R550). -/
abbrev msixPbaWord : Fld := ⟨.msixPba, 0, 32⟩
/-- UNIT_INFO.PARENT (R107). -/
abbrev unitInfoParent : Fld := ⟨.unitInfo, 0, 9⟩
/-- UNIT_INFO.HAS_PARENT (R107). -/
abbrev unitInfoHasParent : Fld := ⟨.unitInfo, 9, 1⟩
/-- UNIT_INFO.BOUND (R107). -/
abbrev unitInfoBound : Fld := ⟨.unitInfo, 10, 1⟩
/-- UNIT_INFO.MEMBERS (R107). -/
abbrev unitInfoMembers : Fld := ⟨.unitInfo, 11, 7⟩
/-- UNIT_INFO.REF_NOW (R107). -/
abbrev unitInfoRefNow : Fld := ⟨.unitInfo, 18, 9⟩
/-- UNIT_LEAF_LO.LEAF_LO (R108). -/
abbrev unitLeafLoLeafLo : Fld := ⟨.unitLeafLo, 0, 32⟩
/-- UNIT_LEAF_HI.LEAF_HI (R108). -/
abbrev unitLeafHiLeafHi : Fld := ⟨.unitLeafHi, 0, 32⟩
/-- UNIT_REF.REF (R109). -/
abbrev unitRefRef : Fld := ⟨.unitRef, 0, 9⟩
/-- UNIT_REF.MODE (R109). -/
abbrev unitRefMode : Fld := ⟨.unitRef, 9, 1⟩
/-- UNIT_ROLLUP.CLASS (R110). -/
abbrev unitRollupClass : Fld := ⟨.unitRollup, 0, 3⟩
/-- UNIT_STATE.STATE (R111). -/
abbrev unitStateState : Fld := ⟨.unitState, 0, 3⟩
/-- UNIT_STATE.ARMED (R111). -/
abbrev unitStateArmed : Fld := ⟨.unitState, 3, 1⟩
/-- STRIKE_INFO.STATE (R167). -/
abbrev strikeInfoState : Fld := ⟨.strikeInfo, 0, 3⟩
/-- STRIKE_INFO.UNIT (R167). -/
abbrev strikeInfoUnit : Fld := ⟨.strikeInfo, 3, 9⟩
/-- STRIKE_INFO.KEY (R167). -/
abbrev strikeInfoKey : Fld := ⟨.strikeInfo, 12, 2⟩
/-- STRIKE_INFO.MODE (R167). -/
abbrev strikeInfoMode : Fld := ⟨.strikeInfo, 14, 2⟩
/-- STRIKE_INFO.REPEAT (R167). -/
abbrev strikeInfoRepeat : Fld := ⟨.strikeInfo, 16, 1⟩
/-- STRIKE_INFO.FIRE_IF_PASSED (R167). -/
abbrev strikeInfoFireIfPassed : Fld := ⟨.strikeInfo, 17, 1⟩
/-- STRIKE_INFO.ACTION (R167). -/
abbrev strikeInfoAction : Fld := ⟨.strikeInfo, 18, 3⟩
/-- STRIKE_INFO.ACTION_UNIT (R167). -/
abbrev strikeInfoActionUnit : Fld := ⟨.strikeInfo, 21, 9⟩
/-- STRIKE_KEY_LO.KEY_LO (R168). -/
abbrev strikeKeyLoKeyLo : Fld := ⟨.strikeKeyLo, 0, 32⟩
/-- STRIKE_KEY_HI.KEY_HI (R168). -/
abbrev strikeKeyHiKeyHi : Fld := ⟨.strikeKeyHi, 0, 8⟩
/-- STRIKE_LAST.TICK (R169). -/
abbrev strikeLastTick : Fld := ⟨.strikeLast, 0, 32⟩
/-- CAN_CFG.ENABLE (R399). -/
abbrev canCfgEnable : Fld := ⟨.canCfg, 0, 1⟩
/-- CAN_CFG.RESTRICT (R399). -/
abbrev canCfgRestrict : Fld := ⟨.canCfg, 1, 1⟩
/-- CAN_CFG.BOFF_AUTO (R399). -/
abbrev canCfgBoffAuto : Fld := ⟨.canCfg, 2, 1⟩
/-- CAN_CFG.BOFF_FLUSH (R399). -/
abbrev canCfgBoffFlush : Fld := ⟨.canCfg, 3, 1⟩
/-- CAN_CFG.SELFRX (R399). -/
abbrev canCfgSelfrx : Fld := ⟨.canCfg, 4, 1⟩
/-- CAN_NBT.NBRP (R400). -/
abbrev canNbtNbrp : Fld := ⟨.canNbt, 0, 8⟩
/-- CAN_NBT.NSEG1 (R400). -/
abbrev canNbtNseg1 : Fld := ⟨.canNbt, 8, 8⟩
/-- CAN_NBT.NSEG2 (R400). -/
abbrev canNbtNseg2 : Fld := ⟨.canNbt, 16, 7⟩
/-- CAN_NBT.NSJW (R400). -/
abbrev canNbtNsjw : Fld := ⟨.canNbt, 23, 7⟩
/-- CAN_DBT.DBRP (R400). -/
abbrev canDbtDbrp : Fld := ⟨.canDbt, 0, 5⟩
/-- CAN_DBT.DSEG1 (R400). -/
abbrev canDbtDseg1 : Fld := ⟨.canDbt, 5, 5⟩
/-- CAN_DBT.DSEG2 (R400). -/
abbrev canDbtDseg2 : Fld := ⟨.canDbt, 10, 4⟩
/-- CAN_DBT.DSJW (R400). -/
abbrev canDbtDsjw : Fld := ⟨.canDbt, 14, 4⟩
/-- CAN_DBT.TDC_EN (R400). -/
abbrev canDbtTdcEn : Fld := ⟨.canDbt, 18, 1⟩
/-- CAN_DBT.TDCO (R400). -/
abbrev canDbtTdco : Fld := ⟨.canDbt, 19, 7⟩
/-- CAN_CMD.RECOVER (R401). -/
abbrev canCmdRecover : Fld := ⟨.canCmd, 0, 1⟩
/-- CAN_CMD.FLUSH (R401). -/
abbrev canCmdFlush : Fld := ⟨.canCmd, 1, 1⟩
/-- CAN_STATUS.STATE (R402). -/
abbrev canStatusState : Fld := ⟨.canStatus, 0, 2⟩
/-- CAN_STATUS.LEC (R402). -/
abbrev canStatusLec : Fld := ⟨.canStatus, 2, 3⟩
/-- CAN_STATUS.DLEC (R402). -/
abbrev canStatusDlec : Fld := ⟨.canStatus, 5, 3⟩
/-- CAN_STATUS.BT_ERR (R402). -/
abbrev canStatusBtErr : Fld := ⟨.canStatus, 8, 1⟩
/-- CAN_STATUS.BOFF_WAIT (R402). -/
abbrev canStatusBoffWait : Fld := ⟨.canStatus, 9, 1⟩
/-- CAN_STATUS.RECOVERING (R402). -/
abbrev canStatusRecovering : Fld := ⟨.canStatus, 10, 1⟩
/-- CAN_STATUS.TDCV (R402). -/
abbrev canStatusTdcv : Fld := ⟨.canStatus, 16, 7⟩
/-- CAN_STATUS.TXQ (R402). -/
abbrev canStatusTxq : Fld := ⟨.canStatus, 23, 6⟩
/-- CAN_ERRCNT.TEC (R403). -/
abbrev canErrcntTec : Fld := ⟨.canErrcnt, 0, 9⟩
/-- CAN_ERRCNT.REC (R403). -/
abbrev canErrcntRec : Fld := ⟨.canErrcnt, 16, 8⟩
/-- CAN_ERRLOG.ERRFRAMES (R403). -/
abbrev canErrlogErrframes : Fld := ⟨.canErrlog, 0, 16⟩
/-- CAN_ERRLOG.BOFF_CNT (R403). -/
abbrev canErrlogBoffCnt : Fld := ⟨.canErrlog, 16, 8⟩
/-- CAN_ERRLOG.RX_OVF (R403). -/
abbrev canErrlogRxOvf : Fld := ⟨.canErrlog, 24, 8⟩
/-- CAN_XFILT_ID.ID (R405). -/
abbrev canXfiltIdId : Fld := ⟨.canXfiltId, 0, 29⟩
/-- CAN_XFILT_ID.EN (R405). -/
abbrev canXfiltIdEn : Fld := ⟨.canXfiltId, 31, 1⟩
/-- CAN_XFILT_MASK.MASK (R405). -/
abbrev canXfiltMaskMask : Fld := ⟨.canXfiltMask, 0, 29⟩
/-- CAN_ROUTE.ROUTE (R404). -/
abbrev canRouteRoute : Fld := ⟨.canRoute, 0, 32⟩
/-- LINK_STATUS.TRAINED (R40). -/
abbrev linkStatusTrained : Fld := ⟨.linkStatus, 0, 1⟩
/-- LINK_STATUS.LATCH_MISS (R40). -/
abbrev linkStatusLatchMiss : Fld := ⟨.linkStatus, 1, 1⟩
/-- LINK_STATUS.SETPOINT_MISSED (R40). -/
abbrev linkStatusSetpointMissed : Fld := ⟨.linkStatus, 2, 1⟩
/-- LINK_STATUS.SKEW (R40). -/
abbrev linkStatusSkew : Fld := ⟨.linkStatus, 8, 8⟩
/-- LINK_STATUS.CRC_ERRORS (R40). -/
abbrev linkStatusCrcErrors : Fld := ⟨.linkStatus, 16, 16⟩
/-- ESC_MVSTATUS.ORPHAN (R472). -/
abbrev escMvstatusOrphan : Fld := ⟨.escMvstatus, 0, 1⟩
/-- ESC_MVSTATUS.BY_MONITOR (R472). -/
abbrev escMvstatusByMonitor : Fld := ⟨.escMvstatus, 1, 1⟩
/-- ESC_MVSTATUS.BEAT_MISS (R472). -/
abbrev escMvstatusBeatMiss : Fld := ⟨.escMvstatus, 8, 8⟩
/-- ISENSE_CAL_STATUS.DONE (R268). -/
abbrev isenseCalStatusDone : Fld := ⟨.isenseCalStatus, 0, 1⟩
/-- ISENSE_CAL_STATUS.RUNNING (R268). -/
abbrev isenseCalStatusRunning : Fld := ⟨.isenseCalStatus, 1, 1⟩
/-- ISENSE_CAL_STATUS.LIMIT (R268). -/
abbrev isenseCalStatusLimit : Fld := ⟨.isenseCalStatus, 2, 1⟩
/-- ISENSE_CAL_STATUS.FAIL_AXES (R268). -/
abbrev isenseCalStatusFailAxes : Fld := ⟨.isenseCalStatus, 8, 8⟩
/-- PWM_MVCFG.K (R290). -/
abbrev pwmMvcfgK : Fld := ⟨.pwmMvcfg, 0, 4⟩
/-- PWM_MVCFG.ALIGN (R290). -/
abbrev pwmMvcfgAlign : Fld := ⟨.pwmMvcfg, 4, 1⟩
/-- PWM_MVCFG.MIDUPD (R290). -/
abbrev pwmMvcfgMidupd : Fld := ⟨.pwmMvcfg, 5, 1⟩
/-- PWM_PERIOD.PLEN (R292). -/
abbrev pwmPeriodPlen : Fld := ⟨.pwmPeriod, 0, 16⟩
/-- PWM_PERIOD.LONG (R292). -/
abbrev pwmPeriodLong : Fld := ⟨.pwmPeriod, 16, 4⟩
/-- PWM_MVSTATUS.DLL_LOCK (R299). -/
abbrev pwmMvstatusDllLock : Fld := ⟨.pwmMvstatus, 0, 1⟩
/-- PWM_MVSTATUS.DLL_LOST (R299). -/
abbrev pwmMvstatusDllLost : Fld := ⟨.pwmMvstatus, 1, 1⟩
/-- PWM_MVSTATUS.CLK_TRIP (R299). -/
abbrev pwmMvstatusClkTrip : Fld := ⟨.pwmMvstatus, 2, 1⟩
/-- PWM_MVSTATUS.DBG_HALT (R299). -/
abbrev pwmMvstatusDbgHalt : Fld := ⟨.pwmMvstatus, 3, 1⟩
/-- GATE_BST.BSTUV (R326). -/
abbrev gateBstBstuv : Fld := ⟨.gateBst, 0, 5⟩
/-- GATE_BST.TRICKLE_EN (R326). -/
abbrev gateBstTrickleEn : Fld := ⟨.gateBst, 5, 1⟩
/-- GATE_MVSTATUS.VDRV_OK (R329). -/
abbrev gateMvstatusVdrvOk : Fld := ⟨.gateMvstatus, 0, 1⟩
/-- GATE_MVSTATUS.VDRV_UV (R329). -/
abbrev gateMvstatusVdrvUv : Fld := ⟨.gateMvstatus, 1, 1⟩
/-- GATE_MVSTATUS.VDRV_OV (R329). -/
abbrev gateMvstatusVdrvOv : Fld := ⟨.gateMvstatus, 2, 1⟩
/-- GATE_MVSTATUS.VDRV (R329). -/
abbrev gateMvstatusVdrv : Fld := ⟨.gateMvstatus, 8, 8⟩
/-- THERM_CFG.SEL (R495). -/
abbrev thermCfgSel : Fld := ⟨.thermCfg, 0, 6⟩
/-- THERM_CFG.WARN (R495). -/
abbrev thermCfgWarn : Fld := ⟨.thermCfg, 8, 8⟩
/-- THERM_CFG.TRIP (R495). -/
abbrev thermCfgTrip : Fld := ⟨.thermCfg, 16, 8⟩
/-- THERM_CFG.RPAIR (R495). -/
abbrev thermCfgRpair : Fld := ⟨.thermCfg, 24, 1⟩
/-- THERM_STATUS.TEMP (R498). -/
abbrev thermStatusTemp : Fld := ⟨.thermStatus, 0, 16⟩
/-- THERM_STATUS.VALID (R498). -/
abbrev thermStatusValid : Fld := ⟨.thermStatus, 16, 1⟩
/-- THERM_STATUS.FAST (R498). -/
abbrev thermStatusFast : Fld := ⟨.thermStatus, 17, 1⟩
/-- THERM_STATUS.WARN (R498). -/
abbrev thermStatusWarn : Fld := ⟨.thermStatus, 18, 1⟩
/-- THERM_STATUS.TRIP (R498). -/
abbrev thermStatusTrip : Fld := ⟨.thermStatus, 19, 1⟩
/-- THERM_STATUS.WRITE_REJECTED (R498). -/
abbrev thermStatusWriteRejected : Fld := ⟨.thermStatus, 20, 1⟩
/-- TR_CFG.MODE0 (R496). -/
abbrev trCfgMode0 : Fld := ⟨.trCfg, 0, 2⟩
/-- TR_CFG.MODE1 (R496). -/
abbrev trCfgMode1 : Fld := ⟨.trCfg, 2, 2⟩
/-- TR_CFG.B (R496). -/
abbrev trCfgB : Fld := ⟨.trCfg, 4, 13⟩
/-- TR_NTC.R25 (R496). -/
abbrev trNtcR25 : Fld := ⟨.trNtc, 0, 16⟩
/-- TR_NTC.DOFS (R496). -/
abbrev trNtcDofs : Fld := ⟨.trNtc, 16, 8⟩
/-- VBUS_CFG.FS (R499). -/
abbrev vbusCfgFs : Fld := ⟨.vbusCfg, 0, 12⟩
/-- VBUS_LIM.UV (R499). -/
abbrev vbusLimUv : Fld := ⟨.vbusLim, 0, 12⟩
/-- VBUS_LIM.OV (R499). -/
abbrev vbusLimOv : Fld := ⟨.vbusLim, 16, 12⟩
/-- VBUS_STATUS.VBS (R499). -/
abbrev vbusStatusVbs : Fld := ⟨.vbusStatus, 0, 12⟩
/-- VBUS_STATUS.UV_NOW (R499). -/
abbrev vbusStatusUvNow : Fld := ⟨.vbusStatus, 12, 1⟩
/-- VBUS_STATUS.OV_NOW (R499). -/
abbrev vbusStatusOvNow : Fld := ⟨.vbusStatus, 13, 1⟩
/-- MOTION_DMAX.DMAX (R145). -/
abbrev motionDmaxDmax : Fld := ⟨.motionDmax, 0, 32⟩
/-- MOTION_STILL.SPEED (R146). -/
abbrev motionStillSpeed : Fld := ⟨.motionStill, 0, 16⟩
/-- MOTION_STILL.TICKS (R146). -/
abbrev motionStillTicks : Fld := ⟨.motionStill, 16, 8⟩
/-- MOTION_INPOS.WINDOW (R147). -/
abbrev motionInposWindow : Fld := ⟨.motionInpos, 0, 8⟩
/-- MOTION_INPOS.SETTLE (R147). -/
abbrev motionInposSettle : Fld := ⟨.motionInpos, 8, 16⟩
/-- MOTION_INPOS.FOLLOW (R147). -/
abbrev motionInposFollow : Fld := ⟨.motionInpos, 24, 8⟩
/-- MOTION_REBASE_LO.POS_LO (R148). -/
abbrev motionRebaseLoPosLo : Fld := ⟨.motionRebaseLo, 0, 32⟩
/-- MOTION_REBASE_HI.POS_HI (R148). -/
abbrev motionRebaseHiPosHi : Fld := ⟨.motionRebaseHi, 0, 8⟩
/-- MOTION_REBASE_HI.REL (R148). -/
abbrev motionRebaseHiRel : Fld := ⟨.motionRebaseHi, 8, 1⟩
/-- MOTION_STATUS.WRITE_REJECTED (R149). -/
abbrev motionStatusWriteRejected : Fld := ⟨.motionStatus, 0, 1⟩
/-- MOTION_STATUS.POS_UNVERIFIED (R149). -/
abbrev motionStatusPosUnverified : Fld := ⟨.motionStatus, 1, 1⟩
/-- MOTION_STATUS.SWA_NEW (R149). -/
abbrev motionStatusSwaNew : Fld := ⟨.motionStatus, 2, 1⟩
/-- MOTION_STATUS.SWB_NEW (R149). -/
abbrev motionStatusSwbNew : Fld := ⟨.motionStatus, 3, 1⟩
/-- MOTION_STATUS.STREAM_UNDERRUN (R149). -/
abbrev motionStatusStreamUnderrun : Fld := ⟨.motionStatus, 4, 1⟩
/-- MOTION_STATUS.MODE (R149). -/
abbrev motionStatusMode : Fld := ⟨.motionStatus, 5, 3⟩
/-- MOTION_STATUS.DOWN (R149). -/
abbrev motionStatusDown : Fld := ⟨.motionStatus, 8, 1⟩
/-- MOTION_STATUS.QUEUE (R149). -/
abbrev motionStatusQueue : Fld := ⟨.motionStatus, 16, 5⟩
/-- SW_CFG.EDGE_A (R150). -/
abbrev swCfgEdgeA : Fld := ⟨.swCfg, 0, 2⟩
/-- SW_CFG.ONCE_A (R150). -/
abbrev swCfgOnceA : Fld := ⟨.swCfg, 2, 1⟩
/-- SW_CFG.EDGE_B (R150). -/
abbrev swCfgEdgeB : Fld := ⟨.swCfg, 4, 2⟩
/-- SW_CFG.ONCE_B (R150). -/
abbrev swCfgOnceB : Fld := ⟨.swCfg, 6, 1⟩
/-- LOOP_CUR.KP (R202). -/
abbrev loopCurKp : Fld := ⟨.loopCur, 0, 16⟩
/-- LOOP_CUR.KI (R202). -/
abbrev loopCurKi : Fld := ⟨.loopCur, 16, 16⟩
/-- LOOP_SPD.KP (R203). -/
abbrev loopSpdKp : Fld := ⟨.loopSpd, 0, 16⟩
/-- LOOP_SPD.KI (R203). -/
abbrev loopSpdKi : Fld := ⟨.loopSpd, 16, 16⟩
/-- LOOP_POS.KP (R204). -/
abbrev loopPosKp : Fld := ⟨.loopPos, 0, 16⟩
/-- LOOP_POS.FF (R204). -/
abbrev loopPosFf : Fld := ⟨.loopPos, 16, 8⟩
/-- LOOP_LIMIT.IMAX (R205). -/
abbrev loopLimitImax : Fld := ⟨.loopLimit, 0, 16⟩
/-- LOOP_LIMIT.IHOLD (R205). -/
abbrev loopLimitIhold : Fld := ⟨.loopLimit, 16, 16⟩
/-- ELEC_CFG.CPE (R206). -/
abbrev elecCfgCpe : Fld := ⟨.elecCfg, 0, 16⟩
/-- ELEC_CFG.OFFSET (R206). -/
abbrev elecCfgOffset : Fld := ⟨.elecCfg, 16, 16⟩
/-- DRIVE_CFG.VLIM (R207). -/
abbrev driveCfgVlim : Fld := ⟨.driveCfg, 0, 16⟩
/-- DRIVE_CFG.IQFILT (R207). -/
abbrev driveCfgIqfilt : Fld := ⟨.driveCfg, 16, 3⟩
/-- DRIVE_CFG.PRECHARGE (R207). -/
abbrev driveCfgPrecharge : Fld := ⟨.driveCfg, 20, 6⟩
/-- DRIVE_CFG.ALT (R207). -/
abbrev driveCfgAlt : Fld := ⟨.driveCfg, 26, 4⟩
/-- REV_CFG.THRESH (R208). -/
abbrev revCfgThresh : Fld := ⟨.revCfg, 0, 24⟩
/-- REV_CFG.REVMODE (R208). -/
abbrev revCfgRevmode : Fld := ⟨.revCfg, 24, 1⟩
/-- REV_CFG.PROBE (R208). -/
abbrev revCfgProbe : Fld := ⟨.revCfg, 25, 7⟩
/-- AXIS_SAFE.ORPHAN (R209). -/
abbrev axisSafeOrphan : Fld := ⟨.axisSafe, 0, 1⟩
/-- AXIS_SAFE.HALT (R209). -/
abbrev axisSafeHalt : Fld := ⟨.axisSafe, 1, 1⟩
/-- AXIS_STATUS.DRIVE (R210). -/
abbrev axisStatusDrive : Fld := ⟨.axisStatus, 0, 4⟩
/-- AXIS_STATUS.VOLTAGE_LIMITED (R210). -/
abbrev axisStatusVoltageLimited : Fld := ⟨.axisStatus, 4, 1⟩
/-- AXIS_STATUS.VLIM_SEEN (R210). -/
abbrev axisStatusVlimSeen : Fld := ⟨.axisStatus, 5, 1⟩
/-- AXIS_STATUS.REV_BRAKING (R210). -/
abbrev axisStatusRevBraking : Fld := ⟨.axisStatus, 6, 1⟩
/-- AXIS_STATUS.IQ_HELD (R210). -/
abbrev axisStatusIqHeld : Fld := ⟨.axisStatus, 7, 1⟩
/-- AXIS_STATUS.PRECHARGE_CUT (R210). -/
abbrev axisStatusPrechargeCut : Fld := ⟨.axisStatus, 8, 1⟩
/-- AXIS_STATUS.WRITE_REJECTED (R210). -/
abbrev axisStatusWriteRejected : Fld := ⟨.axisStatus, 9, 1⟩
/-- SL_ALIGN.IALIGN (R235). -/
abbrev slAlignIalign : Fld := ⟨.slAlign, 0, 16⟩
/-- SL_ALIGN.ALIGN_TICKS (R235). -/
abbrev slAlignAlignTicks : Fld := ⟨.slAlign, 16, 16⟩
/-- SL_RAMP.IRAMP (R236). -/
abbrev slRampIramp : Fld := ⟨.slRamp, 0, 16⟩
/-- SL_RAMP.ISTEP (R236). -/
abbrev slRampIstep : Fld := ⟨.slRamp, 16, 16⟩
/-- SL_HAND.VHAND (R237). -/
abbrev slHandVhand : Fld := ⟨.slHand, 0, 24⟩
/-- SL_HAND.ZCCOUNT (R237). -/
abbrev slHandZccount : Fld := ⟨.slHand, 24, 4⟩
/-- SL_HAND.STARTRETRY (R237). -/
abbrev slHandStartretry : Fld := ⟨.slHand, 28, 2⟩
/-- SL_SYNC.SYNCMAX (R238). -/
abbrev slSyncSyncmax : Fld := ⟨.slSync, 0, 8⟩
/-- SL_SYNC.SYNCWIN (R238). -/
abbrev slSyncSyncwin : Fld := ⟨.slSync, 8, 6⟩
/-- SL_SYNC.CATCHWINDOW (R238). -/
abbrev slSyncCatchwindow : Fld := ⟨.slSync, 16, 16⟩
/-- SL_LOSS.LOSSANGLE (R239). -/
abbrev slLossLossangle : Fld := ⟨.slLoss, 0, 16⟩
/-- SL_LOSS.LOSSCOUNT (R239). -/
abbrev slLossLosscount : Fld := ⟨.slLoss, 16, 4⟩
/-- SL_LOSS.FLOATPER (R239). -/
abbrev slLossFloatper : Fld := ⟨.slLoss, 20, 2⟩
/-- SL_LOSS.CATCHTRIES (R239). -/
abbrev slLossCatchtries : Fld := ⟨.slLoss, 22, 2⟩
/-- SL_LOSS.WFLOAT_EN (R239). -/
abbrev slLossWfloatEn : Fld := ⟨.slLoss, 24, 1⟩
/-- SL_CATCH.VCATCH (R240). -/
abbrev slCatchVcatch : Fld := ⟨.slCatch, 0, 24⟩
/-- SL_CATCH.HYST (R240). -/
abbrev slCatchHyst : Fld := ⟨.slCatch, 24, 8⟩
/-- SL_OBS.RPH (R241). -/
abbrev slObsRph : Fld := ⟨.slObs, 0, 16⟩
/-- SL_OBS.LPH (R241). -/
abbrev slObsLph : Fld := ⟨.slObs, 16, 16⟩
/-- SL_OBS_CFG.VLOW (R241). -/
abbrev slObsCfgVlow : Fld := ⟨.slObsCfg, 0, 24⟩
/-- SL_OBS_CFG.BW (R241). -/
abbrev slObsCfgBw : Fld := ⟨.slObsCfg, 24, 8⟩
/-- SL_STATUS.PHASE (R242). -/
abbrev slStatusPhase : Fld := ⟨.slStatus, 0, 4⟩
/-- SL_STATUS.ANGLE_KNOWN (R242). -/
abbrev slStatusAngleKnown : Fld := ⟨.slStatus, 4, 1⟩
/-- SL_STATUS.ATTEMPT (R242). -/
abbrev slStatusAttempt : Fld := ⟨.slStatus, 5, 2⟩
/-- SL_STATUS.CATCH_TRY (R242). -/
abbrev slStatusCatchTry : Fld := ⟨.slStatus, 7, 2⟩
/-- SL_STATUS.LOSS_RUN (R242). -/
abbrev slStatusLossRun : Fld := ⟨.slStatus, 9, 3⟩
/-- SL_STATUS.START_RETRIED (R242). -/
abbrev slStatusStartRetried : Fld := ⟨.slStatus, 12, 1⟩
/-- SL_STATUS.LOSS_SEEN (R242). -/
abbrev slStatusLossSeen : Fld := ⟨.slStatus, 13, 1⟩
/-- SL_STATUS.NO_HANDOVER (R242). -/
abbrev slStatusNoHandover : Fld := ⟨.slStatus, 14, 1⟩
/-- SL_STATUS.WRITE_REJECTED (R242). -/
abbrev slStatusWriteRejected : Fld := ⟨.slStatus, 15, 1⟩
/-- SL_STATUS.BEYOND (R242). -/
abbrev slStatusBeyond : Fld := ⟨.slStatus, 16, 8⟩
/-- SL_STATUS.WSKIP (R242). -/
abbrev slStatusWskip : Fld := ⟨.slStatus, 24, 8⟩
/-- ISENSE_CFG.RANGE (R262). -/
abbrev isenseCfgRange : Fld := ⟨.isenseCfg, 0, 2⟩
/-- ISENSE_CFG.BLANK (R262). -/
abbrev isenseCfgBlank : Fld := ⟨.isenseCfg, 2, 10⟩
/-- ISENSE_CFG.TRIG_EN (R262). -/
abbrev isenseCfgTrigEn : Fld := ⟨.isenseCfg, 12, 1⟩
/-- ISENSE_CFG.OFFTRACK (R262). -/
abbrev isenseCfgOfftrack : Fld := ⟨.isenseCfg, 13, 1⟩
/-- ISENSE_CFG.OFFTC (R262). -/
abbrev isenseCfgOfftc : Fld := ⟨.isenseCfg, 14, 4⟩
/-- ISENSE_SCALE.ISCALE (R263). -/
abbrev isenseScaleIscale : Fld := ⟨.isenseScale, 0, 16⟩
/-- ISENSE_SCALE.RSH (R263). -/
abbrev isenseScaleRsh : Fld := ⟨.isenseScale, 16, 16⟩
/-- ISENSE_GAIN.GAIN_A (R264). -/
abbrev isenseGainGainA : Fld := ⟨.isenseGain, 0, 16⟩
/-- ISENSE_GAIN.GAIN_B (R264). -/
abbrev isenseGainGainB : Fld := ⟨.isenseGain, 16, 16⟩
/-- ISENSE_OFS.OFS0_A (R265). -/
abbrev isenseOfsOfs0A : Fld := ⟨.isenseOfs, 0, 16⟩
/-- ISENSE_OFS.OFS0_B (R265). -/
abbrev isenseOfsOfs0B : Fld := ⟨.isenseOfs, 16, 16⟩
/-- ISENSE_OFSW.OFS1_A (R265). -/
abbrev isenseOfswOfs1A : Fld := ⟨.isenseOfsw, 0, 16⟩
/-- ISENSE_OFSW.OFS1_B (R265). -/
abbrev isenseOfswOfs1B : Fld := ⟨.isenseOfsw, 16, 16⟩
/-- ISENSE_EXTRA.EXTRA_A (R266). -/
abbrev isenseExtraExtraA : Fld := ⟨.isenseExtra, 0, 16⟩
/-- ISENSE_EXTRA.EXTRA_B (R266). -/
abbrev isenseExtraExtraB : Fld := ⟨.isenseExtra, 16, 16⟩
/-- ISENSE_TRACK.TRK_A (R266). -/
abbrev isenseTrackTrkA : Fld := ⟨.isenseTrack, 0, 16⟩
/-- ISENSE_TRACK.TRK_B (R266). -/
abbrev isenseTrackTrkB : Fld := ⟨.isenseTrack, 16, 16⟩
/-- ISENSE_STATUS.NARROW (R267). -/
abbrev isenseStatusNarrow : Fld := ⟨.isenseStatus, 0, 16⟩
/-- ISENSE_STATUS.PREDICTED (R267). -/
abbrev isenseStatusPredicted : Fld := ⟨.isenseStatus, 16, 1⟩
/-- ISENSE_STATUS.CLIP (R267). -/
abbrev isenseStatusClip : Fld := ⟨.isenseStatus, 17, 1⟩
/-- ISENSE_STATUS.OFS_DRIFT (R267). -/
abbrev isenseStatusOfsDrift : Fld := ⟨.isenseStatus, 18, 1⟩
/-- ISENSE_STATUS.TRIG_SKIP (R267). -/
abbrev isenseStatusTrigSkip : Fld := ⟨.isenseStatus, 19, 1⟩
/-- ISENSE_STATUS.WRITE_REJECTED (R267). -/
abbrev isenseStatusWriteRejected : Fld := ⟨.isenseStatus, 20, 1⟩
/-- PWM_XCFG.XMODE (R294). -/
abbrev pwmXcfgXmode : Fld := ⟨.pwmXcfg, 0, 1⟩
/-- PWM_XSTAT.DUTY (R295). -/
abbrev pwmXstatDuty : Fld := ⟨.pwmXstat, 0, 16⟩
/-- PWM_XSTAT.XK (R295). -/
abbrev pwmXstatXk : Fld := ⟨.pwmXstat, 16, 4⟩
/-- PWM_XSTAT.XOFF (R295). -/
abbrev pwmXstatXoff : Fld := ⟨.pwmXstat, 20, 1⟩
/-- PWM_OVR.SWAP (R296). -/
abbrev pwmOvrSwap : Fld := ⟨.pwmOvr, 0, 2⟩
/-- PWM_OVR.INVX (R296). -/
abbrev pwmOvrInvx : Fld := ⟨.pwmOvr, 2, 1⟩
/-- PWM_STATUS.COMPARE_BEYOND_PERIOD (R298). -/
abbrev pwmStatusCompareBeyondPeriod : Fld := ⟨.pwmStatus, 0, 1⟩
/-- PWM_STATUS.WRITE_REJECTED (R298). -/
abbrev pwmStatusWriteRejected : Fld := ⟨.pwmStatus, 1, 1⟩
/-- PWM_STATUS.HALTED (R298). -/
abbrev pwmStatusHalted : Fld := ⟨.pwmStatus, 2, 1⟩
/-- PWM_STATUS.MP_DROP (R298). -/
abbrev pwmStatusMpDrop : Fld := ⟨.pwmStatus, 8, 8⟩
/-- PWM_STATUS.MP_STRETCH (R298). -/
abbrev pwmStatusMpStretch : Fld := ⟨.pwmStatus, 16, 8⟩
/-- PWM_STATUS.LATE_COMMIT (R298). -/
abbrev pwmStatusLateCommit : Fld := ⟨.pwmStatus, 24, 8⟩
/-- GATE_SC.DDTH (R325). -/
abbrev gateScDdth : Fld := ⟨.gateSc, 0, 5⟩
/-- GATE_SC.SLTH (R325). -/
abbrev gateScSlth : Fld := ⟨.gateSc, 5, 5⟩
/-- GATE_SC.FILT (R325). -/
abbrev gateScFilt : Fld := ⟨.gateSc, 10, 4⟩
/-- GATE_SC.OCTH (R325). -/
abbrev gateScOcth : Fld := ⟨.gateSc, 14, 8⟩
/-- GATE_SC.OCFILT (R325). -/
abbrev gateScOcfilt : Fld := ⟨.gateSc, 22, 4⟩
/-- GATE_SC.SOFT_I (R325). -/
abbrev gateScSoftI : Fld := ⟨.gateSc, 26, 3⟩
/-- GATE_AXSTATUS.SHUNT_OC (R328). -/
abbrev gateAxstatusShuntOc : Fld := ⟨.gateAxstatus, 0, 1⟩
/-- GATE_AXSTATUS.SOFT_OFF (R328). -/
abbrev gateAxstatusSoftOff : Fld := ⟨.gateAxstatus, 1, 1⟩
/-- GATE_AXSTATUS.WRITE_REJECTED (R328). -/
abbrev gateAxstatusWriteRejected : Fld := ⟨.gateAxstatus, 2, 1⟩
/-- GATE_AXSTATUS.DIDT_EARLY (R328). -/
abbrev gateAxstatusDidtEarly : Fld := ⟨.gateAxstatus, 8, 8⟩
/-- OFFT_STATUS.VERDICT (R330). -/
abbrev offtStatusVerdict : Fld := ⟨.offtStatus, 0, 13⟩
/-- OFFT_STATUS.PASSED (R330). -/
abbrev offtStatusPassed : Fld := ⟨.offtStatus, 13, 1⟩
/-- OFFT_STATUS.RUNNING (R330). -/
abbrev offtStatusRunning : Fld := ⟨.offtStatus, 14, 1⟩
/-- FB_CFG.MODE (R376). -/
abbrev fbCfgMode : Fld := ⟨.fbCfg, 0, 2⟩
/-- FB_CFG.INV (R376). -/
abbrev fbCfgInv : Fld := ⟨.fbCfg, 2, 1⟩
/-- FB_CFG.FILT (R376). -/
abbrev fbCfgFilt : Fld := ⟨.fbCfg, 3, 8⟩
/-- FB_CFG.SWFILT (R376). -/
abbrev fbCfgSwfilt : Fld := ⟨.fbCfg, 11, 8⟩
/-- FB_CFG.ZEN (R376). -/
abbrev fbCfgZen : Fld := ⟨.fbCfg, 19, 1⟩
/-- HALL_MAP.MAP (R377). -/
abbrev hallMapMap : Fld := ⟨.hallMap, 0, 18⟩
/-- FB_ZCFG.CPR (R378). -/
abbrev fbZcfgCpr : Fld := ⟨.fbZcfg, 0, 16⟩
/-- FB_ZCFG.ZTOL (R378). -/
abbrev fbZcfgZtol : Fld := ⟨.fbZcfg, 16, 8⟩
/-- FB_SPD.WIN (R379). -/
abbrev fbSpdWin : Fld := ⟨.fbSpd, 0, 8⟩
/-- FB_SPD.TMO (R379). -/
abbrev fbSpdTmo : Fld := ⟨.fbSpd, 8, 16⟩
/-- FB_ZLATCH.ZPOS (R380). -/
abbrev fbZlatchZpos : Fld := ⟨.fbZlatch, 0, 32⟩
/-- FB_STATUS.ZSEEN (R381). -/
abbrev fbStatusZseen : Fld := ⟨.fbStatus, 0, 1⟩
/-- FB_STATUS.ZDRIFT (R381). -/
abbrev fbStatusZdrift : Fld := ⟨.fbStatus, 1, 1⟩
/-- FB_STATUS.QERR (R381). -/
abbrev fbStatusQerr : Fld := ⟨.fbStatus, 2, 1⟩
/-- FB_STATUS.HALL_ILLEGAL (R381). -/
abbrev fbStatusHallIllegal : Fld := ⟨.fbStatus, 3, 1⟩
/-- FB_STATUS.HALL_SKIP (R381). -/
abbrev fbStatusHallSkip : Fld := ⟨.fbStatus, 4, 1⟩
/-- FB_STATUS.WRAP (R381). -/
abbrev fbStatusWrap : Fld := ⟨.fbStatus, 5, 1⟩
/-- FB_STATUS.MAP_REJECTED (R381). -/
abbrev fbStatusMapRejected : Fld := ⟨.fbStatus, 6, 1⟩
/-- FB_STATUS.WRITE_REJECTED (R381). -/
abbrev fbStatusWriteRejected : Fld := ⟨.fbStatus, 7, 1⟩
/-- FB_STATUS.LEVEL (R381). -/
abbrev fbStatusLevel : Fld := ⟨.fbStatus, 8, 3⟩
/-- FB_STATUS.SWLEVEL (R381). -/
abbrev fbStatusSwlevel : Fld := ⟨.fbStatus, 11, 2⟩
/-- FB_STATUS.ZDEV (R381). -/
abbrev fbStatusZdev : Fld := ⟨.fbStatus, 16, 8⟩
/-- FB_STATUS.QERR_CNT (R381). -/
abbrev fbStatusQerrCnt : Fld := ⟨.fbStatus, 24, 8⟩
/-- ESC_SS1.EN (R468). -/
abbrev escSs1En : Fld := ⟨.escSs1, 0, 1⟩
/-- ESC_SS1.TMAX (R468). -/
abbrev escSs1Tmax : Fld := ⟨.escSs1, 1, 15⟩
/-- ESC_SS1.STILL (R468). -/
abbrev escSs1Still : Fld := ⟨.escSs1, 16, 8⟩
/-- ESC_SLS_POS.LIM (R469). -/
abbrev escSlsPosLim : Fld := ⟨.escSlsPos, 0, 24⟩
/-- ESC_SLS_NEG.LIM (R469). -/
abbrev escSlsNegLim : Fld := ⟨.escSlsNeg, 0, 24⟩
/-- ESC_SLS_CFG.EN (R469). -/
abbrev escSlsCfgEn : Fld := ⟨.escSlsCfg, 0, 1⟩
/-- ESC_SLS_CFG.N (R469). -/
abbrev escSlsCfgN : Fld := ⟨.escSlsCfg, 1, 3⟩
/-- ESC_SLS_CFG.DTOL (R469). -/
abbrev escSlsCfgDtol : Fld := ⟨.escSlsCfg, 4, 4⟩
/-- ESC_SLS_CFG.DN (R469). -/
abbrev escSlsCfgDn : Fld := ⟨.escSlsCfg, 8, 4⟩
/-- ESC_SLC.EN (R470). -/
abbrev escSlcEn : Fld := ⟨.escSlc, 0, 1⟩
/-- ESC_SLC.TH (R470). -/
abbrev escSlcTh : Fld := ⟨.escSlc, 1, 10⟩
/-- ESC_SLC.N (R470). -/
abbrev escSlcN : Fld := ⟨.escSlc, 11, 4⟩
/-- ESC_AXSTATUS.SS1 (R471). -/
abbrev escAxstatusSs1 : Fld := ⟨.escAxstatus, 0, 1⟩
/-- ESC_AXSTATUS.HOLD (R471). -/
abbrev escAxstatusHold : Fld := ⟨.escAxstatus, 1, 1⟩
/-- ESC_AXSTATUS.SLC_BLIND (R471). -/
abbrev escAxstatusSlcBlind : Fld := ⟨.escAxstatus, 2, 1⟩
/-- ESC_AXSTATUS.WRITE_REJECTED (R471). -/
abbrev escAxstatusWriteRejected : Fld := ⟨.escAxstatus, 3, 1⟩
/-- ESC_AXSTATUS.DCNT (R471). -/
abbrev escAxstatusDcnt : Fld := ⟨.escAxstatus, 8, 8⟩
/-- SIGN_CFG.EN (R355). -/
abbrev signCfgEn : Fld := ⟨.signCfg, 0, 1⟩
/-- SIGN_CFG.SIGN_N (R355). -/
abbrev signCfgSignN : Fld := ⟨.signCfg, 1, 4⟩
/-- SIGN_CFG.SLACK_N (R355). -/
abbrev signCfgSlackN : Fld := ⟨.signCfg, 5, 4⟩
/-- SIGN_CFG.OBST_REACT (R355). -/
abbrev signCfgObstReact : Fld := ⟨.signCfg, 9, 2⟩
/-- SIGN_CFG.SLACK_REACT (R355). -/
abbrev signCfgSlackReact : Fld := ⟨.signCfg, 11, 2⟩
/-- SIGN_CFG.HOLDMAX (R355). -/
abbrev signCfgHoldmax : Fld := ⟨.signCfg, 13, 8⟩
/-- SIGN_VMIN.VMIN (R356). -/
abbrev signVminVmin : Fld := ⟨.signVmin, 0, 24⟩
/-- SIGN_VMIN.LEADTICKS (R356). -/
abbrev signVminLeadticks : Fld := ⟨.signVmin, 24, 4⟩
/-- SIGN_CEIL.CEIL (R357). -/
abbrev signCeilCeil : Fld := ⟨.signCeil, 0, 16⟩
/-- SIGN_REOPEN.D (R357). -/
abbrev signReopenD : Fld := ⟨.signReopen, 0, 16⟩
/-- SIGN_REOPEN.UNIT (R357). -/
abbrev signReopenUnit : Fld := ⟨.signReopen, 16, 9⟩
/-- SIGN_TBL.NCELLS (R358). -/
abbrev signTblNcells : Fld := ⟨.signTbl, 0, 17⟩
/-- SIGN_TBL.PITCH (R358). -/
abbrev signTblPitch : Fld := ⟨.signTbl, 17, 4⟩
/-- SIGN_TBL.LEARNING (R358). -/
abbrev signTblLearning : Fld := ⟨.signTbl, 21, 1⟩
/-- SIGN_STATUS.SIGN_HOLD (R359). -/
abbrev signStatusSignHold : Fld := ⟨.signStatus, 0, 1⟩
/-- SIGN_STATUS.OUT_OF_TABLE (R359). -/
abbrev signStatusOutOfTable : Fld := ⟨.signStatus, 1, 1⟩
/-- SIGN_STATUS.READ_ERR (R359). -/
abbrev signStatusReadErr : Fld := ⟨.signStatus, 2, 1⟩
/-- SIGN_STATUS.REACT_UNIT_LOST (R359). -/
abbrev signStatusReactUnitLost : Fld := ⟨.signStatus, 3, 1⟩
/-- SIGN_STATUS.CEIL_HIT (R359). -/
abbrev signStatusCeilHit : Fld := ⟨.signStatus, 4, 1⟩
/-- SIGN_STATUS.WRITE_REJECTED (R359). -/
abbrev signStatusWriteRejected : Fld := ⟨.signStatus, 5, 1⟩
/-- SIGN_STATUS.OBST_RUN (R359). -/
abbrev signStatusObstRun : Fld := ⟨.signStatus, 8, 4⟩
/-- SIGN_STATUS.SLACK_RUN (R359). -/
abbrev signStatusSlackRun : Fld := ⟨.signStatus, 12, 4⟩
/-- SIGN_STATUS.MISS (R359). -/
abbrev signStatusMiss : Fld := ⟨.signStatus, 16, 8⟩
/-- SIGN_STATUS.PRED_SKIP (R359). -/
abbrev signStatusPredSkip : Fld := ⟨.signStatus, 24, 8⟩
/-- FLT_STICKY.SHORT_DIDT (R431). -/
abbrev fltStickyShortDidt : Fld := ⟨.fltSticky, 0, 1⟩
/-- FLT_STICKY.SHUNT_OC (R431). -/
abbrev fltStickyShuntOc : Fld := ⟨.fltSticky, 1, 1⟩
/-- FLT_STICKY.INTERLOCK_STUCK (R431). -/
abbrev fltStickyInterlockStuck : Fld := ⟨.fltSticky, 2, 1⟩
/-- FLT_STICKY.BST_UV (R431). -/
abbrev fltStickyBstUv : Fld := ⟨.fltSticky, 3, 1⟩
/-- FLT_STICKY.FOLLOW_ERROR (R431). -/
abbrev fltStickyFollowError : Fld := ⟨.fltSticky, 4, 1⟩
/-- FLT_STICKY.START_FAIL (R431). -/
abbrev fltStickyStartFail : Fld := ⟨.fltSticky, 5, 1⟩
/-- FLT_STICKY.ROTOR_LOSS (R431). -/
abbrev fltStickyRotorLoss : Fld := ⟨.fltSticky, 6, 1⟩
/-- FLT_STICKY.ENC_QERR (R431). -/
abbrev fltStickyEncQerr : Fld := ⟨.fltSticky, 7, 1⟩
/-- FLT_STICKY.HALL_FAULT (R431). -/
abbrev fltStickyHallFault : Fld := ⟨.fltSticky, 8, 1⟩
/-- FLT_STICKY.ENC_DRIFT (R431). -/
abbrev fltStickyEncDrift : Fld := ⟨.fltSticky, 9, 1⟩
/-- FLT_STICKY.SIGN_STARVED (R431). -/
abbrev fltStickySignStarved : Fld := ⟨.fltSticky, 10, 1⟩
/-- FLT_STICKY.OFFTEST_FAIL (R431). -/
abbrev fltStickyOfftestFail : Fld := ⟨.fltSticky, 11, 1⟩
/-- FLT_STICKY.SAFETY_FN (R431). -/
abbrev fltStickySafetyFn : Fld := ⟨.fltSticky, 12, 1⟩
/-- FLT_STICKY.VDRV (R431). -/
abbrev fltStickyVdrv : Fld := ⟨.fltSticky, 13, 1⟩
/-- FLT_STICKY.MV_CLOCK (R431). -/
abbrev fltStickyMvClock : Fld := ⟨.fltSticky, 14, 1⟩
/-- FLT_STICKY.LINK (R431). -/
abbrev fltStickyLink : Fld := ⟨.fltSticky, 15, 1⟩
/-- FLT_STICKY.RAIL_BROKEN (R431). -/
abbrev fltStickyRailBroken : Fld := ⟨.fltSticky, 16, 1⟩
/-- FLT_STICKY.STO_PIN (R431). -/
abbrev fltStickyStoPin : Fld := ⟨.fltSticky, 17, 1⟩
/-- FLT_STICKY.ORPHAN (R431). -/
abbrev fltStickyOrphan : Fld := ⟨.fltSticky, 18, 1⟩
/-- FLT_STICKY.THERMAL (R431). -/
abbrev fltStickyThermal : Fld := ⟨.fltSticky, 19, 1⟩
/-- FLT_STICKY.VBUS (R431). -/
abbrev fltStickyVbus : Fld := ⟨.fltSticky, 20, 1⟩
/-- FLT_STICKY.CAL_LIMIT (R431). -/
abbrev fltStickyCalLimit : Fld := ⟨.fltSticky, 21, 1⟩
/-- FLT_STICKY.HOST (R431). -/
abbrev fltStickyHost : Fld := ⟨.fltSticky, 22, 1⟩
/-- FLT_STICKY.CAN_BUS_OFF (R431). -/
abbrev fltStickyCanBusOff : Fld := ⟨.fltSticky, 23, 1⟩
/-- FLT_STICKY.HUB_OTHER (R431). -/
abbrev fltStickyHubOther : Fld := ⟨.fltSticky, 24, 1⟩
/-- FLT_STICKY.ROLLUP (R431). -/
abbrev fltStickyRollup : Fld := ⟨.fltSticky, 25, 1⟩
/-- FLT_STICKY.CLASS (R431). -/
abbrev fltStickyClass : Fld := ⟨.fltSticky, 29, 3⟩
/-- PWM_LEGCFG.DEAD (R293). -/
abbrev pwmLegcfgDead : Fld := ⟨.pwmLegcfg, 0, 9⟩
/-- PWM_LEGCFG.MINPULSE (R293). -/
abbrev pwmLegcfgMinpulse : Fld := ⟨.pwmLegcfg, 9, 8⟩
/-- PWM_LEGCFG.MPMODE (R293). -/
abbrev pwmLegcfgMpmode : Fld := ⟨.pwmLegcfg, 17, 1⟩
/-- PWM_TRIG01.CMP0 (R297). -/
abbrev pwmTrig01Cmp0 : Fld := ⟨.pwmTrig01, 0, 16⟩
/-- PWM_TRIG01.CMP1 (R297). -/
abbrev pwmTrig01Cmp1 : Fld := ⟨.pwmTrig01, 16, 16⟩
/-- PWM_TRIG23.CMP2 (R297). -/
abbrev pwmTrig23Cmp2 : Fld := ⟨.pwmTrig23, 0, 16⟩
/-- PWM_TRIG23.CMP3 (R297). -/
abbrev pwmTrig23Cmp3 : Fld := ⟨.pwmTrig23, 16, 16⟩
/-- GATE_PROFILE.ON_PRE_I (R324). -/
abbrev gateProfileOnPreI : Fld := ⟨.gateProfile, 0, 3⟩
/-- GATE_PROFILE.ON_PRE_T (R324). -/
abbrev gateProfileOnPreT : Fld := ⟨.gateProfile, 3, 4⟩
/-- GATE_PROFILE.ON_SLOPE_I (R324). -/
abbrev gateProfileOnSlopeI : Fld := ⟨.gateProfile, 7, 3⟩
/-- GATE_PROFILE.ON_ADAPT (R324). -/
abbrev gateProfileOnAdapt : Fld := ⟨.gateProfile, 10, 1⟩
/-- GATE_PROFILE.ON_SLOPE_T (R324). -/
abbrev gateProfileOnSlopeT : Fld := ⟨.gateProfile, 11, 5⟩
/-- GATE_PROFILE.OFF_PRE_I (R324). -/
abbrev gateProfileOffPreI : Fld := ⟨.gateProfile, 16, 3⟩
/-- GATE_PROFILE.OFF_PRE_T (R324). -/
abbrev gateProfileOffPreT : Fld := ⟨.gateProfile, 19, 4⟩
/-- GATE_PROFILE.OFF_SLOPE_I (R324). -/
abbrev gateProfileOffSlopeI : Fld := ⟨.gateProfile, 23, 3⟩
/-- GATE_PROFILE.OFF_ADAPT (R324). -/
abbrev gateProfileOffAdapt : Fld := ⟨.gateProfile, 26, 1⟩
/-- GATE_PROFILE.OFF_SLOPE_T (R324). -/
abbrev gateProfileOffSlopeT : Fld := ⟨.gateProfile, 27, 5⟩
/-- GATE_STATUS.SHORT (R327). -/
abbrev gateStatusShort : Fld := ⟨.gateStatus, 0, 1⟩
/-- GATE_STATUS.IL_STUCK (R327). -/
abbrev gateStatusIlStuck : Fld := ⟨.gateStatus, 1, 1⟩
/-- GATE_STATUS.BST_UV (R327). -/
abbrev gateStatusBstUv : Fld := ⟨.gateStatus, 2, 1⟩
/-- GATE_STATUS.BST_REFRESHED (R327). -/
abbrev gateStatusBstRefreshed : Fld := ⟨.gateStatus, 3, 1⟩
/-- GATE_STATUS.IL_LATE (R327). -/
abbrev gateStatusIlLate : Fld := ⟨.gateStatus, 8, 8⟩
/-- GATE_STATUS.REFRESH (R327). -/
abbrev gateStatusRefresh : Fld := ⟨.gateStatus, 16, 8⟩
end Fl

end Sys2Proof.Machine
end

