-- ==== Sys2Proof/Machine/State.lean ====
section
/-! DEFINITION. State.lean: the state of the block as plain data, the reasons a step can stop, and the state after reset.
Large arrays are sorted lists of (index, entry); an index that is not listed holds the default entry, which is its reset
value. -/

namespace Sys2Proof.Machine

/-- A sparse array: pairs in strictly rising order of the index. -/
abbrev SMap (α : Type) := List (Nat × α)

/-! ## Set-up registers (R10, R11, R540) -/

/-- A Boundary write or a commit that waits for its boundary (R11): the register's offset, the bits written, their values, and
whether it was registered too late for the next boundary. -/
structure PendW where
  off  : Nat
  mask : Word
  val  : Word
  late : Bool
  /-- It is taken at a tick boundary only (R36, R291). -/
  tick : Bool
  deriving DecidableEq, Repr

/-- Register contents, by BAR0 offset. -/
structure Regs where
  /-- Writable fields: the value last accepted (R540). -/
  acc   : SMap Word := []
  /-- Writable fields: the value in force (R10). -/
  force : SMap Word := []
  /-- Bits the device sets: sticky flags, counts, stored read-only fields. -/
  hw    : SMap Word := []
  /-- Writes that wait for a boundary, oldest first. -/
  pend  : List PendW := []
  /-- The one 64-bit read snapshot of each block (R545): 0 tick count, 1 unit leaf masks, 2 strike keys, 3 capture tick;
  the high half, the instance that filled it, and whether a low-half read has come since the last high-half read. -/
  snap  : SMap (Word × Nat × Bool) := []
  /-- Data the last read access returned, and whether the last configuration request was answered with Configuration Request
  Retry Status (the model's own observation of the read commands). -/
  rdata : Word := 0
  crs   : Bool := false
  deriving DecidableEq, Repr

/-! ## Time (R17, R21, R22) -/

/-- Time bases. Absolute times count in hub clocks of 2.5 ns. -/
structure Time where
  tick      : BitVec 48 := 0
  /-- Tick rate in force (R36): 0 10 kHz, 1 5 kHz, 2 20 kHz. -/
  rate      : BitVec 2 := 0
  /-- Absolute time of the present tick boundary. -/
  start     : Nat := 0
  /-- Reference edge of MAINS_SYNC (R21), and the last qualified edge. -/
  mainsRef  : Option Nat := none
  mainsLast : Nat := 0
  mainsCount : Word := 0
  mainsPeriod : BitVec 31 := 0
  mainsValid : Bool := false
  /-- MAINS_COUNT as phase 1 latched it. -/
  mainsLatch : Word := 0
  deriving DecidableEq, Repr

/-! ## Host interface, rings, records -/

/-- The status codes of R75. -/
inductive Status where
  | ok | accepted | decelRaised | overshoot | armedBehind | alreadyFired | strikeFired | obstacle | slack | learnCycle
  | badOpcode | reservedSet | badCq | unitNotInRing | unitAbsent | locked
  | paramRange | busy | unitFaulted | reverseRefused | notArmed | bindCycle | wrongState
  | stopped | stoppedStrike | stoppedSign | stoppedFault | startFailed | rotorLost | aborted | fenceTimeout
  | producerRange | fetchError | consumerRange | badConfig | fenceHalt
  deriving DecidableEq, Repr

/-- The code of a status (R75). -/
def Status.code : Status → BitVec 8
  | .ok => 0x00 | .accepted => 0x01 | .decelRaised => 0x02 | .overshoot => 0x03 | .armedBehind => 0x04
  | .alreadyFired => 0x05 | .strikeFired => 0x06 | .obstacle => 0x07 | .slack => 0x08 | .learnCycle => 0x09
  | .badOpcode => 0x20 | .reservedSet => 0x21 | .badCq => 0x22 | .unitNotInRing => 0x23 | .unitAbsent => 0x24
  | .locked => 0x25 | .paramRange => 0x40 | .busy => 0x41 | .unitFaulted => 0x42 | .reverseRefused => 0x43
  | .notArmed => 0x44 | .bindCycle => 0x45 | .wrongState => 0x46 | .stopped => 0x80 | .stoppedStrike => 0x81
  | .stoppedSign => 0x82 | .stoppedFault => 0x83 | .startFailed => 0x84 | .rotorLost => 0x85 | .aborted => 0x86
  | .fenceTimeout => 0x87 | .producerRange => 0xC0 | .fetchError => 0xC1 | .consumerRange => 0xC2
  | .badConfig => 0xC3 | .fenceHalt => 0xC4

/-- The kinds of record (R71). -/
inductive RecKind where
  | final | interim | event | notice
  deriving DecidableEq, Repr

/-- What a descriptor's records carry: where it stood and what it asked for (R58, R71). -/
structure Owner where
  sq     : Nat
  /-- How often the ring had been enabled at dispatch (R67, mode 1). -/
  epoch  : Nat
  slot   : BitVec 16
  tag    : BitVec 8
  opcode : BitVec 8
  /-- The completion ring that takes its records (R58, R60). -/
  cq     : Nat
  silent : Bool
  noirq  : Bool
  /-- The final record holds a reserved credit (R63). -/
  credit : Bool
  deriving DecidableEq, Repr

/-- A record that has been produced and waits to be written (R65, R71). `hidden`: suppressed by `silent`, it only returns its
credit in its turn (R64). -/
structure CRec where
  tag    : BitVec 8
  status : Status
  unit   : BitVec 9
  sq     : BitVec 7
  tick   : Word
  result : Word
  slot   : BitVec 16
  opcode : BitVec 8
  kind   : RecKind
  noirq  : Bool
  credit : Bool
  hidden : Bool
  deriving DecidableEq, Repr

/-- What the device sends to the host: memory writes, MSI-X messages and memory reads (R43, R45, R54). -/
inductive Msg where
  /-- A completion record: ring, slot index, address, its four words. -/
  | record (cq : Nat) (index : Nat) (addr : Nat) (w : List Word)
  /-- The part of a bus entry in one block of 64 bytes: ring, slot index, address, its words; the block with bytes 0 to 15 goes last
  (R56). -/
  | entry (bq : Nat) (index : Nat) (addr : Nat) (w : List Word)
  /-- Any other memory write: SNAPSHOT records, LEARN buffers. -/
  | write (addr : Nat) (w : List Word)
  /-- The device area of the doorbell page (R55): base, tick count, words 0x800 to 0xB17. -/
  | devArea (addr : Nat) (tick : BitVec 48) (w : List Word)
  /-- An MSI-X message of a vector (R44, R74). -/
  | msix (v : Nat)
  /-- A read of the doorbell host area, or of a part of it where the Max read request size splits it (R41, R54): address and
  length in bytes. -/
  | readDoorbell (addr : Nat) (len : Nat)
  /-- A descriptor read (R33). -/
  | readDesc (sq : Nat) (slot : Nat) (addr : Nat)
  /-- A remontoire read of 64 bytes (R345). -/
  | readCells (ax : Nat) (block : Nat) (addr : Nat)
  /-- The data read of an indirect CAN frame (R395). -/
  | readData (c : Nat) (key : Nat) (addr : Nat)
  /-- A frame on bus c (R386), and an error or overload condition the device signals there. -/
  | canFrame (c : Nat) (f : Frame)
  deriving DecidableEq, Repr

/-- A FENCE that waits at the head of its ring (R67, R68). -/
structure Fence where
  slot  : BitVec 16
  desc  : Desc
  since : BitVec 48
  owner : Owner
  deriving DecidableEq, Repr

/-- A submission ring (R49, R50, R78 to R80, R87). Configuration is the committed one. -/
structure Sq where
  active  : Bool := false
  prio    : BitVec 2 := 1
  anyUnit : Bool := false
  size    : Nat := 4
  unit    : Nat := 0
  defCq   : Nat := 0
  base    : BitVec 64 := 0
  cons    : Nat := 0
  prod    : Nat := 0
  error   : Option Status := none
  /-- Descriptors fetched and not dispatched, in ring order. -/
  fetched : List (Nat × Desc) := []
  /-- Next slot whose fetch is to complete. -/
  fetchAt : Nat := 0
  /-- The read of slot fetchAt has failed; the ring stops when it comes to it (R80). -/
  fetchFail : Bool := false
  /-- The read of slot fetchAt is outstanding; reads of an earlier enable or from before an error that are still outstanding (R43). -/
  asked   : Bool := false
  stale   : Nat := 0
  /-- The outstanding read of the doorbell page was issued before the enabling boundary (R78). -/
  oldPage : Bool := false
  fence   : Option Fence := none
  epoch   : Nat := 0
  /-- Descriptors given in the present tick, and whether the ring has dropped out of it (R62). -/
  given   : Nat := 0
  out     : Bool := false
  deriving DecidableEq, Repr

/-- A completion ring (R51, R63 to R65, R73, R74, R89). -/
structure Cq where
  active  : Bool := false
  size    : Nat := 4
  base    : BitVec 64 := 0
  prod    : Nat := 0
  phase   : Bool := false
  /-- Last accepted consumer index (R80). -/
  cons    : Nat := 0
  /-- Credits reserved by dispatched descriptors whose records are not yet written (R63). -/
  reserved : Nat := 0
  /-- Records produced and not yet written, in production order (R73). -/
  queue   : List CRec := []
  error   : Option Status := none
  /-- Tick of the last message, if any; a message is due at once (`force`) or under moderation (R74). -/
  lastMsg : Option (BitVec 48) := none
  msgDue  : Bool := false
  msgForce : Bool := false
  deriving DecidableEq, Repr

/-- A bus receive ring (R52, R76, R77). -/
structure Bq where
  active  : Bool := false
  size    : Nat := 4
  base    : BitVec 64 := 0
  prod    : Nat := 0
  phase   : Bool := false
  cons    : Nat := 0
  error   : Option Status := none
  /-- Frames dropped since the last entry, saturating at 255. -/
  lost    : Nat := 0
  /-- Entries taken over and not yet written: words 0 to 19 without the phase bit and the loss fields; how many frames were
  dropped right after each. -/
  queue   : List (List Word × Nat) := []
  lastMsg : Option (BitVec 48) := none
  msgDue  : Bool := false
  msgForce : Bool := false
  deriving DecidableEq, Repr

/-- The host interface and ring engine. -/
structure Hif where
  linkUp  : Bool := true
  d3hot   : Bool := false
  extTags : Bool := false
  /-- The doorbell page is in use (R82), at this address. -/
  dbActive : Bool := false
  dbBase  : BitVec 64 := 0
  /-- A read of the host area is outstanding, and one more is wanted (R54). -/
  dbRead  : Bool := false
  dbAgain : Bool := false
  /-- Tags that the outstanding read of the page holds (R43). -/
  dbTags  : Nat := 0
  /-- The host area as the last good read gave it. -/
  dbLast  : List Word := []
  /-- Silent ticks counted, whether HOST_SILENT has been raised in this silence, and host activity seen (R57). -/
  silent  : Nat := 0
  silentRaised : Bool := false
  activity : Bool := false
  sqs     : SMap Sq := []
  cqs     : SMap Cq := []
  bqs     : SMap Bq := []
  /-- Start pointers of the three priority classes (R62). -/
  ptr0    : Nat := 127
  ptr1    : Nat := 127
  ptr2    : Nat := 127
  /-- Descriptors dispatched in the present tick (R26). -/
  total   : Nat := 0
  /-- Memory writes that go before the records of this tick's completion window: SNAPSHOT data (R70), LEARN cells (R353). -/
  early   : List Msg := []
  /-- Memory writes and messages in the order of R45, not yet issued. -/
  outq    : List Msg := []
  /-- MSI-X pending bits (R550). -/
  msixPend : BitVec 72 := 0
  /-- MSI-X Enable and Function Mask of the MSI-X capability (R41, R74). -/
  msixOn   : Bool := false
  msixMask : Bool := false
  /-- Messages of vectors 68 and 69 that wait for the next completion window (R421, R442). -/
  irq68   : Nat := 0
  irq69   : Nat := 0
  deriving DecidableEq, Repr

/-! ## Units and actions -/

/-- Unit states (R104, R111). -/
inductive UState where
  | idle | moving | stopped | faulted | safe
  deriving DecidableEq, Repr

/-- A unit entry (R91, R102). Axis units are always bound. -/
structure UnitEnt where
  bound   : Bool := false
  parent  : Option Nat := none
  members : List Nat := []
  /-- Reference member used in the last phase 1; the fixed one is UNIT_REF.REF (R102, R109). -/
  refNow  : Nat := 0
  /-- The member whose latched quantities the group reports: that of the last phase 1, or the one that follows it where it has
  left since (R103). -/
  refUse  : Nat := 0
  leaf    : BitVec 64 := 0
  deriving DecidableEq, Repr

/-- What the records of one axis carry at the end of an action. -/
structure Act where
  id    : Nat
  owner : Owner
  unit  : Nat
  /-- Axes not ended yet (R101). -/
  wait  : List Nat
  /-- Highest status so far, the lowest axis that gave it, how many axes gave another status than OK, its result (R100). -/
  worst : Status
  worstAx : Nat
  notOk : Nat
  result : Word
  deriving DecidableEq, Repr

/-- End-of-action descriptors under way. -/
structure Acts where
  next : Nat := 0
  list : List Act := []
  deriving DecidableEq, Repr

/-! ## An axis in the hub -/

/-- Drive states (R182). -/
inductive Drive where
  | off | precharge | field | openloop | catching | float | brake | sto | orphanSto | orphanBrake | halt
  deriving DecidableEq, Repr

/-- Drive commands of the setpoint frame (R172). -/
inductive DriveCmd where
  | off | precharge | field | hold | openloop | catching | float (xOff : Bool) | brake
  deriving DecidableEq, Repr

/-- What the hub asks of the start sequence of a sensorless axis (R213, R230, R233): the direction of the action (0 for CATCH). -/
structure SeqReq where
  dir       : Int
  realign   : Bool
  alignOnly : Bool
  catchOnly : Bool
  brakeSlow : Bool
  deriving DecidableEq, Repr

/-- How a sequence in the movement has come to its end, as the latch frame tells the hub (R217, R219, R226, R228, R231 to
R234). -/
inductive SeqEnd where
  | handover | aligned | failed | lost | refused | turning | caught | floated | braked
  deriving DecidableEq, Repr

/-- Motion modes (R117). -/
inductive Mode where
  | none | profile | velocity | streaming | step | hand
  deriving DecidableEq, Repr

/-- The stored parameter set (R114). -/
structure ParamSet where
  vstart : BitVec 20 := 0
  v1     : BitVec 24 := 0
  vmax   : BitVec 24 := 0
  vstop  : BitVec 20 := 0
  a1     : Word := 0
  a2     : Word := 0
  d2     : Word := 0
  d1     : Word := 0
  deriving DecidableEq, Repr

/-- What the hub holds of an axis from the last good latch frame (R103, R141). -/
structure Latch where
  pos    : Pos := 0
  speed  : Speed := 0
  valid  : Bool := false
  est    : Bool := false
  iq     : Cur := 0
  vlim   : Bool := false
  swa    : Pos := 0
  swaCnt : BitVec 8 := 0
  swb    : Pos := 0
  swbCnt : BitVec 8 := 0
  /-- Sequence phase, ANGLE_KNOWN, the end of a sequence and its result bits (R213, R232). -/
  phase  : BitVec 4 := 0
  known  : Bool := false
  ending : Option SeqEnd := none
  seqRes : Word := 0
  /-- Drive state (R182), and PREDICTED (R253). -/
  drive  : Drive := .off
  pred   : Bool := false
  /-- New latches taken over in the phase 1 of this tick (R158). -/
  swaNew : Bool := false
  swbNew : Bool := false
  deriving DecidableEq, Repr

/-- Why a stop began (R131). -/
inductive StopCause where
  | stop | strike | sign | fault
  deriving DecidableEq, Repr

/-- A stop in progress (R129 to R131). `decel` 0 is the stored d2 and d1. -/
structure Stop where
  immediate : Bool
  decel  : Word
  cause  : StopCause
  /-- Acts of the STOP descriptors that have joined. -/
  joined : List Nat
  /-- DISARM with ramp = 1: the legs go off at standstill (R187). -/
  disarm : Bool
  /-- The target is kept at standstill: the stop interrupted a profile (R130). -/
  keep   : Bool
  deriving DecidableEq, Repr

/-- A queued setpoint (R134, R135). -/
structure Seg where
  pos   : Pos
  ticks : Nat
  last  : Bool
  deriving DecidableEq, Repr

/-- The segment that runs: where it began, its setpoint, how many ticks are done; `waiting` under reversal braking. -/
structure SegRun where
  start : Int
  seg   : Seg
  done  : Nat
  waiting : Bool
  deriving DecidableEq, Repr

/-- The values that shape a final deceleration (R126), with 24 fraction bits. -/
structure Braking where
  d1    : Int := 0
  d2    : Int := 0
  v1    : Int := 0
  vstop : Int := 0
  dmax  : Int := 0
  deriving DecidableEq, Repr

/-- An axis's motion in the hub. Positions and speeds carry 24 fraction bits (R116). -/
structure Motion where
  mode    : Mode := .none
  p       : Int := 0
  v       : Int := 0
  dir     : Int := 1
  down    : Bool := false
  target  : Pos := 0
  /-- The values of the last profile step; they have changed in the final deceleration, and the new ones no longer fit (R126). -/
  used    : Braking := {}
  raised  : Bool := false
  /-- Overshoot under R127: 0 none, 1 decelerating and not yet past the target, 2 past it, 3 approaching anew; the direction
  of the first approach. -/
  ovs     : Nat := 0
  ovsDir  : Int := 1
  /-- The profile has passed its target in this action; the largest latched distance beyond it since then, in 1/256 count. -/
  passed  : Bool := false
  ovsMax  : Nat := 0
  /-- The profile has reached its target; ticks since; SETTLE has raised FOLLOW_ERROR in this action (R119, R122). -/
  reached : Option Nat := none
  settled : Bool := false
  /-- Commanded speed of velocity and hand mode, 16.16 or a current (R124, R138). -/
  cmd     : Int := 0
  torque  : Bool := false
  /-- The action that the mode belongs to. -/
  act     : Option Nat := none
  /-- Reversal braking (R196): the new motion waits. -/
  rev     : Bool := false
  /-- A motion that waits for the drive: sensorless start or catch (R121, R229); it waits in RESYNC (R225). -/
  wait    : Bool := false
  lost    : Bool := false
  queue   : List Seg := []
  seg     : Option SegRun := none
  /-- CMD pin that drives the axis (R139), and the direction of its last step or of its hand command (R334). -/
  pin     : Option Nat := none
  stepDir : Int := 1
  deriving DecidableEq, Repr

/-- A change of an X leg (R160, R282): its value and its period multiple, where they change. -/
structure XCmd where
  duty : Option (BitVec 16)
  xk   : Option (BitVec 4)
  deriving DecidableEq, Repr

/-- An axis in the hub. -/
structure HubAxis where
  st     : UState := .idle
  armed  : Bool := false
  lat    : Latch := {}
  stale  : Bool := false
  set    : ParamSet := {}
  mot    : Motion := {}
  stop   : Option Stop := none
  /-- Consecutive quiet ticks of a stop, and of a safe axis (R130, R422). -/
  quiet  : Nat := 0
  /-- A faulted axis has confirmed the standstill of its stop (R422). -/
  still  : Bool := false
  /-- Drive command that phase 6 sends, and the position setpoint with its speed and limit. -/
  cmd    : DriveCmd := .off
  spPos  : Pos := 0
  spSpeed : Speed := 0
  /-- Position setpoint that took effect at the last boundary (R119). -/
  spLast : Pos := 0
  /-- The following error is above the limit (R119). -/
  follow : Bool := false
  /-- A start sequence to begin with the next setpoint frame, or one to abandon there (R213, R234). -/
  seq    : Option SeqReq := none
  seqOff : Bool := false
  /-- BRAKE with opt = 1: FIELD at standstill (R189). -/
  brakeHold : Bool := false
  /-- Reaction of the present phase 2: the highest class (R106). -/
  react  : Nat := 0
  /-- Change of the X leg that the next setpoint frame carries with its commit (R160, R282). -/
  xduty  : Option XCmd := none
  /-- Calibration or OFFTEST action that runs on it. -/
  test   : Option Nat := none
  /-- The next setpoint frame starts the SS1 monitor (R449), or tells that a clear has reached the axis (R441). -/
  ss1    : Bool := false
  unhold : Bool := false
  /-- The tick in which START_FAIL or ROTOR_LOSS has ended its action (R234). -/
  failedAt : Option (BitVec 48) := none
  deriving DecidableEq, Repr

/-! ## Strikes, CMD pins -/

/-- Strike states (R153). -/
inductive SState where
  | free | held | armed | recoiling | fired
  deriving DecidableEq, Repr

/-- A strike entry (R153 to R163). -/
structure Strike where
  st      : SState := .free
  unit    : BitVec 9 := 0
  key     : BitVec 2 := 0
  mode    : BitVec 2 := 0
  rep     : Bool := false
  fip     : Bool := false
  action  : BitVec 3 := 0
  actUnit : BitVec 9 := 0
  param   : Word := 0
  value   : BitVec 40 := 0
  hyst    : BitVec 16 := 0
  quiet   : Bool := false
  owner   : Option Owner := none
  /-- Last evaluated position, fire at the next evaluation, base tick (R155). -/
  prev    : Pos := 0
  passed  : Bool := false
  since   : BitVec 48 := 0
  /-- The interval since `prev` spans a stale latch or a change of the reference chain (R156). -/
  jump    : Bool := false
  /-- Axis whose position `prev` came from. -/
  prevAx  : Nat := 0
  last    : Word := 0
  /-- It has fired in phase 3 of this tick (R166). -/
  firedAt : Option (BitVec 48) := none
  deriving DecidableEq, Repr

/-- A CMD pin (R137 to R140). -/
structure CmdPin where
  x       : BitVec 16 := 0
  /-- The fraction that the last conversion or sample gave, and conversions in a row outside the range of R137. -/
  raw     : BitVec 16 := 0
  bad     : Nat := 0
  /-- The LOST condition is met (R137). -/
  lostNow : Bool := false
  /-- Leaves that the engagement drives. -/
  axes    : List Nat := []
  /-- An ENGAGE of 1 has been registered and is judged in phase 4 (R139). -/
  engaging : Bool := false
  /-- Step interpolator (R140), in 1/256 count and ns: steps added up and already spread, the present step, the interval it
  is spread over and the instant of its edge in hub clocks; the position at the last sample; steps held during reversal braking. -/
  stepPos : Int := 0
  step    : Int := 0
  interval : Nat := 0
  edgeAt  : Nat := 0
  sampled : Int := 0
  held    : Int := 0
  /-- Direction of the last step (R334). -/
  lastDir : Int := 1
  deriving DecidableEq, Repr

/-! ## Faults (chapter 14) -/

/-- A reaction that waits for phase 2: class, the axes, source code (R412). -/
structure React where
  cls  : Nat
  axes : List Nat
  code : Nat
  /-- The status an interrupted action ends with (R411). -/
  status : Status
  deriving DecidableEq, Repr

/-- What a presenter shows: identifier, level, recorded unit, class, MULTI (R409, R416). -/
structure Present where
  id    : BitVec 12
  level : BitVec 2
  unit  : BitVec 9
  cls   : BitVec 3
  multi : Bool
  /-- The collector has seen its arrival. -/
  seen  : Bool
  deriving DecidableEq, Repr

/-- A reaction sequence (R417): the presenter it captures and what it showed, the arrivals of its clock beside the winner, the
latched tick. -/
structure FltSeq where
  from_ : Nat
  what  : Present
  extra : Nat
  tick  : BitVec 48
  deriving DecidableEq, Repr

/-- The fault collector. -/
structure Flt where
  seq     : Option FltSeq := none
  /-- Acknowledges that wait for the end of the sequence (R418). -/
  acks    : List (BitVec 8) := []
  /-- Presenters at work: 0 to 7 the gatherers, 8 to 16 the hub's (R581). -/
  pres    : SMap Present := []
  /-- RAIL_BROKENs that the collector has found itself, each an arrival of its own (R581). -/
  own     : List Present := []
  /-- Sources raised in the present clock, by presenter, before the winner is chosen (R416). -/
  raised  : List (Nat × Present) := []
  /-- Reactions of hub sources, for the next phase 2. -/
  reacts  : List React := []
  /-- Clear requests: the one registered for the boundary to come, one for the boundary after it, and the one of this tick. -/
  clr     : Option (BitVec 9) := none
  clrLate : Option (BitVec 9) := none
  clrNow  : Option (BitVec 9) := none
  /-- ALERT pins with a pulse now, bit m, and those of them whose pulse began with 1 µs high because the pin was low (R420). -/
  alert   : BitVec 8 := 0
  alertHi : BitVec 8 := 0
  /-- Sticky flags and CLASS that an axis's movement has set and no latch frame has taken along yet, by axis (R419). -/
  mvFlags : SMap Word := []
  /-- Broken pairs: movement m (8 the hub) and the pair. -/
  broken  : List (Nat × Pair) := []
  /-- A capture's message waits (R421). -/
  irqDue  : Nat := 0
  deriving DecidableEq, Repr

/-! ## Links and movements -/

/-- One axis in a setpoint frame (R172). -/
structure AxisSp where
  pos    : Pos := 0
  speed  : Speed := 0
  lim    : BitVec 16 := 0
  torque : Option Int := none
  cmd    : DriveCmd := .off
  seq    : Option SeqReq := none
  seqOff : Bool := false
  /-- A stop has met a catch, which runs to its outcome (R234). -/
  seqStop : Bool := false
  xduty  : Option XCmd := none
  /-- The SS1 monitor starts at the boundary (R449); a clear has reached the axis (R441). -/
  ss1    : Bool := false
  unhold : Bool := false
  /-- The direction of the motion is negative, also at speed 0; the profile waits for the rotor (R214, R225); a reaction has faulted the
  axis (R234). -/
  back   : Bool := false
  wait   : Bool := false
  fault  : Bool := false
  deriving DecidableEq, Repr

/-- A setpoint frame, which carries the beat (R15, R37, R445); `ack` acknowledges reaction requests up to that serial (R412);
sensor marks go with it (R483). -/
structure SpFrame where
  beat : BitVec 8
  axes : List AxisSp
  ack  : Nat
  marks : BitVec 6
  deriving DecidableEq, Repr

/-- A reaction that a movement reports until it is acknowledged (R412). -/
structure Req where
  serial : Nat
  react  : React
  deriving DecidableEq, Repr

/-- A latch frame (R15). -/
structure LatFrame where
  axes : List Latch
  reqs : List Req
  /-- Sticky flags of the eight axes (R419). -/
  flags : List Word
  /-- Position marked unverified, per axis (R143, R212, R366 to R370). -/
  unver : BitVec 8
  offt : List (Nat × BitVec 13)
  /-- The end of a calibration: the local axes that failed (R258, R259). -/
  cal  : Option (BitVec 8)
  /-- Sensor readings: sensor, value, outside the range (R477, R483). -/
  temps : List (Nat × BitVec 16 × Bool)
  deriving DecidableEq, Repr

/-- Steps of a sequence that wait for the next PWM boundary (R217, R218, R222, R225). -/
inductive SlNext where
  | sync | fail | lost
  deriving DecidableEq, Repr

/-- The start sequence and the observer of a sensorless axis (chapter 7). -/
structure Sl where
  phase   : BitVec 4 := 0
  known   : Bool := false
  attempt : Nat := 0
  catchTry : Nat := 0
  lossRun : Nat := 0
  req     : Option SeqReq := none
  /-- A stop waits for the catch's outcome (R234). -/
  stopping : Bool := false
  /-- Ticks left of an alignment, a catch window or a retry brake; ticks done of the alignment. -/
  left    : Nat := 0
  done    : Nat := 0
  /-- Consecutive good sectors and sectors begun at or above VHAND (R216, R218); the present sector counts, and has been good. -/
  good    : Nat := 0
  begun   : Nat := 0
  counts  : Bool := false
  secGood : Bool := false
  /-- Angle at position `ref`, and the forced angle. -/
  theta   : BitVec 16 := 0
  ref     : Int := 0
  /-- Position counter at the setpoint `ref`. -/
  cbase   : Int := 0
  angle   : BitVec 16 := 0
  obsA    : BitVec 16 := 0
  obsV    : Speed := 0
  emf     : BitVec 16 := 0
  /-- The instant of the observer's angle in hub clocks; the amplitude that the thresholds of the present window were set with (R223, R224). -/
  obsAt   : Nat := 0
  winEmf  : BitVec 16 := 0
  /-- Instants in hub clocks: of the forced angle, of the last commutation, of the last crossing, and that crossing's angle (R215 to
  R217). -/
  angAt   : Nat := 0
  comm    : Nat := 0
  crossAt : Nat := 0
  crossA  : BitVec 16 := 0
  /-- Crossings that have moved the count since the catch began, signed (R227); two crossings in one order have come since standstill
  (R229). -/
  crossN  : Int := 0
  cvalid  : Bool := false
  /-- Crossing sequence (R227): last phase, direction, crossings in one order, last two intervals in hub clocks. -/
  last    : Option (Fin 3) := none
  order   : Int := 0
  count   : Nat := 0
  iv1     : Nat := 0
  iv2     : Nat := 0
  aligned : Bool := false
  caught  : Bool := false
  /-- Consecutive in-band windows (R222, R225). -/
  band    : Nat := 0
  /-- Float windows have been scheduled in the period before; the sixth of a turn whose window has opened or been skipped; the open
  window has been sampled (R223, R224). -/
  wcond   : Bool := false
  wdone   : Option Nat := none
  wtaken  : Bool := false
  next    : Option SlNext := none
  /-- A probe has read below the threshold or no speed (R218, R228); the probe's result. -/
  slow    : Bool := false
  probe   : Option Speed := none
  ending  : Option SeqEnd := none
  deriving DecidableEq, Repr

/-- One value for each leg. -/
structure Four (α : Type) where
  u : α
  v : α
  w : α
  x : α
  deriving DecidableEq, Repr

/-- The value of a leg (0 U, 1 V, 2 W, 3 X). -/
def Four.of {α : Type} (f : Four α) (leg : Nat) : α := if leg = 0 then f.u else if leg = 1 then f.v else if leg = 2 then f.w else f.x

/-- The values of a function on the legs. -/
def Four.mk4 {α : Type} (f : Nat → α) : Four α := ⟨f 0, f 1, f 2, f 3⟩

/-- The last valid current of a phase (R252), the units of 125 ps since then, and the mean phase voltage applied since then times
that time, in mV. -/
structure PhaseMem where
  last : Cur := 0
  age  : Nat := 0
  vsum : Int := 0
  deriving DecidableEq, Repr

/-- The phase currents of a pair, and whether one of its readings was measured (R249, R253). -/
structure PairCur where
  u : Int
  v : Int
  w : Int
  measured : Bool
  deriving DecidableEq, Repr

/-- The current loop of an axis (R173, R174, R177, R249, R252). -/
structure Foc where
  iu   : Cur := 0
  iv   : Cur := 0
  iw   : Cur := 0
  mem  : Four PhaseMem := ⟨{}, {}, {}, {}⟩
  /-- Integrators of d and q, in 1/65,536 modulation unit, and of the speed loop. -/
  intD : Int := 0
  intQ : Int := 0
  intS : Int := 0
  spdCmd : Int := 0
  iqRef : Int := 0
  vd   : Int := 0
  vq   : Int := 0
  /-- Filtered Iq with 16 fraction bits (R177). -/
  iqF  : Int := 0
  /-- Since the last tick boundary some pair has been used, and some reading was measured (R253). -/
  used : Bool := false
  measured : Bool := false
  /-- Pairs that no loop run has used yet; those whose results become ready too late for the coming run (R248). -/
  pairs : List PairCur := []
  late  : List PairCur := []
  deriving DecidableEq, Repr

/-- The values of U, V and W: duty fractions of 24 bits (R273). -/
structure Duty where
  u : BitVec 24 := 0
  v : BitVec 24 := 0
  w : BitVec 24 := 0
  deriving DecidableEq, Repr

/-- Output modes of a leg (R279). -/
inductive LegMode where
  | switch | low | high | off
  deriving DecidableEq, Repr

/-- A switching profile (R301, R324): pre-charge in mA and ns, slope in mA and ns, its end by the node's swing, hold in mA. -/
structure GProf where
  preI   : Nat
  preT   : Nat
  slopeI : Nat
  slopeT : Nat
  adapt  : Bool
  hold_  : Nat
  deriving DecidableEq, Repr

/-- What a gate driver carries out: a profile, or a soft turn-off with its sink in mA (R301, R309). -/
inductive GateKind where
  | profile (p : GProf)
  | soft (sink : Nat)
  deriving DecidableEq, Repr

/-- A soft turn-off. -/
def GateKind.isSoft : GateKind → Bool
  | .soft _ => true
  | .profile _ => false

/-- A turn-on or turn-off at the pins of a leg: the high side or the low side, the instant of its release in units of 125 ps from the
start of the PWM period, the values that it started with, and the time in ns after which the node has completed 90 % of its swing, or the
gate has fallen below 2 V (R301, R302, R309). -/
structure GateRun where
  pin  : Nat
  high : Bool
  on   : Bool
  at_  : Nat
  kind : GateKind
  done : Option Nat
  deriving DecidableEq, Repr

/-- The settings of a leg that a period runs under: dead time and shortest pulse in units of 125 ps, stretch, its profiles (R277,
R278, R302). -/
structure LegSet where
  dead : Nat
  min  : Nat
  str  : Bool
  on   : GProf
  off  : GProf
  deriving DecidableEq, Repr

/-- What a leg does in a period: high at its start; its rising and falling edge; pulses dropped and stretched; how long it has been
low at the period's end (none: it is high). -/
structure Pulse where
  high : Bool
  rise : Option Nat
  fall : Option Nat
  dropped : Nat
  stretched : Nat
  tail : Option Nat
  deriving DecidableEq, Repr

/-- A period of the X leg (R280): its start in units of 125 ps from the start of the present PWM period, its length in counts, the output
mode that it began in, its pulse, and whether it refreshes the bootstrap (R315). -/
structure XRun where
  at_   : Int
  len   : Nat
  mode  : LegMode
  p     : Pulse
  refresh : Bool
  deriving DecidableEq, Repr

/-- The switch of a leg that turned off last: high or low side, the instant in units of 125 ps from the start of the present PWM period,
and the time in ns that its gate took (R304). -/
structure Gone where
  high : Bool
  at_  : Int
  fall : Nat
  deriving DecidableEq, Repr

/-- The settings that a period of an axis runs under (R10, R251, R254): alignment, the legs; the blank in ns, the compares of converters A
and B where they act, offset tracking; the X leg's value, mode, inversion, and its periods that begin in this one: their start and length
in counts. -/
structure SpanSet where
  edge  : Bool
  legs  : Four LegSet
  blank : Nat
  trig  : Bool
  cmpA0 : Nat
  cmpA1 : Nat
  cmpB0 : Nat
  cmpB1 : Nat
  track : Bool
  tc    : Nat
  xval  : BitVec 16
  xraw  : Bool
  xinv  : Bool
  xper  : List (Nat × Nat)
  deriving DecidableEq, Repr

/-- What the legs do in the present PWM period (R245, R250, R251): its length in counts, whether the phase legs switch, the floated
phase and whether its float window has just begun, the set at the period's start, whether the centre has taken another one, the
legs that refresh a bootstrap, how long each leg had been low at the end of the period before in 125 ps units (none: it was high),
the settings, the legs whose high side a low bootstrap has turned off with its instant, the switch of each leg that conducted at the
end of the period before (true: the high side) and the one that turned off last, and the modes of the legs at its start. -/
structure Span where
  len   : Nat := 0
  on    : Bool := false
  off   : Option (Fin 3) := none
  fresh : Bool := false
  rise  : Duty := {}
  again : Bool := false
  refresh : BitVec 4 := 0
  tail  : Four (Option Nat) := ⟨some 0, some 0, some 0, some 0⟩
  set   : Option SpanSet := none
  cut   : List (Nat × Nat) := []
  cond  : Four (Option Bool) := ⟨none, none, none, none⟩
  prev  : Four (Option Gone) := ⟨none, none, none, none⟩
  modes : Four LegMode := ⟨.off, .off, .off, .off⟩
  /-- Modes that legs take inside the period, with their instants (R186, R191, R201, R279, R309); `switch` changes nothing. -/
  turns : List (Nat × Four LegMode) := []
  /-- The legs whose high side waits for its low side at the start (R316). -/
  block : BitVec 4 := 0
  /-- The periods of the X leg that this one meets (R280). -/
  xrun  : List XRun := []
  /-- The spans of the period without lock of the delay line; one without an end goes on (R289). -/
  loose : List (Nat × Option Nat) := []
  /-- The bus in 100 mV as it read at the period's start (R301, R487). -/
  vbs   : Nat := 0
  deriving DecidableEq, Repr

/-- The legs of an axis in the PWM generator and the gate drivers (R274, R191, R223, R279, R280, R301, R306, R315, R316). -/
structure Legs where
  /-- Output modes in force; what the legs did before the gates were turned off at once, for as many period starts. -/
  modes  : Four LegMode := ⟨.off, .off, .off, .off⟩
  going  : Span := {}
  goingFor : Nat := 0
  /-- Turn-ons and turn-offs of the period that ended, and soft turn-offs of the present one. -/
  runs   : List GateRun := []
  /-- Legs with a di/dt event that a blank remembers (R307). -/
  didt   : BitVec 4 := 0
  /-- A brake probe floats the phases: PWM period starts left, 0 none (R193). -/
  probe  : Nat := 0
  shadow : Duty := {}
  buf    : Option Duty := none
  force  : Duty := {}
  xbuf   : Option XCmd := none
  xval   : BitVec 16 := 0
  xk     : BitVec 4 := 0
  /-- The winding short: high side now, PWM periods left on this side. -/
  high   : Bool := false
  left   : Nat := 0
  /-- Float window: the floated phase and its periods left. -/
  wphase : Option (Fin 3) := none
  wleft  : Nat := 0
  /-- Legs that refresh their bootstrap, and legs whose high side waits for its low side (bits U, V, W, X). -/
  refresh : BitVec 4 := 0
  bstOff : BitVec 4 := 0
  span   : Span := {}
  deriving DecidableEq, Repr

/-- Position counting, latches and speed of an axis (chapter 12, R141). -/
structure Fb where
  /-- The levels have been taken since the domain returned (R374). -/
  init   : Bool := false
  swaIn  : Bool := false
  swbIn  : Bool := false
  /-- Instants in hub clocks at which FILT and SWFILT last changed (R374). -/
  filtAt : Nat := 0
  swAt   : Nat := 0
  fa     : Bool := false
  fb     : Bool := false
  fz     : Bool := false
  swa    : Bool := false
  swb    : Bool := false
  /-- Position is base plus steps: counts, Hall steps, or electrical angle in 1/65,536 turn. -/
  base   : Int := 0
  steps  : Int := 0
  /-- The present Hall sector (none: after an illegal state), and the one whose centre is the electrical angle (R176, R368). -/
  sector : Option Nat := none
  angled : Nat := 0
  dir    : Int := 0
  /-- Stamps of the kept edges, newest first, in hub clocks. -/
  stamps : List Nat := []
  valid  : Bool := false
  /-- Speed at the last tick boundary. -/
  speed  : Speed := 0
  /-- Ticks without an edge or crossing. -/
  quiet  : Nat := 0
  zref   : Option Int := none
  swaPos : Pos := 0
  swaCnt : BitVec 8 := 0
  swaOff : Bool := false
  swbPos : Pos := 0
  swbCnt : BitVec 8 := 0
  swbOff : Bool := false
  deriving DecidableEq, Repr

/-- The safety monitors of an axis in its movement (R449 to R456). -/
structure Watch where
  /-- Channel 1: the instant of its last edge, that edge's direction, short intervals in a row. -/
  at1    : Option Nat := none
  dir1   : Int := 0
  run1   : Nat := 0
  /-- Channel 2: the phase and the instant of its last crossing, its order, short intervals in a row; the phases that were above the
  virtual star for more than half of the last period, and those whose reading stands. -/
  last2  : Option (Fin 3) := none
  at2    : Nat := 0
  dir2   : Int := 0
  run2   : Nat := 0
  above  : BitVec 3 := 0
  seen   : BitVec 3 := 0
  /-- What channel 1 has moved since that crossing, in sixths of a count; mismatches in a row (R454). -/
  moved  : Int := 0
  differ : Nat := 0
  /-- PWM periods in a row without an SLC sample (R456). -/
  blind  : Nat := 0
  /-- The SS1 monitor: its start, the first interval since then, and whether a later one was shorter than three quarters of it (R449). -/
  ss1At  : Nat := 0
  ss1Iv  : Option Nat := none
  ss1Up  : Bool := false
  deriving DecidableEq, Repr

/-- An axis in its movement. -/
structure MvAxis where
  drive  : Drive := .off
  /-- Setpoint in force. -/
  sp     : AxisSp := {}
  /-- The low sides are on for the precharge; FLOAT with opt = 1; ticks to the next probe (R193). -/
  pre    : Bool := false
  /-- The instant of its end, in hub clocks (R514). -/
  preAt  : Nat := 0
  /-- The precharge follows a wake (R514). -/
  wakePre : Bool := false
  /-- A boundary has found the precharge after a wake unfinished: the entry into FIELD is late (R514). -/
  wakeLate : Bool := false
  xOff   : Bool := false
  probeIn : Nat := 0
  sl     : Sl := {}
  foc    : Foc := {}
  legs   : Legs := {}
  fb     : Fb := {}
  watch  : Watch := {}
  unver  : Bool := false
  /-- An OFFTEST runs: it begins at the coming boundary (`false`) or has begun. -/
  offt   : Option Bool := none
  /-- Its start in hub clocks, and the bus reading there in 100 mV (R318, R319). -/
  offtAt : Nat := 0
  offtVb : Nat := 0
  /-- A feedback edge has come during it; the X leg is left out (R317, R319). -/
  offtDist : Bool := false
  offtSkip : Bool := false
  offtEnd : Option (BitVec 13) := none
  deriving DecidableEq, Repr

/-- A movement. -/
structure Mv where
  /-- Setpoint frame on its way, and the one taken for the boundary to come. -/
  spWay  : Option SpFrame := none
  spTaken : Option SpFrame := none
  /-- Latch frame on its way to the hub. -/
  latWay : Option LatFrame := none
  /-- Consecutive ticks without a good latch frame (R34). -/
  latMiss : Nat := 0
  /-- The frame of the coming tick is known to be missing, and has been counted. -/
  missed  : Bool := false
  /-- Its VCL has failed while its latch frames came, so that the hub still expects them (R34, R516). -/
  lost    : Bool := false
  /-- Reaction requests not yet acknowledged, the next serial, and the last serial the hub has applied. -/
  reqs   : List Req := []
  serial : Nat := 1
  taken  : Nat := 0
  /-- Periods begun since the tick boundary; K and alignment in force; tick rate of the movement (R37, R269, R291). -/
  period : Nat := 0
  rate   : BitVec 2 := 0
  /-- Hub clocks of consecutive tick intervals without a valid beat (R446). -/
  beatGap : Nat := 0
  /-- The wake of a parked movement runs (R514). -/
  waking : Bool := false
  /-- Hub clocks without an armed axis (R513). -/
  idle   : Nat := 0
  /-- The instant of the movement's last tick boundary, in hub clocks. -/
  start  : Nat := 0
  /-- Calibration: begins at the coming boundary or runs; the actions that wait for it, with a leaf of theirs in the movement and whether
  they have joined it; those of a calibration that is to begin while the end of the one before still waits for its latch frame; those
  of abandoned ones; the end, by its failed axes (R257 to R260). -/
  cal    : Option Bool := none
  /-- Its start in hub clocks (R258). -/
  calAt  : Nat := 0
  calActs : List (Nat × Nat × Bool) := []
  calNext : List (Nat × Nat × Bool) := []
  calGone : List (Nat × Nat × Bool) := []
  calEnd : Option (BitVec 8) := none
  /-- The mirror is to be loaded at the first tick boundary after training (R511). -/
  load   : Bool := false
  /-- A debug halt, and a stopped clock (R287, R288). -/
  halted : Bool := false
  clkBad : Bool := false
  /-- Consecutive measurements at or above TRIP (R479). -/
  trip   : Nat := 0
  /-- An ARM has taken effect since VBUS_UV was last raised (R488). -/
  uvNew  : Bool := false
  /-- Broken marks of its sensors as the movement knows them, and readings for the next latch frame (R477, R483). -/
  marks  : BitVec 6 := 0
  temps  : List (Nat × BitVec 16 × Bool) := []
  deriving DecidableEq, Repr

/-! ## Signature engine (chapter 11) -/

/-- A reference table or a learn buffer (R332, R351). -/
structure SignTbl where
  base   : Nat
  origin : Int
  pitch  : Nat
  ncells : Nat
  deriving DecidableEq, Repr

/-- A block of 16 cells in the window: its number, its cells, changed by LEARN. -/
structure SignBlk where
  num   : Nat
  cells : List Word
  dirty : Bool
  deriving DecidableEq, Repr

/-- A LEARN that runs (R351 to R354). -/
structure Learn where
  act    : Nat
  owner  : Owner
  dir0   : Bool
  dir1   : Bool
  tbl0   : SignTbl
  tbl1   : SignTbl
  cycles : Nat
  done   : Nat
  got0   : Bool
  got1   : Bool
  deriving DecidableEq, Repr

/-- Reactions of code 2 that wait for standstill on an axis, or its reopen that runs (R340): engine direction, distance, the
numbers of the reactions. -/
structure Reopen where
  dir    : Nat
  dist   : Nat
  serials : List Nat
  running : Bool
  deriving DecidableEq, Repr

/-- The reopens of one reaction (R340): their leaves, whether one has begun, the detecting axis and the result word of its
detection. -/
structure ReopenRun where
  axes   : List Nat
  ran    : Bool
  from_  : Nat
  result : Word
  deriving DecidableEq, Repr

/-- The signature engine's view of an axis. -/
structure Sign where
  tbl0   : Option SignTbl := none
  tbl1   : Option SignTbl := none
  own0   : Option Owner := none
  own1   : Option Owner := none
  ownLast : Option Owner := none
  /-- Window: generation, direction, blocks, blocks asked for. -/
  gen    : Nat := 0
  wdir   : Nat := 0
  win    : List SignBlk := []
  asked  : List Nat := []
  /-- Reads of earlier generations that are still outstanding: block and generation (R43, R346). -/
  old    : List (Nat × Nat) := []
  /-- Blocks whose read has failed (R347). -/
  bad    : List Nat := []
  lastCell : Option Word := none
  ceilRun : Nat := 0
  holdRun : Nat := 0
  /-- A reaction has suspended the comparison (R339). -/
  susp   : Bool := false
  starved : Bool := false
  reopen : Option Reopen := none
  learn  : Option Learn := none
  deriving DecidableEq, Repr

/-- A detection found in phase 1 (R338): axis, slack or obstacle, by the ceiling, with a last valid cell, value, direction. -/
structure Detect where
  ax    : Nat
  slack : Bool
  ceil  : Bool
  last  : Bool
  value : Int
  dir   : Nat
  deriving DecidableEq, Repr

/-! ## Message bus (chapter 13) -/

/-- A frame in the transmit queue (R394 to R398). -/
structure TxFrame where
  key    : Nat
  act    : Owner
  frame  : Frame
  maxtx  : Nat
  tries  : Nat
  lostArb : Bool
  eligible : Bool
  /-- Where its data stands in host memory, for an indirect frame. -/
  addr   : Nat
  /-- It is withdrawn for this reason once its attempt under way ends without success (R398); 0: it is not. -/
  gone   : Nat
  deriving DecidableEq, Repr

/-- A CAN controller. -/
structure CanCtl where
  /-- On the bus or integrating (R386). -/
  on     : Bool := false
  integrating : Bool := false
  /-- ENABLE has been cleared while a frame was under way; no frame that was under way then lasts beyond this instant in hub clocks. -/
  leaving : Bool := false
  leaveBy : Nat := 0
  tec    : Nat := 0
  recv   : Nat := 0
  busOff : Bool := false
  queue  : List TxFrame := []
  /-- The frame in transmission. -/
  active : Option Nat := none
  nextKey : Nat := 0
  /-- Frames whose data read is outstanding (R43, R395). -/
  reads  : List Nat := []
  /-- Withdrawals and completions recorded for the next phase 1: owner, result (R397, R398). -/
  ends   : List (Owner × Status × Word) := []
  /-- Received frames that wait for phase 1: to the ring, to the object (R390, R391); frames dropped while 16 were held. -/
  held   : List (Frame × Bool × Bool) := []
  spill  : Nat := 0
  deriving DecidableEq, Repr

/-! ## Access lock, store, image, monitoring -/

/-- A lock command under way (R462). -/
inductive LockRun where
  | password (mask : BitVec 3)
  | challenge (mask : BitVec 3)
  | response (valid : Bool)
  | relock
  | setpw
  deriving DecidableEq, Repr

/-- The access lock (R459 to R465). -/
structure Lock where
  pw     : List Word := []
  resp   : List Word := []
  mask   : BitVec 3 := 0
  run    : Option LockRun := none
  /-- OTP verifier (log entry 13: blank). -/
  verifier : Option (BitVec 256) := none
  /-- Length of the last lockout in seconds, and the instant of its start in hub clocks. -/
  lockLen : Nat := 60
  since   : Nat := 0
  /-- The hub's ticks have stood still since then, so that they do not tell the time that has passed (R463, R506). -/
  blind   : Bool := false
  deriving DecidableEq, Repr

/-- A store command under way (R527). -/
inductive NvsRun where
  | read (page : Nat) | program (page : Nat) | erase (slot : Nat)
  deriving DecidableEq, Repr

/-- Cross-check and marks (R477, R482): per sensor the run of disagreements, per pair of a single neighbour; new readings since
the last phase 1; instants of the last readings; runs of TRIP readings per die. -/
structure Therm where
  cand  : SMap Nat := []
  fresh : List Nat := []
  since : SMap Nat := []
  trip  : SMap Nat := []
  deriving DecidableEq, Repr

/-- A monitor converter (R491, R492): input under way, urgent, without synchronisation; resting; the instant in hub clocks at which its
integration or its rest ends; what is left of a rest that waits for an urgent conversion. -/
structure MonCtl where
  run    : Option (Nat × Bool × Bool) := none
  resting : Bool := false
  ends   : Nat := 0
  held   : Nat := 0
  deriving DecidableEq, Repr

/-- The escapement, power and image (chapters 15, 17). -/
structure Sys where
  /-- Power-on reset has been released; the tick generator has started, and its first boundary is still to come (R518). -/
  released : Bool := false
  ticking : Bool := false
  first   : Bool := false
  /-- ESC_FAULT holds until device reset; a condition of R440 has ended before the pins have fallen. -/
  escFault : Bool := false
  safeDue : Bool := false
  /-- Since when the two STO pins of a movement differ: the tick boundary before (R439). -/
  stoAt   : SMap Nat := []
  /-- SAFEHOLD pairs of movements that are off, as the SAFE domain keeps them (R441, R510). -/
  holdHeld : BitVec 8 := 0
  /-- Messages of vector 69 for the next tick (R442). -/
  escIrq : Nat := 0
  /-- RST_CMD reset under way until DONE (R521); BAR0 is not decoded until DONE (R520). -/
  rstCmd : Bool := false
  /-- The hub is in a debug halt. -/
  hubHalt : Bool := false
  /-- Hub domains that have been switched on, with the instants in hub clocks at which they are ready (R508). -/
  hubAt : List (Nat × Nat) := []
  /-- Movements that the hub has switched on (R510, R511). -/
  mvSw    : BitVec 8 := 0xFF
  /-- Identifiers in configuration space (R554): subsystem, class code. -/
  subsys : Word := 0x1F4D
  cls    : BitVec 24 := 0x118000
  /-- Registers of the header of configuration space that the host writes, by offset; those of the Advanced Error Reporting
  capability, by offset in it; Device Control (log entry 16). -/
  pci    : SMap Word := []
  aer    : SMap Word := []
  devCtl : BitVec 16 := 0x2810
  /-- VIO is absent: power-on reset holds the device for it (R505, R571). -/
  vioOut : Bool := false
  /-- Slots that a reset has left invalid in the middle of a PROGRAM or ERASE (R528). -/
  badSlots : BitVec 2 := 0
  deriving DecidableEq, Repr
/-! ## The block -/

/-- The block without its queue and its store. -/
structure Dev where
  time   : Time := {}
  regs   : Regs := {}
  hif    : Hif := {}
  units  : SMap UnitEnt := []
  acts   : Acts := {}
  hax    : SMap HubAxis := []
  mvax   : SMap MvAxis := []
  mvs    : SMap Mv := []
  strikes : SMap Strike := []
  cmds   : SMap CmdPin := []
  flt    : Flt := {}
  signs  : SMap Sign := []
  /-- Detections of this tick's phase 1, reopen reactions by serial with the axes still under way (R340). -/
  detects : List Detect := []
  reopens : SMap ReopenRun := []
  signSerial : Nat := 0
  cans   : SMap CanCtl := []
  /-- Message objects by controller * 2048 + identifier: the words 0 to 19 (R392). -/
  objs   : SMap (List Word) := []
  lock   : Lock := {}
  nvs    : Option NvsRun := none
  therm  : Therm := {}
  mons   : SMap MonCtl := []
  sys    : Sys := {}
  /-- What the device has issued since the last tick boundary (log entry 5). -/
  out    : List Msg := []
  /-- Counter behind the free values (log entry 2): the model's own field. -/
  fresh  : Nat := 0
  deriving DecidableEq, Repr


/-- The reasons a step stops with a fault. No command of the spec stops the block: nothing raises one. -/
inductive Fault where
  /-- Raised by nobody: every command has an effect or leaves the state as it is. Safe. -/
  | none
  deriving DecidableEq, Repr

/-- The reasons a step is refused. -/
inductive Refusal where
  /-- A command whose meaning is not written: raised by its arm of `exec` only. Safe. -/
  | notModelled (mnemonic : String)
  deriving DecidableEq, Repr

/-- The state: the queue of commands that wait, the block, and the non-volatile store of 512 KB (R522) as a sorted list of
(address, byte) pairs; an address that is not listed reads 0xFF (log entry 14). -/
structure State where
  pending : List Instr
  dev     : Dev
  store   : List Host.Cell
  deriving DecidableEq, Repr

/-- The machine right after reset: every field at its reset value, no command waiting. -/
def State.reset : State := { pending := [], dev := {}, store := [] }

end Sys2Proof.Machine
end

