-- ==== Sys2Proof/Machine/Sources.lean ====
section
/-! DEFINITION. Sources.lean: the fault sources of R408, with what their table row says of each. -/

namespace Sys2Proof.Machine

/-- The fault sources (R408). -/
inductive Src where
  | shortDidt | interlockStuck | bstUv | shuntOc | followError | startFail | rotorLoss | encQerr | hallFault | encDrift
  | signStarved | offtestFail | slsExceeded | slcExceeded | slsDiscrepancy | vdrvUv | vdrvOv | mvClock | calLimit
  | linkSkew | linkLatchLost | railBroken | stoActive | stoDiscrepancy | orphan | mvOvertemp | mvTempWarn
  | tsenseBroken | vbusUv | vbusOv | hostLinkLost | hostSilent | canBusOff | hubOvertemp | hubTempWarn | supplyFault
  | nvsImage | escFault
  deriving DecidableEq, Repr

/-- A row of R408: code, level (0 leg, 1 axis, 2 movement, 3 hub), reset class, permitted range (fixed where both ends are
the reset class), the sticky flag of R431. -/
structure SrcRow where
  code  : Nat
  level : Nat
  cls   : Nat
  lo    : Nat
  hi    : Nat
  bit   : Nat
  deriving DecidableEq, Repr

/-- The table of R408 with the flags of R431. -/
def Src.row : Src → SrcRow
  | .shortDidt => ⟨0x01, 0, 3, 3, 3, 0⟩
  | .interlockStuck => ⟨0x02, 0, 3, 3, 3, 2⟩
  | .bstUv => ⟨0x03, 0, 1, 1, 3, 3⟩
  | .shuntOc => ⟨0x10, 1, 3, 3, 3, 1⟩
  | .followError => ⟨0x11, 1, 2, 1, 3, 4⟩
  | .startFail => ⟨0x12, 1, 2, 1, 3, 5⟩
  | .rotorLoss => ⟨0x13, 1, 2, 1, 3, 6⟩
  | .encQerr => ⟨0x14, 1, 1, 0, 3, 7⟩
  | .hallFault => ⟨0x15, 1, 2, 0, 3, 8⟩
  | .encDrift => ⟨0x16, 1, 1, 0, 3, 9⟩
  | .signStarved => ⟨0x17, 1, 2, 1, 3, 10⟩
  | .offtestFail => ⟨0x18, 1, 2, 1, 3, 11⟩
  | .slsExceeded => ⟨0x19, 1, 2, 2, 5, 12⟩
  | .slcExceeded => ⟨0x1A, 1, 3, 2, 5, 12⟩
  | .slsDiscrepancy => ⟨0x1B, 1, 3, 3, 5, 12⟩
  | .vdrvUv => ⟨0x20, 2, 4, 4, 4, 13⟩
  | .vdrvOv => ⟨0x21, 2, 4, 4, 4, 13⟩
  | .mvClock => ⟨0x22, 2, 4, 4, 4, 14⟩
  | .calLimit => ⟨0x23, 2, 1, 0, 2, 21⟩
  | .linkSkew => ⟨0x24, 2, 2, 1, 4, 15⟩
  | .linkLatchLost => ⟨0x25, 2, 4, 2, 5, 15⟩
  | .railBroken => ⟨0x26, 2, 4, 4, 4, 16⟩
  | .stoActive => ⟨0x27, 2, 4, 4, 4, 17⟩
  | .stoDiscrepancy => ⟨0x28, 2, 4, 4, 4, 17⟩
  | .orphan => ⟨0x29, 2, 4, 4, 4, 18⟩
  | .mvOvertemp => ⟨0x2A, 2, 4, 2, 4, 19⟩
  | .mvTempWarn => ⟨0x2B, 2, 1, 0, 1, 19⟩
  | .tsenseBroken => ⟨0x2C, 2, 1, 0, 2, 19⟩
  | .vbusUv => ⟨0x2D, 2, 2, 0, 4, 20⟩
  | .vbusOv => ⟨0x2E, 2, 4, 2, 5, 20⟩
  | .hostLinkLost => ⟨0x40, 3, 2, 2, 2, 22⟩
  | .hostSilent => ⟨0x41, 3, 2, 0, 5, 22⟩
  | .canBusOff => ⟨0x42, 3, 1, 0, 2, 23⟩
  | .hubOvertemp => ⟨0x43, 3, 2, 2, 5, 19⟩
  | .hubTempWarn => ⟨0x44, 3, 1, 0, 1, 19⟩
  | .supplyFault => ⟨0x45, 3, 5, 5, 5, 24⟩
  | .nvsImage => ⟨0x46, 3, 1, 0, 1, 24⟩
  | .escFault => ⟨0x47, 3, 5, 5, 5, 24⟩

/-- Every source of R408. -/
def Src.all : List Src := [
  .shortDidt, .interlockStuck, .bstUv, .shuntOc, .followError, .startFail, .rotorLoss, .encQerr, .hallFault, .encDrift,
  .signStarved, .offtestFail, .slsExceeded, .slcExceeded, .slsDiscrepancy, .vdrvUv, .vdrvOv, .mvClock, .calLimit,
  .linkSkew, .linkLatchLost, .railBroken, .stoActive, .stoDiscrepancy, .orphan, .mvOvertemp, .mvTempWarn,
  .tsenseBroken, .vbusUv, .vbusOv, .hostLinkLost, .hostSilent, .canBusOff, .hubOvertemp, .hubTempWarn, .supplyFault,
  .nvsImage, .escFault]

/-- The source with a code. -/
def Src.ofCode (c : Nat) : Option Src := Src.all.find? fun s => s.row.code == c

/-- The class of the source cannot be changed (R408), or is another field's (R413). -/
def Src.fixed (s : Src) : Bool := s.row.lo == s.row.hi || s == .hostSilent

end Sys2Proof.Machine
end

