-- ==== Sys2Proof/Machine/Ops.lean ====
section
/-! DEFINITION. Ops.lean: the named operations over the state that every chapter shares: sparse arrays, bit fields, register
values, time, messages, records and actions. -/

namespace Sys2Proof.Machine

/-! ## Sparse arrays -/

/-- The entry at k, if listed. -/
def SMap.find {α : Type} : SMap α → Nat → Option α
  | [], _ => none
  | (k', v) :: r, k => if k' = k then some v else SMap.find r k

/-- The entry at k, or the default. -/
def SMap.get {α : Type} (m : SMap α) (k : Nat) (dflt : α) : α := (SMap.find m k).getD dflt

/-- m with v at k; the order of the keys is kept. -/
def SMap.set {α : Type} : SMap α → Nat → α → SMap α
  | [], k, v => [(k, v)]
  | (k', v') :: r, k, v =>
    if k < k' then (k, v) :: (k', v') :: r
    else if k = k' then (k, v) :: r
    else (k', v') :: SMap.set r k v

/-- m without an entry at k. -/
def SMap.drop {α : Type} (m : SMap α) (k : Nat) : SMap α := m.filter fun e => e.1 ≠ k

/-- The numbers lo to lo + n - 1. -/
def span (lo : Nat) : Nat → List Nat
  | 0 => []
  | n + 1 => lo :: span (lo + 1) n

/-- f over a list of indices, left to right. -/
def each {σ : Type} (l : List Nat) (f : Nat → σ → σ) (s : σ) : σ := l.foldl (fun s i => f i s) s

/-- The numbers of the set bits of a mask of n bits, ascending. -/
def bitsSet (n : Nat) (w : Nat) : List Nat := (span 0 n).filter fun i => w.testBit i

/-- The mask with the listed bits. -/
def maskOf (l : List Nat) : Nat := l.foldl (fun m i => m ||| 2 ^ i) 0

/-- A number put into a sorted list. -/
def insertNat (x : Nat) : List Nat → List Nat
  | [] => [x]
  | y :: r => if x ≤ y then x :: y :: r else y :: insertNat x r

/-- A list of numbers in ascending order. -/
def sortNat : List Nat → List Nat
  | [] => []
  | x :: r => insertNat x (sortNat r)

/-- The canonical byte memory of the store (R522): entries with rising addresses, none of them 0xFF. -/
def Mem.read (m : List Host.Cell) (a : Nat) : Byte := ((m.find? fun c => c.1 = a).map (·.2)).getD 0xFF

/-- Write of one byte. -/
def Mem.write : List Host.Cell → Nat → Byte → List Host.Cell
  | [], a, b => if b = 0xFF then [] else [(a, b)]
  | (a', b') :: r, a, b =>
    if a < a' then (if b = 0xFF then (a', b') :: r else (a, b) :: (a', b') :: r)
    else if a = a' then (if b = 0xFF then r else (a, b) :: r)
    else (a', b') :: Mem.write r a b

/-- Write of consecutive bytes from a. -/
def Mem.writes (m : List Host.Cell) (a : Nat) : List Byte → List Host.Cell
  | [] => m
  | b :: bs => Mem.writes (Mem.write m a b) (a + 1) bs

/-- Every entry lies above the bound, addresses rise strictly, and no byte is 0xFF. -/
def Mem.above : Nat → List Host.Cell → Bool
  | _, [] => true
  | lo, (a, b) :: r => decide (lo ≤ a) && decide (b ≠ 0xFF) && Mem.above (a + 1) r

/-- The canonical form of the store. -/
def Mem.wf (m : List Host.Cell) : Bool := Mem.above 0 m

/-! ## Bits -/

/-- Bits [lo + n - 1 : lo] of a word as a number. -/
def bits (w : Word) (lo n : Nat) : Nat := (w.toNat >>> lo) % 2 ^ n

/-- One bit of a word. -/
def bit (w : Word) (i : Nat) : Bool := w.getLsbD i

/-- The mask of bits [lo + n - 1 : lo]. -/
def fieldMask (lo n : Nat) : Word := BitVec.ofNat 32 ((2 ^ n - 1) <<< lo)

/-- w with bits [lo + n - 1 : lo] replaced by v. -/
def putBits (w : Word) (lo n v : Nat) : Word :=
  (w &&& ~~~ fieldMask lo n) ||| (BitVec.ofNat 32 ((v % 2 ^ n) <<< lo))

/-- w under mask m replaced by v. -/
def blend (w m v : Word) : Word := (w &&& ~~~ m) ||| (v &&& m)

/-- A number read as signed, n bits. -/
def signed (n v : Nat) : Int := (BitVec.ofNat n v).toInt

/-- An integer saturated to n signed bits. -/
def saturate (n : Nat) (x : Int) : Int :=
  if x < -(2 ^ (n - 1) : Int) then -(2 ^ (n - 1) : Int) else if x > (2 ^ (n - 1) : Int) - 1 then (2 ^ (n - 1) : Int) - 1 else x

/-- Division truncated toward zero. -/
def quot (a b : Int) : Int := Int.tdiv a b

/-- The sign of a number: -1, 0, 1. -/
def sgn (x : Int) : Int := if x < 0 then -1 else if x = 0 then 0 else 1

/-! ## Registers -/

/-- The reset word of FLT_CLASS of a code (R408, R427). -/
def fltClassReset (code : Nat) : Word :=
  match Src.ofCode code with
  | none => 0
  | some s => BitVec.ofNat 32 (s.row.cls + s.row.lo * 16 + s.row.hi * 256)

/-- The reset word of a register: its table's reset values, and those that a table gives per index (R350, R408, R547, and
the MSI-X table as log entry 12 says). -/
def resetWord (r : Reg) (i : Nat) : Word :=
  match r with
  | .fltClass => fltClassReset i
  | .signReopen => putBits ((r.fields).foldl (fun w f => putBits w f.lo f.width f.reset) 0) 0 9 i
  | .msixTable => if i % 4 = 3 then 1 else 0
  | .devInfo => putBits (putBits 0x6425 16 8 Config.revision.toNat) 24 1 (if Config.deviceKey.isSome then 1 else 0)
  | _ => (r.fields).foldl (fun w f => putBits w f.lo f.width f.reset) 0

/-- The word of a register in one of the maps; what is not listed holds its reset word. -/
def regWord (m : SMap Word) (r : Reg) (i : Nat) : Word := (SMap.find m (r.offset i)).getD (resetWord r i)

/-- A field in one of the maps. -/
def fldOf (m : SMap Word) (f : Fld) (i : Nat) : Nat := bits (regWord m f.reg i) f.lo f.width

/-- m with a field set. -/
def fldSet (m : SMap Word) (f : Fld) (i v : Nat) : SMap Word :=
  SMap.set m (f.reg.offset i) (putBits (regWord m f.reg i) f.lo f.width v)

/-- The statuses of the axes seen so far, with one more (R100). -/
def Act.join (a : Act) (ax : Nat) (st : Status) (result : Word) : Act :=
  let higher := a.worst.code < st.code || (a.worst.code == st.code && ax < a.worstAx)
  { a with wait := a.wait.filter (· ≠ ax)
           worst := if higher then st else a.worst
           worstAx := if higher then ax else a.worstAx
           notOk := if st = .ok then a.notOk else a.notOk + 1
           result := if higher then result else a.result }

namespace Dev

/-- A configuration field in force (R10). -/
def cfg (d : Dev) (f : Fld) (i : Nat) : Nat := fldOf d.regs.force f i
/-- A configuration field as last accepted (R540). -/
def accepted (d : Dev) (f : Fld) (i : Nat) : Nat := fldOf d.regs.acc f i
/-- A device-driven field. -/
def hw (d : Dev) (f : Fld) (i : Nat) : Nat := fldOf d.regs.hw f i
/-- A device-driven flag. -/
def flag (d : Dev) (f : Fld) (i : Nat) : Bool := d.hw f i ≠ 0
/-- A configuration bit in force. -/
def on (d : Dev) (f : Fld) (i : Nat) : Bool := d.cfg f i ≠ 0

/-- The device sets a field of its own. -/
def setHw (d : Dev) (f : Fld) (i v : Nat) : Dev := { d with regs := { d.regs with hw := fldSet d.regs.hw f i v } }

/-- The device changes a writable field: the value accepted and the value in force (R540). -/
def setCfg (d : Dev) (f : Fld) (i v : Nat) : Dev :=
  { d with regs := { d.regs with acc := fldSet d.regs.acc f i v, force := fldSet d.regs.force f i v } }

/-! ## Parts of the state -/

def axis (d : Dev) (n : Nat) : HubAxis := SMap.get d.hax n {}
def setAxis (d : Dev) (n : Nat) (x : HubAxis) : Dev := { d with hax := SMap.set d.hax n x }
def modAxis (d : Dev) (n : Nat) (f : HubAxis → HubAxis) : Dev := d.setAxis n (f (d.axis n))
def modMot (d : Dev) (n : Nat) (f : Motion → Motion) : Dev := d.modAxis n fun x => { x with mot := f x.mot }

def mva (d : Dev) (n : Nat) : MvAxis := SMap.get d.mvax n {}
def setMva (d : Dev) (n : Nat) (x : MvAxis) : Dev := { d with mvax := SMap.set d.mvax n x }
def modMva (d : Dev) (n : Nat) (f : MvAxis → MvAxis) : Dev := d.setMva n (f (d.mva n))

def mv (d : Dev) (m : Nat) : Mv := SMap.get d.mvs m {}
def setMv (d : Dev) (m : Nat) (x : Mv) : Dev := { d with mvs := SMap.set d.mvs m x }
def modMv (d : Dev) (m : Nat) (f : Mv → Mv) : Dev := d.setMv m (f (d.mv m))

def sq (d : Dev) (i : Nat) : Sq := SMap.get d.hif.sqs i {}
def setSq (d : Dev) (i : Nat) (x : Sq) : Dev := { d with hif := { d.hif with sqs := SMap.set d.hif.sqs i x } }
def modSq (d : Dev) (i : Nat) (f : Sq → Sq) : Dev := d.setSq i (f (d.sq i))
def cq (d : Dev) (i : Nat) : Cq := SMap.get d.hif.cqs i {}
def setCq (d : Dev) (i : Nat) (x : Cq) : Dev := { d with hif := { d.hif with cqs := SMap.set d.hif.cqs i x } }
def modCq (d : Dev) (i : Nat) (f : Cq → Cq) : Dev := d.setCq i (f (d.cq i))
def bq (d : Dev) (i : Nat) : Bq := SMap.get d.hif.bqs i {}
def setBq (d : Dev) (i : Nat) (x : Bq) : Dev := { d with hif := { d.hif with bqs := SMap.set d.hif.bqs i x } }
def modBq (d : Dev) (i : Nat) (f : Bq → Bq) : Dev := d.setBq i (f (d.bq i))

/-- A unit entry: an axis unit is bound, alone on its leaf mask (R91). -/
def unit (d : Dev) (u : Nat) : UnitEnt :=
  SMap.get d.units u (if u < 64 then { bound := true, leaf := BitVec.ofNat 64 (2 ^ u) } else {})
def setUnit (d : Dev) (u : Nat) (x : UnitEnt) : Dev := { d with units := SMap.set d.units u x }
def modUnit (d : Dev) (u : Nat) (f : UnitEnt → UnitEnt) : Dev := d.setUnit u (f (d.unit u))
/-- The leaves of a unit, ascending (R93). -/
def leaves (d : Dev) (u : Nat) : List Nat := bitsSet 64 (d.unit u).leaf.toNat

def strike (d : Dev) (i : Nat) : Strike := SMap.get d.strikes i {}
def setStrike (d : Dev) (i : Nat) (x : Strike) : Dev := { d with strikes := SMap.set d.strikes i x }

def cmd (d : Dev) (c : Nat) : CmdPin := SMap.get d.cmds c {}
def setCmd (d : Dev) (c : Nat) (x : CmdPin) : Dev := { d with cmds := SMap.set d.cmds c x }

/-- A message joins the ordered output (R45). -/
def post (d : Dev) (m : Msg) : Dev := { d with hif := { d.hif with outq := d.hif.outq ++ [m] } }
/-- A message leaves at once. -/
def emit (d : Dev) (m : Msg) : Dev := { d with out := d.out ++ [m] }

/-- A fresh open value, and the block with its counter advanced (log entry 2). -/
def free (d : Dev) : Word × Dev := (Config.freeWord d.fresh, { d with fresh := d.fresh + 1 })

/-- An axis loses its arming: OFFT_STATUS.PASSED clears with the change (R320). -/
def unarm (d : Dev) (n : Nat) : Dev :=
  if (d.axis n).armed then (d.modAxis n fun x => { x with armed := false }).setHw Fl.offtStatusPassed n 0 else d

/-- A reopen that waits on an axis is given up (R340, R341). -/
def dropReopen (d : Dev) (n : Nat) : Dev :=
  match SMap.find d.signs n with
  | none => d
  | some g => { d with signs := SMap.set d.signs n { g with reopen := match g.reopen with
      | some r => if r.running then some r else none
      | none => none } }

/-! ## Time (R18, R22, R36) -/

/-- Hub clocks per tick of a rate. -/
def hubClocks (r : BitVec 2) : Nat := if r = 1 then 80000 else if r = 2 then 20000 else 40000
/-- Movement clocks per tick of a rate (R16). -/
def mvClocks (r : BitVec 2) : Nat := if r = 1 then 50000 else if r = 2 then 12500 else 25000
/-- The length of the present tick. -/
def tickLen (d : Dev) : Nat := hubClocks d.time.rate
/-- The tick rate in units of 5 kHz. -/
def rate5k (r : BitVec 2) : Nat := if r = 1 then 1 else if r = 2 then 4 else 2
/-- Tick count [31:0]. -/
def tick32 (d : Dev) : Word := d.time.tick.setWidth 32
/-- An instant `off` hub clocks after the tick boundary comes too late for the next tick boundary (R11). -/
def late (d : Dev) (off : Nat) : Bool := decide (d.tickLen < off + 8)

/-! ## Registers that live in a movement (R537, R552, R553) -/

/-- The movement whose page or whose axis's page holds an offset. -/
def pageMv (off : Nat) : Option Nat :=
  if 0xE000 ≤ off ∧ off < 0xE800 then some ((off - 0xE000) / 0x100)
  else if 0x10000 ≤ off ∧ off < 0x20000 then some ((off - 0x10000) / 0x2000)
  else none

/-- An offset is that of a register that lives in movement m. -/
def inMv (m off : Nat) : Bool :=
  pageMv off == some m && match decodeOffset off with
    | some (r, _) => r.place.dom == .mv
    | none => false

/-! ## Writes that wait (R11) -/

/-- The waiting writes that p picks meet their boundary: those registered in time take effect in the order in which they came,
the late ones are in time for the next. -/
def takePend (p : PendW → Bool) (act : PendW → Dev → Dev) (d : Dev) : Dev :=
  let ws := d.regs.pend
  let rest := ws.filterMap fun w => if p w then (if w.late then some { w with late := false } else none) else some w
  let d := { d with regs := { d.regs with pend := rest } }
  (ws.filter fun w => (p w && !w.late)).foldl (fun d w => act w d) d

/-- Bits of a register come into force. -/
def enforce (r : Reg) (i : Nat) (mask v : Word) (d : Dev) : Dev :=
  { d with regs := { d.regs with force := SMap.set d.regs.force (r.offset i) (blend (regWord d.regs.force r i) mask v) } }

/-- Bits of a register are accepted (R540). -/
def accept (r : Reg) (i : Nat) (mask v : Word) (d : Dev) : Dev :=
  { d with regs := { d.regs with acc := SMap.set d.regs.acc (r.offset i) (blend (regWord d.regs.acc r i) mask v) } }

/-! ## Records (R63 to R65, R71) -/

/-- Credits of a ring not in use: its size less one, less unreturned records, less those reserved (R63). -/
def credits (d : Dev) (i : Nat) : Nat :=
  let q := d.cq i
  2 ^ q.size - 1 - (q.prod + 2 ^ q.size - q.cons) % 2 ^ q.size - q.reserved

/-- A dropped record or frame is counted, saturating (R90). -/
def countDrop (d : Dev) (f : Fld) (i : Nat) (n : Nat) : Dev := d.setHw f i (min 0xFFFFFFFF (d.hw f i + n))

/-- Records of a ring that wait without credit. -/
def uncredited (q : Cq) : Nat := (q.queue.filter fun r => !r.credit).length

/-- A record is produced for a ring: it waits in production order; it is dropped and counted where the ring is not active
(R79) or where sixteen records wait there without credit (R65). -/
def produce (d : Dev) (i : Nat) (r : CRec) : Dev :=
  let q := d.cq i
  if !q.active then (if r.hidden then d else d.countDrop Fl.cqDroppedCount i 1)
  else if !r.credit && 16 ≤ uncredited q then (if r.hidden then d else d.countDrop Fl.cqDroppedCount i 1)
  else d.setCq i { q with queue := q.queue ++ [r] }

/-- A record of an owner. -/
def recOf (d : Dev) (o : Owner) (k : RecKind) (st : Status) (unit : Nat) (result : Word) (credit : Bool) : CRec :=
  { tag := o.tag, status := st, unit := BitVec.ofNat 9 unit, sq := BitVec.ofNat 7 o.sq, tick := d.tick32, result := result,
    slot := o.slot, opcode := o.opcode, kind := k, noirq := o.noirq, credit := credit, hidden := false }

/-- The final record of a descriptor: suppressed by `silent` when its status is OK (R58, R64). -/
def finish (d : Dev) (o : Owner) (st : Status) (unit : Nat) (result : Word) : Dev :=
  let r := d.recOf o .final st unit result o.credit
  if o.silent && st == .ok then (if o.credit then d.produce o.cq { r with hidden := true } else d)
  else d.produce o.cq r

/-- An event record (R72). It needs no credit (R65). -/
def event (d : Dev) (o : Owner) (st : Status) (unit : Nat) (result : Word) : Dev :=
  d.produce o.cq (d.recOf o .event st unit result false)

/-! ## End-of-action descriptors (R100, R101) -/

/-- An action of a descriptor on the given axes begins; its number. -/
def openAct (d : Dev) (o : Owner) (unit : Nat) (axes : List Nat) : Nat × Dev :=
  let n := d.acts.next
  (n, { d with acts := { next := n + 1, list := d.acts.list ++
    [{ id := n, owner := o, unit := unit, wait := axes, worst := .ok, worstAx := 64, notOk := 0, result := 0 }] } })

/-- The action with a number. -/
def act? (d : Dev) (n : Nat) : Option Act := d.acts.list.find? fun a => a.id = n

/-- The result word of a group target (R100). -/
def groupResult (worstAx notOk : Nat) : Word := BitVec.ofNat 32 (worstAx % 64 + if 1 < notOk then 64 else 0)

/-- An axis ends its part of an action; with the last of them the final record is produced (R100). -/
def endAct (d : Dev) (n : Nat) (ax : Nat) (st : Status) (result : Word) : Dev :=
  match d.act? n with
  | none => d
  | some a =>
    if !a.wait.contains ax then d
    else
      let a := a.join ax st result
      if a.wait.isEmpty then
        let d := { d with acts := { d.acts with list := d.acts.list.filter fun b => b.id ≠ n } }
        d.finish a.owner a.worst a.unit (if a.unit < 64 then a.result else groupResult a.worstAx a.notOk)
      else { d with acts := { d.acts with list := d.acts.list.map fun b => if b.id = n then a else b } }

/-- As `endAct`, where there is an action. -/
def endAct? (d : Dev) (n : Option Nat) (ax : Nat) (st : Status) (result : Word) : Dev :=
  match n with
  | none => d
  | some n => d.endAct n ax st result

end Dev

/-- A meaning that changes only the block: it always answers a next state. -/
def State.onDev (s : State) (f : Dev → Dev) : Host.Outcome State Fault Refusal := .next { s with dev := f s.dev }

end Sys2Proof.Machine
end

