-- ==== Sys2Proof/Machine/Flags.lean ====
section
/-! DEFINITION. Flags.lean: sticky flags and counts, and raising a fault source: its flags, its reaction and its presentation
(chapter 14). -/

namespace Sys2Proof.Machine

/-- Presenters (R581): 0 to 7 are the gatherers. -/
abbrev presLink : Nat := 8
abbrev presMotion : Nat := 9
abbrev presSign : Nat := 10
abbrev presHif : Nat := 11
abbrev presBus : Nat := 12
abbrev presThermal : Nat := 13
abbrev presSupply : Nat := 14
abbrev presStore : Nat := 15
abbrev presEsc : Nat := 16
abbrev presOwn : Nat := 17

/-- The better of two presentations: highest class, lowest unit, lowest identifier (R416). -/
def Present.beats (a b : Present) : Bool :=
  b.cls < a.cls || (a.cls == b.cls && (a.unit < b.unit || (a.unit == b.unit && a.id ≤ b.id)))

/-- The winner among presentations of one clock. -/
def winner : Present → List Present → Present
  | a, [] => a
  | a, b :: r => winner (if a.beats b then a else b) r

/-- All legs in one mode. -/
def allLegs (m : LegMode) : Four LegMode := ⟨m, m, m, m⟩

/-- Legs change their modes at instant t of the period (R279): by its end, with the answers of the power stage, their edges are known. A
leg without a period yet has no switch to turn off. -/
def Legs.turn (t : Nat) (ms : Four LegMode) (l : Legs) : Legs :=
  let put (old new : LegMode) : LegMode := if new = .switch then old else new
  let now : Four LegMode := ⟨put l.modes.u ms.u, put l.modes.v ms.v, put l.modes.w ms.w, put l.modes.x ms.x⟩
  { l with modes := now
           span := if l.span.set.isNone then { l.span with modes := now } else { l.span with turns := l.span.turns ++ [(t, ms)] } }

/-- Some leg is driven: by its mode, or an X period goes on that began before the modes changed (R279). -/
def Legs.driven (l : Legs) : Bool :=
  decide (l.modes ≠ allLegs .off) || (l.span.turns.isEmpty && l.span.xrun.any fun e => e.mode != .off)

/-- All gates go off at instant t of the period (R199, R279): a commit in flight, a float window and a probe end; the period starts to
come still know which legs were driven (R311, R312; log entry 147). -/
def Legs.offAt (t : Nat) (l : Legs) : Legs :=
  let l' : Legs := { l with buf := none, xbuf := none, wphase := none, wleft := 0, probe := 0 }
  if !l.driven then l' else { (l'.turn t (allLegs .off)) with going := l.span, goingFor := 2 }

namespace Dev

/-- The instant of a change that a command brings into the present PWM period of an axis without telling when: an open value, not before
the changes that the period has had (log entry 186). -/
def turnAt (d : Dev) (n : Nat) : Nat :=
  let x := d.mv (n / 8)
  let sp := (d.mva n).legs.span
  (sp.turns.map (·.1) ++ sp.cut.map (·.2)).foldl max (Config.instant x.start x.period n sp.turns.length % max 1 (32 * sp.len))

/-- A sticky flag is set. -/
def stick (d : Dev) (f : Fld) (i : Nat) : Dev := d.setHw f i (2 ^ f.width - 1)
/-- A flag falls. -/
def unstick (d : Dev) (f : Fld) (i : Nat) : Dev := d.setHw f i 0
/-- A flag follows a condition. -/
def setFlag (d : Dev) (f : Fld) (i : Nat) (b : Bool) : Dev := d.setHw f i (if b then 1 else 0)
/-- A saturating count takes n more. -/
def bump (d : Dev) (f : Fld) (i : Nat) (n : Nat) : Dev := d.setHw f i (min (2 ^ f.width - 1) (d.hw f i + n))

/-! ## Raising a fault source (R408, R411 to R413, R419) -/

/-- The class a source reacts with (R413). -/
def classOf (d : Dev) (s : Src) : Nat :=
  if s == .hostSilent then d.cfg Fl.hifWdogClass 0
  else if s.fixed then s.row.cls
  else d.cfg Fl.fltClassClass s.row.code

/-- The reaction set of a source at a place: an axis, a movement, or the hub (R407). -/
def reactionSet (s : Src) (place : Nat) : List Nat :=
  if s.row.level < 2 then [place]
  else if s.row.level = 2 && place < 8 then span (8 * place) 8
  else span 0 64

/-- The axes a class acts on (R411). -/
def classAxes (cls : Nat) (axes : List Nat) : List Nat :=
  if cls = 5 then span 0 64
  else if cls = 4 then (span 0 64).filter fun n => axes.any fun a => a / 8 = n / 8
  else axes

/-- The movement is powered and out of reset. -/
def mvOn (d : Dev) (m : Nat) : Bool := (d.hw Fl.pwrStatusMvOn 0).testBit m

/-- Flags of a word with a flag set and CLASS raised (R431). -/
def flagWord (bitNo cls : Nat) (w : Word) : Word :=
  let w := if bitNo < 29 then putBits w bitNo 1 1 else w
  putBits w 29 3 (max (bits w 29 3) cls)

/-- The flags of two words, and the higher CLASS. -/
def mergeFlags (a b : Word) : Word := putBits (a ||| b) 29 3 (max (bits a 29 3) (bits b 29 3))

/-- Where a source of presenter pres sets the flags of axis n: in the axis's movement, from where the latch frame carries them, or in
the hub, which keeps them; a movement that is off holds none (R419; log entry 180). -/
def flagsAtMv (d : Dev) (pres n : Nat) : Bool := decide (pres < 8) && d.mvOn (n / 8)

/-- The flags of an axis there. -/
def flagsAt (d : Dev) (pres n : Nat) : Word :=
  if d.flagsAtMv pres n then SMap.get d.flt.mvFlags n 0 else regWord d.regs.hw .fltSticky n

/-- A sticky flag of an axis, and its CLASS raised, by a source of presenter pres (R419, R431). -/
def stickAxis (pres bitNo cls : Nat) (n : Nat) (d : Dev) : Dev :=
  let w := flagWord bitNo cls (d.flagsAt pres n)
  if d.flagsAtMv pres n then { d with flt := { d.flt with mvFlags := SMap.set d.flt.mvFlags n w } }
  else { d with regs := { d.regs with hw := SMap.set d.regs.hw (Reg.offset .fltSticky n) w } }

/-- STO of one axis: the gate enables go at once, a commit in flight is discarded (R199), a start sequence ends, and an alignment or
a forced ramp loses the angle (R234). The axis takes its safety hold (R441), and an SS1 ends (R457). An orphan movement's axis only leaves the short (R200). -/
def stoAxis (n : Nat) (d : Dev) : Dev :=
  let d := (d.setHw Fl.escAxstatusHold n 1).setHw Fl.escAxstatusSs1 n 0
  d.modMva n fun x =>
    let forced := x.sl.phase == 3 || x.sl.phase == 4
    { x with drive := (match x.drive with
        | .orphanSto => .orphanSto
        | .orphanBrake => .orphanSto
        | _ => .sto)
             pre := false
             unver := x.unver || forced
             legs := x.legs.offAt (d.turnAt n)
             sl := { x.sl with phase := 0, req := none, stopping := false, next := none, known := x.sl.known && !forced } }

/-- The STO latches of FLT_LATCH that a class sets (R411). -/
def latchSto (cls : Nat) (axes : List Nat) (d : Dev) : Dev :=
  if cls = 4 then axes.foldl (fun d n => d.setHw Fl.fltLatchMsto 0 (d.hw Fl.fltLatchMsto 0 ||| 2 ^ (n / 8))) d
  else if cls = 5 then d.setHw Fl.fltLatchDsto 0 1
  else d

/-- The part of a reaction that acts at once: classes 3 to 5 (R411, R412). -/
def reactNow (cls : Nat) (axes : List Nat) (d : Dev) : Dev :=
  if cls < 3 then d else latchSto cls axes (each (classAxes cls axes) stoAxis d)

/-- A movement's reaction request, repeated in its latch frames until acknowledged (R412). -/
def addReq (d : Dev) (m : Nat) (r : React) : Dev :=
  d.modMv m fun x => { x with reqs := x.reqs ++ [{ serial := x.serial, react := r }], serial := x.serial + 1 }

/-- A reaction that the hub applies in its next phase 2. -/
def addReact (d : Dev) (r : React) : Dev := { d with flt := { d.flt with reacts := d.flt.reacts ++ [r] } }

/-- A source is raised: place is its axis, movement or 0, sub its sub-index, pres its presenter; status is what an action it
interrupts ends with. The presentation is settled with the other sources of the same clock. -/
def raiseAs (d : Dev) (s : Src) (place sub pres cls : Nat) (status : Status) : Dev :=
  let axes := reactionSet s place
  let d := each axes (stickAxis pres s.row.bit 0) d
  let d := each (classAxes cls axes) (stickAxis pres 31 cls) d
  let d := reactNow cls axes d
  let r : React := { cls := cls, axes := classAxes cls axes, code := s.row.code, status := status }
  let d := if cls < 2 then d
           else if pres < 8 && cls < 5 then d.addReq pres r
           else d.addReact r
  if cls = 0 then d
  else
    let level := if s.row.level = 2 && 8 ≤ place then 3 else s.row.level
    let unit := if level < 2 then place else if level = 2 then 8 * place else 0
    let p : Present := { id := BitVec.ofNat 12 (s.row.code * 16 + sub), level := BitVec.ofNat 2 level,
                         unit := BitVec.ofNat 9 unit, cls := BitVec.ofNat 3 cls, multi := false, seen := false }
    { d with flt := { d.flt with raised := d.flt.raised ++ [(pres, p)] } }

/-- A source is raised with its class in force. -/
def raise (d : Dev) (s : Src) (place sub pres : Nat) : Dev := d.raiseAs s place sub pres (d.classOf s) .stoppedFault

/-- One presenter takes up the sources raised in this clock: none while it presents an earlier one; else the winner, with
MULTI where there were several (R415, R416, R581). What the collector has found itself waits as arrivals of its own. -/
def settleOne (p : Nat) (d : Dev) : Dev :=
  match (d.flt.raised.filter fun e => e.1 = p).map (·.2) with
  | [] => d
  | a :: r =>
    if p = presOwn then { d with flt := { d.flt with own := d.flt.own ++ a :: r } }
    else if (SMap.find d.flt.pres p).isSome then d
    else { d with flt := { d.flt with pres := SMap.set d.flt.pres p { (winner a r) with multi := !r.isEmpty } } }

/-- The sources of one clock are presented. -/
def settle (d : Dev) : Dev :=
  if d.flt.raised.isEmpty then d
  else
    let d := each (span 0 18) settleOne d
    { d with flt := { d.flt with raised := [] } }

/-- A single source is raised and presented. -/
def raise1 (d : Dev) (s : Src) (place sub pres : Nat) : Dev := (d.raise s place sub pres).settle

/-- The local axes of a movement. -/
def localAxes (m : Nat) : List Nat := span (8 * m) 8

/-- A hub domain is on and ready: 0 DISP, 1 MOTION, 2 SIGN, 3 BUS, 4 MONITOR, 5 NVS (R508, R530). -/
def hubOn (d : Dev) (k : Nat) : Bool := (d.hw Fl.pwrStatusHubOn 0).testBit k

/-! ## The conditions of the SAFE pins (R440, R441) -/

/-- A movement's SAFEHOLD pair is asserted; the SAFE domain keeps the value of a movement that is off. -/
def safehold (d : Dev) (m : Nat) : Bool :=
  if !d.mvOn m then d.sys.holdHeld.getLsbD m
  else (localAxes m).any fun n => d.flag Fl.escAxstatusHold n || match (d.mva n).drive with
    | .sto => true
    | .orphanSto => true
    | .orphanBrake => true
    | _ => false

/-- A movement's ORPH pair is asserted. -/
def orph (d : Dev) (m : Nat) : Bool := d.flag Fl.escMvstatusOrphan m

/-- Some condition of R440 holds. -/
def safeCond (d : Dev) : Bool :=
  d.hw Fl.stoStatusPinA 0 ≠ 0 || d.hw Fl.stoStatusPinB 0 ≠ 0 || d.hw Fl.fltLatchMsto 0 ≠ 0 || d.flag Fl.fltLatchDsto 0 ||
  ((span 0 8).any fun m => d.safehold m || d.orph m) || !d.flt.broken.isEmpty ||
  !d.flag Fl.escStatusSelftestOk 0 || d.sys.escFault || !d.flag Fl.imgStatusDone 0

/-- A condition may be about to end: the pins fall all the same (R440). -/
def safeSense (d : Dev) : Dev :=
  if d.safeCond && !d.flag Fl.escStatusSafeA 0 then { d with sys := { d.sys with safeDue := true } } else d

end Dev
end Sys2Proof.Machine
end

