-- ==== Sys2Proof/Machine/Operands.lean ====
section
/-! DEFINITION. Operands.lean: the opcodes of R61 and the fields of a descriptor, with the bits that each layout reserves. -/

namespace Sys2Proof

/-- Word k of a descriptor. -/
def Desc.word (d : Desc) : Nat → Word
  | 0 => d.w0 | 1 => d.w1 | 2 => d.w2 | 3 => d.w3 | 4 => d.w4 | 5 => d.w5 | 6 => d.w6 | _ => d.w7

/-- Common fields (R58). -/
def Desc.opcode (d : Desc) : BitVec 8 := d.w0.setWidth 8
def Desc.interim (d : Desc) : Bool := Machine.bit d.w0 8
def Desc.silent (d : Desc) : Bool := Machine.bit d.w0 9
def Desc.noirq (d : Desc) : Bool := Machine.bit d.w0 10
/-- opflag k, DW0[12 + k]. -/
def Desc.opflag (d : Desc) (k : Nat) : Bool := Machine.bit d.w0 (12 + k)
def Desc.cqField (d : Desc) : Nat := Machine.bits d.w0 16 8
def Desc.tag (d : Desc) : BitVec 8 := BitVec.ofNat 8 (Machine.bits d.w0 24 8)
def Desc.unit (d : Desc) : Nat := Machine.bits d.w1 0 9
/-- A pos32.8 field of words k and k + 1. -/
def Desc.pos (d : Desc) (k : Nat) : Pos := BitVec.ofNat 40 (Machine.bits (d.word (k + 1)) 0 8 * 2 ^ 32 + (d.word k).toNat)
/-- A 64-byte aligned address of words k and k + 1. -/
def Desc.addr (d : Desc) (k : Nat) : Nat := Machine.bits (d.word (k + 1)) 0 32 * 2 ^ 32 + Machine.bits (d.word k) 6 26 * 64

/-- FENCE modes (R66). -/
def Desc.fenceMode (d : Desc) : Nat := Machine.bits d.w2 0 2

/-- A data length code's number of bytes (R76): 0 to 8 as they are, then 12, 16, 20, 24, 32, 48, 64 of a CAN FD frame. -/
def dlcBytes (fdf : Bool) (dlc : BitVec 4) : Nat :=
  if dlc.toNat ≤ 8 then dlc.toNat
  else if !fdf then 8
  else match dlc.toNat with
    | 9 => 12 | 10 => 16 | 11 => 20 | 12 => 24 | 13 => 32 | 14 => 48 | _ => 64

end Sys2Proof

namespace Sys2Proof.Machine

/-- The opcodes of R61. -/
inductive Op where
  | move | stop | resume | speed | setprofile | setpoint | strikeArm | strikeDisarm | start | catchRotor | brake | float
  | arm | disarm | auxPwm | offtest | calibrate | signLoad | learn | bind | unbind | canTx | snapshot | fence | nop
  deriving DecidableEq, Repr

/-- Opcode values (R61). -/
def Op.code : Op → BitVec 8
  | .move => 0x01 | .stop => 0x02 | .resume => 0x03 | .speed => 0x04 | .setprofile => 0x05 | .setpoint => 0x06
  | .strikeArm => 0x10 | .strikeDisarm => 0x11 | .start => 0x20 | .catchRotor => 0x21 | .brake => 0x22 | .float => 0x23
  | .arm => 0x24 | .disarm => 0x25 | .auxPwm => 0x26 | .offtest => 0x27 | .calibrate => 0x28 | .signLoad => 0x30
  | .learn => 0x31 | .bind => 0x40 | .unbind => 0x41 | .canTx => 0x50 | .snapshot => 0x60 | .fence => 0x61 | .nop => 0x62

/-- Every opcode of the index. -/
def Op.all : List Op := [.move, .stop, .resume, .speed, .setprofile, .setpoint, .strikeArm, .strikeDisarm, .start,
  .catchRotor, .brake, .float, .arm, .disarm, .auxPwm, .offtest, .calibrate, .signLoad, .learn, .bind, .unbind, .canTx,
  .snapshot, .fence, .nop]

/-- The opcode with a value, if the index has it. -/
def Op.ofCode (c : BitVec 8) : Option Op := Op.all.find? fun o => o.code == c

/-- Opcodes whose final record is at the end of an action: they may write an interim record (R58, R61). -/
def Op.endOfAction : Op → Bool
  | .move | .stop | .resume | .start | .catchRotor | .offtest | .calibrate | .learn | .canTx => true
  | _ => false

/-- Safety-directed opcodes (R61). -/
def Op.safety : Op → Bool
  | .stop | .brake | .float | .disarm => true
  | _ => false

/-- The opcode expands a group to its leaves (R98). -/
def Op.expands : Op → Bool
  | .strikeArm | .strikeDisarm | .snapshot | .fence | .bind | .unbind | .canTx | .nop => false
  | _ => true

/-- The descriptor with its opcode byte replaced. -/
def withOpcode (o : Op) (d : Desc) : Desc := { d with w0 := putBits d.w0 0 8 o.code.toNat }

/-- The descriptor addresses a unit (R59, R61). -/
def addressesUnit (o : Op) (d : Desc) : Bool :=
  match o with
  | .canTx => false
  | .nop => false
  | .fence => d.fenceMode == 2
  | _ => true

/-- Bits of param that an action code reserves (R160). -/
def paramReserved (action : Nat) : Word :=
  match action with
  | 0 => 0xFFFFFFFF
  | 2 => 0xFFFFFFFF
  | 3 => 0xFF000000
  | 4 => 0xFFFF0000
  | 5 => 0xFFFFFC00
  | _ => 0

/-- Bits of DW1 to DW7 that a layout reserves, and of DW0[15:12]; word by word (the layouts of R66, R69, R70, R94, R96, R120,
R123, R124, R128, R132, R134, R163, R166, R184, R187, R188, R230, R233, R256, R282, R317, R349, R351, R394). -/
def reservedMask (o : Op) (d : Desc) (k : Nat) : Word :=
  match o, k with
  | .move, 0 => 0x8000
  | .move, 1 => 0xE00
  | .move, _ => 0
  | .stop, 0 => 0xE000
  | .stop, 1 => 0xFFFFFE00
  | .stop, 2 => 0
  | .resume, 0 => 0xF000
  | .resume, 1 => 0xFFFFFE00
  | .speed, 0 => 0xC000
  | .speed, 1 => 0xFFFFFE00
  | .speed, 2 => 0
  | .setprofile, 0 => 0xF000
  | .setprofile, 1 => 0xE00
  | .setprofile, 2 => 0x80000000
  | .setprofile, 3 => 0xFFF00000
  | .setprofile, _ => 0
  | .setpoint, 0 => 0xA000
  | .setpoint, 1 => 0xFFFFFE00
  | .setpoint, 2 => 0
  | .setpoint, 3 => 0xFF00
  | .strikeArm, 0 => 0
  | .strikeArm, 1 => 0xFF000000
  | .strikeArm, 2 => if bits d.w1 19 2 = 1 then 0xFFFFFFFF else 0
  | .strikeArm, 3 => if bits d.w1 19 2 = 0 then 0xFF00 else if bits d.w1 19 2 = 1 then 0xFFFFFFFF else 0xFFFF
  | .strikeArm, 4 => 0xFFFFE008
  | .strikeArm, 5 => paramReserved (bits d.w4 0 3)
  | .strikeDisarm, 0 => 0xF000
  | .strikeDisarm, 1 => if bit d.w1 19 then 0xFFF7FE00 else 0xFFF00000
  | .start, 0 => 0x8000
  | .start, 1 => 0xFFFFFE00
  | .start, 2 => if d.opflag 0 then 0xFFFFFFFF else 0
  | .catchRotor, 0 => 0xE000
  | .catchRotor, 1 => 0xFFFFFE00
  | .brake, 0 => 0xE000
  | .brake, 1 => 0xFFFFFE00
  | .float, 0 => 0xE000
  | .float, 1 => 0xFFFFFE00
  | .arm, 0 => 0xE000
  | .arm, 1 => 0xFFFFFE00
  | .disarm, 0 => 0xE000
  | .disarm, 1 => 0xFFFFFE00
  | .auxPwm, 0 => 0xC000
  | .auxPwm, 1 => 0xFFFFFE00
  | .auxPwm, 2 => (if d.opflag 1 then 0xFFFF else 0) ||| (if d.opflag 0 then 0 else 0xF0000) ||| 0xFFF00000
  | .offtest, 0 => 0xE000
  | .offtest, 1 => 0xFFFFFE00
  | .calibrate, 0 => 0xF000
  | .calibrate, 1 => 0xFFFFFE00
  | .signLoad, 0 => 0xC000
  | .signLoad, 1 => if d.opflag 1 then 0xFFFFFE00 else 0xFFFFE000
  | .signLoad, 2 => if d.opflag 1 then 0xFFFFFFFF else 0x3F
  | .signLoad, 3 => if d.opflag 1 then 0xFFFFFFFF else 0
  | .signLoad, 4 => if d.opflag 1 then 0xFFFFFFFF else 0
  | .signLoad, 5 => if d.opflag 1 then 0xFFFFFFFF else 0xFFFE0000
  | .learn, 0 => 0xC000
  | .learn, 1 => 0xFFFFE000
  | .learn, 2 => 0x3F
  | .learn, 3 => 0
  | .learn, 4 => 0x3F
  | .learn, 5 => 0
  | .learn, 6 => 0
  | .learn, 7 => 0xFE000000
  | .bind, 0 => 0xF000
  | .bind, 1 => 0xFFFFFE00
  | .bind, 2 => 0xFFFFFC00
  | .bind, 4 => 0
  | .bind, 5 => 0
  | .unbind, 0 => 0xF000
  | .unbind, 1 => 0xFFFFFC00
  | .canTx, 0 => 0xE000
  | .canTx, 1 => 0xFFFFF9FF
  | .canTx, 2 => 0
  | .canTx, 3 => 0xFFFF00E0
  | .canTx, 4 => if d.opflag 0 then 0x3F else 0
  | .canTx, 5 => 0
  | .canTx, 6 => if d.opflag 0 then 0xFFFFFFFF else 0
  | .canTx, 7 => if d.opflag 0 then 0xFFFFFFFF else 0
  | .snapshot, 0 => 0xF000
  | .snapshot, 1 => 0xFFFFFE00
  | .snapshot, 2 => 0x3F
  | .snapshot, 3 => 0
  | .fence, 0 => 0xF000
  | .fence, 1 => if d.fenceMode = 2 then 0xFFFFFE00 else 0xFFFFFFFF
  | .fence, 2 => 0xFFF8
  | .fence, 3 => if d.fenceMode = 3 then 0 else 0xFFFFFFFF
  | .nop, 0 => 0xF000
  | _, _ => 0xFFFFFFFF

/-- Lowest set bit of a word. -/
def lowestBit (w : Word) : Nat := ((bitsSet 32 w.toNat).head?).getD 0

/-- The first reserved bit that is set (check 2 of R60): word index and bit. DW0[11] is reserved in every layout. -/
def firstReserved (o : Op) (d : Desc) : Option (Nat × Nat) :=
  ((span 0 8).find? fun k => (d.word k &&& (reservedMask o d k ||| if k = 0 then 0x800 else 0)) ≠ 0).map
    fun k => (k, lowestBit (d.word k &&& (reservedMask o d k ||| if k = 0 then 0x800 else 0)))

end Sys2Proof.Machine
end

