-- ==== Sys2Proof/Machine/Units.lean ====
section
/-! DEFINITION. Units.lean: the unit tree: reach, leaf masks, references, group reports, BIND and UNBIND (chapter 3). -/

namespace Sys2Proof.Machine.Dev

/-! ## Reach (R59, R92, R93) -/

/-- u is r or lies below r; the climb takes at most `fuel` steps. -/
def isBelow (d : Dev) (u r : Nat) : Nat → Bool
  | 0 => u == r
  | fuel + 1 => u == r || match (d.unit u).parent with
    | none => false
    | some p => isBelow d p r fuel

/-- u passes R59 as a target of a ring. -/
def inRing (d : Dev) (q : Sq) (u : Nat) : Bool := q.anyUnit || d.isBelow u q.unit 512

/-- The bound groups, ascending. -/
def groups (d : Dev) : List Nat := (d.units.filter fun e => decide (64 ≤ e.1) && e.2.bound).map (·.1)

/-- The leaf bits of a unit and all units above it change: f on every mask from u upward (R93). -/
def upLeaf (f : BitVec 64 → BitVec 64) (u : Nat) : Nat → Dev → Dev
  | 0, d => d
  | fuel + 1, d =>
    let d := d.modUnit u fun e => { e with leaf := f e.leaf }
    match (d.unit u).parent with
    | none => d
    | some p => upLeaf f p fuel d

/-! ## States and reports of a unit (R103, R104) -/

/-- Order of the unit states, the most severe last (R104). -/
def UState.rank : UState → Nat
  | .idle => 0 | .stopped => 1 | .moving => 2 | .faulted => 3 | .safe => 4

/-- Code of a unit state (R111). -/
def UState.code : UState → Nat
  | .idle => 0 | .moving => 1 | .stopped => 2 | .faulted => 3 | .safe => 4

/-- The more severe of two states. -/
def worse (a b : UState) : UState := if UState.rank a < UState.rank b then b else a

/-- A unit's state: the most severe among its leaves (R104). -/
def stateOf (d : Dev) (u : Nat) : UState := (d.leaves u).foldl (fun s n => worse s (d.axis n).st) .idle

/-- A unit is faulted or safe (R29). -/
def down (d : Dev) (u : Nat) : Bool := d.stateOf u == .faulted || d.stateOf u == .safe

/-- A unit reads as armed when all its leaves do (R104); an axis in HALT reads so too (R183) (log entry 202). -/
def unitArmed (d : Dev) (u : Nat) : Bool := (d.leaves u).all fun n => (d.axis n).armed || (d.mva n).drive == .halt

/-- A unit runs, for the Idle-only rule: any leaf is armed (R12). -/
def anyArmed (d : Dev) (u : Nat) : Bool := (d.leaves u).any fun n => (d.axis n).armed

/-- The distance of a position from 0. -/
def mag (p : Pos) : Nat := p.toInt.natAbs

/-- The member with the smallest key; ties go to the earlier one. -/
def argmin (key : Nat → Nat) : Nat → List Nat → Nat
  | m, [] => m
  | m, x :: r => argmin key (if key x < key m then x else m) r

/-- The axis at the end of the reference chain that phase 1 forms (R102, R103). -/
def chain (d : Dev) : Nat → Nat → Nat
  | 0, u => u % 64
  | fuel + 1, u =>
    if u < 64 then u
    else if d.on Fl.unitRefMode u then
      match sortNat (d.unit u).members with
      | [] => 0
      | m :: ms => chain d fuel (argmin (fun x => mag (d.axis (chain d fuel x)).lat.pos) m ms)
    else chain d fuel (d.cfg Fl.unitRefRef u)

/-- The member a group takes as reference in phase 1 (R102). -/
def refPick (d : Dev) (g : Nat) : Nat :=
  if d.on Fl.unitRefMode g then
    match sortNat (d.unit g).members with
    | [] => 0
    | m :: ms => argmin (fun x => mag (d.axis (d.chain 512 x)).lat.pos) m ms
  else d.cfg Fl.unitRefRef g

/-- Phase 1 forms every group's reference (R102, R103). -/
def formRefs (d : Dev) : Dev :=
  let picks := d.groups.map fun g => (g, d.refPick g)
  picks.foldl (fun d e => d.modUnit e.1 fun x => { x with refNow := e.2, refUse := e.2 }) d

/-- The axis whose latched quantities a unit reports (R103): by the reference of each group on the way, as phase 1 formed it or as it
has passed on since (log entry 133). -/
def repAxis (d : Dev) : Nat → Nat → Nat
  | 0, u => u % 64
  | fuel + 1, u =>
    if u < 64 then u else repAxis d fuel (d.unit u).refUse

/-- The axis of a unit's report. -/
def rep (d : Dev) (u : Nat) : Nat := d.repAxis 512 u

/-! ## The fixed reference (R102, R109) -/

/-- A write of UNIT_REF.REF waits for its boundary. -/
def refWaits (d : Dev) (g : Nat) : Bool := d.regs.pend.any fun w => w.off == Reg.offset .unitRef g && bit w.mask 0

/-- The fixed reference of a group changes; REF goes on reading a value that has been written and waits (R109) (log entry 191). -/
def setRef (d : Dev) (g v : Nat) : Dev :=
  let d' := d.setCfg Fl.unitRefRef g v
  if d.refWaits g then { d' with regs := { d'.regs with acc := d.regs.acc } } else d'

/-! ## BIND (R94, R95) -/

/-- Axes that a BIND lists beside its child. -/
def bindAxes (x : Desc) : List Nat := (bitsSet 64 (x.w4.toNat + x.w5.toNat * 2 ^ 32)).filter (· ≠ x.unit)

/-- The parent a BIND names. -/
def bindParent (x : Desc) : Nat := bits x.w2 0 9

/-- The checks of R95: the first that fails. -/
def bindCheck (d : Dev) (q : Sq) (x : Desc) : Option (Status × Nat) :=
  let p := bindParent x
  let axes := bindAxes x
  if p < 64 then some (.paramRange, p)
  else match (sortNat (p :: axes)).find? fun u => !d.inRing q u with
    | some u => some (.paramRange, u)
    | none => match (sortNat (x.unit :: axes)).find? fun u => (d.unit u).parent.isSome with
      | some u => some (.wrongState, u)
      | none =>
        if d.isBelow p x.unit 512 then some (.bindCycle, p)
        else if 64 < (d.unit p).members.length + 1 + axes.length then some (.paramRange, p)
        else none

/-- One member is attached to a bound group. -/
def attach (p u : Nat) (d : Dev) : Dev :=
  let mask := (d.unit u).leaf
  let d := d.modUnit u fun e => { e with parent := some p }
  let d := d.modUnit p fun e => { e with members := e.members ++ [u] }
  upLeaf (fun l => l ||| mask) p 512 d

/-- The effect of an accepted BIND, with its result word. Until the next phase 1, a group that it creates reports the quantities of its
child (log entry 133). -/
def bindDo (x : Desc) (d : Dev) : Word × Dev :=
  let p := bindParent x
  let made := !(d.unit p).bound
  let d := if made then d.setUnit p { bound := true, refUse := x.unit } else d
  let d := each (x.unit :: bindAxes x) (attach p) d
  let d := if made || bit x.w2 9 then d.setRef p x.unit else d
  (BitVec.ofNat 32 ((d.unit p).members.length + if made then 128 else 0), d)

/-! ## UNBIND (R96, R97) -/

/-- Strikes keyed to or acting on a group that ceases become free (R97, R153). -/
def freeStrikes (g : Nat) (d : Dev) : Dev :=
  { d with strikes := d.strikes.map fun e =>
      if e.2.st ≠ .free && (e.2.unit.toNat = g || e.2.actUnit.toNat = g) then (e.1, { e.2 with st := .free, owner := none })
      else e }

/-- A group ceases: its entry is unbound, its fixed reference reads 0 (R97). -/
def cease (g : Nat) (d : Dev) : Dev :=
  freeStrikes g ((d.setUnit g {}).setRef g 0)

/-- A unit leaves its parent p; p's reference passes to its lowest remaining member, in the same slot (R102, R103). The member that
serves for the rest of the tick is the fixed reference, under either MODE (log entry 133). -/
def detach (p u : Nat) (d : Dev) : Dev :=
  let mask := (d.unit u).leaf
  let d := d.modUnit u fun e => { e with parent := none }
  let d := d.modUnit p fun e => { e with members := e.members.filter (· ≠ u) }
  let d := upLeaf (fun l => l &&& ~~~ mask) p 512 d
  match sortNat (d.unit p).members with
  | [] => d
  | m :: _ =>
    let d := if d.cfg Fl.unitRefRef p = u then d.setRef p m else d
    if (d.unit p).refUse = u then d.modUnit p fun e => { e with refUse := d.cfg Fl.unitRefRef p } else d

/-- A parent left without members ceases, and so on upward; the number of groups that ceased (R96). -/
def prune (p : Nat) : Nat → Dev → Nat × Dev
  | 0, d => (0, d)
  | fuel + 1, d =>
    if (d.unit p).members ≠ [] then (0, d)
    else match (d.unit p).parent with
      | none => (1, cease p d)
      | some g =>
        let (n, d) := prune g fuel (cease p (detach g p d))
        (n + 1, d)

/-- The effect of UNBIND, or its refusal; the result word of R96. -/
def unbindDo (x : Desc) (d : Dev) : Except (Status × Nat) (Word × Dev) :=
  let u := x.unit
  let dissolve := bit x.w1 9
  let par := (d.unit u).parent
  let word (n : Nat) : Word := BitVec.ofNat 32 (par.getD 0 + (if par.isSome then 512 else 0) + n * 65536)
  if !dissolve then
    match par with
    | none => .error (.wrongState, u)
    | some p =>
      let (n, d) := prune p 512 (detach p u d)
      .ok (word n, d)
  else if u < 64 then .error (.paramRange, u)
  else
    let d := match par with
      | none => d
      | some p => detach p u d
    let d := each (d.unit u).members (fun m d => d.modUnit m fun e => { e with parent := none }) d
    let d := cease u d
    match par with
    | none => .ok (word 1, d)
    | some p =>
      let (n, d) := prune p 512 d
      .ok (word (n + 1), d)

/-! ## UNIT_REF at its boundary (R580) -/

/-- A write of UNIT_REF.REF takes effect: it names a direct member, or it is rejected and the field reads what it was. -/
def refTake (g v : Nat) (d : Dev) : Dev :=
  if (d.unit g).bound && (d.unit g).members.contains v then d.setRef g v
  else
    let d := d.setRef g (d.cfg Fl.unitRefRef g)
    if !(d.unit g).bound && v = 0 then d else d.stick Fl.unitStatusRefRejected 0

end Sys2Proof.Machine.Dev
end

