-- ==== Sys2Proof/Machine/Rings.lean ====
section
/-! DEFINITION. Rings.lean: the ring engine: doorbell page, fetch, dispatch checks and credit, records and messages, FENCE, NOP
and SNAPSHOT, BIND and UNBIND as descriptors (chapter 2). -/

namespace Sys2Proof.Machine

/-- What a function needs to know of the descriptor it carries out. -/
structure Ctx where
  sq    : Nat
  ring  : Sq
  slot  : BitVec 16
  x     : Desc
  op    : Op
  owner : Owner
  deriving DecidableEq, Repr

/-- A read of a ring that is outstanding serves it no more (R43). -/
def Sq.orphan (q : Sq) : Sq := { q with asked := false, stale := q.stale + if q.asked then 1 else 0 }

namespace Dev

/-! ## Errors (R80) -/

/-- The ring error notice of a submission ring, to its default completion ring (R65, R72). -/
def notice (d : Dev) (i : Nat) (st : Status) : Dev :=
  let q := d.sq i
  d.produce q.defCq
    { tag := 0, status := st, unit := 0, sq := BitVec.ofNat 7 i, tick := d.tick32, result := 0,
      slot := BitVec.ofNat 16 q.cons, opcode := 0, kind := .notice, noirq := false, credit := false, hidden := false }

/-- A submission ring stops in an error, with a notice. -/
def sqError (d : Dev) (i : Nat) (st : Status) : Dev :=
  (d.modSq i fun q => { q.orphan with error := some st, fetched := [], fetchFail := false }).notice i st

/-- Some ring is in error (R84). -/
def ringError (d : Dev) : Bool :=
  (d.hif.sqs.any fun e => e.2.error.isSome) || (d.hif.cqs.any fun e => e.2.error.isSome) ||
  (d.hif.bqs.any fun e => e.2.error.isSome)

/-! ## Doorbell page (R33, R53, R54, R57) -/

/-- The Max read request size that the host has set (R41). -/
def maxRead (d : Dev) : Nat := 128 * 2 ^ min 5 (d.sys.devCtl.toNat / 4096 % 8)

/-- The requests that read the host area of 784 bytes (R41, R54). -/
def pageReads (d : Dev) : List Msg :=
  (span 0 ((784 + d.maxRead - 1) / d.maxRead)).map fun k =>
    .readDoorbell (d.hif.dbBase.toNat + d.maxRead * k) (min d.maxRead (784 - d.maxRead * k))

/-- Remontoire reads outstanding, those of earlier window generations among them (R43, R360). -/
def signTags (d : Dev) : Nat := (d.signs.map fun e => e.2.asked.length + e.2.old.length).sum

/-- Data reads of the CAN controllers that are outstanding (R395). -/
def busTags (d : Dev) : Nat := (d.cans.map fun e => e.2.reads.length).sum

/-- Reads that the ring engine and the CAN controllers have outstanding. -/
def ringTags (d : Dev) : Nat :=
  d.hif.dbTags + (d.hif.sqs.map fun e => e.2.stale + if e.2.asked then 1 else 0).sum + d.busTags

/-- Reads that the device may keep outstanding (R43). -/
def allTags (d : Dev) : Nat := if d.hif.extTags then 256 else 32

/-- n further reads find their tags (R43). -/
def tagsFree (d : Dev) (n : Nat) : Bool := decide (d.ringTags + d.signTags + n ≤ d.allTags)

/-- A further data read of a CAN controller finds a tag, and leaves the ring engine its 16 (R43). -/
def busFree (d : Dev) : Bool := d.tagsFree 1 && decide (d.signTags + d.busTags + 17 ≤ d.allTags)

/-- The link carries requests of the device: it is up, the function is in D0, and no reset by RST_CMD is under way (R46, R521). -/
def linkServes (d : Dev) : Bool := d.hif.linkUp && !d.hif.d3hot && !d.sys.rstCmd

/-- A CAN controller. -/
def can (d : Dev) (c : Nat) : CanCtl := SMap.get d.cans c {}
def setCan (d : Dev) (c : Nat) (x : CanCtl) : Dev := { d with cans := SMap.set d.cans c x }
def modCan (d : Dev) (c : Nat) (f : CanCtl → CanCtl) : Dev := d.setCan c (f (d.can c))

/-- A read of the host area is wanted: it goes out at once, or once more after the outstanding one (R54; log entry 129: a tick
boundary or a lack of tags that meets an outstanding read counts as a kick does). -/
def readDoorbell (d : Dev) : Dev :=
  if !d.hif.dbActive || !d.linkServes then d
  else if d.hif.dbRead || !d.tagsFree d.pageReads.length then { d with hif := { d.hif with dbAgain := true } }
  else d.pageReads.foldl emit { d with hif := { d.hif with dbRead := true, dbAgain := false, dbTags := d.pageReads.length } }

/-- The read of the slot that the ring fetches next, where a tag is free (R43). -/
def wantFetch (i : Nat) (d : Dev) : Dev :=
  let q := d.sq i
  if q.active && q.error.isNone && !q.fetchFail && !q.asked && q.fetchAt ≠ q.prod && d.tagsFree 1 then
    (d.setSq i { q with asked := true }).emit (.readDesc i q.fetchAt (q.base.toNat + 32 * q.fetchAt))
  else d

/-- The data reads of a controller that wait for a tag go out, as far as tags are free (R43, R395). -/
def wantData (c : Nat) (d : Dev) : Dev :=
  ((d.can c).queue.filter fun t => !t.eligible && !(d.can c).reads.contains t.key).foldl (fun d t =>
    if !d.busFree then d
    else (d.modCan c fun x => { x with reads := x.reads ++ [t.key] }).emit (.readData c t.key t.addr)) d

/-- A tag has come free: a read of the page that waits goes out first, then descriptor reads by rising ring, then data reads of the CAN
controllers (log entry 130). -/
def moreReads (d : Dev) : Dev :=
  let d := if d.hif.dbAgain && !d.hif.dbRead then d.readDoorbell else d
  each (span 0 4) wantData (each (d.hif.sqs.map (·.1)) wantFetch d)

/-- Index word k of a host area. -/
def indexWord (w : List Word) (k : Nat) : Nat := bits (w.getD k 0) 0 16

/-- A producer index seen for a submission ring (R80). -/
def takeProducer (w : List Word) (i : Nat) (d : Dev) : Dev :=
  let q := d.sq i
  let p := indexWord w i
  if !q.active || q.error.isSome then d
  else if q.oldPage then d.setSq i { q with oldPage := false }
  else if 2 ^ q.size ≤ p then d.sqError i .producerRange
  else wantFetch i (d.setSq i { q with prod := p })

/-- A consumer index is one that the ring can return (R80). -/
def consumerOk (size prod cons c : Nat) : Bool :=
  decide (c < 2 ^ size) && decide ((c + 2 ^ size - cons) % 2 ^ size ≤ (prod + 2 ^ size - cons) % 2 ^ size)

/-- A consumer index seen for a completion ring. -/
def takeCqConsumer (w : List Word) (i : Nat) (d : Dev) : Dev :=
  let q := d.cq i
  let c := indexWord w (128 + i)
  if !q.active || q.error.isSome then d
  else if consumerOk q.size q.prod q.cons c then d.setCq i { q with cons := c }
  else d.setCq i { q with error := some .consumerRange, msgForce := true }

/-- A consumer index seen for a bus ring. -/
def takeBqConsumer (w : List Word) (i : Nat) (d : Dev) : Dev :=
  let q := d.bq i
  let c := indexWord w (192 + i)
  if !q.active || q.error.isSome then d
  else if consumerOk q.size q.prod q.cons c then d.setBq i { q with cons := c }
  else d.setBq i { q with error := some .consumerRange, msgForce := true }

/-- Two host areas hold the same indices. -/
def sameIndices (a b : List Word) : Bool := (span 0 196).all fun k => indexWord a k == indexWord b k

/-- A read of the host area completes, with its 196 words or with an error (R54, R57, R80). -/
def doorbellDone (r : Option (List Word)) (d : Dev) : Dev :=
  if !d.hif.dbRead then d
  else
    let d := { d with hif := { d.hif with dbRead := false, dbTags := 0 } }
    let d := match r with
      | none => d.stick Fl.hifStatusDbReadFail 0
      | some w =>
        let act := !d.hif.dbLast.isEmpty && !sameIndices w d.hif.dbLast
        let d := { d with hif := { d.hif with dbLast := w, activity := d.hif.activity || act } }
        let d := each (span 0 128) (takeProducer w) d
        let d := each (span 0 64) (takeCqConsumer w) d
        each (span 0 4) (takeBqConsumer w) d
    d.moreReads

/-- A descriptor read of a ring completes, with the descriptor or with an error (R33, R80). One of an earlier enable only frees its
tag (log entry 130: the reads of a ring complete in the order of their issue). -/
def fetchDone (i : Nat) (r : Option Desc) (d : Dev) : Dev :=
  let q := d.sq i
  if 0 < q.stale then (d.setSq i { q with stale := q.stale - 1 }).moreReads
  else if !q.asked then d
  else
    let q := { q with asked := false }
    match r with
    | some x =>
      (wantFetch i (d.setSq i { q with fetched := q.fetched ++ [(q.fetchAt, x)], fetchAt := (q.fetchAt + 1) % 2 ^ q.size })).moreReads
    | none =>
      if q.fetched.isEmpty && q.fence.isNone then ((d.setSq i q).sqError i .fetchError).moreReads
      else (d.setSq i { q with fetchFail := true }).moreReads

/-- A write to HIF_KICK (R54, R57). -/
def kick (d : Dev) : Dev := ({ d with hif := { d.hif with activity := true } }).readDoorbell

/-- The silent-host rule counts: the page is in use, and DB_EN has not been written 0 since (R57). -/
def watchesHost (d : Dev) : Bool := d.hif.dbActive && d.accepted Fl.hifCfgDbEn 0 == 1

/-- HOST_SILENT is raised when the count of silent ticks has reached its limit, once in a silence (R57). -/
def silentRaise (d : Dev) : Dev :=
  let t := d.cfg Fl.hifWdogTicks 0
  if t ≠ 0 && d.watchesHost && !d.hif.silentRaised && t ≤ d.hif.silent then
    (({ d with hif := { d.hif with silentRaised := true } }).stick Fl.hifStatusHostSilent 0).raise1 .hostSilent 0 0 presHif
  else d

/-- The silence count at a tick boundary (R57). -/
def silentTick (d : Dev) : Dev :=
  if d.hif.activity then
    { d with hif := { d.hif with activity := false, silent := 0, silentRaised := false } }
  else if d.cfg Fl.hifWdogTicks 0 ≠ 0 && d.watchesHost && !d.hif.silentRaised then
    ({ d with hif := { d.hif with silent := d.hif.silent + 1 } }).silentRaise
  else d

/-! ## Enabling and disabling rings (R78, R79) -/

/-- A base address field pair in force. -/
def base64 (d : Dev) (lo hi : Fld) (i : Nat) : BitVec 64 := BitVec.ofNat 64 (d.cfg hi i * 2 ^ 32 + d.cfg lo i * 2 ^ 12)

/-- A ring size field is in range. -/
def sizeOk (s : Nat) : Bool := decide (4 ≤ s) && decide (s ≤ 16)

/-- An SQ becomes active, or reports BAD_CONFIG. Its slots up to the producer index in the page are those that the read of the page
from this boundary on gives (R33, R78; log entry 155). -/
def sqEnable (i : Nat) (d : Dev) : Dev :=
  let size := d.cfg Fl.sqCfgSize i
  let prio := d.cfg Fl.sqCfgPrio i
  let q := (d.sq i).orphan
  if !sizeOk size || prio = 3 then d.setSq i { epoch := q.epoch + 1, stale := q.stale, error := some .badConfig }
  else
    d.setSq i
      { active := true, prio := BitVec.ofNat 2 prio, anyUnit := d.on Fl.sqCfgAnyunit i, size := size,
        unit := d.cfg Fl.sqCfgUnit i, defCq := d.cfg Fl.sqCfgDefcq i,
        base := d.base64 Fl.sqBaseLoAddrLo Fl.sqBaseHiAddrHi i, epoch := q.epoch + 1, stale := q.stale, oldPage := d.hif.dbRead }

/-- An SQ becomes inactive: fetched descriptors go, a FENCE that waits ends with ABORTED (R68, R79). -/
def sqDisable (i : Nat) (d : Dev) : Dev :=
  let q := d.sq i
  let d := match q.fence with
    | none => d
    | some f => d.finish f.owner .aborted (if f.desc.fenceMode = 2 then f.desc.unit else 0) 0
  d.setSq i { epoch := q.epoch, stale := q.orphan.stale }

/-- Owners whose records go to ring i hold no credit there any more. -/
def dropCredits (p : Nat → Bool) (d : Dev) : Dev :=
  let f := fun (o : Owner) => if p o.cq then { o with credit := false } else o
  { d with acts := { d.acts with list := d.acts.list.map fun a => { a with owner := f a.owner } },
           cans := d.cans.map fun e => (e.1, { e.2 with queue := e.2.queue.map fun t => { t with act := f t.act },
                                                        ends := e.2.ends.map fun r => (f r.1, r.2) }),
           hif := { d.hif with sqs := d.hif.sqs.map fun e =>
             (e.1, { e.2 with fence := e.2.fence.map fun x => { x with owner := f x.owner } }) } }

/-- A CQ becomes active with no credits reserved, or reports BAD_CONFIG (R78). Its moderation runs on (R74; log entry 175). -/
def cqEnable (i : Nat) (d : Dev) : Dev :=
  let size := d.cfg Fl.cqCfgSize i
  let q : Cq := { lastMsg := (d.cq i).lastMsg, msgDue := (d.cq i).msgDue, msgForce := (d.cq i).msgForce }
  if !sizeOk size then d.setCq i { q with error := some .badConfig, msgForce := true }
  else d.setCq i { q with active := true, phase := true, size := size, base := d.base64 Fl.cqBaseLoAddrLo Fl.cqBaseHiAddrHi i }

/-- A CQ becomes inactive: its unwritten records are dropped and counted (R79); a message that moderation delays still goes out
(R74; log entry 175). -/
def cqDisable (i : Nat) (d : Dev) : Dev :=
  let gone := d.hif.outq.filter fun m => match m with | .record c .. => c = i | _ => false
  let n := ((d.cq i).queue.filter fun r => !r.hidden).length + gone.length
  let d := { d with hif := { d.hif with outq := d.hif.outq.filter fun m => match m with | .record c .. => c ≠ i | _ => true } }
  let q := d.cq i
  dropCredits (· == i) ((d.countDrop Fl.cqDroppedCount i n).setCq i { lastMsg := q.lastMsg, msgDue := q.msgDue, msgForce := q.msgForce })

/-- A BQ becomes active, or reports BAD_CONFIG. -/
def bqEnable (i : Nat) (d : Dev) : Dev :=
  let size := d.cfg Fl.bqCfgSize i
  let q : Bq := { lastMsg := (d.bq i).lastMsg, msgDue := (d.bq i).msgDue, msgForce := (d.bq i).msgForce }
  if !sizeOk size then d.setBq i { q with error := some .badConfig, msgForce := true }
  else d.setBq i { q with active := true, phase := true, size := size, base := d.base64 Fl.bqBaseLoAddrLo Fl.bqBaseHiAddrHi i }

/-- A BQ becomes inactive: frames routed to it are dropped and counted (R79). -/
def bqDisable (i : Nat) (d : Dev) : Dev :=
  let gone := d.hif.outq.filter fun m => match m with | .entry c k a _ => c = i && a == (d.bq i).base.toNat + 80 * k | _ => false
  let n := (d.bq i).queue.length + gone.length
  let d := { d with hif := { d.hif with outq := d.hif.outq.filter fun m => match m with | .entry c .. => c ≠ i | _ => true } }
  let q := d.bq i
  (d.countDrop Fl.bqDroppedCount i n).setBq i { lastMsg := q.lastMsg, msgDue := q.msgDue, msgForce := q.msgForce }

/-! ## Admission (R58 to R65) -/

/-- The CQ that takes a descriptor's records: the selected one where it is active, else the default (R58, R60, R64). -/
def recordCq (d : Dev) (q : Sq) (x : Desc) : Nat :=
  if x.cqField < 64 && (d.cq x.cqField).active then x.cqField else q.defCq

/-- The cq field passes check 3 of R60; 0xFF passes whatever the state of the default ring (log entry 132). -/
def cqOk (d : Dev) (x : Desc) : Bool := x.cqField == 0xFF || (decide (x.cqField < 64) && (d.cq x.cqField).active)

/-- Credits that dispatch reserves (R63, R64). -/
def need (d : Dev) (q : Sq) (x : Desc) : Nat :=
  match Op.ofCode x.opcode with
  | none => if (d.cq (d.recordCq q x)).active then 1 else 0
  | some o =>
    if o.safety || !(d.cq (d.recordCq q x)).active then 0
    else if x.interim && o.endOfAction then 2 else 1

/-- The descriptor obtains its credit (R63). -/
def hasCredit (d : Dev) (q : Sq) (x : Desc) : Bool := decide (d.need q x ≤ d.credits (d.recordCq q x))

/-- Who the records of a descriptor go to. -/
def ownerOf (d : Dev) (i : Nat) (slot : BitVec 16) (x : Desc) : Owner :=
  let q := d.sq i
  { sq := i, epoch := q.epoch, slot := slot, tag := x.tag, opcode := x.opcode, cq := d.recordCq q x,
    silent := x.silent, noirq := x.noirq, credit := decide (0 < d.need q x) }

/-- A scope of the access lock is open (R459). -/
def scopeOpen (d : Dev) (scope : Nat) : Bool := (d.hw Fl.lockStatusScopes 0).testBit (scope - 1)

/-- A unit is a group whose roll-up class is 3 or above (R459). -/
def gatedGroup (d : Dev) (u : Nat) : Bool := decide (64 ≤ u) && decide (3 ≤ d.cfg Fl.unitRollupClass u)

/-- A closed scope 1 gates the descriptor (check 6 of R60, R459): BIND and UNBIND whose parent or unit is such a group. -/
def lockedOut (d : Dev) (o : Op) (x : Desc) : Bool :=
  match o with
  | .bind => (d.gatedGroup x.unit || d.gatedGroup (bits x.w2 0 9)) && !d.scopeOpen 1
  | .unbind => (d.gatedGroup x.unit || d.gatedGroup ((d.unit x.unit).parent.getD 0)) && !d.scopeOpen 1
  | _ => false

/-- The checks of R60 after the opcode: the first that fails, with its result word. -/
def check60 (d : Dev) (q : Sq) (o : Op) (x : Desc) : Option (Status × Nat) :=
  match firstReserved o x with
  | some (k, b) => some (.reservedSet, k + b * 256)
  | none =>
    if !d.cqOk x then some (.badCq, x.cqField)
    else if addressesUnit o x && !d.inRing q x.unit then some (.unitNotInRing, x.unit)
    else if addressesUnit o x && !(d.unit x.unit).bound then some (.unitAbsent, x.unit)
    else if d.lockedOut o x then some (.locked, 1)
    else none

/-- Descriptors that a faulted or safe unit refuses (R29); a LEARN with cycles 0 makes no check beyond R60 (R352). -/
def refusedDown (o : Op) (x : Desc) : Bool :=
  match o with
  | .move | .resume | .setpoint | .start | .catchRotor | .arm | .auxPwm | .strikeArm => true
  | .learn => decide (bits x.w7 17 8 ≠ 0)
  | .speed => x.opflag 0
  | _ => false

/-- Descriptors that need the MOTION and SIGN domains (R509). -/
def needsMotion (o : Op) (x : Desc) : Bool :=
  match o with
  | .move | .resume | .setpoint | .start | .catchRotor | .arm => true
  | .speed => x.opflag 0
  | _ => false

/-- The MOTION and SIGN domains are on. -/
def motionOn (d : Dev) : Bool := d.hubOn 1 && d.hubOn 2

/-- The unit a descriptor's records name (R71). -/
def recUnit (o : Op) (x : Desc) : Nat := if addressesUnit o x then x.unit else 0

/-- The slot of a dispatched descriptor returns to the host, and it counts against the budget (R26, R50). -/
def giveSlot (i : Nat) (slot : BitVec 16) (d : Dev) : Dev :=
  let d := d.modSq i fun q =>
    { q with cons := (slot.toNat + 1) % 2 ^ q.size, fetched := q.fetched.filter fun e => e.1 ≠ slot.toNat,
             given := q.given + 1 }
  { d with hif := { d.hif with total := d.hif.total + 1 } }

/-- Reserve credits of a ring. -/
def reserve (i n : Nat) (d : Dev) : Dev := d.modCq i fun q => { q with reserved := q.reserved + n }

/-- A refusal: the final record; a credit reserved for an interim record returns with it (R64). -/
def refuse (d : Dev) (o : Owner) (extra : Bool) (st : Status) (unit : Nat) (result : Nat) : Dev :=
  let d := if extra then d.produce o.cq { (d.recOf o .interim .accepted unit 0 true) with hidden := true } else d
  d.finish o st unit (BitVec.ofNat 32 result)

/-- The result word of a refusal by a check that the listed leaves fail: for a group the word of R100, else w (log entry 201). -/
def leafWord (u : Nat) (axes : List Nat) (w : Nat) : Nat :=
  if u < 64 then w else (groupResult (axes.headD 0) axes.length).toNat

/-- The ring can give this descriptor now: active, not in error, no FENCE waiting, its credit at hand, the budget of the ring and
of the tick not spent (R26, R62). -/
def canGive (d : Dev) (i : Nat) (x : Desc) : Bool :=
  let q := d.sq i
  d.hubOn 0 && q.active && q.error.isNone && q.fence.isNone && d.hasCredit q x && decide (q.given < 32) && decide (d.hif.total < 512)

/-- Dispatch of a descriptor of opcode o: reserve its credit, take its slot, make the checks of R60 and R29, write the interim
record, then act. -/
def dispatch (o : Op) (i : Nat) (slot : BitVec 16) (x : Desc) (act : Ctx → Dev → Dev) (d : Dev) : Dev :=
  if !d.canGive i x then d
  else
    let q := d.sq i
    let own := d.ownerOf i slot x
    let extra := decide (1 < d.need q x)
    let d := giveSlot i slot (reserve own.cq (d.need q x) d)
    match d.check60 q o x with
    | some (st, w) => d.refuse own extra st (recUnit o x) w
    | none =>
      if refusedDown o x && d.down x.unit then
        d.refuse own extra .unitFaulted x.unit (leafWord x.unit ((d.leaves x.unit).filter fun n => d.stateOf n == .faulted || d.stateOf n == .safe) 0)
      else if needsMotion o x && !d.motionOn then d.refuse own extra .wrongState x.unit (leafWord x.unit (d.leaves x.unit) 7)
      else act { sq := i, ring := q, slot := slot, x := x, op := o, owner := own } d

end Dev

/-- The function refuses the descriptor (after the checks of R60 and R29). -/
def Ctx.refuse (c : Ctx) (st : Status) (result : Nat) (d : Dev) : Dev :=
  d.refuse c.owner (c.x.interim && c.op.endOfAction && c.owner.credit) st (Dev.recUnit c.op c.x) result

/-- The descriptor completes in its dispatch tick. -/
def Ctx.done (c : Ctx) (st : Status) (result : Word) (d : Dev) : Dev := d.finish c.owner st (Dev.recUnit c.op c.x) result

/-- The interim record of an accepted end-of-action descriptor, where it asks for one (R58). -/
def Ctx.accepted (c : Ctx) (d : Dev) : Dev :=
  if c.x.interim && c.op.endOfAction then
    d.produce c.owner.cq (d.recOf c.owner .interim .accepted (Dev.recUnit c.op c.x) 0 c.owner.credit)
  else d

namespace Dev

/-- A descriptor with an opcode outside the index (check 1 of R60). -/
def badOpcode (i : Nat) (slot : BitVec 16) (x : Desc) (d : Dev) : Dev :=
  if (Op.ofCode x.opcode).isSome || !d.canGive i x then d
  else
    let own := d.ownerOf i slot x
    let d := giveSlot i slot (reserve own.cq (d.need (d.sq i) x) d)
    d.refuse own false .badOpcode 0 x.opcode.toNat

/-! ## FENCE and NOP (R66 to R69) -/

/-- A FENCE's condition (R67). -/
def fenceHolds (d : Dev) (f : Fence) : Bool :=
  match f.desc.fenceMode with
  | 0 => true
  | 1 =>
    let mine := fun (o : Owner) => o.sq == f.owner.sq && o.epoch == f.owner.epoch
    !(d.acts.list.any fun a => mine a.owner) && !(d.cans.any fun e => (e.2.queue.any fun t => mine t.act) || e.2.ends.any fun r => mine r.1)
  | 2 => d.stateOf f.desc.unit ≠ .moving
  | _ => decide (0 ≤ (d.tick32 - f.desc.w3).toInt)

/-- A FENCE has waited its timeout (R68). -/
def fenceTimedOut (d : Dev) (f : Fence) : Bool :=
  let t := bits f.desc.w2 16 16
  t ≠ 0 && decide (t ≤ (d.time.tick - f.since).toNat)

/-- The FENCE at the head of a ring leaves it with a status. -/
def fenceLeave (i : Nat) (f : Fence) (st : Status) (d : Dev) : Dev :=
  let d := giveSlot i f.slot (d.modSq i fun q => { q with fence := none })
  let d := d.finish f.owner st (recUnit .fence f.desc) 0
  if st = .ok then (if f.desc.fenceMode = 0 then d.modSq i fun q => { q with out := true } else d)
  else if bit f.desc.w2 2 then d.modSq i fun q => { q with error := some .fenceHalt, fetched := [], fetchFail := false }
  else d

/-- The FENCE of a ring completes when its condition holds. -/
def fenceRelease (i : Nat) (d : Dev) : Dev :=
  match (d.sq i).fence with
  | none => d
  | some f => if d.fenceHolds f then fenceLeave i f .ok d else d

/-- The FENCE of a ring times out when its condition does not hold (R68). -/
def fenceTimeout (i : Nat) (d : Dev) : Dev :=
  match (d.sq i).fence with
  | none => d
  | some f => if !d.fenceHolds f && d.fenceTimedOut f then fenceLeave i f .fenceTimeout d else d

/-- Phase 4 looks at the FENCE at the head of a ring. -/
def fenceStep (i : Nat) (d : Dev) : Dev := fenceTimeout i (fenceRelease i d)

/-- An admitted FENCE: it comes up, its condition is evaluated for the first time. Its slot stays the device's while it
waits. -/
def opFence (c : Ctx) (d : Dev) : Dev :=
  let f : Fence := { slot := c.slot, desc := c.x, since := d.time.tick, owner := c.owner }
  let d := d.modSq c.sq fun q => { q with cons := c.slot.toNat, given := q.given - 1, fence := some f }
  fenceStep c.sq { d with hif := { d.hif with total := d.hif.total - 1 } }

/-- An admitted NOP (R69). -/
def opNop (c : Ctx) (d : Dev) : Dev := c.done .ok 0 d

/-- Admitted BIND and UNBIND. -/
def opBind (c : Ctx) (d : Dev) : Dev :=
  match d.bindCheck c.ring c.x with
  | some (st, u) => c.refuse st u d
  | none => let (w, d) := bindDo c.x d; c.done .ok w d

def opUnbind (c : Ctx) (d : Dev) : Dev :=
  match unbindDo c.x d with
  | .error (st, u) => c.refuse st u d
  | .ok (w, d) => c.done .ok w d

/-! ## SNAPSHOT (R70) -/

/-- A position as a 64-bit field: sign-extended, its two words. -/
def pos64 (p : Pos) : List Word := let v := p.signExtend 64; [v.setWidth 32, (v >>> 32).setWidth 32]

/-- Remaining distance of a unit: of the leaf that reports for it, where that leaf is stopped with remainder; 0 unless the unit is. -/
def remainder (d : Dev) (u : Nat) : Pos :=
  let a := d.axis (d.rep u)
  if d.stateOf u == .stopped && a.st == .stopped then a.mot.target - a.lat.pos else 0

/-- Sticky flags of a unit: the OR over its leaves (R104), the number CLASS included (log entry 134). -/
def stickyOf (d : Dev) (u : Nat) : Word := (d.leaves u).foldl (fun w n => w ||| regWord d.regs.hw .fltSticky n) 0

/-- Any leaf holds p. -/
def anyLeaf (d : Dev) (u : Nat) (p : Nat → Bool) : Bool := (d.leaves u).any p

/-- The sixteen words of a snapshot. -/
def snapshotWords (d : Dev) (u : Nat) : List Word :=
  let a := d.axis (d.rep u)
  let f (b : Bool) (k : Nat) : Nat := if b then 2 ^ k else 0
  let st := UState.code (d.stateOf u) + f (d.unitArmed u) 3 + f a.lat.valid 4 + f a.lat.est 5 +
    f (d.anyLeaf u fun n => (d.axis n).lat.vlim) 6 + f (d.anyLeaf u fun n => d.flag Fl.signStatusSignHold n) 7 +
    f (d.anyLeaf u fun n => (d.axis n).stale) 8
  pos64 a.lat.pos ++ [a.lat.speed, a.lat.iq.setWidth 32, BitVec.ofNat 32 st, d.stickyOf u] ++ pos64 (d.remainder u) ++
    pos64 a.lat.swa ++ pos64 a.lat.swb ++
    [d.tick32, BitVec.ofNat 32 (d.time.tick.toNat / 2 ^ 32), 0, 0]

/-- An admitted SNAPSHOT: its data goes out before its record. -/
def opSnapshot (c : Ctx) (d : Dev) : Dev :=
  let m := Msg.write (c.x.addr 2) (d.snapshotWords c.x.unit)
  c.done .ok 0 { d with hif := { d.hif with early := d.hif.early ++ [m] } }

/-! ## The completion window (R45, R51, R55, R74) -/

/-- The kind code of a record (R71). -/
def RecKind.code : RecKind → Nat
  | .final => 0 | .interim => 1 | .event => 2 | .notice => 3

/-- The four words of a record under a phase (R71). -/
def recWords (r : CRec) (phase : Bool) : List Word :=
  [BitVec.ofNat 32 (r.tag.toNat + r.status.code.toNat * 2 ^ 8 + r.unit.toNat * 2 ^ 16 + r.sq.toNat * 2 ^ 25), r.tick, r.result,
   BitVec.ofNat 32 (r.slot.toNat + r.opcode.toNat * 2 ^ 16 + RecKind.code r.kind * 2 ^ 24 + if phase then 2 ^ 31 else 0)]

/-- The first waiting record of a ring is written, if it may be: a record without credit only into a slot that no reserved
credit counts on (R51, R63 to R65). The producer index moves on as the record joins the ordered output (log entry 176). -/
def writeOne (i : Nat) (d : Dev) : Option Dev :=
  let q := d.cq i
  match q.queue with
  | [] => none
  | r :: rest =>
    if !q.active || q.error.isSome then none
    else if r.hidden then some (d.setCq i { q with queue := rest, reserved := q.reserved - 1 })
    else
      let room := 2 ^ q.size - 1 - (q.prod + 2 ^ q.size - q.cons) % 2 ^ q.size
      if room ≤ (if r.credit then 0 else q.reserved) then none
      else
        let next := (q.prod + 1) % 2 ^ q.size
        let m := Msg.record i q.prod (q.base.toNat + 16 * q.prod) (recWords r q.phase)
        some ((d.setCq i { q with queue := rest, reserved := if r.credit then q.reserved - 1 else q.reserved,
                                  prod := next, phase := if next = 0 then !q.phase else q.phase,
                                  msgDue := q.msgDue || !r.noirq, msgForce := q.msgForce || r.kind == .notice }).post m)

/-- All waiting records of a ring are written that may be. -/
def writeRecords (i : Nat) : Nat → Dev → Dev
  | 0, d => d
  | n + 1, d => match writeOne i d with
    | none => d
    | some d => writeRecords i n d

/-- A bus ring holds no free entry. -/
def bqFull (q : Bq) : Bool := (q.prod + 2 ^ q.size - q.cons) % 2 ^ q.size == 2 ^ q.size - 1

/-- Frames dropped since the last entry: the count of the entry to come, saturating (R76). -/
def addLost (i n : Nat) (d : Dev) : Dev := d.modBq i fun q => { q with lost := min 255 (q.lost + n) }

/-- An entry with its phase and its loss fields (R76). -/
def entryWords (w : List Word) (lost : Nat) (phase : Bool) : List Word :=
  [w.getD 0 0, w.getD 1 0 ||| (if lost = 0 then 0 else BitVec.ofNat 32 (2 ^ 13 + lost * 2 ^ 16)), w.getD 2 0,
   if phase then 0x80000000 else 0] ++ w.drop 4

/-- The waiting entries of a bus ring are written, each as the part in its second block of 64 bytes and then the part in its first
(R56); one that finds no free entry, or a ring in error, is dropped and counted
(R52, R77, R80). -/
def writeEntries (i : Nat) : List (List Word × Nat) → Dev → Dev
  | [], d => d
  | (w, drops) :: rest, d =>
    let q := d.bq i
    let d := d.setBq i { q with queue := rest }
    if q.error.isSome || bqFull q then writeEntries i rest (addLost i (1 + drops) (d.countDrop Fl.bqDroppedCount i 1))
    else
      let next := (q.prod + 1) % 2 ^ q.size
      let a := q.base.toNat + 80 * q.prod
      let ws := entryWords w q.lost q.phase
      let k := 16 - a % 64 / 4
      let k0 := q.prod
      let q := { q with queue := rest, prod := next, lost := 0, phase := if next = 0 then !q.phase else q.phase, msgDue := true }
      writeEntries i rest (addLost i drops (((d.setBq i q).post (.entry i k0 (a + 4 * k) (ws.drop k))).post (.entry i k0 a (ws.take k))))

/-- A message of moderation: due, and the interval since the last one has run (R74). -/
def modOk (d : Dev) (last : Option (BitVec 48)) (n : Nat) : Bool :=
  match last with
  | none => true
  | some t => decide (n ≤ (d.time.tick - t).toNat)

/-- The message of vector v goes out where its ring has one due (R74). -/
def ringMessage (v : Nat) (d : Dev) : Dev :=
  if v < 64 then
    let q := d.cq v
    if !d.on Fl.cqCfgIrqEn v then d.setCq v { q with msgDue := false, msgForce := false }
    else if q.msgForce || (q.msgDue && d.modOk q.lastMsg (d.cfg Fl.cqCfgModTicks v)) then
      (d.setCq v { q with msgDue := false, msgForce := false, lastMsg := some d.time.tick }).post (.msix v)
    else d
  else
    let i := v - 64
    let q := d.bq i
    if !d.on Fl.bqCfgIrqEn i then d.setBq i { q with msgDue := false, msgForce := false }
    else if q.msgForce || (q.msgDue && d.modOk q.lastMsg (d.cfg Fl.bqCfgModTicks i)) then
      (d.setBq i { q with msgDue := false, msgForce := false, lastMsg := some d.time.tick }).post (.msix v)
    else d

/-- The ring error code of the device area (R53). -/
def errCode (e : Option Status) : Nat := match e with | none => 0 | some s => s.code.toNat

/-- The device area (R53, R55), words 0x800 to 0xB17. -/
def areaWords (d : Dev) : List Word :=
  ((span 0 128).map fun i => let q := d.sq i
    BitVec.ofNat 32 (q.cons + errCode q.error * 2 ^ 16 + if q.active then 2 ^ 24 else 0)) ++
  ((span 0 64).map fun i => let q := d.cq i
    BitVec.ofNat 32 (q.prod + (if q.phase then 2 ^ 16 else 0) + errCode q.error * 2 ^ 24)) ++
  ((span 0 4).map fun i => let q := d.bq i
    BitVec.ofNat 32 (q.prod + (if q.phase then 2 ^ 16 else 0) + errCode q.error * 2 ^ 24)) ++
  [d.tick32, BitVec.ofNat 32 (d.time.tick.toNat / 2 ^ 32)]

/-- A vector is held back: by its vector control word, by Function Mask, while MSI-X is not enabled (R41, R550; log entry 12), and while a
reset by RST_CMD runs (R521). -/
def masked (d : Dev) (v : Nat) : Bool :=
  d.sys.rstCmd || !d.hif.msixOn || d.hif.msixMask || bit (regWord d.regs.force .msixTable (4 * v + 3)) 0

/-- An item of the ordered output leaves the device; a masked message sets its pending bit (R74). -/
def issue (m : Msg) (d : Dev) : Dev :=
  match m with
  | .msix v => if d.masked v then { d with hif := { d.hif with msixPend := d.hif.msixPend ||| BitVec.ofNat 72 (2 ^ v) } }
               else d.emit m
  | _ => d.emit m

/-- Up to n items of the ordered output leave, in order. -/
def issueN : Nat → Dev → Dev
  | 0, d => d
  | n + 1, d => match d.hif.outq with
    | [] => d
    | m :: r => issueN n (issue m { d with hif := { d.hif with outq := r } })

/-- The writes of the completion window of a tick join the ordered output: SNAPSHOT data and records, bus entries, the device area,
messages (R45). -/
def windowWrites (d : Dev) : Dev :=
  if !d.linkServes then d
  else
    let d := d.hif.early.foldl post { d with hif := { d.hif with early := [] } }
    let d := each (span 0 64) (fun i d => writeRecords i ((d.cq i).queue.length) d) d
    let d := each (span 0 4) (fun i d => if (d.bq i).active then writeEntries i (d.bq i).queue d else d) d
    let d := if d.hif.dbActive then d.post (.devArea (d.hif.dbBase.toNat + 0x800) d.time.tick d.areaWords) else d
    let d := each (span 0 68) ringMessage d
    let d := each (span 0 d.hif.irq68) (fun _ d => d.post (.msix 68)) { d with hif := { d.hif with irq68 := 0 } }
    each (span 0 d.hif.irq69) (fun _ d => d.post (.msix 69)) { d with hif := { d.hif with irq69 := 0 } }

/-! ## Withdrawal of queued frames (R398) -/

/-- Result word of a withdrawal: the attempts made and the reason. -/
def abortWord (t : TxFrame) (reason : Nat) : Word := BitVec.ofNat 32 (min 255 t.tries + reason * 2 ^ 16)

/-- A frame leaves the queue withdrawn; reason 6 writes no record. -/
def withdrawOne (reason : Nat) (x : CanCtl) (t : TxFrame) : CanCtl :=
  { x with queue := x.queue.filter fun u => u.key ≠ t.key
           ends := if reason = 6 then x.ends else x.ends ++ [(t.act, .aborted, abortWord t reason)] }

/-- Every queued frame of a controller is withdrawn; one in transmission once its attempt ends without success. -/
def withdrawAll (reason : Nat) (x : CanCtl) : CanCtl :=
  let x := (x.queue.filter fun t => some t.key ≠ x.active).foldl (withdrawOne reason) x
  { x with queue := x.queue.map fun t => { t with gone := if t.gone = 0 then reason else t.gone } }

/-! ## Loss of the link (R46) -/

/-- A read of cells waits to leave the device. -/
def queuedRead (d : Dev) (n b : Nat) : Bool :=
  d.hif.outq.any fun m => match m with | .readCells a k _ => a == n && k == b | _ => false

/-- Every ring is disabled and the doorbell page goes out of use; nothing that waited for the host leaves any more, and the reads among
it have not been issued (R46, R521). -/
def ringsOff (d : Dev) : Dev :=
  let d := dropCredits (fun _ => true) d
  let off (r : Reg) (n : Nat) (d : Dev) : Dev := each (span 0 n) (fun i d =>
    { d with regs := { d.regs with
        acc := SMap.set d.regs.acc (r.offset i) (putBits (regWord d.regs.acc r i) 0 1 0),
        force := SMap.set d.regs.force (r.offset i) (putBits (regWord d.regs.force r i) 0 1 0),
        pend := d.regs.pend.filter fun w => !(w.off == r.offset i && bit w.mask 0) } }) d
  let d := off .hifCfg 1 (off .bqCfg 4 (off .cqCfg 64 (off .sqCfg 128 d)))
  { d with
    signs := d.signs.map fun e => (e.1, { e.2 with asked := e.2.asked.filter fun b => !d.queuedRead e.1 b })
    cans := d.cans.map fun e => (e.1, { e.2 with reads := [] })
    hif := { d.hif with
      sqs := d.hif.sqs.map (fun (e : Nat × Sq) => (e.1, ({ epoch := e.2.epoch } : Sq))),
      cqs := [], bqs := [], outq := [], early := [], dbActive := false, dbRead := false, dbAgain := false, dbTags := 0, silent := 0,
      silentRaised := false, irq68 := 0, irq69 := 0 } }

/-- The common effects of a link loss, a Function Level Reset and an entry into D3hot. -/
def linkLost (d : Dev) : Dev :=
  let d := ringsOff d
  let d := each (span 0 4) (fun c d => d.modCan c (withdrawAll 6)) d
  (d.stick Fl.hifStatusLinkLost 0).raise1 .hostLinkLost 0 0 presHif

end Dev

/-- MODERATED_MESSAGE (R74): the delayed message of a vector goes out, behind what is still to go out. -/
def execModeratedMessage (v : Fin 68) (s : State) : Host.Outcome State Fault Refusal :=
  s.onDev fun d =>
    if !d.linkServes then d
    else let d := Dev.ringMessage v d; Dev.issueN d.hif.outq.length d

/-- HOST_SILENT (R57). -/
def execHostSilent (s : State) : Host.Outcome State Fault Refusal := s.onDev Dev.silentRaise

/-- BAD_OPCODE (R60): the descriptor's opcode is one that the index does not have. -/
def execBadOpcode (i : Fin 128) (slot : BitVec 16) (x : Desc) (s : State) : Host.Outcome State Fault Refusal := s.onDev (Dev.badOpcode i slot x)

/-- FENCE_RELEASE (R67). -/
def execFenceRelease (i : Fin 128) (s : State) : Host.Outcome State Fault Refusal := s.onDev (Dev.fenceRelease i)

/-- FENCE_TIMEOUT (R68). -/
def execFenceTimeout (i : Fin 128) (s : State) : Host.Outcome State Fault Refusal := s.onDev (Dev.fenceTimeout i)


/-- BIND. -/
def execBind (i : Fin 128) (slot : BitVec 16) (x : Desc) (s : State) : Host.Outcome State Fault Refusal :=
  s.onDev (Dev.dispatch .bind i slot (withOpcode .bind x) Dev.opBind)


/-- UNBIND. -/
def execUnbind (i : Fin 128) (slot : BitVec 16) (x : Desc) (s : State) : Host.Outcome State Fault Refusal :=
  s.onDev (Dev.dispatch .unbind i slot (withOpcode .unbind x) Dev.opUnbind)


/-- SNAPSHOT. -/
def execSnapshot (i : Fin 128) (slot : BitVec 16) (x : Desc) (s : State) : Host.Outcome State Fault Refusal :=
  s.onDev (Dev.dispatch .snapshot i slot (withOpcode .snapshot x) Dev.opSnapshot)


/-- FENCE. -/
def execFence (i : Fin 128) (slot : BitVec 16) (x : Desc) (s : State) : Host.Outcome State Fault Refusal :=
  s.onDev (Dev.dispatch .fence i slot (withOpcode .fence x) Dev.opFence)


/-- NOP. -/
def execNop (i : Fin 128) (slot : BitVec 16) (x : Desc) (s : State) : Host.Outcome State Fault Refusal :=
  s.onDev (Dev.dispatch .nop i slot (withOpcode .nop x) Dev.opNop)

end Sys2Proof.Machine
end

