-- ==== Sys2Proof/Machine/Motion.lean ====
section
/-! DEFINITION. Motion.lean: motion profiles, modes, stops and resumption, setpoint streaming, the profile step of phase 5
(chapter 4), with the reversal rule of chapter 6. -/

namespace Sys2Proof.Machine

/-! ## The stored set (R114, R115) -/

/-- Which word of the descriptor writes a field of the set, if it does. -/
structure Writes where
  vstart : Option Nat := none
  vmax   : Option Nat := none
  vstop  : Option Nat := none
  a1     : Option Nat := none
  a2     : Option Nat := none
  d2     : Option Nat := none
  d1     : Option Nat := none
  deriving DecidableEq, Repr

/-- The smaller of two optional word numbers; 0 where there is none. -/
def firstWord (l : List (Option Nat)) : Nat := ((sortNat (l.filterMap id)).head?).getD 0

/-- A set is valid, or the word that the refusal names (R115). -/
def setFault (s : ParamSet) (w : Writes) : Option Nat :=
  let fails : List (List (Option Nat)) :=
    (if s.vmax = 0 then [[w.vmax]] else []) ++
    (if s.vmax.toNat < s.vstart.toNat then [[w.vstart, w.vmax]] else []) ++
    (if s.vmax.toNat < s.vstop.toNat then [[w.vstop, w.vmax]] else []) ++
    (if s.a1 = 0 then [[w.a1]] else []) ++ (if s.a2 = 0 then [[w.a2]] else []) ++
    (if s.d2 = 0 then [[w.d2]] else []) ++ (if s.d1 = 0 then [[w.d1]] else [])
  if fails.isEmpty then none else some (firstWord fails.flatten)

/-- The generator's parameters with 24 fraction bits (R116). -/
structure Prm where
  vstart : Int
  v1     : Int
  vmax   : Int
  vstop  : Int
  a1     : Int
  a2     : Int
  d2     : Int
  d1     : Int
  dmax   : Int
  deriving DecidableEq, Repr

/-- A stored set and DMAX as the generator sees them: DMAX of 0 or all ones is no limit (R114, R145): it lies above every need of
R116, which is at most v² / 2 with v below 2^32. -/
def prm (s : ParamSet) (dmax : Nat) : Prm :=
  { vstart := s.vstart.toNat * 256, v1 := s.v1.toNat * 256, vmax := s.vmax.toNat * 256, vstop := s.vstop.toNat * 256,
    a1 := s.a1.toNat, a2 := s.a2.toNat, d2 := s.d2.toNat, d1 := s.d1.toNat,
    dmax := if dmax = 0 ∨ dmax = 0xFFFFFFFF then 2 ^ 80 else dmax }

/-- Effective knee, dec, acc and brake of R116; a deceleration of 0, as a cleared set has it, acts as 1 LSB (log entry 68). -/
def Prm.knee (p : Prm) : Int := max p.v1 p.vstop
def Prm.dec (p : Prm) (v : Int) : Int := max 1 (min (if p.knee < v then p.d2 else p.d1) p.dmax)
def Prm.acc (p : Prm) (v : Int) : Int := if v < p.v1 then p.a1 else p.a2
def Prm.brake (p : Prm) (v : Int) : Int :=
  let k := p.knee
  if v ≤ p.vstop then 0
  else if v ≤ k then quot (v * v - p.vstop * p.vstop) (2 * p.dec v)
  else quot (v * v - k * k) (2 * p.dec v) + quot (k * k - p.vstop * p.vstop) (2 * max 1 (min p.d1 p.dmax))

/-- The deceleration that ends at the target (R116). -/
def Prm.need (p : Prm) (v s : Int) : Int :=
  let k := p.knee
  if k < v ∧ p.brake k < s - v then quot (v * v - k * k) (2 * (s - v - p.brake k))
  else if s - v ≤ 0 then 2 ^ 48
  else quot (v * v - p.vstop * p.vstop) (2 * (s - v))

/-- A position of 1/256 count with 24 fraction bits. -/
def fine (p : Pos) : Int := p.toInt * 65536

/-- A position with 24 fraction bits as pos32.8, truncated toward zero (R116). -/
def coarse (p : Int) : Pos := BitVec.ofInt 40 (quot p 65536)

/-- A speed with 24 fraction bits as 16.16, truncated toward zero. -/
def coarseV (v : Int) : Speed := BitVec.ofInt 32 (quot v 256)

/-- A distance in 1/256 count as whole counts, truncated toward zero, saturating (R133). -/
def countsWord (x : Int) : Word := BitVec.ofInt 32 (saturate 32 (quot x 256))

/-- A distance in 1/256 count, saturating. -/
def fineWord (x : Int) : Word := BitVec.ofInt 32 (saturate 32 x)

/-- The values of a set that R126 speaks of. -/
def Prm.braking (p : Prm) : Braking := { d1 := p.d1, d2 := p.d2, v1 := p.v1, vstop := p.vstop, dmax := p.dmax }

/-- The values have changed during the final deceleration, and the new ones no longer fit (R126). -/
def Prm.tooLate (p : Prm) (m : Motion) (s : Int) : Bool :=
  m.down && m.used != p.braking && decide (s ≤ p.brake m.v + m.v)

/-- One profile step (R116): the axis's motion, the cap of a voltage limit on v if there is one (R180). A change of the set in the tick
that reaches the target does not change the end (R125). -/
def profileStep (p : Prm) (cap : Option Int) (m : Motion) : Motion :=
  let m := match cap with
    | none => m
    | some c => { m with v := min m.v c }
  let v := m.v
  let s := m.dir * (fine m.target - m.p)
  let late := p.tooLate m s
  let m := { m with used := p.braking }
  if s ≤ v then { m with p := fine m.target, v := 0, reached := some 0 }
  else
  let m := { m with raised := m.raised || late }
  if p.vstop < v ∧ s ≤ p.brake v + v then
    let need := p.need v s
    if p.dmax < need then
      let v' := max (v - p.dmax) 0
      { m with down := true, v := v', p := m.p + m.dir * v', ovs := 1, ovsDir := m.dir }
    else
      let v' := max (v - max need (p.dec v)) p.vstop
      { m with down := true, v := v', p := m.p + m.dir * v' }
  else if p.vmax < v then
    let v' := max (v - p.dec v) p.vmax
    { m with v := v', p := m.p + m.dir * v' }
  else
    let vn := min (v + p.acc v) p.vmax
    let v' := if !m.down && cap.isNone && decide (p.brake vn + vn < s) then vn else v
    { m with v := v', p := m.p + m.dir * v' }

/-- A step while the axis overshoots (R127): it slows at DMAX past the target; from zero speed it begins anew. -/
def overshootStep (p : Prm) (cap : Option Int) (m : Motion) : Motion :=
  if m.v = 0 then
    profileStep p cap { m with ovs := 3, v := p.vstart, down := false, dir := sgn (fine m.target - m.p) }
  else
    let v' := max (m.v - p.dmax) 0
    let p' := m.p + m.dir * v'
    { m with v := v', p := p', ovs := if 0 < m.ovsDir * (p' - fine m.target) then 2 else m.ovs }

/-- A step of velocity mode toward a signed speed with 24 fraction bits (R124). -/
def velocityStep (p : Prm) (cap : Option Int) (cmd : Int) (m : Motion) : Motion :=
  let m := match cap with
    | none => m
    | some c => { m with v := min m.v c }
  let want := if sgn cmd = m.dir ∨ cmd = 0 then cmd.natAbs else 0
  let m :=
    if m.v = 0 ∧ sgn cmd = -m.dir ∧ cmd ≠ 0 then
      { m with dir := sgn cmd, v := if cap.isNone then min (p.acc 0) cmd.natAbs else 0 }
    else if (want : Int) < m.v then { m with v := max (m.v - p.dec m.v) want }
    else if cap.isNone then { m with v := min (m.v + p.acc m.v) want }
    else m
  { m with p := m.p + m.dir * m.v }

namespace Dev

/-! ## Small questions about an axis -/

/-- The axis is sensorless (R211). -/
def sensorless (d : Dev) (n : Nat) : Bool := d.cfg Fl.fbCfgMode n == 2

/-- Reversal threshold, 16.16 (R194). -/
def thresh (d : Dev) (n : Nat) : Nat := d.cfg Fl.revCfgThresh n

/-- Magnitude of the latched speed. -/
def speedMag (d : Dev) (n : Nat) : Nat := (d.axis n).lat.speed.toInt.natAbs

/-- The axis turns at or above the threshold (R194). -/
def fast (d : Dev) (n : Nat) : Bool := (d.axis n).lat.valid && d.speedMag n ≠ 0 && decide (d.thresh n ≤ d.speedMag n)

/-- A sensorless axis turns without drive, so that a catch decides its direction and speed (R194). -/
def slUndriven (d : Dev) (n : Nat) : Bool :=
  d.sensorless n && ((d.axis n).lat.drive == .catching || (d.axis n).lat.drive == .float || (d.axis n).lat.drive == .off)

/-- Motion in a direction would be a reversal (R194). -/
def reversal (d : Dev) (n : Nat) (dir : Int) : Bool :=
  d.fast n && sgn (d.axis n).lat.speed.toInt == -dir && dir ≠ 0 && !d.slUndriven n

/-- REVMODE is brake-then-reverse. -/
def brakeReverse (d : Dev) (n : Nat) : Bool := d.on Fl.revCfgRevmode n

/-- The axis's generator parameters. -/
def params (d : Dev) (n : Nat) : Prm := prm (d.axis n).set (d.cfg Fl.motionDmaxDmax n)

/-- The latched speed is quiet: at or below MOTION_STILL.SPEED, or not valid (R130). -/
def quietNow (d : Dev) (n : Nat) : Bool := !(d.axis n).lat.valid || decide (d.speedMag n ≤ d.cfg Fl.motionStillSpeed n)

/-- Enough consecutive quiet ticks (R130; 0 acts as 1, R146). -/
def quietLong (d : Dev) (n : Nat) : Bool := decide (max 1 (d.cfg Fl.motionStillTicks n) ≤ (d.axis n).quiet)

/-- A distance to the target lies in the window (R122, R147). -/
def inWindow (d : Dev) (n : Nat) (rem : Int) : Bool := decide (rem.natAbs ≤ d.cfg Fl.motionInposWindow n * 256)

/-- Target less latched position. -/
def toGo (d : Dev) (n : Nat) : Int := (d.axis n).mot.target.toInt - (d.axis n).lat.pos.toInt

/-- The drive in which the axis holds without motion: FIELD, or FLOAT for a sensorless axis without a known angle (R183). -/
def holdCmd (d : Dev) (n : Nat) : DriveCmd := if d.sensorless n && !(d.axis n).lat.known then .float false else .field

/-- A sensorless axis cannot enter a motion mode (R211). -/
def slUnset (d : Dev) (n : Nat) : Bool :=
  d.sensorless n && (d.cfg Fl.elecCfgCpe n == 0 || d.cfg Fl.slObsRph n == 0 || d.cfg Fl.slObsLph n == 0)

/-- An axis's act ends, and the axis forgets it. -/
def endMot (d : Dev) (n : Nat) (st : Status) (result : Word) : Dev :=
  let a := (d.axis n).mot.act
  (d.modMot n fun m => { m with act := none }).endAct? a n st result

/-! ## Entering and leaving a mode (R117, R118) -/

/-- A sensorless axis begins its start sequence in a direction, unless it holds in FIELD with a known angle and no new
alignment is wanted, where RAMP begins at once (R213). -/
def beginSeq (n : Nat) (r : SeqReq) (d : Dev) : Dev :=
  d.modAxis n fun x => { x with seq := some r, seqOff := false, cmd := .openloop, mot := { x.mot with wait := true } }

/-- A signature reaction no longer suspends the comparison of an axis that enters a motion mode (R339). -/
def signResume (n : Nat) (d : Dev) : Dev :=
  match SMap.find d.signs n with
  | some g => if g.susp then { d with signs := SMap.set d.signs n { g with susp := false } } else d
  | none => d

/-- A MOVE or RESUME that has ended with OK or DECEL_RAISED is a motion of a LEARN (R354). -/
def learnMotion (n : Nat) (st : Status) (d : Dev) : Dev :=
  match SMap.find d.signs n with
  | some g => match g.learn with
    | some l =>
      if (d.axis n).mot.act.isSome && (st == .ok || st == .decelRaised) then
        let back := decide ((d.axis n).mot.dir < 0)
        let l := { l with got0 := l.got0 || !back, got1 := l.got1 || back }
        { d with signs := SMap.set d.signs n { g with learn := some l } }
      else d
    | none => d
  | none => d

/-- The axis enters a mode: moving, no remainder, drive FIELD; from FLOAT or BRAKE the position setpoint starts at the latched
position. A sensorless axis starts its rotor first. -/
def enter (n : Nat) (mode : Mode) (dir : Int) (act : Option Nat) (d : Dev) : Dev :=
  let d := (signResume n d).modAxis n fun x =>
    { x with st := .moving, stop := none, still := false, brakeHold := false, cmd := .field,
             mot := { x.mot with mode := mode, v := 0, dir := if dir = 0 then 1 else dir, down := false, raised := false,
                                 ovs := 0, ovsMax := 0, passed := false, reached := none, settled := false, act := act, rev := false, wait := false,
                                 lost := false, queue := [], seg := none, torque := false } }
  if d.sensorless n && mode ≠ .none then beginSeq n ⟨dir, false, false, false, false⟩ d else d

/-- A reversal is accepted under brake-then-reverse: the axis short-brakes first (R196). -/
def brakeFirst (n : Nat) (d : Dev) : Dev :=
  (d.modAxis n fun x => { x with cmd := .brake, seq := none, mot := { x.mot with rev := true, wait := false } }).setHw
    Fl.axisStatusRevBraking n 1

/-- The mode ends and its leftovers go: queue, segment, reversal, pin. -/
def clearMode (n : Nat) (d : Dev) : Dev :=
  (d.modMot n fun m => { m with mode := .none, v := 0, down := false, reached := none, rev := false, wait := false,
                                lost := false, queue := [], seg := none, torque := false, ovs := 0, pin := none }).setHw
    Fl.axisStatusRevBraking n 0

/-- The profile of an axis starts: from vstart toward its target (R116). -/
def startProfile (n : Nat) (d : Dev) : Dev :=
  let p := d.params n
  d.modMot n fun m => { m with v := p.vstart, down := false, dir := let s := sgn (fine m.target - m.p); if s = 0 then 1 else s }

/-! ## Stops (R129 to R131) -/

/-- A CMD engagement of pin c ends: its ENGAGE and ENGAGED read 0 (R129, R139, R151). -/
def releasePin (c : Nat) (d : Dev) : Dev :=
  (((d.setCmd c { d.cmd c with axes := [], engaging := false }).setCfg Fl.cmdCfgEngage c 0).setHw Fl.cmdCfgEngaged c 0)

/-- In torque hand mode the speed that a ramped stop brings down is the latched one (R129, R138). -/
def torqueSpeed (n : Nat) (d : Dev) : Dev :=
  let x := d.axis n
  if !x.mot.torque then d
  else d.modMot n fun m =>
    { m with p := fine x.lat.pos, v := (d.speedMag n : Int) * 256, dir := if x.lat.speed.toInt < 0 then -1 else 1 }

/-- A stop of one moving axis begins, or joins the one in progress (R129, R131). -/
def stopAxis (n : Nat) (immediate : Bool) (decel : Word) (cause : StopCause) (join : Option Nat) (d : Dev) : Dev :=
  let x := d.axis n
  if x.st ≠ .moving then d
  else
    let add := join.toList
    -- R234: an immediate stop in RAMP brakes to standstill and floats.
    -- R190: it leaves a FLOAT, a BRAKE or a DISARM as it is.
    let ramp := immediate && d.sensorless n && x.lat.phase == 4 && (x.cmd == .openloop || x.cmd == .field || x.cmd == .hold)
    let d := if ramp then d.modAxis n fun x => { x with cmd := .brake, seqOff := true, brakeHold := true } else d
    match x.stop with
    | some s =>
      let inUse := if s.decel = 0 then BitVec.ofInt 32 ((d.params n).dec x.mot.v) else s.decel
      d.modAxis n fun x => { x with stop := some { s with
          immediate := s.immediate || immediate
          decel := if !immediate && !s.immediate && decel ≠ 0 && inUse.toNat < decel.toNat then decel else s.decel
          joined := s.joined ++ add } }
    | none =>
      let s : Stop := { immediate := immediate, decel := decel, cause := cause, joined := add, disarm := false,
                        keep := x.mot.mode == .profile }
      -- R234: a start abandoned in CATCH_BRAKE or RETRY_BRAKE keeps the short to standstill.
      let short := x.mot.wait && d.sensorless n && (x.lat.phase == 2 || x.lat.phase == 5)
      let dropped := x.mot.wait && (x.seq.isSome || !([1, 4, 6, 7, 8, 9].contains x.lat.phase))
      let d := if immediate then d else torqueSpeed n d
      let d := d.modAxis n fun x => { x with stop := some s, seqOff := x.seqOff || dropped
                                             cmd := if short then .brake else x.cmd
                                             brakeHold := x.brakeHold || x.mot.rev || short
                                             mot := { x.mot with queue := [], seg := none, rev := false, pin := none
                                                                 v := if dropped then 0 else x.mot.v } }
      d.setHw Fl.axisStatusRevBraking n 0

/-- The engagement of an axis's pin ends with a ramped stop of every leaf that it drives (R129, R139). -/
def stopPin (c : Nat) (d : Dev) : Dev :=
  let axes := (d.cmd c).axes
  releasePin c (each axes (fun n d => stopAxis n false 0 .stop none d) d)

/-- A stop of an axis, which ends a CMD engagement that drives it. -/
def stop (n : Nat) (immediate : Bool) (decel : Word) (cause : StopCause) (join : Option Nat) (d : Dev) : Dev :=
  let pin := (d.axis n).mot.pin
  let d := stopAxis n immediate decel cause join d
  match pin with
  | some c => if (d.axis n).stop.isSome then stopPin c d else d
  | none => d

/-- The mode of an axis ends other than by a stop: an engagement that drives it ends with a ramped stop of its other leaves (R129,
R139). -/
def endMode (n : Nat) (d : Dev) : Dev :=
  let pin := (d.axis n).mot.pin
  let d := clearMode n d
  match pin with
  | some c => stopPin c (d.setCmd c { d.cmd c with axes := (d.cmd c).axes.filter (· ≠ n) })
  | none => d

/-- The status of an action that a stop interrupted (R130). -/
def causeStatus : StopCause → Status
  | .stop => .stopped | .strike => .stoppedStrike | .sign => .stoppedSign | .fault => .stoppedFault

/-- A MOVE or RESUME ends under R122, with the records of R133; the axis is idle and holds. It reports OVERSHOOT where the new
approach of R127 has begun. -/
def finishProfile (n : Nat) (d : Dev) : Dev :=
  let x := d.axis n
  let m := x.mot
  let (st, w) := if 3 ≤ m.ovs then (Status.overshoot, countsWord m.ovsMax)
    else (if m.raised then Status.decelRaised else .ok, fineWord (-(d.toGo n)))
  let d := if x.lat.phase == 4 && d.sensorless n then d.stick Fl.slStatusNoHandover n else d
  let d := clearMode n (learnMotion n st d)
  (d.modAxis n fun x => { x with st := .idle, stop := none }).endMot n st w

/-- Standstill is confirmed (R130): the position setpoint becomes the latched position; the interrupted action and the STOPs
that joined end. -/
def standstill (n : Nat) (d : Dev) : Dev :=
  let x := d.axis n
  match x.stop with
  | none => d
  | some s =>
    let rem := d.toGo n
    let d := d.modAxis n fun x => { x with stop := none, mot := { x.mot with p := fine x.lat.pos, v := 0 } }
    let d := if s.disarm then (d.unarm n).modAxis n fun x => { x with cmd := .off, brakeHold := false }
             else if x.brakeHold || x.cmd == .openloop then
               d.modAxis n fun x => { x with cmd := d.holdCmd n, brakeHold := false }
             else d
    let (res, d) :=
      if x.st ≠ .moving then
        (0, (clearMode n d).modAxis n fun x => { x with still := true })
      else if s.keep then
        if d.inWindow n rem then ((0 : Word), finishProfile n d)
        else
          let d := clearMode n d
          (countsWord rem, (d.modAxis n fun x => { x with st := .stopped }).endMot n (causeStatus s.cause) (countsWord rem))
      else
        let d := clearMode n d
        (0, (d.modAxis n fun x => { x with st := .idle }).endMot n (causeStatus s.cause) 0)
    s.joined.foldl (fun d a => d.endAct a n .ok res) d

/-- A stop has met a catch, its short or a coast, which run to their outcome (R226, R234). -/
def catchRuns (d : Dev) (n : Nat) : Bool :=
  d.sensorless n && (d.axis n).mot.wait && [1, 2, 8, 9].contains (d.axis n).lat.phase

/-- The standstill of an axis is confirmed where its two conditions hold (R130). -/
def standstillDue (d : Dev) (n : Nat) : Bool :=
  (d.axis n).stop.isSome && decide ((d.axis n).mot.v = 0) && d.quietLong n && d.quietNow n && !d.catchRuns n

/-- The stop's step of phase 5 (R129). -/
def stopStep (n : Nat) (s : Stop) (d : Dev) : Dev :=
  let p := d.params n
  if s.immediate then d.modMot n fun m => { m with v := 0, p := fine (d.axis n).lat.pos }
  else d.modMot n fun m =>
    if m.v ≤ p.vstop then { m with v := 0 }
    else
      let dec := if s.decel = 0 then p.dec m.v else min (s.decel.toNat : Int) p.dmax
      let v' := m.v - dec
      if v' ≤ p.vstop then { m with v := 0 } else { m with v := v', p := m.p + m.dir * v' }

/-! ## The step of phase 5 (R116, R122, R127, R130, R135, R138, R180, R196) -/

/-- The cap that a latched voltage limit puts on the profile speed (R180). -/
def vcap (d : Dev) (n : Nat) : Option Int := if (d.axis n).lat.vlim then some ((d.speedMag n : Int) * 256) else none

/-- The limit of VHAND while the latch shows RAMP (R215; 0 acts as 1 LSB). -/
def vhandLim (d : Dev) (n : Nat) : Option Int :=
  if d.sensorless n && (d.axis n).lat.phase == 4 then some ((max 1 (d.cfg Fl.slHandVhand n) : Nat) * 256 : Int) else none

/-- The parameters under that limit. -/
def vhandCap (d : Dev) (n : Nat) (p : Prm) : Prm :=
  match d.vhandLim n with
  | some c => { p with vmax := min p.vmax c }
  | none => p

/-- A step from p toward p' at most as long as the limit. -/
def stepTo (lim : Option Int) (p p' : Int) : Int :=
  match lim with
  | some c => max (p - c) (min (p + c) p')
  | none => p'

/-- The commanded speed of velocity or hand mode as a signed number with 24 fraction bits (R124, R138): hand speed is limited
to vmax; under refuse a reversal in hand mode acts as 0 until the axis is slow (R195). -/
def cmdSpeed (d : Dev) (n : Nat) (p : Prm) : Int :=
  let m := (d.axis n).mot
  let c := m.cmd * 256
  if m.mode = .hand then
    if d.reversal n (sgn c) && !d.brakeReverse n then 0 else if c < 0 then max c (-p.vmax) else min c p.vmax
  else if c < 0 then max c (if d.sensorless n && (d.axis n).lat.phase == 4 then -p.vmax else c)
  else min c (if d.sensorless n && (d.axis n).lat.phase == 4 then p.vmax else c)

/-- The next queued segment comes up: it starts at the present setpoint (R135), or waits behind reversal braking (R136). -/
def nextSeg (n : Nat) (d : Dev) : Dev :=
  match (d.axis n).mot.queue with
  | [] => d
  | s :: r =>
    let dir := sgn (fine s.pos - (d.axis n).mot.p)
    let hold := d.brakeReverse n && d.reversal n dir
    let d := d.modMot n fun m => { m with queue := r, seg := some { start := m.p, seg := s, done := 0, waiting := hold } }
    if hold then brakeFirst n d else d

/-- One tick of streaming (R135). Under the limit of VHAND the setpoint follows the segment as fast as that allows, and the segment ends
once it is reached (R215) (log entry 196). -/
def streamStep (n : Nat) (d : Dev) : Dev :=
  let d := if (d.axis n).mot.seg.isNone then nextSeg n d else d
  if (d.axis n).mot.rev then d
  else match (d.axis n).mot.seg with
  | none => d.modMot n fun m => { m with v := 0 }
  | some r =>
    let k := r.done + 1
    let dist := fine r.seg.pos - r.start
    let want := if r.seg.ticks ≤ k then fine r.seg.pos else r.start + quot (dist * k) r.seg.ticks
    let p := (d.axis n).mot.p
    let p' := stepTo (d.vhandLim n) p want
    let sp := if p' = want then quot dist r.seg.ticks else p' - p
    let d := d.modMot n fun m => { m with p := p', v := sp.natAbs, dir := if sp < 0 then -1 else 1,
                                          seg := some { r with done := k } }
    if k < r.seg.ticks ∨ p' ≠ want then d
    else
      let d := d.modMot n fun m => { m with seg := none }
      if r.seg.last then
        let d := clearMode n d
        (d.modAxis n fun x => { x with st := .idle }).endMot n .ok 0
      else if (d.axis n).mot.queue.isEmpty then (d.modMot n fun m => { m with v := 0 }).stick Fl.motionStatusStreamUnderrun n
      else d

/-- The new motion after reversal braking starts (R196): drive FIELD from the next boundary, from the latched position. -/
def revStart (n : Nat) (d : Dev) : Dev :=
  let d := (d.modAxis n fun x => { x with cmd := .field, mot := { x.mot with rev := false, p := fine x.lat.pos, v := 0 } }).setHw
    Fl.axisStatusRevBraking n 0
  let p := d.params n
  let x := d.axis n
  let d := match x.mot.mode with
    | .profile => startProfile n d
    | .streaming => d.modMot n fun m =>
        { m with seg := m.seg.map fun r => { r with start := m.p, waiting := false } }
    | .velocity => d.modMot n fun m => { m with dir := if m.cmd < 0 then -1 else 1, v := p.vstart }
    | .hand => d.modMot n fun m => { m with dir := if m.cmd < 0 then -1 else 1 }
    | _ => d
  if d.sensorless n && x.mot.mode ≠ .none then beginSeq n ⟨(d.axis n).mot.dir, false, false, false, false⟩ d else d

/-- Reversal braking of an axis ends when the latch is below the threshold (R196). -/
def revDue (d : Dev) (n : Nat) : Bool := (d.axis n).mot.rev && !d.fast n

/-- A segment that a start or recovery has interrupted begins anew at p, with the ticks that it had left (log entry 138). -/
def SegRun.anew (p : Int) (r : SegRun) : SegRun :=
  { r with start := p, seg := { r.seg with ticks := max 1 (r.seg.ticks - r.done) }, done := 0 }

/-- A start or recovery lets the profile begin (R214, R225, R228): from vstart in RAMP; with the caught speed in OBSERVER, after a rotor
loss at most with its own; the braking point is computed anew. -/
def waitStep (n : Nat) (d : Dev) : Dev :=
  let x := d.axis n
  let p := d.params n
  let pos := fine x.lat.pos
  if x.lat.phase == 4 then
    let d := d.modMot n fun m => { m with wait := false, lost := false, p := pos, v := p.vstart, seg := m.seg.map (SegRun.anew pos) }
    if x.mot.mode = .profile then startProfile n d else d
  else if x.lat.phase == 6 then
    let sp : Int := (d.speedMag n : Int) * 256
    d.modMot n fun m =>
      { m with wait := false, lost := false, p := pos, down := false, seg := m.seg.map (SegRun.anew pos)
               v := if m.lost then min m.v sp else sp
               dir := let s := sgn x.lat.speed.toInt; if s = 0 then m.dir else s }
  else d.modMot n fun m => { m with p := pos }

/-- A phase of the sequence in which phase 5 does not advance the profile (R214, R225); the profile that is to follow an alignment starts at vstart
from the latched position, also after a failed attempt (R218). -/
def slWaits (n : Nat) (d : Dev) : Dev :=
  let x := d.axis n
  if d.sensorless n && x.mot.mode ≠ .none && [1, 2, 3, 5, 8, 9].contains x.lat.phase then
    let d := d.modMot n fun m => { m with wait := true, lost := m.lost || x.lat.phase == 8 }
    if x.stop.isNone && (x.lat.phase == 3 || x.lat.phase == 5) then
      let d := d.modMot n fun m => { m with p := fine x.lat.pos, v := (d.params n).vstart }
      if x.mot.mode = .profile then startProfile n d else d
    else d
  else d

/-- The step of one axis in its mode. -/
def modeStep (n : Nat) (d : Dev) : Dev :=
  let p := d.vhandCap n (d.params n)
  let cap := d.vcap n
  match (d.axis n).mot.mode with
  | .none => d
  | .profile => d.modMot n fun m =>
      if m.reached.isSome then m
      else if m.ovs = 1 ∨ m.ovs = 2 then
        let m' := overshootStep p cap m
        -- R127: the latch of the tick in which the profile passes the target counts.
        if m.ovs = 1 ∧ m'.ovs = 2 then
          { m' with passed := true, ovsMax := max m.ovsMax (m.ovsDir * ((d.axis n).lat.pos.toInt - m.target.toInt)).toNat }
        else m'
      else profileStep p cap m
  | .velocity => d.modMot n (velocityStep p cap (d.cmdSpeed n p))
  | .streaming => streamStep n d
  | .step => d.modMot n fun m =>
      let p' := stepTo (d.vhandLim n) m.p (m.cmd * 65536)
      { m with v := ((p' - m.p).natAbs : Int), dir := if p' < m.p then -1 else 1, p := p',
               stepDir := match m.pin with | some c => (d.cmd c).lastDir | none => m.stepDir }
  | .hand =>
    let d := d.modMot n fun m => { m with stepDir := if m.cmd = 0 then m.stepDir else sgn m.cmd }
    if (d.axis n).mot.torque then d.modMot n fun m => { m with p := fine (d.axis n).lat.pos, v := 0 }
    else if d.brakeReverse n && d.reversal n (sgn (d.axis n).mot.cmd) then brakeFirst n d
    else d.modMot n (velocityStep p none (d.cmdSpeed n p))

/-- A MOVE or RESUME has reached its target and lies in the window (R122). -/
def moveEndDue (d : Dev) (n : Nat) : Bool :=
  (d.axis n).mot.mode == .profile && (d.axis n).mot.reached.isSome && (d.axis n).stop.isNone &&
    (d.cfg Fl.motionInposWindow n == 0 || d.inWindow n (d.toGo n))

/-- The setpoint that phase 6 will send: it follows the latched position where the drive, a halt or a wait says so (R183, R225) (log entry 202). -/
def publish (n : Nat) (d : Dev) : Dev :=
  d.modAxis n fun x =>
    let follow := match x.cmd with
      | .float _ => true
      | .brake => true
      | .off => true
      | .catching => true
      | _ => x.mot.wait || (d.mva n).drive == .halt
    let m := if follow || !x.armed then { x.mot with p := fine x.lat.pos } else x.mot
    { x with mot := m, spPos := coarse m.p, spSpeed := coarseV (m.dir * m.v) }

/-- Phase 5 of one axis. -/
def phase5Axis (n : Nat) (d : Dev) : Dev :=
  let d := slWaits n d
  let x := d.axis n
  let d := match x.stop with
    | some s =>
      if d.catchRuns n then d
      else
        let d := if x.mot.wait && (x.lat.phase == 4 || x.lat.phase == 6) then waitStep n d else d
        let d := if x.lat.drive == .precharge then d else stopStep n s d
        if d.standstillDue n then standstill n d else d
    | none =>
      let d := if x.mot.rev then (if d.revDue n then revStart n d else d) else d
      let x := d.axis n
      if x.mot.rev then d
      else
        let d := if x.mot.wait then waitStep n d else d
        if (d.axis n).mot.wait || x.lat.drive == .precharge then d
        else
          let d := modeStep n d
          if d.moveEndDue n then finishProfile n d else d
  publish n d

/-! ## Checks of motion entry (R121, R124, R132) -/

/-- Checks 1 to 3 of R121 for one axis, with R211. -/
def entryCheck (d : Dev) (n : Nat) (allow : Bool) : Option (Status × Nat) :=
  let x := d.axis n
  if x.st ≠ .idle && x.st ≠ .stopped then some (.busy, 0)
  else if !x.armed then some (.notArmed, 0)
  else if d.flag Fl.motionStatusPosUnverified n && !allow then some (.wrongState, 0)
  else if d.slUnset n then some (.wrongState, 5)
  else none

/-- Check 5 of R121. -/
def revCheck (d : Dev) (n : Nat) (dir : Int) : Option (Status × Nat) :=
  if !d.sensorless n && d.reversal n dir && !d.brakeReverse n then some (.reverseRefused, 0) else none

/-- An axis that enters a profile or velocity mode turns the other way: it short-brakes first (R196). -/
def enterOrBrake (n : Nat) (dir : Int) (d : Dev) : Dev :=
  if !d.sensorless n && d.reversal n dir then brakeFirst n d else d

end Dev

/-! ## Groups (R98 to R100) -/

/-- A refusal of a non-safety-directed descriptor on all axes for the failures of some (R99, R100). -/
def Ctx.refuseAxes (c : Ctx) (fails : List (Nat × Status × Nat)) (d : Dev) : Dev :=
  match fails with
  | [] => d
  | (n, st, w) :: _ =>
    c.refuse st (if c.x.unit < 64 then w else (Dev.groupResult n fails.length).toNat) d

/-- The failures of a check over the leaves of the target, ascending. -/
def axisFails (axes : List Nat) (chk : Nat → Option (Status × Nat)) : List (Nat × Status × Nat) :=
  axes.filterMap fun n => (chk n).map fun e => (n, e.1, e.2)

/-- A dispatch-tick descriptor completes on all its axes (R100). -/
def Ctx.okAxes (c : Ctx) (result : Word) (d : Dev) : Dev :=
  c.done .ok (if c.x.unit < 64 then result else Dev.groupResult ((d.leaves c.x.unit).headD 0) 0) d

/-- A safety-directed descriptor completes with the highest status among its axes (R99, R100). -/
def Ctx.doneWorst (c : Ctx) (sts : List (Nat × Status)) (d : Dev) : Dev :=
  let w := sts.foldl (fun b e => if b.2.code < e.2.code then e else b) ((sts.head?.map (·.1)).getD 0, Status.ok)
  let bad := (sts.filter fun e => e.2 ≠ .ok).length
  c.done w.2 (if c.x.unit < 64 then 0 else Dev.groupResult w.1 bad) d

namespace Dev

/-! ## MOVE and RESUME (R120, R121, R132) -/

/-- The set that a MOVE leaves on an axis. -/
def moveSet (d : Dev) (n : Nat) (x : Desc) : ParamSet :=
  let s := (d.axis n).set
  if x.opflag 0 then s
  else { s with vstart := BitVec.ofNat 20 (bits x.w1 12 20), vmax := BitVec.ofNat 24 (bits x.w3 8 24),
                a1 := x.w4, a2 := x.w5, d2 := x.w6, d1 := x.w7 }

/-- Words of a MOVE that write fields of the set. -/
def moveWrites (x : Desc) : Writes :=
  if x.opflag 0 then {} else { vstart := some 1, vmax := some 3, a1 := some 4, a2 := some 5, d2 := some 6, d1 := some 7 }

/-- The target of a MOVE on an axis, not yet narrowed. -/
def moveTarget (d : Dev) (n : Nat) (x : Desc) : Int :=
  (x.pos 2).toInt + if x.opflag 1 then (d.axis n).lat.pos.toInt else 0

/-- The checks of R121 for one axis. -/
def moveCheck (x : Desc) (d : Dev) (n : Nat) : Option (Status × Nat) :=
  match d.entryCheck n (x.opflag 2) with
  | some e => some e
  | none =>
    let t := d.moveTarget n x
    let far := decide (t < -(2 ^ 39 : Int) ∨ (2 ^ 39 : Int) ≤ t)
    match setFault (d.moveSet n x) (moveWrites x) with
    | some w => some (.paramRange, if far && (w = 0 || 2 < w) then 2 else w)
    | none =>
      if far then some (.paramRange, 2)
      else d.revCheck n (sgn (t - (d.axis n).lat.pos.toInt))

/-- Where the profile of an axis begins: at its setpoint, or at the latched position from a drive that follows it. -/
def settleP (n : Nat) (d : Dev) : Dev :=
  if (d.axis n).cmd == .field || (d.axis n).cmd == .hold then d else d.modMot n fun m => { m with p := fine (d.axis n).lat.pos }

/-- A profile toward a target starts on one axis. -/
def goTo (act : Nat) (t : Pos) (n : Nat) (d : Dev) : Dev :=
  let d := settleP n d
  let dir := sgn (fine t - (d.axis n).mot.p)
  let d := enter n .profile dir (some act) d
  let d := startProfile n (d.modMot n fun m => { m with target := t })
  enterOrBrake n (sgn (t.toInt - (d.axis n).lat.pos.toInt)) d

/-- An admitted MOVE. -/
def opMove (c : Ctx) (d : Dev) : Dev :=
  let axes := d.leaves c.x.unit
  match axisFails axes (moveCheck c.x d) with
  | f :: fs => c.refuseAxes (f :: fs) d
  | [] =>
    let d := c.accepted d
    let (a, d) := d.openAct c.owner c.x.unit axes
    each axes (fun n d =>
      let t := BitVec.ofInt 40 (d.moveTarget n c.x)
      goTo a t n (d.modAxis n fun y => { y with set := d.moveSet n c.x })) d

/-- The checks of RESUME for one axis (R132). -/
def resumeCheck (d : Dev) (n : Nat) : Option (Status × Nat) :=
  let x := d.axis n
  if x.st = .moving then some (.busy, 0)
  else if x.st ≠ .stopped then some (.wrongState, 0)
  else match d.entryCheck n false with
    | some e => some e
    | none => match setFault x.set {} with
      | some w => some (.paramRange, w)
      | none => d.revCheck n (sgn (d.toGo n))

/-- An admitted RESUME. -/
def opResume (c : Ctx) (d : Dev) : Dev :=
  let axes := d.leaves c.x.unit
  match axisFails axes d.resumeCheck with
  | f :: fs => c.refuseAxes (f :: fs) d
  | [] =>
    let d := c.accepted d
    let (a, d) := d.openAct c.owner c.x.unit axes
    each axes (fun n d => goTo a (d.axis n).mot.target n d) d

/-! ## STOP (R128 to R131) -/

/-- An admitted STOP: axes that do not move are done at once, and so are those whose action START_FAIL or ROTOR_LOSS has ended in this tick
(R234); the others end it at standstill. -/
def opStop (c : Ctx) (d : Dev) : Dev :=
  let axes := d.leaves c.x.unit
  let imm := c.x.opflag 0
  let d := c.accepted d
  let (a, d) := d.openAct c.owner c.x.unit axes
  each axes (fun n d =>
    let x := d.axis n
    if x.failedAt = some d.time.tick then d.endAct a n .ok 0
    else if x.st = .moving then stop n imm (if imm then 0 else c.x.w2) .stop (some a) (d.dropReopen n)
    else d.endAct a n .ok (if x.st = .stopped then countsWord (d.toGo n) else 0)) d

/-! ## SETPROFILE and SPEED (R123, R124) -/

/-- The set that a SETPROFILE leaves. -/
def profileSet (s : ParamSet) (x : Desc) : ParamSet :=
  let m (k : Nat) : Bool := bit x.w2 (24 + k)
  { s with vstart := if m 0 then BitVec.ofNat 20 (bits x.w1 12 20) else s.vstart
           v1 := if m 1 then BitVec.ofNat 24 (bits x.w2 0 24) else s.v1
           vstop := if m 2 then BitVec.ofNat 20 (bits x.w3 0 20) else s.vstop
           a1 := if m 3 then x.w4 else s.a1, a2 := if m 4 then x.w5 else s.a2
           d2 := if m 5 then x.w6 else s.d2, d1 := if m 6 then x.w7 else s.d1 }

/-- Words of a SETPROFILE that write fields of the set. -/
def profileWrites (x : Desc) : Writes :=
  let m (k i : Nat) : Option Nat := if bit x.w2 (24 + k) then some i else none
  { vstart := m 0 1, vstop := m 2 3, a1 := m 3 4, a2 := m 4 5, d2 := m 5 6, d1 := m 6 7 }

/-- An admitted SETPROFILE. -/
def opSetprofile (c : Ctx) (d : Dev) : Dev :=
  let axes := d.leaves c.x.unit
  match axisFails axes fun n => (setFault (profileSet (d.axis n).set c.x) (profileWrites c.x)).map fun w => (.paramRange, w) with
  | f :: fs => c.refuseAxes (f :: fs) d
  | [] => c.okAxes 0 (each axes (fun n d => d.modAxis n fun y => { y with set := profileSet y.set c.x }) d)

/-- The speed operand of SPEED. -/
def speedOp (x : Desc) : Int := x.w2.toInt

/-- The axis is in a mode whose vmax a SPEED sets, or SPEED has run = 0 without a mode (R124). -/
def speedSetsVmax (m : Mode) (run : Bool) : Bool :=
  match m with
  | .velocity => false
  | .none => !run
  | _ => true

/-- The checks of SPEED for one axis (R124) (log entry 193). -/
def speedCheck (x : Desc) (d : Dev) (n : Nat) : Option (Status × Nat) :=
  let y := d.axis n
  let v := speedOp x
  if speedSetsVmax y.mot.mode (x.opflag 0) then
    if v < 0 ∨ 2 ^ 24 ≤ v then some (.paramRange, 2)
    else (setFault { y.set with vmax := BitVec.ofInt 24 v } { vmax := some 2 }).map fun w => (.paramRange, w)
  else if y.mot.mode = .velocity then
    if d.reversal n (sgn v) && !d.brakeReverse n then some (.reverseRefused, 0) else none
  else match d.entryCheck n (x.opflag 1) with
    | some e => some e
    | none => match setFault y.set {} with
      | some w => some (.paramRange, w)
      | none => d.revCheck n (sgn v)

/-- Velocity mode begins on one axis (R124); at speed 0 the start is in the positive direction (log entry 137). -/
def goVelocity (act : Option Nat) (v : Int) (n : Nat) (d : Dev) : Dev :=
  let d := settleP n d
  let d := enter n .velocity (sgn v) act d
  let p := d.params n
  let d := d.modMot n fun m => { m with cmd := v, v := p.vstart }
  enterOrBrake n (sgn v) d

/-- A new commanded speed in velocity mode: a reversal brakes first; the original sign restored cancels it (R124, R197), on a
sensorless axis through a catch (log entry 139). -/
def newSpeed (v : Int) (n : Nat) (d : Dev) : Dev :=
  let m := (d.axis n).mot
  if m.rev then
    if v ≠ 0 ∧ d.fast n ∧ sgn v = sgn (d.axis n).lat.speed.toInt then
      let sp : Int := (d.speedMag n : Int) * 256
      let dir : Int := if v < 0 then -1 else 1
      let d := d.modMot n fun m => { m with cmd := v, rev := false, p := fine (d.axis n).lat.pos, v := sp, dir := dir }
      let d := (d.modAxis n fun x => { x with cmd := .field }).setHw Fl.axisStatusRevBraking n 0
      if d.sensorless n then beginSeq n ⟨dir, false, false, false, false⟩ d else d
    else d.modMot n fun m => { m with cmd := v }
  else
    let d := d.modMot n fun m => { m with cmd := v }
    if (d.axis n).stop.isNone && d.reversal n (sgn v) && d.brakeReverse n then brakeFirst n d else d

/-- SPEED on one axis. -/
def speedAxis (x : Desc) (n : Nat) (d : Dev) : Dev :=
  let y := d.axis n
  let v := speedOp x
  if speedSetsVmax y.mot.mode (x.opflag 0) then d.modAxis n fun y => { y with set := { y.set with vmax := BitVec.ofInt 24 v } }
  else if y.mot.mode = .velocity then newSpeed v n d
  else goVelocity none v n d

/-- An admitted SPEED. -/
def opSpeed (c : Ctx) (d : Dev) : Dev :=
  let axes := d.leaves c.x.unit
  match axisFails axes (speedCheck c.x d) with
  | f :: fs => c.refuseAxes (f :: fs) d
  | [] => c.okAxes 0 (each axes (speedAxis c.x) d)

/-! ## SETPOINT (R134 to R136) -/

/-- Where the segment before a new one ends, and its signed speed over its length (numerator, ticks): the last queued one, the
running one, or the present speed. -/
def lastPos (d : Dev) (n : Nat) : Int :=
  let m := (d.axis n).mot
  match m.queue.getLast? with
  | some s => fine s.pos
  | none => match m.seg with
    | some r => fine r.seg.pos
    | none => m.p

/-- The signed speed of the segment before a new one (R136), with 24 fraction bits: the last in the queue, or the present speed
where the queue is empty. -/
def lastSpeed (d : Dev) (n : Nat) : Int :=
  let m := (d.axis n).mot
  match m.queue.reverse with
  | [] => (d.axis n).lat.speed.toInt * 256
  | [s] => quot (fine s.pos - (match m.seg with | some r => fine r.seg.pos | none => m.p)) (max 1 s.ticks)
  | s :: s' :: _ => quot (fine s.pos - fine s'.pos) (max 1 s.ticks)

/-- Segment length operand. -/
def segTicks (x : Desc) : Nat := bits x.w3 16 16

/-- The checks of SETPOINT for one axis (log entry 192). -/
def setpointCheck (x : Desc) (d : Dev) (n : Nat) : Option (Status × Nat) :=
  let y := d.axis n
  let streaming := y.mot.mode == .streaming
  if streaming && (y.stop.isSome || 16 ≤ y.mot.queue.length) then some (.busy, 0)
  else
    let e := if streaming then
        (if !y.armed then some (Status.notArmed, 0)
         else if d.flag Fl.motionStatusPosUnverified n && !x.opflag 2 then some (.wrongState, 0) else none)
      else d.entryCheck n (x.opflag 2)
    match e with
    | some e => some e
    | none =>
      let t := segTicks x
      let dist := fine (x.pos 2) - d.lastPos n
      if t = 0 then some (.paramRange, 3)
      else if (y.set.vmax.toNat : Int) * 256 * t < dist.natAbs then some (.paramRange, 2)
      else
        let v := d.lastSpeed n
        if sgn v = -sgn dist && dist ≠ 0 && decide ((d.thresh n : Int) * 256 ≤ v.natAbs) && v ≠ 0 && !d.brakeReverse n
        then some (.reverseRefused, 0) else none

/-- A setpoint is queued on one axis; the first one enters streaming. -/
def queueSeg (x : Desc) (n : Nat) (d : Dev) : Dev :=
  let d := if (d.axis n).mot.mode = .streaming then d
           else let d := settleP n d; enter n .streaming (sgn (fine (x.pos 2) - (d.axis n).mot.p)) none d
  d.modMot n fun m => { m with queue := m.queue ++ [{ pos := x.pos 2, ticks := segTicks x, last := x.opflag 0 }] }

/-- An admitted SETPOINT. -/
def opSetpoint (c : Ctx) (d : Dev) : Dev :=
  let axes := d.leaves c.x.unit
  match axisFails axes (setpointCheck c.x d) with
  | f :: fs => c.refuseAxes (f :: fs) d
  | [] =>
    let d := each axes (queueSeg c.x) d
    c.okAxes (BitVec.ofNat 32 ((d.axis (axes.headD 0)).mot.queue.length)) d

/-! ## Phase 1 of motion (R119, R122, R127, R130) -/

/-- The following error of R119. -/
def followCheck (n : Nat) (d : Dev) : Dev :=
  let x := d.axis n
  let lim := d.cfg Fl.motionInposFollow n
  if !x.armed || x.stale || lim = 0 || x.mot.torque then d
  else
    let above := decide (lim * 256 < (x.lat.pos.toInt - x.spLast.toInt).natAbs)
    let d := d.modAxis n fun x => { x with follow := above }
    if above && !x.follow then d.raise .followError n 0 presMotion else d

/-- SETTLE ticks have passed outside the window (R122). -/
def settleDue (d : Dev) (n : Nat) : Bool :=
  let m := (d.axis n).mot
  let lim := d.cfg Fl.motionInposSettle n
  m.mode == .profile && lim ≠ 0 && !m.settled && (m.reached.any fun k => decide (lim ≤ k)) && !d.inWindow n (d.toGo n) && d.cfg Fl.motionInposWindow n ≠ 0

/-- The SETTLE condition raises FOLLOW_ERROR, once for the action. -/
def settleRaise (n : Nat) (d : Dev) : Dev :=
  if d.settleDue n then
    (d.modMot n fun m => { m with settled := true }).raise .followError n 0 presMotion
  else d

/-- The largest distance beyond the target since the profile first passed it (R127): on the far side of the approach that overshoots, or, while
a further approach has not yet reached the target, on the side that it comes from (log entry 203). -/
def farthest (pos : Pos) (m : Motion) : Nat :=
  let side : Int := if m.ovs = 1 then -m.ovsDir else m.ovsDir
  if m.passed then max m.ovsMax (side * (pos.toInt - m.target.toInt)).toNat else m.ovsMax

/-- Phase 1 of one axis after its latch: the quiet count, the overshoot's largest distance, SETTLE and the following error. -/
def phase1Axis (n : Nat) (d : Dev) : Dev :=
  let q := d.quietNow n
  let d := d.modAxis n fun x =>
    { x with quiet := if q then min 255 (x.quiet + 1) else 0
             mot := { x.mot with
               reached := x.mot.reached.map (· + 1)
               ovsMax := farthest x.lat.pos x.mot } }
  followCheck n (settleRaise n d)

end Dev

/-- MOVE. -/
def execMove (i : Fin 128) (slot : BitVec 16) (x : Desc) (s : State) : Host.Outcome State Fault Refusal :=
  s.onDev (Dev.dispatch .move i slot (withOpcode .move x) Dev.opMove)


/-- STOP. -/
def execStop (i : Fin 128) (slot : BitVec 16) (x : Desc) (s : State) : Host.Outcome State Fault Refusal :=
  s.onDev (Dev.dispatch .stop i slot (withOpcode .stop x) Dev.opStop)


/-- RESUME. -/
def execResume (i : Fin 128) (slot : BitVec 16) (x : Desc) (s : State) : Host.Outcome State Fault Refusal :=
  s.onDev (Dev.dispatch .resume i slot (withOpcode .resume x) Dev.opResume)


/-- SPEED. -/
def execSpeed (i : Fin 128) (slot : BitVec 16) (x : Desc) (s : State) : Host.Outcome State Fault Refusal :=
  s.onDev (Dev.dispatch .speed i slot (withOpcode .speed x) Dev.opSpeed)


/-- SETPROFILE. -/
def execSetprofile (i : Fin 128) (slot : BitVec 16) (x : Desc) (s : State) : Host.Outcome State Fault Refusal :=
  s.onDev (Dev.dispatch .setprofile i slot (withOpcode .setprofile x) Dev.opSetprofile)


/-- SETPOINT. -/
def execSetpoint (i : Fin 128) (slot : BitVec 16) (x : Desc) (s : State) : Host.Outcome State Fault Refusal :=
  s.onDev (Dev.dispatch .setpoint i slot (withOpcode .setpoint x) Dev.opSetpoint)

/-- STANDSTILL (R130): it takes effect where its two conditions hold. -/
def execStandstill (ax : Fin 64) (s : State) : Host.Outcome State Fault Refusal :=
  s.onDev fun d => if d.standstillDue ax then Dev.standstill ax d else d

/-- MOVE_END (R122): it takes effect where the profile has reached its target and the axis lies in the window. -/
def execMoveEnd (ax : Fin 64) (s : State) : Host.Outcome State Fault Refusal :=
  s.onDev fun d => if d.moveEndDue ax then Dev.finishProfile ax d else d

/-- SETTLE_TIMEOUT (R122). -/
def execSettleTimeout (ax : Fin 64) (s : State) : Host.Outcome State Fault Refusal := s.onDev fun d => (Dev.settleRaise ax d).settle

/-- REVERSAL_BRAKING_END (R196): it takes effect where the latch lies below the threshold. -/
def execReversalBrakingEnd (ax : Fin 64) (s : State) : Host.Outcome State Fault Refusal :=
  s.onDev fun d => if (d.axis ax).stop.isNone && d.revDue ax then Dev.revStart ax d else d

end Sys2Proof.Machine
end

