-- ==== Sys2Proof/Machine/Strikes.lean ====
section
/-! DEFINITION. Strikes.lean: the strike table: evaluation in phase 3, actions, STRIKE_ARM and STRIKE_DISARM (chapter 5). -/

namespace Sys2Proof.Machine

/-- Code of a strike state (R153). -/
def SState.code : SState → Nat
  | .free => 0 | .held => 1 | .armed => 2 | .recoiling => 3 | .fired => 4

/-- Held, armed or recoiling. -/
def Strike.live (e : Strike) : Bool := e.st == .held || e.st == .armed || e.st == .recoiling

/-- The key value of a position strike, in 1/256 count. -/
def Strike.keyPos (e : Strike) : Int := e.value.toInt

namespace Dev

/-- Entries held, armed or recoiling (R170). -/
def strikeLive (d : Dev) : Nat := (d.strikes.filter fun e => e.2.live).length

/-- A change of an X leg joins what the next setpoint frame carries (R160, R161, R282). -/
def xMerge (n : Nat) (c : XCmd) (d : Dev) : Dev :=
  d.modAxis n fun x =>
    { x with xduty := some (match x.xduty with
        | none => c
        | some o => { duty := c.duty.orElse fun _ => o.duty, xk := c.xk.orElse fun _ => o.xk }) }

/-- The base tick of a strike (R154, R156, R157): this tick; relative keys are based, e.prev is the latched position, and a
strike that is behind with fire_if_passed will fire at its first evaluation. Also answers whether it is behind (log entry 197). -/
def baseStrike (d : Dev) (e : Strike) : Bool × Strike :=
  let u := e.unit.toNat
  let pos := (d.axis (d.rep u)).lat.pos
  let rel := bit (e.mode.setWidth 32) 0
  let value : BitVec 40 :=
    if e.key = 2 && rel then ((e.value.setWidth 32 + d.time.mainsLatch).setWidth 40)
    else if e.key = 3 && rel then ((e.value.setWidth 32 + d.tick32).setWidth 40) else e.value
  let behind := e.key == 0 && ((e.mode == 1 && decide (e.value.toInt ≤ pos.toInt)) || (e.mode == 2 && decide (pos.toInt ≤ e.value.toInt)))
  (behind, { e with st := .armed, value := value, prev := pos, prevAx := d.rep u, jump := false, since := d.time.tick,
                    passed := behind && e.fip })

/-! ## Actions (R160 to R162) -/

/-- A strike's VMAX on one axis: not written where the set would become invalid; whether it acted (log entry 198). -/
def vmaxAxis (v : BitVec 24) (n : Nat) (d : Dev) : Bool × Dev :=
  let x := d.axis n
  if (setFault { x.set with vmax := v } {}).isSome then (false, d)
  else
    (true, d.modAxis n fun x =>
      { x with set := { x.set with vmax := v }
               mot := if x.mot.mode = .velocity then
                        { x.mot with cmd := if x.mot.cmd < 0 then -(v.toNat : Int) else v.toNat } else x.mot })

/-- f on each of a list of axes; whether it acted on all of them. -/
def actOnAll (f : Nat → Dev → Bool × Dev) : List Nat → Dev → Bool × Dev
  | [], d => (true, d)
  | n :: r, d =>
    let (a, d) := f n d
    let (b, d) := actOnAll f r d
    (a && b, d)

/-- A stop strike on one axis: nothing on a faulted or safe axis. -/
def stopStrike (imm : Bool) (decel : Word) (n : Nat) (d : Dev) : Bool × Dev :=
  let x := d.axis n
  if x.st = .faulted ∨ x.st = .safe then (false, d) else (true, stop n imm decel .strike none d)

/-- A strike's AUX on one axis: not on a faulted, safe or unarmed one. -/
def auxStrike (v : BitVec 16) (n : Nat) (d : Dev) : Bool × Dev :=
  let x := d.axis n
  if x.st = .faulted ∨ x.st = .safe ∨ !x.armed then (false, d)
  else (true, xMerge n { duty := some v, xk := none } d)

/-- The action of a strike on its action unit; false where it does not act on at least one leaf. -/
def strikeAct (e : Strike) (d : Dev) : Bool × Dev :=
  let axes := d.leaves e.actUnit.toNat
  match e.action.toNat with
  | 1 => actOnAll (stopStrike false e.param) axes d
  | 2 => actOnAll (stopStrike true 0) axes d
  | 3 => actOnAll (vmaxAxis (e.param.setWidth 24)) axes d
  | 4 => actOnAll (auxStrike (e.param.setWidth 16)) axes d
  | 5 =>
    let k := bits e.param 0 10
    let h := d.strike k
    if h.st = .held then (true, d.setStrike k (d.baseStrike h).2) else (false, d)
  | _ => (true, d)

/-- The entry's state after firing (R159). -/
def afterFire (e : Strike) : Strike :=
  if !e.rep then { e with st := .fired }
  else if e.key = 0 then { e with st := .recoiling }
  else if e.key = 1 then e
  else { e with value := (e.value.setWidth 32 + e.hyst.setWidth 32).setWidth 40 }

/-- A strike fires: its action, its record, its new state (R155, R159, R165). -/
def fire (i : Nat) (byPassed jump : Bool) (d : Dev) : Dev :=
  let e := d.strike i
  let (acted, d) := strikeAct e d
  let d := if acted then d else d.stick Fl.strikeStatusSuppressed 0
  let d := d.bump Fl.strikeStatusFirings 0 1
  let e := d.strike i
  let d := d.setStrike i { afterFire e with last := d.tick32, firedAt := some d.time.tick, passed := false }
  let w := BitVec.ofNat 32 (i + (if acted then 0 else 2 ^ 10) + (if byPassed then 2 ^ 11 else 0) + if jump then 2 ^ 12 else 0)
  match e.owner with
  | some o => if e.quiet then d else d.event o .strikeFired e.unit.toNat w
  | none => d

/-! ## Evaluation (R155, R156, R158) -/

/-- Evaluation of a position strike. -/
def evalPos (i : Nat) (e : Strike) (d : Dev) : Dev :=
  let ax := d.rep e.unit.toNat
  if (d.axis ax).stale then d.setStrike i { e with jump := true }
  else
    let k := e.keyPos
    let a := e.prev.toInt
    let pos := (d.axis ax).lat.pos
    let b := pos.toInt
    let jump := e.jump || e.prevAx ≠ ax
    let e' := { e with prev := pos, prevAx := ax, jump := false, passed := false }
    if e.st = .recoiling then
      let h : Int := e.hyst.toNat * 256
      let back := (e.mode = 1 && decide (b ≤ k - h)) || (e.mode = 2 && decide (k + h ≤ b)) ||
        (e.mode = 3 && decide (h ≤ (b - k).natAbs))
      d.setStrike i { e' with st := if back then .armed else .recoiling, passed := e.passed }
    else
      let rise := (e.mode.toNat % 2 = 1) && decide (a < k) && decide (k ≤ b)
      let fall := decide (2 ≤ e.mode.toNat) && decide (k < a) && decide (b ≤ k)
      let d := d.setStrike i e'
      if e.passed || rise || fall then fire i e.passed (jump && (rise || fall)) d else d

/-- Evaluation of one entry in phase 3. -/
def evalStrike (i : Nat) (d : Dev) : Dev :=
  let e := d.strike i
  if (e.st ≠ .armed && e.st ≠ .recoiling) || e.since = d.time.tick then d
  else match e.key.toNat with
  | 0 => evalPos i e d
  | 1 =>
    let x := (d.axis (d.rep e.unit.toNat)).lat
    if (e.mode.toNat % 2 = 1 && x.swaNew) || (2 ≤ e.mode.toNat && x.swbNew) then fire i false false d else d
  | 2 => if 0 ≤ (d.time.mainsLatch - e.value.setWidth 32).toInt then fire i false false d else d
  | _ => if 0 ≤ (d.tick32 - e.value.setWidth 32).toInt then fire i false false d else d

/-- Phase 3 (R25, R155): every entry in ascending index. -/
def phase3 (d : Dev) : Dev := each (d.strikes.map (·.1)) evalStrike d

/-! ## STRIKE_ARM (R163, R164) -/

/-- Entry index operand of both strike descriptors. -/
def strikeIndex (x : Desc) : Nat := bits x.w1 9 10

/-- Check 1 of R164: the word that holds the first failing field (log entry 200). -/
def strikeField (x : Desc) : Option Nat :=
  let key := bits x.w1 19 2
  let mode := bits x.w1 21 2
  let rep := bit x.w1 23
  let action := bits x.w4 0 3
  let modeOk := if key < 2 then mode ≠ 0 else decide (mode < 2)
  if !modeOk then some 1
  else if 2 ≤ key && rep && bits x.w3 16 16 = 0 then some 3
  else if 6 ≤ action then some 4
  else if action = 3 && bits x.w5 0 24 = 0 then some 5
  else if action = 5 && bits x.w5 0 10 = strikeIndex x then some 5
  else none

/-- The strike that a descriptor loads, before its base tick; what the entry has fired in this tick stays known (R166). -/
def strikeOf (o : Owner) (x : Desc) (last : Word) (fired : Option (BitVec 48)) : Strike :=
  let key := bits x.w1 19 2
  { st := .held, unit := BitVec.ofNat 9 x.unit, key := BitVec.ofNat 2 key, mode := BitVec.ofNat 2 (bits x.w1 21 2),
    rep := bit x.w1 23, fip := x.opflag 1, action := BitVec.ofNat 3 (bits x.w4 0 3),
    actUnit := BitVec.ofNat 9 (bits x.w4 4 9), param := x.w5,
    value := if key = 0 then x.pos 2 else if key = 1 then 0 else x.w2.setWidth 40,
    hyst := BitVec.ofNat 16 (bits x.w3 16 16), quiet := x.opflag 3, owner := some o, last := last, firedAt := fired }

/-- An admitted STRIKE_ARM. -/
def opStrikeArm (c : Ctx) (d : Dev) : Dev :=
  let x := c.x
  let i := strikeIndex x
  let au := bits x.w4 4 9
  let e := d.strike i
  let mine := d.inRing c.ring e.unit.toNat
  match strikeField x with
  | some w => c.refuse .paramRange w d
  | none =>
    if !(d.unit au).bound || !d.inRing c.ring au then c.refuse .paramRange 4 d
    else if e.live && !(x.opflag 0 && mine) then c.refuse .busy (i + if mine then 0 else 1024) d
    else
      let n := strikeOf { c.owner with credit := false, silent := false } x e.last e.firedAt
      let hold := x.opflag 2
      let (behind, b) := d.baseStrike n
      let d := d.setStrike i (if hold then n else b)
      let w := BitVec.ofNat 32 (i + (if e.live then 2 ^ 10 else 0) + if hold then 2 ^ 11 else 0)
      c.done (if behind && !hold then .armedBehind else .ok) w d

/-! ## STRIKE_DISARM (R166) -/

/-- An admitted STRIKE_DISARM. -/
def opStrikeDisarm (c : Ctx) (d : Dev) : Dev :=
  let x := c.x
  if bit x.w1 19 then
    let hit := fun (e : Strike) => e.live && e.unit.toNat = x.unit
    let n := (d.strikes.filter fun e => hit e.2).length
    let d := { d with strikes := d.strikes.map fun e => if hit e.2 then (e.1, { e.2 with st := .free, owner := none }) else e }
    c.done .ok (BitVec.ofNat 32 n) d
  else
    let i := strikeIndex x
    let e := d.strike i
    let now := e.firedAt == some d.time.tick
    if e.live && e.unit.toNat ≠ x.unit then c.refuse .wrongState (SState.code e.st + i * 8) d
    else
      let w := BitVec.ofNat 32 (SState.code e.st + i * 8 + if now then 2 ^ 13 else 0)
      let st := if e.st = .fired || now then Status.alreadyFired else .ok
      c.done st w (d.setStrike i { e with st := .free, owner := none })

/-- A rebase of an axis: position strikes whose chain ends there take the latched position as e.prev (R156) (log entry 199). -/
def rebaseStrikes (n : Nat) (d : Dev) : Dev :=
  let pos := (d.axis n).lat.pos
  { d with strikes := d.strikes.map fun e =>
      if e.2.live && e.2.key = 0 && d.rep e.2.unit.toNat = n then (e.1, { e.2 with prev := pos, prevAx := n }) else e }

end Dev

/-- STRIKE_ARM. -/
def execStrikeArm (i : Fin 128) (slot : BitVec 16) (x : Desc) (s : State) : Host.Outcome State Fault Refusal :=
  s.onDev (Dev.dispatch .strikeArm i slot (withOpcode .strikeArm x) Dev.opStrikeArm)


/-- STRIKE_DISARM. -/
def execStrikeDisarm (i : Fin 128) (slot : BitVec 16) (x : Desc) (s : State) : Host.Outcome State Fault Refusal :=
  s.onDev (Dev.dispatch .strikeDisarm i slot (withOpcode .strikeDisarm x) Dev.opStrikeDisarm)

end Sys2Proof.Machine
end

