-- ==== Sys2Proof/Machine/Faults.lean ====
section
/-! DEFINITION. Faults.lean: reactions and roll-up in phase 2, the collector, acknowledges and clears (chapter 14, R105). -/

namespace Sys2Proof.Machine.Dev

/-- A movement is an orphan (R446, R447). -/
def orphan (d : Dev) (m : Nat) : Bool := d.flag Fl.escMvstatusOrphan m

/-- An STO pin of a movement is active. -/
def stoPin (d : Dev) (m : Nat) : Bool := (d.hw Fl.stoStatusPinA 0).testBit m || (d.hw Fl.stoStatusPinB 0).testBit m

/-! ## Reactions on one axis (R411, R414) -/

/-- The action of an axis ends in a fault reaction, with the remainder at that tick (R133). -/
def endFault (n : Nat) (st : Status) (d : Dev) : Dev :=
  let x := d.axis n
  let keeps := x.st == .stopped || x.mot.mode == .profile || (x.stop.map (·.keep)).getD false
  let rem := if keeps then d.toGo n else 0
  d.endMot n st (countsWord rem)

/-- A class 2 reaction on one axis: immediate stop, faulted, still armed; a short or a float stays (R190, R197); the
short that it gives a sensorless axis without a known angle ends at standstill (R220). -/
def unitStop (n : Nat) (st : Status) (d : Dev) : Dev :=
  let x := d.axis n
  if x.st = .faulted ∨ x.st = .safe then d
  else
    let rev := x.mot.rev
    let d := endFault n st d
    let d := endMode n d
    d.modAxis n fun x =>
      let drop := d.sensorless n && (!x.lat.known || x.lat.phase == 3 || x.lat.phase == 4)
      let s : Stop := match x.stop with
        | some s => { s with immediate := true, keep := false, cause := .fault }
        | none => { immediate := true, decel := 0, cause := .fault, joined := [], disarm := false, keep := false }
      { x with st := .faulted, still := false, stop := some s, seq := none, seqOff := true,
               brakeHold := x.brakeHold || rev || (drop && x.armed && x.cmd != .brake && x.cmd != .off),
               cmd := match x.cmd with
                 | .brake => .brake
                 | .float b => if drop then .brake else .float b
                 | .off => .off
                 | _ => if !x.armed then .off else if drop then .brake else .field }

/-- A reaction of class 3 or above on one axis in the hub: safe, unarmed (R183, R411). -/
def unitSafe (n : Nat) (st : Status) (d : Dev) : Dev :=
  let d := endFault n st d
  let d := (endMode n d).unarm n
  d.modAxis n fun x =>
    { x with st := .safe, still := false, cmd := .off, seq := none, seqOff := false, ss1 := false,
             brakeHold := false, xduty := none,
             stop := x.stop.map fun s => { s with immediate := true, keep := false, disarm := false } }

/-- The highest class that phase 2 applies to an axis; class 2 runs as SS1 where that is enabled (R449): the frames say so as long as the
axis stays faulted, so that a lost one does not take it away. -/
def reactAxis (n cls : Nat) (st : Status) (d : Dev) : Dev :=
  if cls < 2 then d
  else if cls = 2 then
    let d := unitStop n st d
    if (d.axis n).st = .faulted && d.on Fl.escSs1En n then d.modAxis n fun x => { x with ss1 := true } else d
  else unitSafe n st d

/-- A class changes the axis's unit state to faulted or safe (R105). -/
def changes (st : UState) (cls : Nat) : Bool :=
  if cls = 2 then st ≠ .faulted && st ≠ .safe else decide (3 ≤ cls) && st ≠ .safe

/-! ## Phase 2 (R24, R105, R106, R411) -/

/-- Highest class and its status for an axis among the reactions. -/
def classFor (rs : List React) (n : Nat) : Nat × Status :=
  rs.foldl (fun b r => if r.axes.contains n && b.1 < r.cls then (r.cls, r.status) else b) (0, .stoppedFault)

/-- The ancestors of a unit. -/
def ancestors (d : Dev) (u : Nat) : Nat → List Nat
  | 0 => []
  | fuel + 1 => match (d.unit u).parent with
    | none => []
    | some p => p :: ancestors d p fuel

/-- The roll-ups that a leaf's change sets off: the group and its class (R105). -/
def rollups (d : Dev) (n : Nat) : List (Nat × Nat) :=
  ((d.ancestors n 512).map fun g => (g, d.cfg Fl.unitRollupClass g)).filter fun e => e.2 ≠ 0

/-- A roll-up reaches its leaves: ROLLUP and CLASS, and what classes 3 to 5 do at once (R105, R419); the axes that class 4 or 5 makes
safe beyond the leaves of g take CLASS alone (R431; log entry 136). -/
def rollMark (g cls : Nat) (d : Dev) : Dev :=
  let d := each (d.leaves g) (stickAxis presOwn 25 cls) d
  let d := each (classAxes cls (d.leaves g)) (stickAxis presOwn 31 cls) d
  reactNow cls (d.leaves g) d

/-- A reaction that a roll-up makes. -/
def rollReact (d : Dev) (e : Nat × Nat) : React :=
  { cls := e.2, axes := classAxes e.2 (d.leaves e.1), code := 0, status := .stoppedFault }

/-- The reactions collected since the last phase 2 are applied, with their roll-ups; each axis takes the highest class. -/
def applyReacts (d : Dev) : Dev :=
  let rs := d.flt.reacts
  let d := { d with flt := { d.flt with reacts := [] } }
  if rs.isEmpty then d
  else
    let hit := (span 0 64).filter fun n => changes (d.axis n).st (classFor rs n).1
    let rolls := (hit.flatMap d.rollups).eraseDups
    let all := rs ++ rolls.map d.rollReact
    let d := rolls.foldl (fun d e => rollMark e.1 e.2 d) d
    each (span 0 64) (fun n d =>
      let c := classFor all n
      if c.1 < 2 then d else reactAxis n c.1 c.2 (d.modAxis n fun x => { x with react := c.1 })) d

/-! ## Clearing (R422) -/

/-- Conditions 1 to 3 of R422 for an axis. -/
def clearBase (d : Dev) (n : Nat) : Bool :=
  bits (regWord d.regs.hw .fltSticky n) 0 29 == 0 && !d.stoPin (n / 8) && !d.orphan (n / 8) && (d.axis n).react == 0

/-- Condition 6 of R422. -/
def clearStill (d : Dev) (n : Nat) : Bool :=
  match (d.axis n).st with
  | .faulted => (d.axis n).still
  | .safe => d.quietLong n && d.quietNow n
  | _ => true

/-- The movement STO latch of m is set. -/
def msto (d : Dev) (m : Nat) : Bool := (d.hw Fl.fltLatchMsto 0).testBit m

/-- The latch of m allows a clear of unit u (condition 4). -/
def clearMv (d : Dev) (u m : Nat) : Bool :=
  !d.msto m || (span (8 * m) 8).all fun k => (d.leaves u).contains k && d.clearBase k && d.clearStill k

/-- The device latch allows a clear of unit u (condition 5). -/
def clearDev (d : Dev) (u : Nat) : Bool :=
  !d.flag Fl.fltLatchDsto 0 || (span 0 64).all fun k => (d.leaves u).contains k && d.clearBase k && d.clearStill k

/-- A leaf meets every condition of R422. -/
def clearOk (d : Dev) (u n : Nat) : Bool := d.clearBase n && d.clearStill n && d.clearMv u (n / 8) && d.clearDev u

/-- A faulted or safe leaf becomes idle (R422): a faulted one stays armed and holds; a safe one returns in drive OFF. -/
def clearAxis (n : Nat) (d : Dev) : Dev :=
  let x := d.axis n
  let d := if x.st = .safe then d.modMva n fun y => { y with drive := if y.drive = .sto then .off else y.drive } else d
  let d := d.modAxis n fun x =>
    { x with st := .idle, stop := none, still := false, unhold := true, ss1 := false, cmd := if x.armed then d.holdCmd n else .off }
  d.setHw Fl.fltStickyClass n 0

/-- The clear request of this tick acts, after all reactions. -/
def applyClear (d : Dev) : Dev :=
  match d.flt.clrNow with
  | none => d
  | some u =>
    let u := u.toNat
    let d := d.safeSense
    let d := { d with flt := { d.flt with clrNow := none } }
    if !(d.unit u).bound then (d.stick Fl.fltStatusClearRefused 0).setHw Fl.fltStatusClearAxis 0 0x7F
    else
      let cand := (d.leaves u).filter fun n => (d.axis n).st = .faulted || (d.axis n).st = .safe
      let good := cand.filter (d.clearOk u)
      let bad := cand.filter fun n => !d.clearOk u n
      let freeM := (span 0 8).filter fun m => d.msto m && d.clearMv u m && d.clearDev u && decide (good.any fun n => n / 8 = m)
      let freeD := d.flag Fl.fltLatchDsto 0 && d.clearDev u && !good.isEmpty
      let d := each good clearAxis d
      let d := d.setHw Fl.fltLatchMsto 0 (d.hw Fl.fltLatchMsto 0 - maskOf freeM)
      let d := if freeD then d.setHw Fl.fltLatchDsto 0 0 else d
      match bad with
      | [] => d
      | n :: _ => (d.stick Fl.fltStatusClearRefused 0).setHw Fl.fltStatusClearAxis 0 n

/-- The end of phase 2: reactions, roll-ups, the clear, and vector 68 for each capture that has become valid (R421). -/
def phase2End (d : Dev) : Dev :=
  let d := applyReacts (each (span 0 64) (fun n d => if (d.axis n).react = 0 then d else d.modAxis n fun x => { x with react := 0 }) d)
  let d := applyClear d
  let n := d.flt.irqDue
  let d := { d with flt := { d.flt with irqDue := 0 } }
  if d.on Fl.fltCfgIrqEn 0 && d.linkServes then { d with hif := { d.hif with irq68 := d.hif.irq68 + n } } else d

/-! ## The collector (R415 to R418, R420) -/

/-- Presentations of a list of presenters whose pairs change to asserted; 17 stands for what the collector has found itself. -/
def arrivals (d : Dev) (from_ : List (Fin 18)) : List (Nat × Present) :=
  ((sortNat (from_.map (·.val))).eraseDups).flatMap fun p =>
    if p = presOwn then d.flt.own.map fun a => (p, a)
    else match SMap.find d.flt.pres p with
      | some a => if a.seen then [] else [(p, a)]
      | none => []

/-- What an arrival counts for beside itself (R415, R416). -/
def multiOf (a : Present) : Nat := if a.multi then 1 else 0

/-- The winner among arrivals of one clock, with its presenter. -/
def winnerOf : Nat × Present → List (Nat × Present) → Nat × Present
  | a, [] => a
  | a, b :: r => winnerOf (if a.2.beats b.2 then a else b) r

/-- A presenter returns its pair to inactive (R415). -/
def presentEnd (p : Nat) (d : Dev) : Dev := { d with flt := { d.flt with pres := SMap.drop d.flt.pres p } }

/-- The collector has looked at an arrival. -/
def arrived (d : Dev) (e : Nat × Present) : Dev :=
  { d with flt := if e.1 = presOwn then { d.flt with own := [] }
                  else { d.flt with pres := SMap.set d.flt.pres e.1 { e.2 with seen := true } } }

/-- Arrivals of one hub clock (R415, R416): they start a sequence, count as overflow, or are lost to a running sequence. -/
def arrive (from_ : List (Fin 18)) (d : Dev) : Dev :=
  let as := d.arrivals from_
  match as with
  | [] => d
  | a :: r =>
    let d := as.foldl arrived d
    let all := (as.map fun e => 1 + multiOf e.2).sum
    if d.flt.seq.isSome then d
    else if d.flag Fl.fltCapValid 0 then
      (d.bump Fl.fltCapOvfCount 0 all).stick Fl.fltCapOvfOvf 0
    else
      let w := winnerOf a r
      { d with flt := { d.flt with seq := some { from_ := w.1, what := w.2, extra := all - 1, tick := d.time.tick } } }

/-- An acknowledge is judged (R418). -/
def judgeAck (c : BitVec 8) (d : Dev) : Dev :=
  if c.toNat = d.hw Fl.fltCapOvfCount 0 then
    ((d.setHw Fl.fltCapValid 0 0).setHw Fl.fltCapOvfCount 0 0).setHw Fl.fltCapOvfOvf 0 0
  else d.stick Fl.fltStatusAckStale 0

/-- A write of FLT_ACK. -/
def ack (value : Word) (d : Dev) : Dev :=
  if d.flt.seq.isSome then { d with flt := { d.flt with acks := d.flt.acks ++ [value.setWidth 8] } }
  else judgeAck (value.setWidth 8) d

/-- The pins that a capture pulses (R420). -/
def alertPins (d : Dev) (w : Present) : BitVec 8 :=
  if w.level = 3 then BitVec.ofNat 8 (d.cfg Fl.fltCfgHubmap 0) else BitVec.ofNat 8 (2 ^ (w.unit.toNat / 8))

/-- Pulses begin on pins. A pin that is low, by its level or by a pulse that restarts, first goes high for 1 µs, so that each pulse begins
with a falling edge (R420; log entry 182). -/
def alertBegin (pins : BitVec 8) (d : Dev) : Dev :=
  let low := pins &&& (d.flt.alert ||| BitVec.ofNat 8 (d.cfg Fl.fltAlertLevel 0))
  { d with flt := { d.flt with alert := d.flt.alert ||| pins, alertHi := (d.flt.alertHi &&& ~~~ pins) ||| low } }

/-- The level of ALERTm_n, `ns` nanoseconds after its last pulse began: low during a pulse, but for the 1 µs high before one that began at
a low level; else where the software level says so (R420). A movement whose logic is off or in reset leaves its pin released (R571). -/
def alertLow (d : Dev) (m ns : Nat) : Bool :=
  if !d.mvOn m then false
  else if d.flt.alert.getLsbD m then !(d.flt.alertHi.getLsbD m && decide (ns < 1000))
  else (d.cfg Fl.fltAlertLevel 0).testBit m

/-- The movement of an axis or movement source by the data pairs: that of the gatherer, the sub-index of a movement source (R408), or
the one of the first read, since the pairs carry the local axis alone (R409, R417; log entry 181). -/
def rereadMv (q : FltSeq) (level sub : Nat) : Nat :=
  if q.from_ < 8 then q.from_ else if level = 2 then sub else q.what.unit.toNat / 8

/-- What the second read of the data pairs shows (R409, R417). A movement source with sub-index 8 is the hub's (R408). -/
def reread (d : Dev) (q : FltSeq) (w : BitVec 16) : Present :=
  let id := w.setWidth 12
  let code := id.toNat / 16
  let sub := id.toNat % 16
  let row := match Src.ofCode code with
    | some s => s.row.level
    | none => q.what.level.toNat
  let level := if row = 2 && 8 ≤ sub then 3 else row
  let m := rereadMv q level sub
  let unit := if level < 2 then 8 * m + bits (w.setWidth 32) 12 3 else if level = 2 then 8 * m else 0
  let cls := match Src.ofCode code with
    | some s => d.classOf s
    | none => q.what.cls.toNat
  { q.what with id := id, level := BitVec.ofNat 2 level, unit := BitVec.ofNat 9 unit, cls := BitVec.ofNat 3 cls, multi := w.getLsbD 15 }

/-- The reaction sequence ends: the capture stands, the ALERT pulse starts, waiting acknowledges are judged (R417, R418). -/
def seqEnd (second : Option (BitVec 16)) (d : Dev) : Dev :=
  match d.flt.seq with
  | none => d
  | some q =>
    let w := match second with
      | none => q.what
      | some v => d.reread q v
    let extra := min 255 (q.extra - multiOf q.what + multiOf w)
    let d := alertBegin (d.alertPins w) { d with flt := { d.flt with seq := none, irqDue := d.flt.irqDue + 1 } }
    let d := d.setHw Fl.fltCapId 0 w.id.toNat
    let d := d.setHw Fl.fltCapLevel 0 w.level.toNat
    let d := d.setHw Fl.fltCapReread 0 (if second.isSome then 1 else 0)
    let d := d.setHw Fl.fltCapValid 0 1
    let d := d.setHw Fl.fltCapUnit 0 w.unit.toNat
    let d := d.setHw Fl.fltCapClass 0 w.cls.toNat
    let d := d.setHw Fl.fltCapTickLoTickLo 0 (q.tick.toNat % 2 ^ 32)
    let d := d.setHw Fl.fltCapTickHiTickHi 0 (q.tick.toNat / 2 ^ 32)
    let d := d.setHw Fl.fltCapOvfCount 0 extra
    let d := d.setHw Fl.fltCapOvfOvf 0 (if extra = 0 then 0 else 1)
    let acks := d.flt.acks
    acks.foldl (fun d c => judgeAck c d) { d with flt := { d.flt with acks := [] } }

/-- The pulse of an ALERT pin ends; the pin follows FLT_ALERT.LEVEL again (R420). -/
def alertEnd (m : Nat) (d : Dev) : Dev :=
  let keep := ~~~ BitVec.ofNat 8 (2 ^ m)
  { d with flt := { d.flt with alert := d.flt.alert &&& keep, alertHi := d.flt.alertHi &&& keep } }

/-- A write of FLT_CLEAR is registered for a boundary (R422, R428). -/
def clearWrite (value : Word) (off : Nat) (d : Dev) : Dev :=
  let u : BitVec 9 := value.setWidth 9
  { d with flt := if d.late off then { d.flt with clrLate := some u } else { d.flt with clr := some u } }

/-! ## Broken pairs (R410) -/

/-- The broken bits of FLT_LATCH follow the list of broken pairs. -/
def brokenBits (d : Dev) : Dev :=
  let ms := (span 0 8).filter fun m => d.flt.broken.any fun e => e.1 = m
  (d.setHw Fl.fltLatchBroken 0 (maskOf ms)).setFlag Fl.fltLatchBrokenHub 0 (d.flt.broken.any fun e => e.1 = 8)

/-- A pair that ends at the collector or in the SAFE domain (R409, R441): the others end at a movement. -/
def atCollector : Pair → Bool
  | .source _ => false
  | .axsto _ => false
  | .msto => false
  | .dsto => false
  | _ => true

/-- A pair of a hub presenter (R409, R581). -/
def ofHub : Pair → Bool
  | .hubFlt _ => true
  | .hubData _ _ => true
  | _ => false

/-- A pair breaks: RAIL_BROKEN at its receiving end; a reaction pair acts as asserted. A broken DSTO_REQ makes every axis safe with class 5
(R431). -/
def railBreak (m : Nat) (p : Pair) (d : Dev) : Dev :=
  if d.flt.broken.contains (m, p) || decide (m = 8) != ofHub p then d
  else
    let d := brokenBits { d with flt := { d.flt with broken := d.flt.broken ++ [(m, p)] } }
    if m = 8 then (d.raiseAs .railBroken 8 8 presOwn 2 .stoppedFault).settle
    else
      let d := (d.raiseAs .railBroken m m (if atCollector p then presOwn else m) 4 .stoppedFault).settle
      if p = .dstoReq then
        let d := each (span 0 64) (stickAxis presOwn 31 5) d
        (reactNow 5 (span 0 64) d).addReact { cls := 5, axes := span 0 64, code := 0x26, status := .stoppedFault }
      else d

/-- A pair returns to a valid code: its forcing ends. -/
def railRestore (m : Nat) (p : Pair) (d : Dev) : Dev :=
  let d := d.safeSense
  brokenBits { d with flt := { d.flt with broken := d.flt.broken.filter fun e => e ≠ (m, p) } }

end Sys2Proof.Machine.Dev

namespace Sys2Proof.Machine

/-- FAULT_ARRIVAL (R415, R416). -/
def execFaultArrival (from_ : List (Fin 18)) (s : State) : Host.Outcome State Fault Refusal := s.onDev (Dev.arrive from_)

/-- REACTION_SEQUENCE_END (R417, R418). -/
def execReactionSequenceEnd (second : Option (BitVec 16)) (s : State) : Host.Outcome State Fault Refusal := s.onDev (Dev.seqEnd second)

/-- ALERT_PULSE_END (R420). -/
def execAlertPulseEnd (m : Fin 8) (s : State) : Host.Outcome State Fault Refusal := s.onDev (Dev.alertEnd m)

/-- RAIL_BROKEN (R410). -/
def execRailBroken (m : Fin 9) (p : Pair) (s : State) : Host.Outcome State Fault Refusal := s.onDev (Dev.railBreak m p)

/-- RAIL_RESTORED (R410). -/
def execRailRestored (m : Fin 9) (p : Pair) (s : State) : Host.Outcome State Fault Refusal := s.onDev (Dev.railRestore m p)

/-- GATHERER_PRESENTATION_END (R415, R581). -/
def execGathererPresentationEnd (p : Fin 17) (s : State) : Host.Outcome State Fault Refusal := s.onDev (Dev.presentEnd p)

end Sys2Proof.Machine
end

