-- ==== Sys2Proof/Machine/Watch.lean ====
section
/-! DEFINITION. Watch.lean: what the safety monitors of an axis see in its movement: the edges of SLS channel 1, the crossings of
channel 2, the samples of SLC, and the SS1 monitor (R449 to R456; log entries 148 and 149). -/

namespace Sys2Proof.Machine.Dev

/-- Change of the monitors of an axis. -/
def modWatch (d : Dev) (n : Nat) (f : Watch → Watch) : Dev := d.modMva n fun x => { x with watch := f x.watch }

/-- SLS is active on an axis: enabled, and the axis is armed (R450). -/
def slsOn (d : Dev) (n : Nat) : Bool := d.mvOn (n / 8) && d.on Fl.escSlsCfgEn n && (d.axis n).armed

/-- Channel 2 has no reading: by the drive state, or during a soft turn-off (R452). -/
def slsBlind (d : Dev) (n : Nat) : Bool :=
  (d.mva n).legs.runs.any (·.kind.isSoft) || match (d.mva n).drive with
    | .brake => true
    | .orphanBrake => true
    | .precharge => true
    | .halt => true
    | _ => false

/-- The limit of a direction (R450, R469). -/
def slsLim (d : Dev) (n : Nat) (dir : Int) : Nat := if dir < 0 then d.cfg Fl.escSlsNegLim n else d.cfg Fl.escSlsPosLim n

/-- An interval of `iv` hub clocks for `e` sixths of a count is shorter than e / LIM ticks in a limited direction (R450). -/
def slsShort (d : Dev) (n : Nat) (dir : Int) (e iv : Nat) : Bool :=
  d.slsOn n && d.slsLim n dir ≠ 0 && decide (6 * (iv * d.slsLim n dir) < e * 65536 * d.tickLen)

/-- The SS1 monitor starts (R449). -/
def watchSs1 (n t : Nat) (d : Dev) : Dev :=
  (d.modWatch n fun w => { w with ss1At := t, ss1Iv := none, ss1Up := false }).setHw Fl.escAxstatusSs1 n 1

/-- An interval that the SS1 monitor measures: the first since its start, or one that may be shorter than three quarters of it (R449). -/
def ss1Interval (iv : Nat) (w : Watch) : Watch :=
  match w.ss1Iv with
  | none => { w with ss1Iv := some iv }
  | some f => { w with ss1Up := w.ss1Up || decide (4 * iv < 3 * f) }

/-- Channel 1 sees k edges of one direction at t, the last of which ends an interval (R451): on a sensorless axis they come from the count of
its observer (R433; log entry 148). Short intervals in a row are counted, and
the counts are added up for the comparison with channel 2 (R453, R454). The edge of Hall mode is worth CPE / 6 counts (R450). -/
def watchEdge (n : Nat) (k : Int) (t : Nat) (d : Dev) : Dev :=
  let e : Nat := if d.cfg Fl.fbCfgMode n = 1 then d.cfg Fl.elecCfgCpe n else 6
  let w := (d.mva n).watch
  let dir := sgn k
  let iv := match w.at1 with
    | some s => if w.dir1 = dir then some (t - s) else none
    | none => none
  let short := match iv with
    | some v => d.slsShort n dir (k.natAbs * e) v
    | none => false
  d.modWatch n fun w =>
    let w := match iv with
      | some v => if d.cfg Fl.fbCfgMode n = 2 then w else ss1Interval v w
      | none => w
    { w with at1 := some t, dir1 := dir, run1 := if short then w.run1 + 1 else 0, moved := w.moved + k * e }

/-- The direction from one crossing to the next: U, W, V is positive (R227); 0 where a phase repeats. -/
def crossDir (a b : Fin 3) : Int := if b.val = (a.val + 2) % 3 then 1 else if b.val = (a.val + 1) % 3 then -1 else 0

/-- What channel 1 has moved since the crossing before differs from CPE / 6 by more than DTOL, or in its direction (R454). -/
def slsMismatch (d : Dev) (n : Nat) (dir : Int) : Bool :=
  let m := (d.mva n).watch.moved
  decide (6 * d.cfg Fl.escSlsCfgDtol n < ((m.natAbs : Int) - d.cfg Fl.elecCfgCpe n).natAbs) || decide (m * dir < 0)

/-- Channel 2 sees a crossing of a phase at t (R452 to R454): its interval in one rotation order, and the comparison with what channel 1
has moved since the crossing before, whose counts DCNT keeps. -/
def watchCross (n : Nat) (p : Fin 3) (t : Nat) (d : Dev) : Dev :=
  let w := (d.mva n).watch
  match w.last2 with
  | none => d.modWatch n fun w => { w with last2 := some p, at2 := t, dir2 := 0, run2 := 0, moved := 0 }
  | some q =>
    let dir := crossDir q p
    let iv := t - w.at2
    let short := dir ≠ 0 && d.slsShort n dir (d.cfg Fl.elecCfgCpe n) iv
    let bad := d.slsMismatch n dir
    let d := d.setHw Fl.escAxstatusDcnt n (BitVec.ofInt 8 (saturate 8 (quot w.moved 6))).toNat
    d.modWatch n fun w =>
      let w := if d.cfg Fl.fbCfgMode n = 2 ∧ dir ≠ 0 then ss1Interval iv w else w
      { w with last2 := some p, at2 := t, dir2 := dir, moved := 0, differ := if bad then w.differ + 1 else 0
               run2 := if !short then 0 else if w.dir2 = dir then w.run2 + 1 else 1 }

/-- Channel 2 has lost its reading: its crossings start anew. -/
def watchBlind (n : Nat) (d : Dev) : Dev := d.modWatch n fun w => { w with last2 := none, run2 := 0, dir2 := 0, seen := 0, differ := 0, moved := 0 }

/-- The switching phases at the end of a PWM period at t: `high` tells which phases switched, and whether each was above the virtual star
for more than half of it; a change is a crossing (R452). -/
def watchPhases (n t : Nat) (high : Fin 3 → Option Bool) (d : Dev) : Dev :=
  if d.slsBlind n then watchBlind n d
  else
    let one (d : Dev) (p : Fin 3) : Dev :=
      let b : BitVec 3 := BitVec.ofNat 3 (2 ^ p.val)
      match high p with
      | none => d.modWatch n fun w => { w with seen := w.seen &&& ~~~ b }
      | some h =>
        let w := (d.mva n).watch
        let d := if w.seen.getLsbD p && w.above.getLsbD p != h then watchCross n p t d else d
        d.modWatch n fun w => { w with seen := w.seen ||| b, above := if h then w.above ||| b else w.above &&& ~~~ b }
    [0, 1, 2].foldl one d

/-- Periods in a row without an SLC sample, in drive FIELD or OPENLOOP (R456). -/
def watchSamples (n : Nat) (sample : Bool) (d : Dev) : Dev :=
  d.modWatch n fun w => { w with blind := match (d.mva n).drive with
    | .field => if sample then 0 else w.blind + 1
    | .openloop => if sample then 0 else w.blind + 1
    | _ => 0 }

end Sys2Proof.Machine.Dev
end

