-- ==== Sys2Proof/Machine/Feedback.lean ====
section
/-! DEFINITION. Feedback.lean: encoder, Hall and switch inputs: counting, index and drift, switch latches, speed from edge
periods (chapter 12, R141). -/

namespace Sys2Proof.Machine.Dev

/-! ## Movements that serve (R505, R519) -/

/-- The link of a movement is trained. -/
def trained (d : Dev) (m : Nat) : Bool := d.flag Fl.linkStatusTrained m

/-- Change of the feedback of an axis. -/
def modFb (d : Dev) (n : Nat) (f : Fb → Fb) : Dev := d.modMva n fun x => { x with fb := f x.fb }
/-- The movement reports the position of an axis as unverified (R143, R366 to R370). -/
def unverified (n : Nat) (d : Dev) : Dev := d.modMva n fun x => { x with unver := true }

/-! ## Position (R20, R361, R365 to R368) -/

/-- Electrical modes of an axis: 0 encoder, 1 Hall, 2 sensorless. -/
def fbMode (d : Dev) (n : Nat) : Nat := d.cfg Fl.fbCfgMode n

/-- The position that base and steps make, in 1/256 count, not wrapped. -/
def posInt (d : Dev) (n : Nat) : Int :=
  let f := (d.mva n).fb
  match d.fbMode n with
  | 0 => f.base + f.steps * 256
  | 1 => f.base + quot (f.steps * (d.cfg Fl.elecCfgCpe n) * 256) 6
  | _ => f.base + quot (f.steps * (d.cfg Fl.elecCfgCpe n)) 256

/-- The position counter of an axis (R8, R367). -/
def counter (d : Dev) (n : Nat) : Pos := BitVec.ofInt 40 (d.posInt n)

/-- The counter is set: by a rebase, by a return of the domain, by a step of a forced angle. -/
def setCounter (n : Nat) (p : Int) (d : Dev) : Dev := d.modFb n fun f => { f with base := p, steps := 0 }

/-- A counter beyond its range has wrapped: the flag, and the base brought back (R367). -/
def wrapCheck (n : Nat) (d : Dev) : Dev :=
  let p := d.posInt n
  if p < -(2 ^ 39 : Int) ∨ (2 ^ 39 : Int) ≤ p then
    unverified n ((d.modFb n fun f => { f with base := f.base + ((BitVec.ofInt 40 p).toInt - p) }).stick Fl.fbStatusWrap n)
  else d

/-- Steps are added to the counter. -/
def addSteps (n : Nat) (k : Int) (d : Dev) : Dev := wrapCheck n (d.modFb n fun f => { f with steps := f.steps + k })

/-- An instant `off` hub clocks into the present tick, on the 20 ns grid of the samples (R362). -/
def sampleAt (d : Dev) (off : Nat) : Nat := (d.time.start + off) / 8 * 8

/-- A counted edge is stamped: edges of one direction are kept, at most sixteen; the second one makes the speed valid; an
opposite edge starts anew (R372, R373). SLS channel 1 sees it (R451). -/
def stamp (n : Nat) (dir : Int) (t : Nat) (d : Dev) : Dev :=
  (watchEdge n dir t d).modFb n fun f =>
    if f.dir = dir then { f with stamps := (t :: f.stamps).take 16, quiet := 0, valid := f.valid || !f.stamps.isEmpty }
    else { f with stamps := [t], quiet := 0, dir := dir }

/-! ## Encoder (R365, R366) -/

/-- Direction of a change of one channel of the two-bit state (R365), before INV. -/
def quadDir (a b a' b' : Bool) : Int :=
  if a ≠ a' then (if a' ≠ b then 1 else -1)
  else if b ≠ b' then (if b' = a then 1 else -1)
  else 0

/-- The direction of FB_CFG.INV. -/
def invDir (d : Dev) (n : Nat) (k : Int) : Int := if d.on Fl.fbCfgInv n then -k else k

/-- Qualified levels of A and B in encoder mode. -/
def encoderEdge (n : Nat) (a b : Bool) (t : Nat) (d : Dev) : Dev :=
  let f := (d.mva n).fb
  if a ≠ f.fa ∧ b ≠ f.fb then
    (unverified n ((d.stick Fl.fbStatusQerr n).bump Fl.fbStatusQerrCnt n 1)).raise1 .encQerr n 0 (n / 8)
  else
    let k := d.invDir n (quadDir f.fa f.fb a b)
    if k = 0 then d else stamp n k t (addSteps n k d)

/-! ## Hall (R368) -/

/-- Sector of a Hall state, if it is a valid one. -/
def hallSector (d : Dev) (n : Nat) (s : Nat) : Option Nat :=
  if s = 0 ∨ s = 7 then none else some (bits (BitVec.ofNat 32 (d.cfg Fl.hallMapMap n)) (3 * s - 3) 3)

/-- Qualified levels in Hall mode; the angle is held where a step is not one of one sector. -/
def hallEdge (n : Nat) (h1 h2 h3 : Bool) (t : Nat) (d : Dev) : Dev :=
  let s := (if h1 then 1 else 0) + (if h2 then 2 else 0) + (if h3 then 4 else 0)
  let f := (d.mva n).fb
  match d.hallSector n s with
  | none =>
    (unverified n ((d.modFb n fun f => { f with sector := none }).stick Fl.fbStatusHallIllegal n)).raise1 .hallFault n 0 (n / 8)
  | some c =>
    match f.sector with
    | none => d.modFb n fun f => { f with sector := some c, angled := c }
    | some o =>
      let d := d.modFb n fun f => { f with sector := some c, angled := if c = (o + 1) % 6 ∨ o = (c + 1) % 6 then c else f.angled }
      if c = (o + 1) % 6 then
        let k := d.invDir n 1
        stamp n k t (addSteps n k d)
      else if o = (c + 1) % 6 then
        let k := d.invDir n (-1)
        stamp n k t (addSteps n k d)
      else if c = o then d
      else (unverified n (d.stick Fl.fbStatusHallSkip n)).raise1 .hallFault n 0 (n / 8)

/-! ## Index (R369, R370) -/

/-- The counter in whole counts. -/
def wholeCount (d : Dev) (n : Nat) : Int := (d.counter n).toInt / 256

/-- An index latch in encoder mode with ZEN = 1: the reference, or the drift check. -/
def indexTake (n : Nat) (d : Dev) : Dev :=
  let z := d.wholeCount n
  let d := (d.setHw Fl.fbZlatchZpos n (BitVec.ofInt 32 z).toNat).stick Fl.fbStatusZseen n
  match (d.mva n).fb.zref with
  | none => d.modFb n fun f => { f with zref := some z }
  | some r =>
    let cpr : Int := d.cfg Fl.fbZcfgCpr n
    if cpr = 0 then d
    else
      let e := (z - r) % cpr
      let e := if cpr < 2 * e then e - cpr else e
      let d := d.setHw Fl.fbStatusZdev n (BitVec.ofInt 8 (max (-127) (min 127 e))).toNat
      if d.cfg Fl.fbZcfgZtol n < e.natAbs then
        (unverified n (d.stick Fl.fbStatusZdrift n)).raise1 .encDrift n 0 (n / 8)
      else d

/-- The levels of the Hall sensors in Hall mode are taken as they are: the present sector, and its centre as the angle (R368, R374). -/
def takeSector (n : Nat) (d : Dev) : Dev :=
  d.modFb n fun f =>
    let s := if d.fbMode n = 1 then d.hallSector n ((if f.fa then 1 else 0) + (if f.fb then 2 else 0) + if f.fz then 4 else 0) else none
    { f with sector := s, angled := s.getD f.angled }

/-- A rising edge of FZ. -/
def indexEdge (n : Nat) (d : Dev) : Dev := if d.fbMode n = 0 && d.on Fl.fbCfgZen n then indexTake n d else d

/-! ## Qualified edges (R362, R374) -/

/-- A qualified edge during an OFFTEST disturbs it (R319). -/
def disturb (n : Nat) (edge : Bool) (d : Dev) : Dev :=
  if edge && (d.mva n).offt == some true then d.modMva n fun x => { x with offtDist := true } else d

/-- The instant at which a level that `held` consecutive samples up to `off` have shown is qualified: it needs N of them, counted from
a change of the filter on (R362, R374); none: the change is too short so far. -/
def qualified (d : Dev) (N since held off : Nat) : Option Nat :=
  let t := d.sampleAt off
  let n := max 1 N
  let seen := min held ((t - since) / 8 + 1)
  if seen < n then none else some (t - 8 * (seen - n))

/-- The same for FA, FB and FZ, and for SWA and SWB. -/
def qualFb (d : Dev) (n held off : Nat) : Option Nat := d.qualified (d.cfg Fl.fbCfgFilt n) (d.mva n).fb.filtAt held off
def qualSw (d : Dev) (n held off : Nat) : Option Nat := d.qualified (d.cfg Fl.fbCfgSwfilt n) (d.mva n).fb.swAt held off

/-- The filtered levels of FA, FB and FZ after a change qualified at t; the first levels after the domain returns are taken as they are. -/
def feedback (n : Nat) (fa fb fz : Bool) (t : Nat) (d : Dev) : Dev :=
  if !d.mvOn (n / 8) then d
  else
    let f := (d.mva n).fb
    let lv := (if fa then 1 else 0) + (if fb then 2 else 0) + if fz then 4 else 0
    let set := fun (d : Dev) =>
      (d.modFb n fun f => { f with init := true, fa := fa, fb := fb, fz := fz }).setHw Fl.fbStatusLevel n lv
    if !f.init then takeSector n (set d)
    else
      let d := match d.fbMode n with
        | 0 => encoderEdge n fa fb t d
        | 1 => if fa = f.fa ∧ fb = f.fb ∧ fz = f.fz then d else hallEdge n fa fb fz t d
        | _ => d
      let d := disturb n (fa ≠ f.fa || fb ≠ f.fb || fz ≠ f.fz) (set d)
      if fz && !f.fz then indexEdge n d else d

/-- A rising edge of FZ alone, qualified at t, in encoder mode. -/
def index (n t : Nat) (d : Dev) : Dev :=
  let f := (d.mva n).fb
  if d.fbMode n = 0 then feedback n f.fa f.fb true t d else d

/-! ## Switches (R141, R371) -/

/-- An edge is one that SW_CFG selects. -/
def edgeOn (sel : Nat) (level : Bool) : Bool := if level then sel % 2 = 1 else decide (2 ≤ sel)

/-- The filtered level of SWA changes. -/
def switchA (n : Nat) (level : Bool) (d : Dev) : Dev :=
  let f := (d.mva n).fb
  let p := d.counter n
  let take := level ≠ f.swa && f.swaIn && edgeOn (d.cfg Fl.swCfgEdgeA n) level && !(d.on Fl.swCfgOnceA n && f.swaOff)
  d.modFb n fun f =>
    { f with swa := level, swaIn := true
             swaPos := if take then p else f.swaPos, swaCnt := if take then f.swaCnt + 1 else f.swaCnt
             swaOff := f.swaOff || take }

/-- The filtered level of SWB changes. -/
def switchB (n : Nat) (level : Bool) (d : Dev) : Dev :=
  let f := (d.mva n).fb
  let p := d.counter n
  let take := level ≠ f.swb && f.swbIn && edgeOn (d.cfg Fl.swCfgEdgeB n) level && !(d.on Fl.swCfgOnceB n && f.swbOff)
  d.modFb n fun f =>
    { f with swb := level, swbIn := true
             swbPos := if take then p else f.swbPos, swbCnt := if take then f.swbCnt + 1 else f.swbCnt
             swbOff := f.swbOff || take }

/-- A switch changes its filtered level. -/
def switch (n : Nat) (swb level : Bool) (d : Dev) : Dev :=
  if !d.mvOn (n / 8) then d
  else
    let d := if swb then switchB n level d else switchA n level d
    let f := (d.mva n).fb
    d.setHw Fl.fbStatusSwlevel n ((if f.swa then 1 else 0) + if f.swb then 2 else 0)

/-! ## Speed (R229, R372, R373) -/

/-- The instant of the boundary that ends the present tick. -/
def nextBoundary (d : Dev) : Nat := d.time.start + d.tickLen

/-- No edge for FB_SPD.TMO ticks (0 acts as 1): the first boundary that has passed since the last edge ends the edge's own interval (R363). -/
def stillDue (d : Dev) (n : Nat) : Bool := decide (max 1 (d.cfg Fl.fbSpdTmo n) < (d.mva n).fb.quiet)

/-- Standstill of the edges: the stamps go, the speed is not valid. -/
def speedStill (n : Nat) (d : Dev) : Dev :=
  if d.stillDue n then
    let d := d.modFb n fun f => { f with stamps := [], valid := false, dir := 0 }
    d.modMva n fun x =>
      if x.drive = .catching then x else { x with sl := { x.sl with count := 0, iv1 := 0, iv2 := 0, cvalid := false } }
  else d

/-- The edge-period estimate at the boundary b (R372): e is num/6 counts. An edge at the boundary that begins the window belongs to the interval
before (R363). -/
def edgeSpeed (d : Dev) (n : Nat) (b : Nat) : Speed :=
  let f := (d.mva n).fb
  let num : Int := if d.fbMode n = 1 then d.cfg Fl.elecCfgCpe n else 6
  let win := max 1 (d.cfg Fl.fbSpdWin n) * d.tickLen
  let inWin := f.stamps.filter fun t => decide (b < t + win)
  let use := if inWin.length < 2 then f.stamps.take 2 else inWin
  match use, f.stamps with
  | t :: rest, _ :: t' :: _ =>
    let first := rest.getLastD t
    let tau := b - t
    let v : Int := if t - t' < tau then quot (num * d.tickLen * 65536) (6 * tau)
      else quot (rest.length * num * d.tickLen * 65536) (6 * (t - first))
    BitVec.ofInt 32 (f.dir * v)
  | _, _ => 0

end Sys2Proof.Machine.Dev

namespace Sys2Proof.Machine

/-- FEEDBACK_EDGE (R362 to R368). -/
def execFeedbackEdge (ax : Fin 64) (fa fb fz : Bool) (h : Held) (s : State) : Host.Outcome State Fault Refusal :=
  s.onDev fun d => match d.qualFb ax h.held h.off with
    | some t => Dev.feedback ax fa fb fz t d
    | none => d

/-- INDEX_LATCH (R362, R369, R370). -/
def execIndexLatch (e : AxisHeld) (s : State) : Host.Outcome State Fault Refusal :=
  s.onDev fun d => match d.qualFb e.ax e.held e.off with
    | some t => Dev.index e.ax t d
    | none => d

/-- SWITCH_LATCH (R141, R362, R371). -/
def execSwitchLatch (ax : Fin 64) (swb : Bool) (e : LevelHeld) (s : State) : Host.Outcome State Fault Refusal :=
  s.onDev fun d => if (d.qualSw ax e.held e.off).isSome then Dev.switch ax swb e.level d else d

/-- SPEED_TIMEOUT (R373): the movement counts the ticks; the command acts once TMO ticks have passed without an edge. -/
def execSpeedTimeout (ax : Fin 64) (s : State) : Host.Outcome State Fault Refusal := s.onDev (Dev.speedStill ax)

end Sys2Proof.Machine
end

