-- ==== Sys2Proof/Machine/Vector.lean ====
section
/-! DEFINITION. Vector.lean: exact arithmetic of angles and vectors: rounding that the spec leaves open, sine, square root, the
transforms between phases and rotating coordinates, min-max injection (R174, R176, R178, R215, R224, R285). -/

namespace Sys2Proof.Machine

/-- n / d as a whole number; which way an inexact quotient goes is left open (log entry 140). -/
def rnd (n : Int) (d : Nat) : Int := n / d + if n % d ≠ 0 ∧ Config.roundUp n d then 1 else 0

/-- The terms of a sine after x, by x² and the number of the term, with 40 fraction bits. -/
def sinTerms (x2 : Int) : Nat → Nat → Int → Int
  | 0, _, _ => 0
  | n + 1, k, t =>
    let t' := -(t * x2 / 2 ^ 40) / ((2 * k) * (2 * k + 1) : Nat)
    t' + sinTerms x2 n (k + 1) t'

/-- The sine of an angle of the first quadrant (0 to 16,384), times 2^30. -/
def sinQuad (a : Nat) : Int :=
  let x : Int := a * 105414357 + a * 4469 / 67124
  if a = 16384 then 2 ^ 30 else (x + sinTerms (x * x / 2 ^ 40) 8 1 x) / 2 ^ 10

/-- The sine of an angle, times 2^30. -/
def sin30 (a : BitVec 16) : Int :=
  let r := a.toNat % 16384
  match a.toNat / 16384 with
  | 0 => sinQuad r
  | 1 => sinQuad (16384 - r)
  | 2 => -sinQuad r
  | _ => -sinQuad (16384 - r)

/-- The cosine. -/
def cos30 (a : BitVec 16) : Int := sin30 (a + 16384)

/-- The bits of a square root, from bit k - 1 down. -/
def sqrtBits (n : Nat) : Nat → Nat → Nat
  | 0, r => r
  | k + 1, r => sqrtBits n k (if (r + 2 ^ k) * (r + 2 ^ k) ≤ n then r + 2 ^ k else r)

/-- Half the square root of n, below 2^24. -/
def halfSqrt (n : Nat) : Nat :=
  let r := sqrtBits (n / 4) 24 0
  r + if 4 * r * r ≠ n ∧ Config.roundUp n 4 then 1 else 0

/-- 2^30 / √3 and 2^30 · √3. -/
abbrev rec3 : Int := 619925131
abbrev root3 : Int := 1859775393

/-- Phase currents in the rotating frame of an angle: d and q, by amplitude, d along phase U at angle 0 (R174, R249; log entry 141). -/
def parkD (u v w : Int) (a : BitVec 16) : Int :=
  rnd ((2 * u - v - w) * cos30 a * 2 ^ 30 + 3 * (v - w) * rec3 * sin30 a) (3 * 2 ^ 60)
def parkQ (u v w : Int) (a : BitVec 16) : Int :=
  rnd (-(2 * u - v - w) * sin30 a * 2 ^ 30 + 3 * (v - w) * rec3 * cos30 a) (3 * 2 ^ 60)

/-- Phase voltages of a vector in modulation units at an angle, times 2^61. -/
def phaseVolts (vd vq : Int) (a : BitVec 16) : Int × Int × Int :=
  let x := vd * cos30 a - vq * sin30 a
  let y := vd * sin30 a + vq * cos30 a
  (2 * x * 2 ^ 30, -x * 2 ^ 30 + y * root3, -x * 2 ^ 30 - y * root3)

/-- A duty fraction of 24 bits, limited to its range. -/
def duty24 (x : Int) : BitVec 24 := BitVec.ofInt 24 (max 0 (min (2 ^ 24 - 1) x))

/-- The duties of a vector by min-max injection: the largest and the smallest lie symmetrically about 50 % (R178). -/
def vectorDuty (vd vq : Int) (a : BitVec 16) : Duty :=
  let (u, v, w) := phaseVolts vd vq a
  let mid := max u (max v w) + min u (min v w)
  let f (x : Int) : BitVec 24 := duty24 (2 ^ 23 + rnd ((2 * x - mid) * rec3) (2 ^ 83))
  { u := f u, v := f v, w := f w }

/-- The vector under a limit given in half modulation units, and whether it was limited: Vd is kept and Vq reduced; where Vd alone is
beyond, it is limited and Vq is 0 (R178). -/
def limitVector (vl vd vq : Int) : (Int × Int) × Bool :=
  if 4 * (vd * vd + vq * vq) ≤ vl * vl then ((vd, vq), false)
  else if vl < 2 * (vd.natAbs : Int) then ((max (-(vl / 2)) (min (vl / 2) vd), 0), true)
  else ((vd, sgn vq * halfSqrt (vl * vl - 4 * vd * vd).toNat), true)

/-- The logical phase at the pins of a phase, and the pins of a logical phase, under PWM_OVR.SWAP (R285). -/
def Dev.swapped (d : Dev) (n ph : Nat) : Nat :=
  match d.cfg Fl.pwmOvrSwap n with
  | 1 => if ph = 0 then 1 else if ph = 1 then 0 else ph
  | 2 => if ph = 1 then 2 else if ph = 2 then 1 else ph
  | 3 => if ph = 0 then 2 else if ph = 2 then 0 else ph
  | _ => ph

end Sys2Proof.Machine
end

