-- ==== Sys2Proof/Machine/Sensorless.lean ====
section
/-! DEFINITION. Sensorless.lean: start sequence, catch, rotor loss (chapter 7): the movement's changes of phase, the hub's part in
phases 1 and 2, START and CATCH. -/

namespace Sys2Proof.Machine

/-- SL_STATUS.PHASE (R213). -/
abbrev phNone : BitVec 4 := 0
abbrev phCatch : BitVec 4 := 1
abbrev phCatchBrake : BitVec 4 := 2
abbrev phAlign : BitVec 4 := 3
abbrev phRamp : BitVec 4 := 4
abbrev phRetry : BitVec 4 := 5
abbrev phObserver : BitVec 4 := 6
abbrev phForced : BitVec 4 := 7
abbrev phResync : BitVec 4 := 8
abbrev phCoast : BitVec 4 := 9
abbrev phHold : BitVec 4 := 10

/-- A difference of angles, wrapped to ±180° (R217). -/
def angleDiff (a b : BitVec 16) : Int := (a - b).toInt

namespace Dev

/-! ## Speed (R227, R229) -/

/-- Counts per electrical period. -/
def cpe (d : Dev) (n : Nat) : Nat := max 1 (d.cfg Fl.elecCfgCpe n)

/-- The direction of the profile, which its setpoint carries also at speed 0. -/
def spDir (d : Dev) (n : Nat) : Int :=
  let s := (d.mva n).sp
  if s.speed.toInt < 0 then -1 else if s.speed.toInt = 0 && s.back then -1 else 1

/-- The speed of two intervals, or of one, in one order (R227, R229). -/
def crossSpeed (d : Dev) (n : Nat) : Speed :=
  let s := (d.mva n).sl
  let num : Int := (d.cpe n : Int) * d.tickLen * 65536
  if s.count < 2 ∨ s.iv1 = 0 then 0
  else if s.iv2 = 0 then BitVec.ofInt 32 (s.order * quot num (6 * max 1 s.iv1))
  else BitVec.ofInt 32 (s.order * quot (num * 2) (6 * (s.iv1 + s.iv2)))

/-- The speed that a sensorless axis reports, whether it is valid, and whether it is an estimate (R229): after a change of direction of
its crossings the flags stay; a short holds the last speed from before it until its first probe (R193). -/
def slSpeed (d : Dev) (n : Nat) : Speed × Bool × Bool :=
  let x := d.mva n
  if x.sl.phase = phAlign then (0, false, true)
  else if x.sl.phase = phRamp || x.sl.phase = phForced then (x.sp.speed, true, true)
  else if x.sl.phase = phObserver then (x.sl.obsV, true, false)
  else if x.drive = .brake then (x.sl.probe.getD 0, x.sl.probe.isSome, true)
  else if x.sl.phase = phCatch || x.sl.phase = phResync || x.sl.phase = phCoast then
    (d.crossSpeed n, x.sl.cvalid, x.sl.cvalid)
  else (0, false, false)

/-! ## Drive of an axis in its movement (R182) -/

/-- PWM periods per side of a winding short (R191; 0 acts as 1). -/
def altPeriods (d : Dev) (n : Nat) : Nat := max 1 (d.cfg Fl.driveCfgAlt n)

/-- The axis takes a drive state: FIELD and OPENLOOP start their integrators from 0 (R186, R196, R217; log entry 142), a short begins on
the low side with the period to come (R191) and holds the filtered Iq (R192); only FLOAT with opt = 1 turns X off (R188). -/
def setDrive (n : Nat) (k : Drive) (d : Dev) : Dev :=
  if (d.mva n).drive = k then d
  else
    let short := k == .brake || k == .orphanBrake
    let v := d.slSpeed n
    let d := d.modMva n fun x =>
      { x with drive := k, pre := false, xOff := false
               sl := if k = .brake then { x.sl with probe := if v.2.1 then some v.1 else none } else x.sl
               probeIn := max 1 (d.cfg Fl.revCfgProbe n)
               foc := if k = .field ∨ k = .openloop then { x.foc with intD := 0, intQ := 0, intS := 0 } else x.foc
               legs := { x.legs with high := if short then false else x.legs.high, probe := 0
                                     left := if short then d.altPeriods n + 1 else 0, wphase := none, wleft := 0 } }
    d.setFlag Fl.axisStatusIqHeld n short

/-- Change of the sequence state. -/
def modSl (d : Dev) (n : Nat) (f : Sl → Sl) : Dev := d.modMva n fun x => { x with sl := f x.sl }
/-- Change of the legs. -/
def modLegs (d : Dev) (n : Nat) (f : Legs → Legs) : Dev := d.modMva n fun x => { x with legs := f x.legs }

/-- The electrical angle that the position count implies (R176, R214). -/
def countAngle (d : Dev) (n : Nat) : BitVec 16 :=
  let c : Int := (d.counter n).toInt % (256 * d.cpe n : Nat)
  BitVec.ofInt 16 (rnd (c * 256) (d.cpe n)) + BitVec.ofNat 16 (d.cfg Fl.elecCfgOffset n)

/-- The electrical angle that a speed covers in a time given in hub clocks. -/
def advance16 (d : Dev) (n : Nat) (v : Int) (t : Nat) : Int := rnd (v * t) (d.tickLen * d.cpe n)

/-- A correction of the position count by a difference of angles, in 1/256 count (R217). -/
def angleCounts (d : Dev) (n : Nat) (a : Int) : Int := rnd (a * d.cpe n) 256

/-- The instant of the start of period i of a movement's tick, in hub clocks: a movement clock is 8/5 of one (R18, R269). -/
def periodAt (d : Dev) (m i : Nat) : Nat :=
  let x := d.mv m
  x.start + mvClocks x.rate * i / max 1 (d.cfg Fl.pwmMvcfgK m) * 8 / 5

/-- The present instant of a movement: that of its PWM period, or of its tick boundary. -/
def mvNow (d : Dev) (m : Nat) : Nat := d.periodAt m ((d.mv m).period - 1)

/-- ANGLE_KNOWN is lost, and the position with it (R212, R218, R225, R234). -/
def loseAngle (n : Nat) (d : Dev) : Dev := unverified n (d.modSl n fun s => { s with known := false })

/-- VHAND (0 acts as 1 LSB, R237). -/
def vhand (d : Dev) (n : Nat) : Nat := max 1 (d.cfg Fl.slHandVhand n)
/-- ZCCOUNT (0 acts as 1). -/
def zccount (d : Dev) (n : Nat) : Nat := max 1 (d.cfg Fl.slHandZccount n)
/-- CATCHWINDOW (0 acts as 1). -/
def catchWindow (d : Dev) (n : Nat) : Nat := max 1 (d.cfg Fl.slSyncCatchwindow n)
/-- VLOW, at most VHAND (R222). -/
def vlow (d : Dev) (n : Nat) : Nat := min (d.cfg Fl.slObsCfgVlow n) (d.vhand n)

/-! ## Phases (R213) -/

/-- The axis enters CATCH, or RESYNC. -/
def toCatch (n : Nat) (ph : BitVec 4) (d : Dev) : Dev :=
  (setDrive n .catching d).modSl n fun s =>
    { s with phase := ph, left := d.catchWindow n, last := none, order := 0, count := 0, crossN := 0, cvalid := false, next := none,
             slow := false, probe := none }

/-- The axis enters ALIGN at the known angle, or at the one that its count implies (R214). -/
def toAlign (n : Nat) (d : Dev) : Dev :=
  let a := d.countAngle n
  let p := d.posInt n
  (setDrive n .openloop d).modSl n fun s =>
    { s with phase := phAlign, left := max 1 (d.cfg Fl.slAlignAlignTicks n), done := 0, slow := false
             theta := if s.known then s.angle else a, angle := if s.known then s.angle else a, ref := p }

/-- The axis enters RAMP: forced six-step from the present angle and position (R215). -/
def toRamp (n : Nat) (d : Dev) : Dev :=
  let p := d.posInt n
  let t := d.mvNow (n / 8)
  (setDrive n .openloop d).modSl n fun s =>
    { s with phase := phRamp, theta := s.angle, ref := p, cbase := p, angAt := t, comm := t, good := 0, begun := 0, counts := false, secGood := false, next := none }

/-- The axis short-brakes before an alignment. -/
def toBrake (n : Nat) (ph : BitVec 4) (d : Dev) : Dev :=
  (setDrive n .brake d).modSl n fun s => { s with phase := ph, left := d.catchWindow n, slow := false, next := none }

/-- The sequence ends, with what the hub is told. -/
def endSeq (n : Nat) (k : Drive) (ph : BitVec 4) (e : SeqEnd) (d : Dev) : Dev :=
  (setDrive n k d).modSl n fun s => { s with phase := ph, req := none, stopping := false, next := none, ending := some e }

/-- The axis is handed to the observer (R217, R225, R228): the angle of the last crossing, advanced at the speed since then; from a
forced angle the position count is corrected by the difference. -/
def toObserver (n : Nat) (v : Speed) (forced caught : Bool) (d : Dev) : Dev :=
  let s := (d.mva n).sl
  let a : BitVec 16 := s.crossA + BitVec.ofInt 16 (d.advance16 n v.toInt (d.mvNow (n / 8) - s.crossAt))
  let corr := d.angleCounts n (angleDiff a s.angle)
  let d := setCounter n (d.posInt n + if forced then corr else 0) d
  let catchOnly := ((d.mva n).sl.req.map (·.catchOnly)).getD false
  (setDrive n .field d).modSl n fun s =>
    { s with phase := phObserver, known := true, obsA := a, obsV := v, obsAt := d.mvNow (n / 8), angle := a, lossRun := 0, band := 0, next := none
             catchTry := if forced then 0 else s.catchTry, caught := s.caught || caught, req := none, stopping := false
             ending := if s.req.isSome then some (if catchOnly then .caught else .handover) else s.ending }

/-- A start attempt has failed (R218); after the last one the axis keeps the short, and the sequence has ended (R219). -/
def startFailed (n : Nat) (d : Dev) : Dev :=
  let last := decide (d.cfg Fl.slHandStartretry n ≤ (d.mva n).sl.attempt)
  let d := toBrake n phRetry ((loseAngle n d).stick Fl.slStatusStartRetried n)
  d.modSl n fun s => { s with attempt := s.attempt + 1, req := if last then none else s.req
                              stopping := s.stopping && !last, ending := if last then some .failed else s.ending }

/-- The axis coasts without drive (R226): its speed is that of the crossings of the catch before, if there has been one. -/
def toCoast (n : Nat) (d : Dev) : Dev :=
  (setDrive n .float d).modSl n fun s =>
    let keep := s.phase == phResync
    { s with phase := phCoast, next := none, last := if keep then s.last else none, order := if keep then s.order else 0
             count := if keep then s.count else 0, cvalid := keep && s.cvalid }

/-- A rotor loss (R225). -/
def rotorLost (n : Nat) (d : Dev) : Dev :=
  let d := (loseAngle n d).stick Fl.slStatusLossSeen n
  let d := d.modFb n fun f => { f with quiet := 0 }
  if d.cfg Fl.slLossCatchtries n = 0 then toCoast n d
  else toCatch n phResync (d.modSl n fun s => { s with catchTry := 1, lossRun := 0, iv1 := 0, iv2 := 0 })

/-! ## Crossings (R216, R227) -/

/-- The angle of a crossing: U at 0° and 180°, V at 120° and 300°, W at 240° and 60° (R223). -/
def crossAngle (p : Fin 3) (half : Bool) : BitVec 16 :=
  BitVec.ofInt 16 (rnd (65536 * p.val) 3) + if half then 32768 else 0

/-- A crossing of angle a at t joins the sequence, or restarts it; in CATCH and RESYNC one in order moves the count by CPE / 6 (R227), so
that the sum of the moves is exact to 1/256 count; in a coast or a probe the count stays (R143). -/
def countCrossing (n : Nat) (p : Fin 3) (a : BitVec 16) (t : Nat) (d : Dev) : Dev :=
  let s := (d.mva n).sl
  let iv := t - s.crossAt
  let dir := match s.last with
    | none => 0
    | some a => crossDir a p
  let d := d.modFb n fun f => { f with quiet := 0 }
  if dir = 0 ∨ (s.order ≠ 0 ∧ s.order ≠ dir) then
    d.modSl n fun s => { s with last := some p, order := 0, count := 1, iv1 := 0, iv2 := 0, crossAt := t, crossA := a }
  else
    let at_ (k : Int) : Int := quot (k * (d.cpe n : Int) * 256) 6
    let counts := s.phase == phCatch || s.phase == phResync
    let moved := if counts then at_ (s.crossN + dir) - at_ s.crossN else 0
    (wrapCheck n (setCounter n (d.posInt n + moved) d)).modSl n fun s =>
      { s with last := some p, order := dir, count := s.count + 1, iv1 := iv, iv2 := s.iv1, crossAt := t, crossA := a
               cvalid := true, crossN := if counts then s.crossN + dir else s.crossN }

/-- A rotation found before a start or by CATCH (R228, R231, R233). -/
def catchFound (n : Nat) (d : Dev) : Dev :=
  let s := (d.mva n).sl
  let v := d.crossSpeed n
  let mag := v.toInt.natAbs
  let fastEnough := decide (d.cfg Fl.slCatchVcatch n ≤ mag)
  let thr := decide (d.thresh n ≤ mag)
  match s.req with
  | none => d
  | some r =>
    if r.alignOnly then
      if thr then (if s.stopping then toBrake n phCatchBrake d else endSeq n .float phNone .turning d) else d.modSl n fun s => { s with slow := true }
    else if r.catchOnly then
      if fastEnough then toObserver n v false true d
      else if r.brakeSlow ∨ s.stopping then toBrake n phCatchBrake d else endSeq n .float phNone .floated d
    else if s.order = r.dir ∧ fastEnough then toObserver n v false true d
    else if s.stopping then toBrake n phCatchBrake d
    else if s.order = r.dir ∧ thr then toBrake n phCatchBrake d
    else if s.order ≠ r.dir ∧ thr then
      if d.brakeReverse n then toBrake n phCatchBrake (d.setHw Fl.axisStatusRevBraking n 1)
      else endSeq n .float phNone .refused d
    else d.modSl n fun s => { s with slow := true }

/-- A rotation found in RESYNC: in the direction of the action and fast enough, the axis resynchronises (R225). -/
def resyncFound (n : Nat) (d : Dev) : Dev :=
  let v := d.crossSpeed n
  if (d.mva n).sl.order = d.spDir n ∧ d.cfg Fl.slCatchVcatch n ≤ v.toInt.natAbs then toObserver n v false true d else d

/-- A step that has waited for the PWM boundary takes place (R213, R217, R218, R225, R228). -/
def slBoundary (n : Nat) (d : Dev) : Dev :=
  let x := d.mva n
  let d := d.modSl n fun s => { s with next := none }
  match x.sl.next with
  | some .sync =>
    if x.sl.phase = phRamp then toObserver n x.sp.speed true false d
    else if x.sl.phase = phCatch then catchFound n d
    else if x.sl.phase = phResync then resyncFound n d
    else d
  | some .fail => if x.sl.phase = phRamp then startFailed n d else d
  | some .lost => rotorLost n d
  | none => d

/-- The windings of a sensorless axis are open, so that its comparators see its rotation (R143, R212). -/
def undriven (k : Drive) : Bool :=
  match k with
  | .off | .catching | .float | .sto | .orphanSto | .halt => true
  | _ => false

/-- 60° sector of an angle. -/
def sectorOf (a : BitVec 16) : Nat := a.toNat * 6 / 65536

/-- The sector of the forced angle in RAMP: its commutations lie at multiples of 60° from the alignment angle (R215; log entry 21). -/
def rampSector (s : Sl) : Nat := sectorOf (s.angle - s.theta)

/-- The crossing that lies nearest to the sector's centre, by its angle in 60°: an even number is U, W, V at 0°, 240°, 120°, an odd one at
180°, 60°, 300° (R216, R223). -/
def rampCross (s : Sl) : Nat := (sectorOf s.theta + rampSector s + 1) % 6

/-- The phase that a crossing by its angle in 60° belongs to. -/
def crossPhase (j : Nat) : Fin 3 := if j % 3 = 0 then 0 else if j % 3 = 1 then 2 else 1

/-- SYNCWIN: 0 acts as 1, values above 30 as 30 (R238). -/
def syncwin (d : Dev) (n : Nat) : Nat := max 1 (min 30 (d.cfg Fl.slSyncSyncwin n))

/-- A crossing at t lies within SYNCWIN of the centre of the sector, by the forced angle at t (R216). -/
def inSyncwin (d : Dev) (n : Nat) (t : Nat) : Bool :=
  let s := (d.mva n).sl
  let T : Nat := d.tickLen * d.cpe n
  let off : Int := 12 * (s.angle - s.theta).toNat - (2 * rampSector s + 1) * 65536
  decide (((off * T + 12 * (d.mva n).sp.speed.toInt * ((t : Int) - s.angAt)).natAbs) * 360 ≤ 12 * d.syncwin n * 65536 * T)

/-- A crossing in RAMP (R216): it makes its sector good where it is the floating phase's, in its polarity, at least 2.0 µs after the
commutation and in the window; the crossing that completes ZCCOUNT good sectors synchronises the axis. -/
def rampCrossing (n : Nat) (p : Fin 3) (half : Bool) (t : Nat) (d : Dev) : Dev :=
  let s := (d.mva n).sl
  let j := rampCross s
  if !s.counts || s.secGood || crossPhase j ≠ p || decide (j % 2 = 1) ≠ half || decide (t < s.comm + 800) || !d.inSyncwin n t then d
  else
    let d := d.modSl n fun s => { s with good := s.good + 1, secGood := true, crossAt := t, crossA := crossAngle p half }
    if d.zccount n ≤ s.good + 1 then d.modSl n fun s => { s with next := some .sync } else d

/-- The phases float for a brake probe (R193). -/
def probing (x : MvAxis) : Bool := x.drive == .brake && (x.legs.probe == 1 || x.legs.probe == 2)

/-- In CATCH and RESYNC a transition lies beyond the hysteresis, half of it on each side of the virtual star (R227; log entry 150). -/
def beyondHyst (d : Dev) (n swing : Nat) : Bool :=
  let s := (d.mva n).sl
  (s.phase ≠ phCatch && s.phase ≠ phResync) || decide (10 * d.cfg Fl.slCatchHyst n ≤ 2 * swing)

/-- A comparator crossing at the pins of a phase; SLS channel 2 sees that of a floating phase (R452). -/
def crossing (n : Nat) (pin : Fin 3) (half : Bool) (swing off : Nat) (d : Dev) : Dev :=
  let p : Fin 3 := Fin.ofNat 3 (d.swapped n pin)
  let t := (d.mv (n / 8)).start + off
  if !d.mvOn (n / 8) || !d.beyondHyst n swing then d
  else
  let d := if (d.mva n).legs.modes.of p = .off && !d.slsBlind n then watchCross n p t d else d
  if !d.sensorless n then d
  else
    let x := d.mva n
    let d := if undriven x.drive then (if x.sl.known then loseAngle n d else unverified n d) else d
    if x.sl.phase = phRamp then rampCrossing n p half t d
    else if probing x then countCrossing n p (crossAngle p half) t d
    else if x.sl.phase = phCatch || x.sl.phase = phResync || x.sl.phase = phCoast then
      let d := countCrossing n p (crossAngle p half) t d
      let c := (d.mva n).sl.count
      if (x.sl.phase = phCatch && c = 3) || (x.sl.phase = phResync && 3 ≤ c) then
        d.modSl n fun s => { s with next := some .sync }
      else d
    else d

/-! ## Ends at a tick boundary (R214, R218, R225, R228) -/

/-- An alignment has run its ticks. -/
def alignDue (d : Dev) (n : Nat) : Bool := (d.mva n).sl.phase == phAlign && decide ((d.mva n).sl.left = 0)

/-- The alignment ends: the angle is known; from an unknown one the position is unverified (R214, R232). -/
def alignEnd (n : Nat) (d : Dev) : Dev :=
  if !d.alignDue n then d
  else
    let s := (d.mva n).sl
    let d := if s.known then d else unverified n d
    let d := d.modSl n fun s => { s with known := true, aligned := true }
    if (s.req.map (·.alignOnly)).getD false then endSeq n .field phHold .aligned d else toRamp n d

/-- A catch window has ended, or a slow rotation has been found, which the next tick boundary ends. -/
def windowDue (d : Dev) (n : Nat) : Bool :=
  let s := (d.mva n).sl
  s.next.isNone &&
    ((s.phase == phCatch && (decide (s.left = 0) || s.slow)) || (s.phase == phResync && decide (s.left = 0)))

/-- A catch window ends without a rotation that synchronises (R225, R226, R228, R233, R234). -/
def windowEnd (n : Nat) (d : Dev) : Dev :=
  if !d.windowDue n then d
  else
    let s := (d.mva n).sl
    if s.phase = phResync then
      if s.catchTry < d.cfg Fl.slLossCatchtries n && !s.stopping then
        toCatch n phResync (d.modSl n fun s => { s with catchTry := s.catchTry + 1 })
      else toCoast n d
    else match s.req with
      | none => endSeq n .float phNone .floated d
      | some r =>
        if s.stopping then toBrake n phCatchBrake d
        else if r.catchOnly then (if r.brakeSlow then toBrake n phCatchBrake d else endSeq n .float phNone .floated d)
        else if s.known && !r.realign then toRamp n d
        else toAlign n d

/-- RETRY_BRAKE has seen no speed, or has run its window, and there is an attempt left. -/
def retryDue (d : Dev) (n : Nat) : Bool :=
  let s := (d.mva n).sl
  s.phase == phRetry && s.req.isSome && (s.slow || decide (s.left = 0))

/-- The next attempt begins with ALIGN (R218). -/
def retryEnd (n : Nat) (d : Dev) : Dev := if d.retryDue n then toAlign n d else d

/-- CATCH_BRAKE leaves at the tick boundary after a probe that is slow enough (R228, R233, R234). -/
def catchBrakeEnd (n : Nat) (d : Dev) : Dev :=
  let s := (d.mva n).sl
  if s.phase ≠ phCatchBrake ∨ !s.slow then d
  else if s.stopping ∨ (s.req.map (·.catchOnly)).getD false then endSeq n .float phNone .braked d
  else toAlign n (d.setHw Fl.axisStatusRevBraking n 0)

/-- The sequence at a tick boundary: the ticks of its phase run down. -/
def slTick (n : Nat) (d : Dev) : Dev :=
  if !d.sensorless n then d
  else
    let d := d.modSl n fun s => { s with left := s.left - 1, done := if s.phase = phAlign then s.done + 1 else s.done }
    catchBrakeEnd n (retryEnd n (windowEnd n (alignEnd n d)))

/-! ## Probes and windows (R193, R224) -/

/-- A brake probe begins at the tick boundary: it floats U, V and W for two PWM periods (R193); the crossings start anew. -/
def probeBegin (n : Nat) (d : Dev) : Dev :=
  ((d.modSl n fun s => { s with last := none, order := 0, count := 0, iv1 := 0, iv2 := 0 }).modLegs n fun l => { l with probe := 3 }).modMva n
    fun x => { x with probeIn := max 1 (d.cfg Fl.revCfgProbe n) }

/-- A brake probe ends: its speed, or none without two crossings in one order. -/
def probeEnd (n : Nat) (d : Dev) : Dev :=
  let s := (d.mva n).sl
  let v : Option Speed := if s.count < 2 then none else some (d.crossSpeed n)
  let strict := s.phase == phRetry || s.stopping || (s.req.map (·.catchOnly)).getD false
  let slow := match v with
    | none => true
    | some w => !strict && decide (w.toInt.natAbs < d.thresh n)
  (d.modSl n fun s => { s with probe := v, slow := s.slow || slow }).modLegs n fun l => { l with probe := 0 }

/-- The float of a probe runs on at a period start; two periods on it ends. -/
def probeStep (n : Nat) (d : Dev) : Dev :=
  let l := (d.mva n).legs
  if l.probe = 0 then d else if l.probe = 1 then probeEnd n d else d.modLegs n fun l => { l with probe := l.probe - 1 }

/-- SPEED_PROBE: the second period of a float ends it. -/
def probed (n : Nat) (d : Dev) : Dev :=
  if d.sensorless n && (d.mva n).drive == .brake && (d.mva n).legs.probe == 1 then probeEnd n d else d

/-- A sample of the floated phase lies between the thresholds ±Ê · sin LOSSANGLE, with Ê as it was before the window (R224, R239). -/
def inBand (d : Dev) (n : Nat) (v : Int) : Bool :=
  decide ((v.natAbs : Int) * 2 ^ 30 < (d.mva n).sl.winEmf.toNat * sin30 (BitVec.ofNat 16 (min 16384 (d.cfg Fl.slLossLossangle n))))

/-- The sample of an open float window, once per window (R224). -/
def windowSample (n : Nat) (v : Int) (d : Dev) : Dev :=
  let s := (d.mva n).sl
  if !d.sensorless n || (d.mva n).legs.wphase.isNone || s.wtaken then d
  else
    let d := d.modSl n fun s => { s with wtaken := true }
    if d.inBand n v then
      d.modSl n fun s => { s with lossRun := 0, band := s.band + 1, catchTry := if d.zccount n ≤ s.band + 1 then 0 else s.catchTry }
    else
      let run := s.lossRun + 1
      let d := (d.modSl n fun s => { s with lossRun := run, band := 0 }).bump Fl.slStatusBeyond n 1
      if max 1 (d.cfg Fl.slLossLosscount n) ≤ run then d.modSl n fun s => { s with next := some .lost } else d

/-! ## Setpoints that begin or end a sequence (R213, R234) -/

/-- A sequence begins at the tick boundary: from a FIELD hold with a known angle in RAMP, or in ALIGN where a new alignment is
asked for; else in CATCH. -/
def seqBegin (n : Nat) (r : SeqReq) (d : Dev) : Dev :=
  let x := d.mva n
  let d := d.modSl n fun s => { s with req := some r, attempt := 0, catchTry := 0, aligned := false, caught := false,
                                       stopping := false, ending := none }
  if x.drive = .field && x.sl.known && !r.catchOnly then (if r.realign then toAlign n d else toRamp n d)
  else toCatch n phCatch d

/-- A sequence ends for a command or a fault (R234): an alignment or a forced ramp loses the angle. -/
def seqDrop (n : Nat) (d : Dev) : Dev :=
  let s := (d.mva n).sl
  let d := if s.phase = phAlign ∨ s.phase = phRamp then loseAngle n d else d
  d.modSl n fun s => { s with phase := phNone, req := none, stopping := false, next := none }

/-- Phases of a sequence under way. -/
def seqRuns (ph : BitVec 4) : Bool := ph ≠ phNone && ph ≠ phHold

/-! ## The hub's part (R217 to R220, R226, R228, R231 to R233) -/

/-- A start or catch has left the axis without motion: idle, floating. -/
def seqIdle (n : Nat) (st : Status) (res : Word) (cmd : DriveCmd) (d : Dev) : Dev :=
  if (d.axis n).stop.isSome then
    d.modAxis n fun x => { x with cmd := cmd, mot := { x.mot with v := 0, wait := false, lost := false } }
  else
    let d := endMode n d
    (d.modAxis n fun x => { x with st := .idle, cmd := cmd }).endMot n st res

/-- Phase 1 takes the end of a sequence from the latch, where it raises no fault. -/
def seqEnded (n : Nat) (e : SeqEnd) (d : Dev) : Dev :=
  let x := d.axis n
  match e with
  | .handover => if x.mot.mode = .velocity then d.endMot n .ok x.lat.seqRes else d
  | .aligned => seqIdle n .ok x.lat.seqRes .field d
  | .refused => seqIdle n .reverseRefused 0 (.float false) d
  | .turning => seqIdle n .wrongState 6 (.float false) d
  | .caught =>
    if x.stop.isSome then d
    else
      let d := d.modMot n fun m => { m with mode := .velocity, wait := false, cmd := x.lat.speed.toInt, p := fine x.lat.pos,
                                            dir := if x.lat.speed.toInt < 0 then -1 else 1, v := (d.speedMag n : Int) * 256 }
      d.endMot n .ok x.lat.speed
  | .floated => seqIdle n .ok 0 (.float false) d
  | .braked => seqIdle n .ok 0 (.float false) d
  | .failed => d
  | .lost => d

/-- The action ends for a failed start or a lost rotor in phase 2; unless a reaction faults the axis it brakes to standstill and
then floats (R219, R220, R226). -/
def seqFault (n : Nat) (src : Src) (st : Status) (d : Dev) : Dev :=
  let x := d.axis n
  let rem := if x.mot.mode = .profile ∨ (x.stop.map (·.keep)).getD false then d.toGo n else 0
  let start := x.mot.mode = .velocity ∧ st = .startFailed
  let d := d.endMot n st (if start then x.lat.seqRes else countsWord rem)
  let moving := (d.axis n).st = .moving
  let d := endMode n d
  let d := d.modAxis n fun x =>
    { x with cmd := .brake, brakeHold := true, failedAt := some d.time.tick
             stop := if moving then some (match x.stop with
                 | some s => { s with immediate := true, keep := false }
                 | none => { immediate := true, decel := 0, cause := .fault, joined := [], disarm := false, keep := false })
               else x.stop }
  d.raise src n 0 presMotion

/-- Phase 2 takes the ends that raise a fault source. -/
def seqFaults (n : Nat) (d : Dev) : Dev :=
  match (d.axis n).lat.ending with
  | some .failed => seqFault n .startFail .startFailed d
  | some .lost => seqFault n .rotorLoss .rotorLost d
  | _ => d

/-! ## START (R230 to R232) -/

/-- The checks of R231 for one axis. -/
def startCheck (x : Desc) (d : Dev) (n : Nat) : Option (Status × Nat) :=
  let y := d.axis n
  let v := (x.w2).toInt
  if !d.sensorless n || d.slUnset n then some (.wrongState, 5)
  else if y.st ≠ .idle && y.st ≠ .stopped then some (.busy, 0)
  else if !y.armed then some (.notArmed, 0)
  else if d.flag Fl.motionStatusPosUnverified n && !x.opflag 1 then some (.wrongState, 0)
  else if !x.opflag 0 && (decide (v.natAbs < d.vhand n) || decide (y.set.vmax.toNat < v.natAbs) || (setFault y.set {}).isSome) then
    some (.paramRange, 2)
  else none

/-- An accepted START on one axis. -/
def startAxis (x : Desc) (a : Nat) (n : Nat) (d : Dev) : Dev :=
  let realign := x.opflag 2
  if x.opflag 0 then
    if (d.axis n).lat.known && !realign then
      ((endMode n d).modAxis n fun y => { y with st := .idle, cmd := .field }).endAct a n .ok 1
    else
      beginSeq n ⟨0, realign, true, false, false⟩ (enter n .none 0 (some a) d)
  else
    let v := (x.w2).toInt
    let d := goVelocity (some a) v n d
    d.modAxis n fun y => { y with seq := some ⟨sgn v, realign, false, false, false⟩ }

/-- An admitted START. -/
def opStart (c : Ctx) (d : Dev) : Dev :=
  let axes := d.leaves c.x.unit
  match axisFails axes (startCheck c.x d) with
  | f :: fs => c.refuseAxes (f :: fs) d
  | [] =>
    let d := c.accepted d
    let (a, d) := d.openAct c.owner c.x.unit axes
    each axes (startAxis c.x a) d

/-! ## CATCH (R233) -/

/-- Checks 1 to 3 of R231 for CATCH. -/
def catchCheck (d : Dev) (n : Nat) : Option (Status × Nat) :=
  let y := d.axis n
  if !d.sensorless n || d.slUnset n then some (.wrongState, 5)
  else if y.st ≠ .idle && y.st ≠ .stopped then some (.busy, 0)
  else if !y.armed then some (.notArmed, 0)
  else none

/-- The axis stands in a FIELD hold; a motion in OPENLOOP ends in one. -/
def fieldHold (d : Dev) (n : Nat) : Bool :=
  ((d.axis n).cmd == .field || (d.axis n).cmd == .hold || (d.axis n).cmd == .openloop) && (d.axis n).lat.known

/-- An accepted CATCH on one axis: nothing on a FIELD hold. -/
def catchAxis (x : Desc) (a : Nat) (n : Nat) (d : Dev) : Dev :=
  if d.fieldHold n then d.endAct a n .ok 0
  else beginSeq n ⟨0, false, false, true, x.opflag 0⟩ (enter n .none 0 (some a) d)

/-- An admitted CATCH. -/
def opCatch (c : Ctx) (d : Dev) : Dev :=
  let axes := d.leaves c.x.unit
  match axisFails axes d.catchCheck with
  | f :: fs => c.refuseAxes (f :: fs) d
  | [] =>
    let d := c.accepted d
    let (a, d) := d.openAct c.owner c.x.unit axes
    each axes (catchAxis c.x a) d

end Dev

/-- START. -/
def execStart (i : Fin 128) (slot : BitVec 16) (x : Desc) (s : State) : Host.Outcome State Fault Refusal :=
  s.onDev (Dev.dispatch .start i slot (withOpcode .start x) Dev.opStart)

/-- CATCH. -/
def execCatchRotor (i : Fin 128) (slot : BitVec 16) (x : Desc) (s : State) : Host.Outcome State Fault Refusal :=
  s.onDev (Dev.dispatch .catchRotor i slot (withOpcode .catchRotor x) Dev.opCatch)

/-- ALIGN_END (R214). -/
def execAlignEnd (ax : Fin 64) (s : State) : Host.Outcome State Fault Refusal := s.onDev (Dev.alignEnd ax)

/-- BEMF_CROSSING (R143, R212, R216, R227, R228, R452). -/
def execBemfCrossing (ax : Fin 64) (phase : Fin 3) (half : Bool) (x : CrossAt) (s : State) :
    Host.Outcome State Fault Refusal := s.onDev (Dev.crossing ax phase half x.swing x.off)

/-- RETRY_BRAKE_END (R218). -/
def execRetryBrakeEnd (ax : Fin 64) (s : State) : Host.Outcome State Fault Refusal := s.onDev (Dev.retryEnd ax)

/-- CATCH_WINDOW_END (R225 to R228). -/
def execCatchWindowEnd (ax : Fin 64) (s : State) : Host.Outcome State Fault Refusal := s.onDev (Dev.windowEnd ax)

/-- SPEED_PROBE (R193). -/
def execSpeedProbe (m j : Fin 8) (s : State) : Host.Outcome State Fault Refusal := s.onDev (Dev.probed (8 * m.val + j.val))

/-- FLOAT_WINDOW_SAMPLE (R224). -/
def execFloatWindowSample (ax : Fin 64) (v : Int) (s : State) : Host.Outcome State Fault Refusal :=
  s.onDev (Dev.windowSample ax v)

end Sys2Proof.Machine
end

