-- ==== Sys2Proof/Machine/Drive.lean ====
section
/-! DEFINITION. Drive.lean: ARM, DISARM, FLOAT, BRAKE and the position, speed and current loops (chapter 6). -/

namespace Sys2Proof.Machine.Dev

/-! ## ARM (R184, R185) -/

/-- PWM frequency of a movement in units of 5 kHz at a tick rate. -/
def pwm5k (d : Dev) (m : Nat) (rate : BitVec 2) : Nat := max 1 (d.cfg Fl.pwmMvcfgK m) * rate5k rate

/-- The PWM frequency is at most 100 kHz (R36, R269). -/
def kOk (d : Dev) (m : Nat) : Bool := decide (d.pwm5k m d.time.rate ≤ 20)

/-- The movement is powered for check 3 of R185 and check 2 of R317 (R313). -/
def mvPowered (d : Dev) (m : Nat) : Bool := d.mvOn m && d.flag Fl.gateMvstatusVdrvOk m

/-- The checks of R185 for one axis. -/
def armCheck (x : Desc) (d : Dev) (n : Nat) : Option (Status × Nat) :=
  let y := d.axis n
  let m := n / 8
  if y.armed then none
  else if y.st = .moving then some (.busy, 0)
  else if (d.axis n).lat.valid && decide (d.thresh n ≤ d.speedMag n) then some (.wrongState, 1)
  else if !(d.mvPowered m && d.trained m && !d.stoPin m && d.kOk m) then some (.wrongState, 2)
  else if !d.flag Fl.isenseCalStatusDone m then some (.wrongState, 3)
  else if x.opflag 0 && !d.flag Fl.offtStatusPassed n then some (.wrongState, 4)
  else if d.cfg Fl.loopCurKp n = 0 || d.cfg Fl.loopSpdKp n = 0 || (d.fbMode n = 0 && d.cfg Fl.elecCfgCpe n = 0) then
    some (.wrongState, 5)
  else none

/-- ARM on one axis: armed at once, drive PRECHARGE with the coming frame. -/
def armAxis (n : Nat) (d : Dev) : Dev :=
  if (d.axis n).armed then d
  else d.modAxis n fun y => { y with armed := true, cmd := .precharge, follow := false, mot := { y.mot with p := fine y.lat.pos, v := 0 } }

/-- An admitted ARM. -/
def opArm (c : Ctx) (d : Dev) : Dev :=
  let axes := d.leaves c.x.unit
  match axisFails axes (armCheck c.x d) with
  | f :: fs => c.refuseAxes (f :: fs) d
  | [] =>
    let was := (axes.headD 0 |> d.axis).armed
    c.okAxes (if was then 1 else 0) (each axes armAxis d)

/-! ## DISARM (R187) -/

/-- DISARM on one axis. -/
def disarmAxis (ramp : Bool) (n : Nat) (d : Dev) : Dev :=
  let y := d.axis n
  if y.st = .safe ∨ !y.armed then d
  else if y.st = .moving then
    let d := d.dropReopen n
    if ramp then
      (stop n false 0 .stop none d).modAxis n fun y => { y with stop := y.stop.map fun s => { s with disarm := true } }
    else
      ((stop n true 0 .stop none d).unarm n).modAxis n fun y =>
        { y with cmd := .off, seq := none, seqOff := true, brakeHold := false, mot := { y.mot with mode := .none, v := 0 } }
  else (d.unarm n).modAxis n fun y => { y with cmd := .off, seq := none, seqOff := true, brakeHold := false }

/-- An admitted DISARM. -/
def opDisarm (c : Ctx) (d : Dev) : Dev :=
  let axes := d.leaves c.x.unit
  c.doneWorst (axes.map fun n => (n, .ok)) (each axes (disarmAxis (c.x.opflag 0)) d)

/-! ## FLOAT and BRAKE (R188 to R190) -/

/-- What FLOAT or BRAKE answers for one axis (R189). -/
def holdStatus (brake : Bool) (d : Dev) (n : Nat) : Status :=
  let y := d.axis n
  if y.st = .safe then (if brake then .wrongState else .ok) else if !y.armed then .notArmed else .ok

/-- FLOAT or BRAKE acts on one axis. -/
def holdAxis (brake opt : Bool) (n : Nat) (d : Dev) : Dev :=
  let y := d.axis n
  let cmd : DriveCmd := if brake then .brake else .float opt
  if y.st = .safe ∨ !y.armed then d
  else if y.st = .moving then
    (stop n true 0 .stop none (d.dropReopen n)).modAxis n fun y =>
      { y with cmd := cmd, seq := none, seqOff := true, brakeHold := brake && opt,
               mot := { y.mot with mode := .none, v := 0, wait := false } }
  else if y.st = .faulted then
    -- R189: a short that is to end at standstill has one to wait for, also after the stop of the reaction.
    let again : Stop := { immediate := true, decel := 0, cause := .fault, joined := [], disarm := false, keep := false }
    d.modAxis n fun y => { y with cmd := cmd, seq := none, seqOff := true, brakeHold := brake && opt
                                  stop := if brake && opt && y.stop.isNone then some again else y.stop }
  else if brake && opt then d.modAxis n fun y => { y with cmd := d.holdCmd n, brakeHold := false }
  else d.modAxis n fun y => { y with cmd := cmd, seq := none, seqOff := true, brakeHold := false }

/-- An admitted FLOAT. -/
def opFloat (c : Ctx) (d : Dev) : Dev :=
  let axes := d.leaves c.x.unit
  c.doneWorst (axes.map fun n => (n, d.holdStatus false n)) (each axes (holdAxis false (c.x.opflag 0)) d)

/-- An admitted BRAKE. -/
def opBrake (c : Ctx) (d : Dev) : Dev :=
  let axes := d.leaves c.x.unit
  c.doneWorst (axes.map fun n => (n, d.holdStatus true n)) (each axes (holdAxis true (c.x.opflag 0)) d)

/-! ## Position and speed loops (R171, R173, R181) -/

/-- A number limited to ±m. -/
def clamp (m x : Int) : Int := max (-m) (min m x)

/-- A PI step of the speed loop (R173, R203): the output and the new integral, held while the output is at the limit. -/
def speedPi (kp ki : Nat) (lim e int_ : Int) : Int × Int :=
  let raw := quot ((kp : Int) * e * 256 + int_) (16 * 256 * 65536)
  (clamp lim raw, if (raw.natAbs : Int) < lim then int_ + ki * e else int_)

/-- The loops of one axis at the tick boundary, from its counter and its speed there. A sensorless axis runs them in OBSERVER only
(R183, R222). -/
def tickLoops (n : Nat) (speed : Speed) (d : Dev) : Dev :=
  let x := d.mva n
  if x.drive ≠ .field ∨ (d.sensorless n ∧ x.sl.phase ≠ phObserver) then d
  else
    let cmd := quot ((min 128 (d.cfg Fl.loopPosFf n) : Nat) * x.sp.speed.toInt) 128 +
      quot ((d.cfg Fl.loopPosKp n : Int) * (x.sp.pos.toInt - (d.counter n).toInt)) 256
    let kp := d.cfg Fl.loopSpdKp n
    let ki := d.cfg Fl.loopSpdKi n
    match x.sp.torque with
    | none =>
      let lim : Int := min (d.cfg Fl.loopLimitImax n) x.sp.lim.toNat
      let r := speedPi kp ki lim (cmd - speed.toInt) x.foc.intS
      d.modMva n fun x => { x with foc := { x.foc with spdCmd := cmd, iqRef := r.1, intS := r.2 } }
    | some t =>
      -- R181: the speed loop limits the commanded current, its command fixed at ±vmax.
      let lim : Int := d.cfg Fl.loopLimitImax n
      let vmax : Int := (d.axis n).set.vmax.toNat
      let sp := if t < 0 then -vmax else vmax
      let r := speedPi kp ki lim (sp - speed.toInt) x.foc.intS
      let t := clamp lim t
      let iq := if sgn r.1 = sgn t ∧ r.1.natAbs < t.natAbs then r.1 else t
      d.modMva n fun x => { x with foc := { x.foc with spdCmd := sp, iqRef := iq, intS := r.2 } }

/-! ## Current loop (R174, R176 to R179) -/

/-- The electrical angle of an axis in drive FIELD (R176): from the count; from the Hall sector, advanced by the speed since the
last edge, at most ±30°; from the observer or the forced angle. `now` is the instant in hub clocks. -/
def elecAngle (d : Dev) (n : Nat) (speed : Speed) (now : Nat) : BitVec 16 :=
  let x := d.mva n
  match d.fbMode n with
  | 0 => d.countAngle n
  | 1 =>
    let off := BitVec.ofNat 16 (d.cfg Fl.elecCfgOffset n)
    let c := BitVec.ofInt 16 (rnd ((2 * x.fb.angled + 1 : Nat) * 65536) 12)
    let since : Nat := now - x.fb.stamps.headD now
    c + off + BitVec.ofInt 16 (clamp 5461 (d.advance16 n speed.toInt since))
  | _ => if x.sl.phase = phObserver then x.sl.obsA else x.sl.angle

/-- The electrical speed with which the angle of the inverse transform is advanced (R176); a static vector stands still. -/
def elecSpeed (d : Dev) (n : Nat) (speed : Speed) : Int :=
  let x := d.mva n
  if x.drive ≠ .field then 0
  else if !d.sensorless n then speed.toInt
  else if x.sl.phase = phObserver then x.sl.obsV.toInt
  else if x.sl.phase = phForced then x.sp.speed.toInt
  else 0

/-- A current reference limited to LOOP_LIMIT.IMAX. -/
def imax (d : Dev) (n : Nat) (i : Nat) : Int := min i (d.cfg Fl.loopLimitImax n)

/-- The current of an alignment: it rises over the first quarter (R214). -/
def alignCurrent (d : Dev) (n : Nat) : Int :=
  let s := (d.mva n).sl
  let i := d.imax n (d.cfg Fl.slAlignIalign n + s.attempt * d.cfg Fl.slRampIstep n)
  let q := max 1 (d.cfg Fl.slAlignAlignTicks n)
  if 4 * s.done < q then rnd (4 * i * s.done) q else i

/-- References of d and q and whether the loop runs, by drive and phase (R171, R183, R214, R222). -/
def currentRefs (d : Dev) (n : Nat) : Option (Int × Int) :=
  let x := d.mva n
  match x.drive with
  | .field =>
    if !d.sensorless n ∨ x.sl.phase = phObserver then some (0, x.foc.iqRef)
    else if x.sl.phase = phForced then some (0, d.spDir n * d.imax n (d.cfg Fl.slRampIramp n))
    else some (d.cfg Fl.loopLimitIhold n, 0)
  | .openloop => if x.sl.phase = phAlign then some (d.alignCurrent n, 0) else none
  | _ => none

/-- VLIM in half modulation units: the vector's magnitude times two is held at or below it (R178). -/
def vlim (d : Dev) (n : Nat) : Int := d.cfg Fl.driveCfgVlim n

/-- What a loop run leaves (R174, R179): the integrators hold where the vector is limited or a phase floats; the duties are committed. -/
def loopDone (n : Nat) (limited : Bool) (v : Int × Int) (intD intQ : Int) (duty : Duty) (d : Dev) : Dev :=
  let keep := limited || (d.mva n).legs.wphase.isSome
  let sat (i : Int) : Int := clamp (32767 * 65536) i
  let d := d.modMva n fun x =>
    { x with foc := { x.foc with vd := v.1, vq := v.2, intD := if keep then x.foc.intD else sat intD
                                 intQ := if keep then x.foc.intQ else sat intQ }
             legs := { x.legs with shadow := duty, buf := some duty } }
  let d := d.setFlag Fl.axisStatusVoltageLimited n limited
  if limited then d.stick Fl.axisStatusVlimSeen n else d

/-- A PI step of the current loop (R174): e = reference − measured; the output in modulation units and the new integral. -/
def currentPi (d : Dev) (n delta : Nat) (e int_ : Int) : Int × Int :=
  (rnd ((d.cfg Fl.loopCurKp n : Int) * e * 16 + int_) 65536, int_ + d.cfg Fl.loopCurKi n * e * delta)

/-- The current loop in the rotating frame: the vector is turned by the angle that holds at the centre of the period in which the duty
applies, `ahead` half counts of a tick of M counts on (R176; log entry 143). -/
def vectorRun (n delta M ahead : Nat) (speed : Speed) (now : Nat) (rd rq : Int) (d : Dev) : Dev :=
  let x := d.mva n
  let a := if x.drive = .field then d.elecAngle n speed now else x.sl.angle
  let (iu, iv, iw) := (x.foc.iu.toInt, x.foc.iv.toInt, x.foc.iw.toInt)
  let pd := d.currentPi n delta (rd - parkD iu iv iw a) x.foc.intD
  let pq := d.currentPi n delta (rq - parkQ iu iv iw a) x.foc.intQ
  let (v, limited) := limitVector (d.vlim n) pd.1 pq.1
  let b := a + BitVec.ofInt 16 (rnd (d.elecSpeed n speed * ahead) (2 * M * d.cpe n))
  loopDone n limited v pd.2 pq.2 (vectorDuty v.1 v.2 b) d

/-- The two phases that conduct while the crossing at j times 60° is awaited: the current goes in at the first and comes back at the
second, so that its vector stands 90° ahead of the rotor in the direction of motion (R215, R216). -/
def pairOf (j : Nat) (dir : Int) : Nat × Nat :=
  let p : Nat × Nat := match j with
    | 0 => (1, 2) | 1 => (1, 0) | 2 => (2, 0) | 3 => (2, 1) | 4 => (0, 1) | _ => (0, 2)
  if dir < 0 then (p.2, p.1) else p

/-- The current loop of RAMP: the pair current is regulated to IRAMP (R215; log entry 142). -/
def pairRun (n delta : Nat) (d : Dev) : Dev :=
  let x := d.mva n
  let p := pairOf (rampCross x.sl) (d.spDir n)
  let i : Int := if p.1 = 0 then x.foc.iu.toInt else if p.1 = 1 then x.foc.iv.toInt else x.foc.iw.toInt
  let r := d.currentPi n delta (d.imax n (d.cfg Fl.slRampIramp n) - i) x.foc.intD
  let (v, limited) := limitVector (d.vlim n) r.1 0
  let f (ph : Nat) : BitVec 24 := duty24 (2 ^ 23 + if ph = p.1 then v.1 * 256 else if ph = p.2 then -(v.1 * 256) else 0)
  loopDone n limited v r.2 x.foc.intQ { u := f 0, v := f 1, w := f 2 } d

/-- A run of the current loop of one axis, `delta` periods after the last (R174, R175, R274). -/
def currentRun (n delta M ahead : Nat) (speed : Speed) (now : Nat) (d : Dev) : Dev :=
  let x := d.mva n
  if x.drive = .openloop ∧ x.sl.phase = phRamp then pairRun n delta d
  else match d.currentRefs n with
    | none => d
    | some (rd, rq) => vectorRun n delta M ahead speed now rd rq d

/-- Filtered Iq after a loop run (R177, R192): held during a short, fed with 0 where no phase conducts. -/
def filterIq (n : Nat) (speed : Speed) (now : Nat) (d : Dev) : Dev :=
  let x := d.mva n
  let f := d.cfg Fl.driveCfgIqfilt n
  let feed (q : Int) : Dev := d.modMva n fun x => { x with foc := { x.foc with iqF := x.foc.iqF + rnd (q * 65536 - x.foc.iqF) (2 ^ f) } }
  match x.drive with
  | .brake => d
  | .orphanBrake => d
  | .field => feed (parkQ x.foc.iu.toInt x.foc.iv.toInt x.foc.iw.toInt (d.elecAngle n speed now))
  | .openloop => feed (parkQ x.foc.iu.toInt x.foc.iv.toInt x.foc.iw.toInt x.sl.angle)
  | _ => feed 0

end Sys2Proof.Machine.Dev

namespace Sys2Proof.Machine

/-- ARM. -/
def execArm (i : Fin 128) (slot : BitVec 16) (x : Desc) (s : State) : Host.Outcome State Fault Refusal :=
  s.onDev (Dev.dispatch .arm i slot (withOpcode .arm x) Dev.opArm)

/-- DISARM. -/
def execDisarm (i : Fin 128) (slot : BitVec 16) (x : Desc) (s : State) : Host.Outcome State Fault Refusal :=
  s.onDev (Dev.dispatch .disarm i slot (withOpcode .disarm x) Dev.opDisarm)

/-- FLOAT. -/
def execFloat (i : Fin 128) (slot : BitVec 16) (x : Desc) (s : State) : Host.Outcome State Fault Refusal :=
  s.onDev (Dev.dispatch .float i slot (withOpcode .float x) Dev.opFloat)

/-- BRAKE. -/
def execBrake (i : Fin 128) (slot : BitVec 16) (x : Desc) (s : State) : Host.Outcome State Fault Refusal :=
  s.onDev (Dev.dispatch .brake i slot (withOpcode .brake x) Dev.opBrake)

end Sys2Proof.Machine
end

