-- ==== Sys2Proof/Machine/Pulses.lean ====
section
/-! DEFINITION. Pulses.lean: PWM periods, compare values, pulses and the windows that they leave to the converters (R245 to R251,
R254, R269 to R278). Instants count in units of 125 ps from the period start. -/

namespace Sys2Proof.Machine

/-! ## Periods and compare values -/

/-- The length of period n of a tick of M counts and K periods (R269). -/
def periodLen (M K n : Nat) : Nat := (n + 1) * M / K - n * M / K

/-- High time of a phase leg (R273): exactly 0 %, exactly 100 %, or scaled by the period; `u` is the period's length in units. -/
def phaseHigh (duty : BitVec 24) (u : Nat) : Nat :=
  if duty.toNat = 0 then 0 else if 2 ^ 24 - 1 ≤ duty.toNat then u else duty.toNat * u / 2 ^ 24

/-- High time of an X leg in fraction or raw-count mode (R272). -/
def xHigh (value : BitVec 16) (raw : Bool) (u : Nat) : Nat :=
  if value = 0 then 0
  else if value = 0xFFFF then u
  else if raw then (if u ≤ value.toNat * 32 then u else value.toNat * 32)
  else value.toNat * u / 65536

/-- A raw count at or above the period (R272). -/
def beyond (value : BitVec 16) (raw : Bool) (u : Nat) : Bool :=
  raw && value ≠ 0 && value ≠ 0xFFFF && decide (u ≤ value.toNat * 32)

/-! ## Pulses of a leg in one period (R270, R276, R278) -/

/-- How a leg treats short pulses: the shortest pulse in units, and stretch instead of drop (R278, R293). -/
structure MinRule where
  min : Nat
  str : Bool
  deriving DecidableEq, Repr

/-- The falling edge that a set taken at the centre gives a leg that is high there, with high time c1 (R276). -/
def fallNew (u centre c1 : Nat) : Option Nat := if u ≤ c1 then none else some (centre + c1 / 2)

/-- The falling edge of a high pulse of a centre-aligned period that has begun at `r` before the centre, with high time c0 from the
period start and c1 from a transfer at the centre on (R270, R276). -/
def fallEdge (u centre r c0 c1 : Nat) (again : Bool) : Option Nat :=
  if again then fallNew u centre c1 else if u ≤ r + c0 then none else some (r + c0)

/-- The high pulse under the rule for short pulses, begun at r and ended at f. -/
def endHigh (u : Nat) (m : MinRule) (low : Nat) (r f : Nat) : Pulse :=
  if m.min ≤ f - r then { high := false, rise := some r, fall := some f, dropped := 0, stretched := 0, tail := some (u - f) }
  else if m.str then
    { high := false, rise := some r, fall := some (r + m.min), dropped := 0, stretched := 1, tail := some (u - (r + m.min)) }
  else { high := false, rise := none, fall := none, dropped := 1, stretched := 0, tail := some (low + u) }

/-- A leg that is high from the period start on, up to its falling edge. -/
def fromHigh (u : Nat) (fall : Option Nat) (dropped stretched : Nat) : Pulse :=
  { high := true, rise := none, fall := fall, dropped := dropped, stretched := stretched, tail := fall.map fun f => u - f }

/-- A centre-aligned period of u units: high time c0 at its start, c1 from its centre on where a set has been taken there
(`again`); `tail` is the low time that came before. A leg that is low at the centre stays low under the new set (R276). -/
def centrePulse (u centre c0 c1 : Nat) (again : Bool) (m : MinRule) (tail : Option Nat) : Pulse :=
  let before := tail.getD 0
  let idle : Pulse := { high := false, rise := none, fall := none, dropped := 0, stretched := 0, tail := some (before + u) }
  if c0 = 0 then idle
  else if u ≤ c0 then fromHigh u (if again then fallNew u centre c1 else none) 0 0
  else
    let r := (u - c0) / 2
    let low := before + r
    if low < m.min && !m.str then fromHigh u (fallEdge u centre r c0 c1 again) 1 0
    else
      let late := m.min - low
      if again && centre ≤ r + late then idle
      else match fallEdge u centre r c0 c1 again with
      | none => { high := false, rise := some (r + late), fall := none, dropped := 0, stretched := if late = 0 then 0 else 1, tail := none }
      | some f =>
        let p := endHigh u m before (r + late) f
        { p with stretched := p.stretched + if late = 0 then 0 else 1 }

/-- An edge-aligned period: high from its start, or later where the low pulse before it is stretched across the start. -/
def edgePulse (u c : Nat) (m : MinRule) (tail : Option Nat) : Pulse :=
  if c = 0 then { high := false, rise := none, fall := none, dropped := 0, stretched := 0, tail := some (tail.getD 0 + u) }
  else if u ≤ c then { high := true, rise := none, fall := none, dropped := 0, stretched := 0, tail := none }
  else
    let t := tail.getD 0
    let r := if m.str && decide (t ≠ 0) then m.min - t else 0
    let brief := decide (c < r + m.min)
    if brief && !m.str then
      { high := false, rise := none, fall := none, dropped := 1, stretched := 0, tail := some (t + u) }
    else
      let f := if brief then r + m.min else c
      let low := decide (u < f + m.min)
      if low && !m.str then fromHigh u none 1 0
      else { high := decide (r = 0), rise := if r = 0 then none else some r, fall := some f, dropped := 0,
             stretched := brief.toNat + low.toNat, tail := some (u - f) }

/-- The period of a leg in its alignment. -/
def legPulse (edge : Bool) (u centre c0 c1 : Nat) (again : Bool) (m : MinRule) (tail : Option Nat) : Pulse :=
  if edge then edgePulse u c0 m tail else centrePulse u centre c0 c1 again m tail

/-- Without lock of the delay line an edge lies on the 4 ns count (R289). -/
def placeAt (loose : List (Nat × Option Nat)) (t : Nat) : Nat :=
  if loose.any fun e => decide (e.1 ≤ t) && (e.2.map fun b => decide (t < b)).getD true then t / 32 * 32 else t
def Pulse.placed (loose : List (Nat × Option Nat)) (p : Pulse) : Pulse :=
  { p with rise := p.rise.map (placeAt loose), fall := p.fall.map (placeAt loose) }

/-- A refresh at the period start keeps a leg low for the shortest pulse (R315). -/
def Pulse.refreshed (m : Nat) (p : Pulse) : Pulse :=
  if !p.high && p.rise.isNone then p
  else
    let r := max m (p.rise.getD 0)
    if (p.fall.map fun f => decide (f ≤ r)).getD false then { p with high := false, rise := none, fall := none }
    else { p with high := false, rise := some r }

/-- The falling edge goes where the low pulse after it has been dropped at the start of the next period (R278). -/
def Pulse.joined (b : Bool) (p : Pulse) : Pulse := if b then { p with fall := none } else p

/-- The next period begins high because the low pulse that contains its start is dropped (R278). -/
def Pulse.joins (edge : Bool) (p next : Pulse) : Bool := !edge && p.fall.isSome && next.high && decide (next.dropped = 1)

/-- How long a leg is low in a period of u units. -/
def Pulse.lowTime (u : Nat) (p : Pulse) : Nat :=
  if p.high then (p.fall.map fun f => u - f).getD 0
  else match p.rise with
    | none => u
    | some r => r + (p.fall.map fun f => u - f).getD 0

/-! ## Switches of a leg (R277, R279, R285, R301 to R304, R316) -/

/-- What a leg's node is commanded to do from t on: high, low, or both switches off. -/
abbrev Want := Nat × Option Bool

/-- The commands of a pulse that begins at t. -/
def Pulse.wants (t : Nat) (p : Pulse) : List Want :=
  (t, some p.high) :: (p.rise.toList.map fun r => (t + r, some true)) ++ p.fall.toList.map fun f => (t + f, some false)

/-- The commands of a leg in a static mode. -/
def LegMode.wants : LegMode → List Want
  | .low => [(0, some false)]
  | .high => [(0, some true)]
  | _ => [(0, none)]

/-- High-side and low-side commands exchanged (R285). -/
def swapSides (l : List Want) : List Want := l.map fun w => (w.1, w.2.map (!·))

/-- From instant t on a leg is in another mode: its commands end, and it is driven as the mode says (R279). -/
def turnWants (t : Nat) (m : LegMode) (l : List Want) : List Want :=
  match m with
  | .switch => l
  | m => (l.filter fun w => decide (w.1 < t)) ++ m.wants.map fun w => (t, w.2)

/-- The high side stays off until the low side has been commanded on (R316). -/
def blockHigh : List Want → List Want
  | [] => []
  | (t, w) :: r => if w = some false then (t, w) :: r else (t, none) :: blockHigh r

/-- A high side that is on at tc turns off there (R316). -/
def cutHigh (tc : Nat) : Option Bool → List Want → List Want
  | cur, [] => if cur = some true then [(tc, none)] else []
  | cur, (t, w) :: r =>
    if t ≤ tc then (t, w) :: cutHigh tc w r
    else (if cur = some true then [(tc, none)] else []) ++ blockHigh ((t, w) :: r)

/-- An edge as a leg emits it: where the outgoing switch turns off, and where the incoming one turns on, if it does; the side that
takes over; whether the interlock has delayed it. -/
structure LegEdge where
  off  : Nat
  on   : Option Nat
  side : Option Bool
  late : Bool
  deriving DecidableEq, Repr

/-- What a leg has done: its edges, the switch that conducts at the end, and the one that turned off last. -/
structure LegRun where
  edges : List LegEdge
  cond  : Option Bool
  prev  : Option Gone
  deriving DecidableEq, Repr

/-- The opposite switch that a switch to be turned on has to wait for (R304). -/
def waitFor (w : Option Bool) (prev : Option Gone) : Option Gone :=
  match w with
  | none => none
  | some h => prev.filter fun g => g.high != h

/-- The commands of a leg run through its switches: every turn-on waits for the dead time and the interlock of the opposite switch, whenever
that turned off (R277, R304); a gate that does not fall within 2 µs keeps the incoming switch off (R305), and so does the next command
where it comes first. -/
def runLeg (dead : Nat) : List Answer → Option Bool → Option Gone → List Want → LegRun
  | _, cond, prev, [] => ⟨[], cond, prev⟩
  | ans, cond, prev, (t, w) :: r =>
    if w = cond then runLeg dead ans cond prev r
    else
      let prev := match cond with
        | some h => some ⟨h, t, (ans.headD ⟨0, []⟩).fall⟩
        | none => prev
      let g := waitFor w prev
      let t' := (g.map fun g => max t (g.at_ + ((max dead (8 * g.fall) : Nat) : Int)).toNat).getD t
      let on := w.isSome && !(g.any fun g => decide (2000 ≤ g.fall)) && !((r.head?.map fun n => decide (n.1 ≤ t')).getD false)
      let e : LegEdge := { off := t, on := if on then some t' else none, side := w
                           late := g.any fun g => decide (dead < 8 * g.fall) && decide ((t : Int) < g.at_ + (8 * g.fall : Nat)) }
      let rest := runLeg dead (ans.drop 1) (if on then w else none) prev r
      { rest with edges := e :: rest.edges }

/-- When the node has completed 90 % of its swing up to the bus, which reads `vbs`, or down from it (R301, R487). -/
def nodeSwung (vbs : Nat) (up : Bool) (node : List (Nat × Nat)) : Option Nat :=
  (node.find? fun e => if up then decide (9 * vbs ≤ 10 * e.2) else decide (10 * e.2 ≤ vbs)).map (·.1)

/-- What the gate drivers of a leg carry out at its edges: the outgoing switch its turn-off profile, the incoming one its turn-on profile,
with the times in which the node answers (R301, R302). -/
def gateRuns (pin vbs : Nat) (on off : GProf) : List Answer → Option Bool → List LegEdge → List GateRun
  | _, _, [] => []
  | ans, cond, e :: r =>
    let node := (ans.headD ⟨0, []⟩).node
    let out : List GateRun := match cond with
      | some h => [{ pin := pin, high := h, on := false, at_ := e.off, kind := .profile off, done := nodeSwung vbs (!h) node }]
      | none => []
    let inn : List GateRun := match e.side, e.on with
      | some h, some t =>
        [{ pin := pin, high := h, on := true, at_ := t, kind := .profile on, done := (nodeSwung vbs h node).map (· - (t - e.off) / 8) }]
      | _, _ => []
    out ++ inn ++ gateRuns pin vbs on off (ans.drop 1) (if e.on.isSome then e.side else none) r

/-- The current in mA that a driver sources or sinks t ns after the release of an edge: pre-charge, slope, hold, where the slope ends
with the node's swing if it may; a soft turn-off sinks weakly until the gate is below 2 V, for at most 2 µs (R301, R309). -/
def GateRun.amps (g : GateRun) (t : Nat) : Nat :=
  match g.kind with
  | .profile p =>
    let limit := p.preT + p.slopeT
    let stop := match g.done with
      | some w => if p.adapt then max p.preT (min w limit) else limit
      | none => limit
    if t < p.preT then p.preI else if t < stop then p.slopeI else p.hold_
  | .soft sink => if t < min 2000 (g.done.getD 2000) then sink else 4000

/-- The run that a switch is in at an instant of the period: a new edge ends the one before (R302). -/
def runAt (rs : List GateRun) (pin : Nat) (high : Bool) (t : Nat) : Option GateRun :=
  (rs.filter fun g => g.pin = pin && g.high == high && decide (g.at_ ≤ t)).getLast?

/-! ## Windows (R245 to R247, R250, R251) -/

/-- A span of time in a period. -/
structure Win where
  start : Nat
  stop  : Nat
  deriving DecidableEq, Repr

/-- A leg as the windows see it: its phase, its pulse, its edges, its high times in the two halves. -/
structure WLeg where
  ph    : Nat
  p     : Pulse
  edges : List LegEdge
  c0    : Nat
  c1    : Nat
  deriving DecidableEq, Repr

/-- Where a leg has gone high, or low, as its vector sees it: a leg that is so from the beginning on comes first; one that does not
comes last. -/
def WLeg.riseKey (l : WLeg) (u : Nat) : Nat := if l.p.high then 0 else (l.p.rise.map (· + 1)).getD (u + 2)
def WLeg.fallKey (l : WLeg) (u : Nat) : Nat :=
  match l.p.fall with
  | some f => f + 1
  | none => if l.p.high || l.p.rise.isSome then u + 2 else 0

/-- a put behind every leg that comes before it. -/
def insertLeg (before : WLeg → WLeg → Bool) (a : WLeg) : List WLeg → List WLeg
  | [] => [a]
  | b :: t => if before a b then a :: b :: t else b :: insertLeg before a t

/-- Legs in order. -/
def sortLegs (before : WLeg → WLeg → Bool) (l : List WLeg) : List WLeg := l.foldl (fun r a => insertLeg before a r) []

/-- The order in which the legs go high, and the reverse of that in which they go low; of legs that do so together, the one with the
larger high time comes first. -/
def byRise (u : Nat) (l : List WLeg) : List WLeg :=
  sortLegs (fun a b => decide (a.riseKey u < b.riseKey u) || (a.riseKey u == b.riseKey u && decide (b.c0 < a.c0))) l
def byFall (u : Nat) (l : List WLeg) : List WLeg :=
  sortLegs (fun a b => decide (b.fallKey u < a.fallKey u) || (a.fallKey u == b.fallKey u && decide (b.c1 < a.c1))) l

/-- A beginning of a vector: where, and where the incoming switch turns on. -/
structure Opening where
  at_   : Nat
  start : Nat
  deriving DecidableEq, Repr

/-- The opening at an edge of a leg to a side; none where the incoming switch never turns on. -/
def WLeg.openAt (l : WLeg) (side : Bool) (t : Nat) : Option Opening :=
  (l.edges.find? fun e => e.off = t && e.side == some side).bind fun e => e.on.map fun s => ⟨t, s⟩

/-- A leg goes high: from the period start on, or at its rising edge. -/
def WLeg.opensUp (l : WLeg) : Option Opening :=
  if l.p.high then some ⟨0, 0⟩ else l.p.rise.bind (l.openAt true)
/-- A leg goes low: at its falling edge, or it has been low from the bound on. -/
def WLeg.opensDown (l : WLeg) (bound : Nat) : Option Opening :=
  match l.p.fall with
  | some f => l.openAt false f
  | none => if l.p.high || l.p.rise.isSome then none else some ⟨bound, bound⟩

/-- The window of a vector from its opening to the first later edge of any leg of the axis (R246, R251), at the latest where the next leg
goes over, or at the bound. Where edges of several legs begin the vector together, it opens when the last of their switches turns on. -/
def window (ls : List WLeg) (o : Option Opening) (next bound : Nat) : Win :=
  match o with
  | none => ⟨0, 0⟩
  | some o =>
    let es := ls.flatMap (·.edges)
    let first := es.filter fun e => e.off = o.at_
    if first.any fun e => e.on.isNone then ⟨0, 0⟩
    else ⟨(first.filterMap (·.on)).foldl max o.start, ((es.filter fun e => decide (o.at_ < e.off)).map (·.off)).foldl min (min next bound)⟩

/-- A pair of windows of converters A and B; none: the converter stays idle. -/
structure PairWin where
  a : Option Win
  b : Option Win
  deriving DecidableEq, Repr

/-- The edges of the axis: leg and instant. -/
def edgesOf (ls : List WLeg) : List (Nat × Nat) := ls.flatMap fun l => l.edges.map fun e => (l.ph, e.off)

/-- The windows of a period with three legs switching (R245, R251): p goes high first, r last; r goes low first, p last. -/
def threeWin (edge : Bool) (u centre : Nat) (ls : List WLeg) : List PairWin :=
  let key (k : Nat) : Nat := k - 1
  match byRise u ls, byFall u ls with
  | [p, q, r], [p', q', r'] =>
    let c := if edge then 0 else centre
    let fall : PairWin := ⟨some (window ls (q'.opensDown c) (key (p'.fallKey u)) u), some (window ls (r'.opensDown c) (key (q'.fallKey u)) u)⟩
    if edge then [fall]
    else [⟨some (window ls p.opensUp (key (q.riseKey u)) centre), some (window ls q.opensUp (key (r.riseKey u)) centre)⟩, fall]
  | _, _ => []

/-- The windows of a period with two legs switching: the current of the leg with the larger duty, by A in the rising half and by B
in the falling half; by A alone in edge-aligned PWM (R249). -/
def twoWin (edge : Bool) (u centre : Nat) (ls : List WLeg) : List PairWin :=
  match byRise u ls, byFall u ls with
  | [c, d], [c', d'] =>
    let w := window ls (d'.opensDown (if edge then 0 else centre)) (c'.fallKey u - 1) u
    if edge then [⟨some w, none⟩]
    else [⟨some (window ls c.opensUp (d.riseKey u - 1) centre), none⟩, ⟨none, some w⟩]
  | _, _ => []

/-- A window is long enough (R247), and not before the floated phase has settled (R250). -/
def Win.ok (w : Win) (blank notBefore : Nat) : Bool := decide (w.start + (blank + 350) * 8 ≤ w.stop) && decide (notBefore ≤ w.start)

/-! ## Extra windows (R254, R255, R286) -/

/-- What the two compares of a converter mark in a period of u units: no window, a window that is skipped, or a window. -/
inductive Extra where
  | none
  | skip
  | win (w : Win)
  deriving DecidableEq, Repr

/-- The extra window of a converter beside its automatic windows. -/
def extraWin (u opens closes : Nat) (auto : List Win) : Extra :=
  if u ≤ opens * 32 ∨ u ≤ closes * 32 then .none
  else
    let w : Win := ⟨opens * 32, closes * 32⟩
    if w.stop < w.start + 2800 then .skip
    else if auto.any fun v => decide (v.start < w.stop + 320) && decide (w.start < v.stop + 320) then .skip
    else .win w

/-- The window lies in a 000 vector, with no edge inside (R255): every leg's low side has been on before it, and no edge follows up to
its end. -/
def inZero (w : Win) (ls : List WLeg) : Bool :=
  ls.all fun l =>
    ((edgesOf [l]).all fun e => decide (e.2 ≤ w.start) || decide (w.stop ≤ e.2)) &&
    match (l.edges.filter fun e => decide (e.off ≤ w.start)).getLast? with
    | some e => e.side == some false && (e.on.map fun t => decide (t ≤ w.start)).getD false
    | none => !l.p.high

end Sys2Proof.Machine
end

