-- ==== Sys2Proof/Machine/Legs.lean ====
section
/-! DEFINITION. Legs.lean: output modes of the legs, the settings of a period, what a leg does in it, bootstraps (R182, R191, R193, R251,
R272 to R285, R301, R313 to R316, R324, R326). -/

namespace Sys2Proof.Machine

/-- The value of a phase in a set. -/
def Duty.of (x : Duty) (ph : Nat) : BitVec 24 := if ph = 0 then x.u else if ph = 1 then x.v else x.w

/-- The drive state keeps the X leg from its AUX duty (R182, R283, R295). -/
def xKept (x : MvAxis) : Bool :=
  match x.drive with
  | .field => false
  | .openloop => false
  | .catching => false
  | .brake => false
  | .float => x.xOff
  | .precharge => true
  | .off => true
  | .sto => true
  | .orphanSto => true
  | .orphanBrake => true
  | .halt => true

namespace Dev

/-! ## Periods (R18, R269, R280, R291) -/

/-- The movement's generator places edges: powered, its clock good, no halt. -/
def mvRuns (d : Dev) (m : Nat) : Bool := d.mvOn m && !(d.mv m).halted && !(d.mv m).clkBad

/-- PWM periods per tick of a movement (0 acts as 1). -/
def kOf (d : Dev) (m : Nat) : Nat := max 1 (d.cfg Fl.pwmMvcfgK m)

/-- Periods per tick of an X leg. -/
def xkOf (d : Dev) (n : Nat) : Nat :=
  let k := (d.mva n).legs.xk.toNat
  if k = 0 then d.kOf (n / 8) else k

/-- The movement's legs are edge-aligned. -/
def edgeAligned (d : Dev) (m : Nat) : Bool := d.on Fl.pwmMvcfgAlign m

/-! ## Settings of a leg (R277, R278, R293, R324) -/

/-- Dead time of a leg in 4 ns counts. -/
def deadOf (d : Dev) (leg : Nat) : Nat := min 500 (d.cfg Fl.pwmLegcfgDead leg)

/-- The rule for short pulses of a leg. -/
def minRule (d : Dev) (leg : Nat) : MinRule :=
  { min := 32 * max (d.cfg Fl.pwmLegcfgMinpulse leg) (d.deadOf leg + 10), str := d.on Fl.pwmLegcfgMpmode leg }

/-- The turn-on and turn-off profiles of GATE_PROFILE. -/
def profOn (d : Dev) (leg : Nat) : GProf :=
  { preI := 250 * (d.cfg Fl.gateProfileOnPreI leg + 1), preT := 8 * d.cfg Fl.gateProfileOnPreT leg
    slopeI := 50 * (d.cfg Fl.gateProfileOnSlopeI leg + 1), slopeT := 32 * max 1 (d.cfg Fl.gateProfileOnSlopeT leg)
    adapt := d.on Fl.gateProfileOnAdapt leg, hold_ := 2000 }
def profOff (d : Dev) (leg : Nat) : GProf :=
  { preI := 500 * (d.cfg Fl.gateProfileOffPreI leg + 1), preT := 8 * d.cfg Fl.gateProfileOffPreT leg
    slopeI := 50 * (d.cfg Fl.gateProfileOffSlopeI leg + 1), slopeT := 32 * max 1 (d.cfg Fl.gateProfileOffSlopeT leg)
    adapt := d.on Fl.gateProfileOffAdapt leg, hold_ := 4000 }

/-- The settings of a logical leg: its profiles stand with its pins (R285). -/
def legSet (d : Dev) (n ph : Nat) : LegSet :=
  let m := d.minRule (4 * n + ph)
  { dead := 32 * d.deadOf (4 * n + ph), min := m.min, str := m.str, on := d.profOn (4 * n + d.swapped n ph)
    off := d.profOff (4 * n + d.swapped n ph) }

/-- The settling blank in ns (R262). -/
def blank (d : Dev) (n : Nat) : Nat := max 100 (min 1000 (d.cfg Fl.isenseCfgBlank n))

/-- The X periods that begin in period i of K: their start from its start, and their length (R280). -/
def xPeriods (d : Dev) (n M K i : Nat) : List (Nat × Nat) :=
  let xk := d.xkOf n
  let a := i * M / K
  ((span 0 xk).filter fun j => decide (a ≤ j * M / xk) && decide (j * M / xk < (i + 1) * M / K)).map fun j => (j * M / xk - a, periodLen M xk j)

/-- The settings that period i of K of an axis runs under. -/
def spanSet (d : Dev) (n M K i : Nat) : SpanSet :=
  { edge := d.edgeAligned (n / 8), legs := Four.mk4 (d.legSet n), blank := d.blank n
    trig := d.on Fl.isenseCfgTrigEn n, cmpA0 := d.cfg Fl.pwmTrig01Cmp0 (4 * n), cmpA1 := d.cfg Fl.pwmTrig01Cmp1 (4 * n)
    cmpB0 := d.cfg Fl.pwmTrig23Cmp2 (4 * n), cmpB1 := d.cfg Fl.pwmTrig23Cmp3 (4 * n), track := d.on Fl.isenseCfgOfftrack n
    tc := max 1 (d.cfg Fl.isenseCfgOfftc n), xval := (d.mva n).legs.xval, xraw := d.on Fl.pwmXcfgXmode n, xinv := d.on Fl.pwmOvrInvx n
    xper := d.xPeriods n M K i }

/-! ## Output modes (R182, R191, R193, R201, R215, R223, R279) -/

/-- The phase that floats in RAMP (R215). -/
def rampPhase (s : Sl) : Fin 3 := crossPhase (rampCross s)

/-- The phase whose gates are off while the others switch. -/
def floated (x : MvAxis) : Option (Fin 3) :=
  if x.drive = .openloop ∧ x.sl.phase = phRamp then some (rampPhase x.sl) else x.legs.wphase

/-- The mode of a leg by its axis's drive state; every gate is off while the PWM frequency is too high (R269) and during the self-test
of the escapement (R444). -/
def modeOf (d : Dev) (n ph : Nat) : LegMode :=
  let x := d.mva n
  let aux : LegMode := if xKept x then .off else .switch
  let switching : LegMode := if (floated x).map (·.val) = some ph then .off else .switch
  let short : LegMode := if probing x then .off else if x.legs.high then .high else .low
  if !d.kOk (n / 8) || !d.flag Fl.escStatusSelftestOk 0 then .off
  else match x.drive with
    | .off => .off
    | .sto => .off
    | .orphanSto => .off
    | .precharge => if x.pre then .low else .off
    | .field => if ph = 3 then aux else switching
    | .openloop => if ph = 3 then aux else switching
    | .catching => if ph = 3 then aux else .off
    | .float => if ph = 3 then aux else .off
    | .brake => if ph = 3 then aux else short
    | .orphanBrake => if ph = 3 then .off else short
    | .halt => if ph = 3 ∨ !d.on Fl.axisSafeHalt n then .off else .low

/-- The modes take effect at a period start. -/
def setModes (n : Nat) (d : Dev) : Dev :=
  d.modLegs n fun l => { l with modes := Four.mk4 (d.modeOf n), goingFor := l.goingFor - 1 }

/-- The modes change at instant t of the period: a precharge, or a halt (R186, R201, R279). -/
def modesAt (t n : Nat) (d : Dev) : Dev :=
  let ms := Four.mk4 (d.modeOf n)
  if ms = (d.mva n).legs.modes then d else d.modLegs n (Legs.turn t ms)

/-- The X periods of an axis that begin after an instant of the present period begin in the mode that its drive state now gives (R279). -/
def xModesFrom (t n : Nat) (d : Dev) : Dev :=
  let m := d.modeOf n 3
  d.modLegs n fun l => { l with span := { l.span with xrun := l.span.xrun.map fun e => if (t : Int) < e.at_ then { e with mode := m } else e } }

/-- The axis has low sides that do not wait for a period start (R186, R201, R279). -/
def gatesWait (d : Dev) (n : Nat) : Bool :=
  !d.mvRuns (n / 8) || (d.mva n).drive == .precharge

/-- Some gate of the axis is enabled (R306). -/
def gatesOn (d : Dev) (n : Nat) : Bool := (d.mva n).legs.driven

/-- The trickle pump feeds the high sides of an axis (R314): 50 µA into each of its bootstraps. -/
def trickleOn (d : Dev) (n : Nat) : Bool := (d.axis n).armed && d.on Fl.gateBstTrickleEn (n / 8)

/-! ## A leg in a period (R251, R270, R276, R278, R285, R315) -/

/-- The rule for short pulses that a period runs under. -/
def ruleOf (l : LegSet) : MinRule := { min := l.min, str := l.str }

/-- The pulse of a phase leg in a period; `force` is the set in force in its falling half. -/
def spanPulse (sp : Span) (g : SpanSet) (force : Duty) (ph : Nat) : Pulse :=
  let u := 32 * sp.len
  let l := g.legs.of ph
  let p := legPulse g.edge u (32 * (sp.len / 2)) (phaseHigh (sp.rise.of ph) u) (phaseHigh (force.of ph) u) sp.again (ruleOf l) (sp.tail.of ph)
  let p := p.placed sp.loose
  if sp.refresh.getLsbD ph then p.refreshed l.min else p

/-- The pulse of an X period of u units (R272, R278). -/
def xPulse (g : SpanSet) (u : Nat) (tail : Option Nat) : Pulse :=
  let c := xHigh g.xval g.xraw u
  legPulse g.edge u (u / 2) c c false (ruleOf g.legs.x) tail

/-- The last X period of a span, where it ends with the span in SWITCH. -/
def xLast (sp : Span) : Option Pulse :=
  (sp.xrun.getLast?.filter fun e => e.mode == .switch && decide (e.at_ + ((32 * e.len : Nat) : Int) = ((32 * sp.len : Nat) : Int))).map (·.p)

/-- X periods in a row, where a dropped low pulse takes the falling edge before it along (R278). -/
def joinRuns (edge : Bool) : List XRun → List XRun
  | [] => []
  | [a] => [a]
  | a :: b :: r => { a with p := a.p.joined (a.mode == .switch && b.mode == .switch && a.p.joins edge b.p) } :: joinRuns edge (b :: r)

/-- The last of them loses its falling edge to the span that follows. -/
def joinLast (b : Bool) (l : List XRun) : List XRun :=
  match l.getLast? with
  | none => l
  | some e => l.dropLast ++ [{ e with p := e.p.joined b }]

/-- The commands of an X period: by its mode, its sides, and a refresh that keeps the low side on for the shortest pulse (R279, R285, R315). -/
def xRunWants (g : SpanSet) (e : XRun) : List Want :=
  match e.mode with
  | .switch =>
    let ws := e.p.wants 0
    let ws := if g.xinv then swapSides ws else ws
    if !e.refresh then ws
    else
      let m := g.legs.x.min
      (0, some false) :: (m, (((ws.filter fun w => decide (w.1 ≤ m)).getLast?).bind (·.2))) :: ws.filter fun w => decide (m < w.1)
  | m => m.wants

/-- The commands of the X periods of a span that fall into it. -/
def xWants (sp : Span) (g : SpanSet) (joined : Bool) : List Want :=
  (joinLast joined sp.xrun).flatMap fun e => ((xRunWants g e).map fun w => (e.at_ + (w.1 : Int), w.2)).filterMap fun w =>
    if 0 ≤ w.1 ∧ w.1 < ((32 * sp.len : Nat) : Int) then some (placeAt sp.loose w.1.toNat, w.2) else none

/-- What a leg is commanded to do in a period: by its mode and the modes that it takes inside, with a high side that waits for its low side
at the start, and the cuts by the bootstrap. `joined`: its low pulse at the end is dropped. -/
def legWants (sp : Span) (g : SpanSet) (force : Duty) (joined : Bool) (ph : Nat) : List Want :=
  let ws :=
    if ph = 3 then xWants sp g joined
    else match sp.modes.of ph with
      | .switch => ((spanPulse sp g force ph).joined joined).wants 0
      | m => m.wants
  let ws := sp.turns.foldl (fun ws e => turnWants e.1 (e.2.of ph) ws) ws
  let ws := if sp.block.getLsbD ph then blockHigh ws else ws
  (sp.cut.filter fun e => e.1 = ph).foldl (fun ws e => cutHigh e.2 (sp.cond.of ph) ws) ws

/-- What a leg does in a period with the answers of its power stage. -/
def legRun (sp : Span) (g : SpanSet) (force : Duty) (joined : Bool) (ans : List Answer) (ph : Nat) : LegRun :=
  runLeg (g.legs.of ph).dead ans (sp.cond.of ph) (sp.prev.of ph) (legWants sp g force joined ph)

/-- Whether gates of the axis are enabled, or have been turned off at once in this instant (R306, R312). -/
def senseOn (d : Dev) (n : Nat) : Bool := d.gatesOn n || decide (0 < (d.mva n).legs.goingFor)

/-- The period that the senses see: the present one, or that in which the gates went off. -/
def senseSpan (d : Dev) (n : Nat) : Span :=
  let l := (d.mva n).legs
  if d.gatesOn n then l.span else l.going

/-- The edges of a leg in it, with the answers of the power stage up to now (R302, R304). -/
def senseEdges (d : Dev) (n : Nat) (gates : List (List Answer)) (ph : Nat) : List LegEdge :=
  let sp := d.senseSpan n
  match sp.set with
  | none => []
  | some g => (legRun sp g (d.mva n).legs.force false (gates.getD (d.swapped n ph) []) ph).edges

/-- The switch of a leg that is on, or in its turn-on profile, at an instant of the period (R306). -/
def switchAt (d : Dev) (n : Nat) (e : InPeriod) (ph : Nat) : Option Bool :=
  let sp := d.senseSpan n
  if sp.set.isNone then (sp.modes.of ph).wants.head?.bind (·.2)
  else match ((d.senseEdges n e.gates ph).filter fun g => decide (g.off ≤ e.t)).getLast? with
    | none => sp.cond.of ph
    | some g => if (g.on.map fun s => decide (s ≤ e.t)).getD false then g.side else none

/-- The bootstrap switch of a leg conducts: its low side is on (R314). -/
def bstConducts (d : Dev) (n ph : Nat) (e : InPeriod) : Bool := d.gatesOn n && d.switchAt n e ph == some false

/-! ## Bootstraps (R315, R316, R326) -/

/-- The refresh threshold in 10 mV. -/
def bstuv (d : Dev) (m : Nat) : Nat := 500 + 25 * d.cfg Fl.gateBstBstuv m

/-- The bootstrap of a logical leg as its pins read it. -/
def bstOf (d : Dev) (n : Nat) (q : Meas) (ph : Nat) : Nat := q.bst.getD (d.swapped n ph) 1200

/-- A high side of the short has a low bootstrap (R191, R316). -/
def shortLow (d : Dev) (n : Nat) (q : Meas) : Bool := (span 0 3).any fun ph => decide (d.bstOf n q ph < d.bstuv (n / 8))

/-- A leg that switches in the period that begins needs a refresh: its low side conducts for less than the shortest pulse, and its
bootstrap is low, or has not yet risen 0.5 V above the threshold since (R315). -/
def refreshDue (low min bst thr : Nat) (was : Bool) : Bool :=
  decide (low < min) && (decide (bst < thr) || (was && decide (bst ≤ thr + 50)))

/-- Whether a phase leg refreshes in the period that begins. -/
def needsRefresh (d : Dev) (n : Nat) (sp : Span) (g : SpanSet) (q : Meas) (was : Bool) (ph : Nat) : Bool :=
  let low := (spanPulse { sp with refresh := 0 } g (d.mva n).legs.force ph).lowTime (32 * sp.len)
  sp.modes.of ph == .switch && refreshDue low (g.legs.of ph).min (d.bstOf n q ph) (d.bstuv (n / 8)) was

/-- The X periods that begin in a period, by their starts and lengths, each with the bootstrap that is read there. -/
def xRuns (mode : LegMode) (g : SpanSet) (thr : Nat) : List (Nat × Nat) → List Nat → Option Nat → Bool → List XRun
  | [], _, _, _ => []
  | (s, len) :: r, bst, tail, was =>
    let u := 32 * len
    let p := xPulse g u tail
    let low := if g.xinv then u - p.lowTime u else p.lowTime u
    let again := mode == .switch && refreshDue low g.legs.x.min (bst.headD 1200) thr was
    let tail := match mode with
      | .switch => p.tail
      | .low => some u
      | .high => none
      | .off => some 0
    { at_ := (32 * s : Nat), len := len, mode := mode, p := p, refresh := again } :: xRuns mode g thr r (bst.drop 1) tail again

end Dev
end Sys2Proof.Machine
end

