-- ==== Sys2Proof/Machine/Current.lean ====
section
/-! DEFINITION. Current.lean: readings of the converters, reconstruction of the phase currents, narrow windows, extra windows and
offset tracking, CALIBRATE (chapter 8). -/

namespace Sys2Proof.Machine

/-- Change of the memory of a phase. -/
def Four.mod {α : Type} (f : Four α) (k : Nat) (g : α → α) : Four α :=
  if k = 0 then { f with u := g f.u } else if k = 1 then { f with v := g f.v } else if k = 2 then { f with w := g f.w } else { f with x := g f.x }

/-- A phase's last valid current is replaced. -/
def Foc.setLast (f : Foc) (ph : Nat) (i : Cur) : Foc := { f with mem := f.mem.mod ph fun _ => { last := i } }

namespace Dev

/-! ## Readings (R244, R255) -/

/-- Change of the current loop's state. -/
def modFoc (d : Dev) (n : Nat) (f : Foc → Foc) : Dev := d.modMva n fun x => { x with foc := f x.foc }

/-- The tracked offset of a converter (0 A, 1 B). -/
def track (d : Dev) (n : Nat) (b : Bool) : Int :=
  signed 16 (d.hw (if b then Fl.isenseTrackTrkB else Fl.isenseTrackTrkA) n)

/-- The factors of a converter (R264, R265). -/
def gainOf (d : Dev) (n : Nat) (b : Bool) : Int := d.cfg (if b then Fl.isenseGainGainB else Fl.isenseGainGainA) n
def ofs0 (d : Dev) (n : Nat) (b : Bool) : Int := signed 16 (d.cfg (if b then Fl.isenseOfsOfs0B else Fl.isenseOfsOfs0A) n)
def ofs1 (d : Dev) (n : Nat) (b : Bool) : Int := signed 16 (d.cfg (if b then Fl.isenseOfswOfs1B else Fl.isenseOfswOfs1A) n)

/-- A raw reading less the calibrated offset at an integration time of t units of 125 ps, times t, in 1/32,768 of the range: 100 ns are
800 units (R265). -/
def lessOffset (d : Dev) (n : Nat) (b : Bool) (t : Nat) (x : Cur) : Int := (x.toInt - d.ofs0 n b) * t - d.ofs1 n b * 800

/-- A reading of a converter as a current in current LSB, not yet limited: less the calibrated and the tracked offset, times the gain,
by the range, the shunt and ISCALE (R244, R255, R264, R265; log entry 145). -/
def toLsb (d : Dev) (n : Nat) (b : Bool) (t : Nat) (x : Cur) : Int :=
  rnd ((d.lessOffset n b t x - d.track n b * t) * d.gainOf n b * ((25 * 2 ^ d.cfg Fl.isenseCfgRange n : Nat) * 1024 * 100000))
    (max 1 t * 32768 * 32768 * max 1 (d.cfg Fl.isenseScaleRsh n) * max 1 (d.cfg Fl.isenseScaleIscale n))

/-- A reading as a limited current. -/
def current (d : Dev) (n : Nat) (b : Bool) (t : Nat) (x : Cur) : Int := clamp 32767 (d.toLsb n b t x)

/-- A limited result sets CLIP (R244). -/
def clipMark (n : Nat) (b : Bool) (t : Nat) (x : Cur) (d : Dev) : Dev :=
  if 32767 < (d.toLsb n b t x).natAbs then d.stick Fl.isenseStatusClip n else d

/-! ## Reconstruction (R249, R252, R253) -/

/-- The last valid value of a phase, advanced by the voltage model where the axis has one (R252; log entry 20): the mean voltage since
then less R · i and the back-EMF, over L. -/
def predict (d : Dev) (n ph : Nat) : Int :=
  let x := d.mva n
  let p := x.foc.mem.of ph
  let R := d.cfg Fl.slObsRph n
  let L := d.cfg Fl.slObsLph n
  let sc := max 1 (d.cfg Fl.isenseScaleIscale n)
  if R = 0 ∨ L = 0 then p.last.toInt
  else
    let e := Config.bemf ph x.sl.emf x.sl.obsA x.sl.obsV
    saturate 16 (p.last.toInt + rnd ((p.vsum - e * p.age) * 1024000 - R * p.last.toInt * sc * p.age) (8000000 * L * sc))

/-- The value that a window of a converter gives for the current of a phase: its reading over the integration time t with the sign g,
or the predicted one (R249, R252). -/
def windowValue (n ph : Nat) (t : Option Nat) (g : Int) (b : Bool) (x : Cur) (d : Dev) : Int × Dev :=
  match t with
  | some t =>
    let i := g * d.current n b t x
    (i, (clipMark n b t x d).modFoc n fun f => f.setLast ph (BitVec.ofInt 16 i))
  | none => (d.predict n ph, d.bump Fl.isenseStatusNarrow n 1)

/-- A pair of phase currents joins those that the next loop run takes, or, where a result becomes ready less than 120 ns before the period
start, those of the run after it (R248). -/
def addPair (n : Nat) (c : PairCur) (late : Bool) (d : Dev) : Dev :=
  d.modFoc n fun f => if late then { f with late := f.late ++ [c] } else { f with pairs := f.pairs ++ [c] }

/-- Three currents by phase: `a` on pa, `b` on pb, the third what is left. -/
def threeCur (pa pb : Nat) (a b : Int) (ph : Nat) : Int := if ph = pa then a else if ph = pb then b else -a - b

/-- One pair of three legs switching: A gives i_p, B gives −i_r. -/
def threePair (n : Nat) (p r : Nat) (ta tb : Option Nat) (a b : Cur) (late : Bool) (d : Dev) : Dev :=
  let (ip, d) := windowValue n p ta 1 false a d
  let (ir, d) := windowValue n r tb (-1) true b d
  addPair n ⟨threeCur p r ip ir 0, threeCur p r ip ir 1, threeCur p r ip ir 2, ta.isSome || tb.isSome⟩ late d

/-- One reading of two legs switching: the current of c, and what flows back through e. -/
def twoPair (n : Nat) (c e : Nat) (t : Option Nat) (b : Bool) (x : Cur) (late : Bool) (d : Dev) : Dev :=
  let (ic, d) := windowValue n c t 1 b x d
  let cur (ph : Nat) : Int := if ph = c then ic else if ph = e then -ic else 0
  addPair n ⟨cur 0, cur 1, cur 2, t.isSome⟩ late d

/-- A part of a period with its pair of windows: its legs, from the one that is high longest to the one that is so shortest, its length,
the high times there by phase, and the readings of A and B. -/
structure Half where
  win  : PairWin
  legs : List Nat
  len  : Nat
  high : List (Nat × Nat)
  a    : Cur
  b    : Cur
  deriving DecidableEq, Repr

/-- The mean phase voltages of a part of a period join the memories of the phases (R252): a leg's node less the star of the legs that
switch. -/
def addVolts (n : Nat) (h : Half) (d : Dev) : Dev :=
  let bus : Int := d.hw Fl.vbusStatusVbs (n / 8) * 100
  let sum : Int := ((h.high.map (·.2)).sum : Nat)
  let k := h.high.length
  h.high.foldl (fun d e => d.modFoc n fun f => { f with mem := f.mem.mod e.1 fun p =>
    { p with age := p.age + h.len, vsum := p.vsum + rnd (bus * (k * (e.2 : Int) - sum)) k } }) d

/-- The integration time of a window that is valid (R246, R247). -/
def winTime (blank notBefore : Nat) (w : Option Win) : Option Nat :=
  w.bind fun w => if w.ok blank notBefore then some (w.stop - w.start - 8 * blank) else none

/-- A valid window closes too late for the run at the end of the period: its result needs 120 ns, and another 120 ns (R248). -/
def winLate (u blank notBefore : Nat) (w : Option Win) : Bool :=
  (w.map fun w => w.ok blank notBefore && decide (u < w.stop + 1920)).getD false

/-- The readings of the windows of a span. -/
def usePairs (n u : Nat) (two : Bool) (blank notBefore : Nat) : List Half → Dev → Dev
  | [], d => d
  | h :: rest, d =>
    let d := addVolts n h d
    let p := h.legs.headD 0
    let r := h.legs.getLastD 0
    let w := h.win
    let ta := winTime blank notBefore w.a
    let tb := winTime blank notBefore w.b
    let late := winLate u blank notBefore w.a || winLate u blank notBefore w.b
    let d := if two then twoPair n p r (ta.orElse fun _ => tb) w.a.isNone (if w.a.isSome then h.a else h.b) late d
             else threePair n p r ta tb h.a h.b late d
    usePairs n u two blank notBefore rest d

/-! ## Extra windows (R254, R255) -/

/-- A sample, less the calibrated offset, moves the tracked offset of a converter (R255). -/
def trackSample (n : Nat) (b : Bool) (tc t : Nat) (x : Cur) (d : Dev) : Dev :=
  let old := d.track n b
  let t' := clamp 327 (old + rnd (d.lessOffset n b t x - old * t) (max 1 t * 2 ^ tc))
  let d := d.setHw (if b then Fl.isenseTrackTrkB else Fl.isenseTrackTrkA) n (BitVec.ofInt 16 t').toNat
  if t'.natAbs = 327 then d.stick Fl.isenseStatusOfsDrift n else d

/-- The extra window of one converter (R244, R254, R255). -/
def extraOne (n : Nat) (g : SpanSet) (b : Bool) (u : Nat) (auto : List Win) (ls : List WLeg) (x : Cur) (d : Dev) : Dev :=
  let o := if b then g.cmpB0 else g.cmpA0
  let c := if b then g.cmpB1 else g.cmpA1
  match extraWin u o c auto with
  | .none => d
  | .skip => d.stick Fl.isenseStatusTrigSkip n
  | .win w =>
    let t := w.stop - w.start
    let d := (clipMark n b t x d).setHw (if b then Fl.isenseExtraExtraB else Fl.isenseExtraExtraA) n (BitVec.ofInt 16 (d.current n b t x)).toNat
    if g.track && d.on Fl.isenseCfgOfftrack n && inZero w ls then trackSample n b g.tc t x d else d

/-! ## The end of a period (R248 to R254, R278, R301, R304, R316) -/

/-- Counts of pulses dropped and stretched. -/
def countPulses (n : Nat) (ps : List Pulse) (d : Dev) : Dev :=
  (d.bump Fl.pwmStatusMpDrop n (ps.map (·.dropped)).sum).bump Fl.pwmStatusMpStretch n (ps.map (·.stretched)).sum

/-- A leg in the period that has ended: its answers, its pulse, and what it has done. -/
structure LegEnd where
  ph    : Nat
  ans   : List Answer
  p     : Pulse
  run   : LegRun
  deriving DecidableEq, Repr

/-- How long a leg has been low at the end of a period (none: it is high). -/
def tailEnd (sp : Span) (g : SpanSet) (force : Duty) (ph : Nat) : Option Nat :=
  let still (m : LegMode) (t : Nat) : Option Nat := match m with
    | .low => some (32 * sp.len - t)
    | .high => none
    | _ => some 0
  match (sp.turns.filter fun e => e.2.of ph != .switch).getLast? with
  | some e => still (e.2.of ph) e.1
  | none =>
    if ph = 3 then match sp.xrun.getLast? with
      | none => some 0
      | some e => if e.mode = .switch then e.p.tail else still e.mode e.at_.toNat
    else if sp.modes.of ph = .switch then (spanPulse sp g force ph).tail else still (sp.modes.of ph) 0

/-- A leg at the end of a period. `next`: its pulse in the period that begins, where it goes on switching. -/
def legEnd (d : Dev) (n : Nat) (sp : Span) (g : SpanSet) (l : Legs) (q : Meas) (next : Option Pulse) (ph : Nat) : LegEnd :=
  let ans := q.gates.getD (d.swapped n ph) []
  let last : Option Pulse := if ph = 3 then xLast sp else some (spanPulse sp g l.force ph)
  let joined := match last, next with
    | some p, some p' => p.joins g.edge p'
    | _, _ => false
  { ph := ph, ans := ans, p := (spanPulse sp g l.force ph).joined joined, run := legRun sp g l.force joined ans ph }

/-- A leg has conducted low in the period, after the last cut of its high side where there was one (R316). -/
def lowRan (sp : Span) (e : LegEnd) : Bool :=
  match (sp.cut.filter fun c => c.1 = e.ph).getLast? with
  | some c => e.run.edges.any fun g => g.side == some false && g.on.isSome && decide (c.2 < g.off)
  | none => sp.cond.of e.ph == some false || e.run.edges.any fun g => g.side == some false && g.on.isSome

/-- A soft turn-off takes the place of the turn-off profile of a switch (R309, R312). -/
def softened (soft : List GateRun) (g : GateRun) : Bool :=
  !g.on && soft.any fun s => s.pin = g.pin && s.high == g.high && s.at_ = g.at_

/-- What the legs have done in a period: late turn-ons, gate drivers, low times, bootstraps that may serve their high side again. -/
def endLegs (n : Nat) (sp : Span) (g : SpanSet) (es : List LegEnd) (d : Dev) : Dev :=
  let d := es.foldl (fun d e => d.bump Fl.gateStatusIlLate (4 * n + e.ph) (e.run.edges.filter (·.late)).length) d
  let at_ (ph : Nat) : LegRun := (es[ph]?.map (·.run)).getD ⟨[], none, none⟩
  let runs := es.flatMap fun e =>
    let s := g.legs.of e.ph
    gateRuns (d.swapped n e.ph) sp.vbs s.on s.off e.ans (sp.cond.of e.ph) e.run.edges
  let back := maskOf ((es.filter (lowRan sp)).map (·.ph))
  d.modLegs n fun l =>
    let soft := if 0 < l.goingFor then l.runs.filter fun g => g.kind.isSoft else []
    { l with runs := (runs.filter fun g => !softened soft g) ++ soft, bstOff := l.bstOff &&& ~~~ BitVec.ofNat 4 back
             span := { l.span with on := false, set := none, cut := [], turns := []
                                   cond := Four.mk4 fun ph => (at_ ph).cond
                                   prev := Four.mk4 fun ph => (at_ ph).prev.map fun g => { g with at_ := g.at_ - (32 * sp.len : Nat) } } }

/-- The converters of an axis at the end of a period: pairs and extra windows. -/
def converters (n : Nat) (sp : Span) (g : SpanSet) (force : Duty) (q : Meas) (es : List LegEnd) (d : Dev) : Dev :=
  let u := 32 * sp.len
  let centre := 32 * (sp.len / 2)
  let two := sp.off.isSome
  let ls : List WLeg := ((es.take 3).filter fun e => sp.modes.of e.ph == .switch).map fun e =>
    { ph := e.ph, p := e.p, edges := e.run.edges, c0 := phaseHigh (sp.rise.of e.ph) u
      c1 := phaseHigh (force.of e.ph) u }
  let r0 := if g.edge then byFall u ls else byRise u ls
  let r1 := byFall u ls
  let wins := if two then twoWin g.edge u centre ls else threeWin g.edge u centre ls
  let half (w : PairWin) (r : List WLeg) (rise whole : Bool) (a b : Cur) : Half :=
    { win := w, legs := r.map (·.ph), len := if whole then u else u / 2, a := a, b := b
      high := ls.map fun l => (l.ph, let c := if rise then l.c0 else l.c1; if whole then c else c / 2) }
  let halves := match wins with
    | [v, w] => [half v r0 true false q.a q.b, half w r1 false false q.a2 q.b2]
    | ws => ws.map fun v => half v r0 true true q.a q.b
  let d := if q.clip then d.stick Fl.isenseStatusClip n else d
  let d := usePairs n u two g.blank (if sp.fresh then 16000 else 0) halves d
  if g.trig then
    let auto (f : PairWin → Option Win) : List Win := (wins.filterMap f).filter fun w => decide (w.start < w.stop)
    extraOne n g true u (auto (·.b)) ls q.extraB (extraOne n g false u (auto (·.a)) ls q.extraA d)
  else d

/-- The switch of a leg that conducts t units into a period, by its edges and the one that conducted at the start. -/
def sideIn (c0 : Option Bool) (es : List LegEdge) (t : Nat) : Option Bool :=
  match (es.filter fun e => decide (e.off ≤ t)).getLast? with
  | none => c0
  | some e => if (e.on.map fun s => decide (s ≤ t)).getD false then e.side else none

/-- The instants of a period of u units at which a leg of some edges changes, ascending. -/
def changesIn (u : Nat) (es : List LegEdge) : List Nat :=
  sortNat (0 :: u :: (es.flatMap fun e => e.off :: e.on.toList).filter fun t => decide (t < u))

/-- How long the high side of a leg conducts in a period. -/
def highTime (u : Nat) (c0 : Option Bool) (es : List LegEdge) : Nat :=
  let ts := changesIn u es
  ((ts.zip ts.tail).map fun e => if sideIn c0 es e.1 = some true then e.2 - e.1 else 0).sum

/-- An active vector of U, V and W has lasted at least 400 ns, 3,200 units (R455). -/
def slcSample (u : Nat) (sp : Span) (es : List LegEnd) : Bool :=
  let ls := es.take 3
  let ts := changesIn u (ls.flatMap (·.run.edges))
  (ts.zip ts.tail).any fun e =>
    let ss := ls.map fun l => sideIn (sp.cond.of l.ph) l.run.edges e.1
    decide (e.1 + 3200 ≤ e.2) && ss.contains (some true) && ss.contains (some false) && !ss.contains none

/-- What the safety monitors see of a period that has ended (R452, R456). -/
def watchSpan (n : Nat) (sp : Span) (es : List LegEnd) (d : Dev) : Dev :=
  let u := 32 * sp.len
  let high (p : Fin 3) : Option Bool :=
    if sp.modes.of p = .off ∨ sp.turns.any fun e => e.2.of p == .off then none
    else es[p.val]?.map fun e => decide (u < 2 * highTime u (sp.cond.of p) e.run.edges)
  watchSamples n (slcSample u sp es) (watchPhases n (d.mvNow (n / 8)) high d)

/-- The end of a period of an axis. `next` gives the pulses of the phase legs in the period that begins, `old` the legs as they stood in
the ended one. -/
def measure (n : Nat) (q : Meas) (old : Legs) (next : Nat → Option Pulse) (d : Dev) : Dev :=
  let sp := old.span
  match sp.set with
  | none => d.modLegs n fun l =>
    { l with runs := if 0 < l.goingFor then l.runs.filter fun g => g.kind.isSoft else []
             span := { l.span with cond := Four.mk4 fun ph => (sp.modes.of ph).wants.head?.bind (·.2) } }
  | some g =>
    let es := (span 0 4).map fun ph => d.legEnd n sp g old q (next ph) ph
    let ps := (((span 0 3).filter fun ph => sp.modes.of ph == .switch).map (spanPulse sp g old.force)) ++
      (sp.xrun.filter fun e => e.mode == .switch && decide (0 ≤ e.at_)).map (·.p)
    let d := countPulses n ps d
    let d := if sp.on then converters n sp g old.force q es d else d
    endLegs n sp g es (watchSpan n sp es d)

/-- A loop run takes the mean of the pairs that no run has used (R248), and marks what they were (R253). -/
def takePairs (n : Nat) (d : Dev) : Dev :=
  d.modFoc n fun f =>
    if f.pairs.isEmpty then f
    else
      let k := f.pairs.length
      let mean (g : PairCur → Int) : Cur := BitVec.ofInt 16 (saturate 16 (rnd (f.pairs.map g).sum k))
      { f with iu := mean (·.u), iv := mean (·.v), iw := mean (·.w), pairs := [], used := true
               measured := f.measured || f.pairs.any (·.measured) }

/-- The pairs that were late for the run before are there for this one. -/
def lateReady (n : Nat) (d : Dev) : Dev := d.modFoc n fun f => { f with pairs := f.pairs ++ f.late, late := [] }

/-- The currents of an axis whose converters are idle read 0 (R249). -/
def zeroCurrents (n : Nat) (d : Dev) : Dev :=
  d.modFoc n fun f => { f with iu := 0, iv := 0, iw := 0, pairs := [], late := [] }

/-- At the tick boundary PREDICTED takes what the tick's pairs were (R253). -/
def predictedTick (n : Nat) (d : Dev) : Dev :=
  let x := d.mva n
  let p := (x.drive == .field || x.drive == .openloop) && x.foc.used && !x.foc.measured
  (d.modFoc n fun f => { f with used := false, measured := false }).setFlag Fl.isenseStatusPredicted n p

/-! ## CALIBRATE (R256 to R260) -/

/-- The check of R257 that a movement fails, with the word of a single axis. -/
def calCheck (d : Dev) (n : Nat) : Option (Status × Nat) :=
  let m := n / 8
  if !(d.mvOn m && d.trained m) then some (.wrongState, m + 256)
  else if (localAxes m).any fun n => (d.axis n).armed then some (.wrongState, m + 512)
  else none

/-- The end of a calibration of the movement is on its way to the hub. -/
def calEnding (d : Dev) (m : Nat) : Bool := (d.mv m).calEnd.isSome || ((d.mv m).latWay.bind (·.cal)).isSome

/-- An action waits for a calibration: it joins one that others have asked for. -/
def calAdd (a n : Nat) (l : List (Nat × Nat × Bool)) : List (Nat × Nat × Bool) := l ++ [(a, n, l.any fun e => e.1 ≠ a)]

/-- A calibration of the movement of axis n is asked for: it begins at the coming tick boundary, or the descriptor joins one under way. -/
def calJoin (a n : Nat) (d : Dev) : Dev :=
  let m := n / 8
  let next := d.calEnding m
  (d.setHw Fl.isenseCalStatusDone m 0).modMv m fun x =>
    { x with cal := x.cal.orElse fun _ => some false
             calActs := if next then x.calActs else calAdd a n x.calActs
             calNext := if next then calAdd a n x.calNext else x.calNext }

/-- An admitted CALIBRATE. A refused group has the result word of R100. -/
def opCalibrate (c : Ctx) (d : Dev) : Dev :=
  let axes := d.leaves c.x.unit
  match axisFails axes d.calCheck with
  | f :: fs => c.refuseAxes (f :: fs) d
  | [] =>
    let d := c.accepted d
    let (a, d) := d.openAct c.owner c.x.unit axes
    each axes (calJoin a) d

/-- A calibration begins at the movement's tick boundary (R258). -/
def calBegin (m : Nat) (d : Dev) : Dev :=
  if (d.mv m).cal = some false then (d.modMv m fun x => { x with cal := some true, calAt := x.start }).setHw Fl.isenseCalStatusRunning m 1 else d

/-- What a calibration finds for one converter (R258, R265; log entry 187): the offset through the means at 350 ns and at 1,400 ns, and the
gain that makes the reference of ±75 % read as such; a converter whose readings do not rise with it has none. -/
structure CalFit where
  gain : Option Int
  ofs0 : Int
  ofs1 : Int
  deriving DecidableEq, Repr

/-- The factors through the readings of a converter. -/
def calFit (s : CalSums) : CalFit :=
  { gain := if s.minus < s.plus then some (rnd (49152 * 32768 * 384) (s.plus - s.minus).toNat) else none
    ofs0 := rnd (4 * s.at1400 - s.at350) 768, ofs1 := rnd (14 * (s.at350 - s.at1400)) 768 }

/-- The factors of a converter are within the limits (R259). -/
def fitOk (f : CalFit) : Bool :=
  (f.gain.any fun g => decide ((g - 32768).natAbs * 100 ≤ 6 * 32768)) && decide (f.ofs0.natAbs * 100 ≤ 2 * 32768) &&
    decide ((350 * f.ofs0 + 100 * f.ofs1).natAbs ≤ 344064)

/-- The factors of an axis are. -/
def factorsOk (f : CalData) : Bool := fitOk (calFit f.a) && fitOk (calFit f.b)

/-- The factors of one axis are stored. -/
def storeFactors (n : Nat) (f : CalData) (d : Dev) : Dev :=
  let w (x : Int) : Nat := (BitVec.ofInt 16 x).toNat
  let a := calFit f.a
  let b := calFit f.b
  let d := (d.setCfg Fl.isenseGainGainA n (w (a.gain.getD 0))).setCfg Fl.isenseGainGainB n (w (b.gain.getD 0))
  let d := (d.setCfg Fl.isenseOfsOfs0A n (w a.ofs0)).setCfg Fl.isenseOfsOfs0B n (w b.ofs0)
  (d.setCfg Fl.isenseOfswOfs1A n (w a.ofs1)).setCfg Fl.isenseOfswOfs1B n (w b.ofs1)

/-- The tracked offsets of an axis return to 0 (R255). -/
def clearTrack (n : Nat) (d : Dev) : Dev := (d.setHw Fl.isenseTrackTrkA n 0).setHw Fl.isenseTrackTrkB n 0

/-- The factors by axis. -/
def storeAll (m : Nat) : Nat → List CalData → Dev → Dev
  | _, [], d => d
  | j, f :: r, d => storeAll m (j + 1) r (storeFactors (8 * m + j) f d)

/-- A calibration has run its 2.5 ms: its factors are stored, or none of them; the latch frame will carry the end. -/
def calEnded (m : Nat) (factors : List CalData) (d : Dev) : Dev :=
  if (d.mv m).cal ≠ some true ∨ (d.mv m).start + hubClocks (d.mv m).rate < (d.mv m).calAt + 1000000 then d
  else
    let fs := factors.take 8
    let failed := maskOf ((span 0 8).filter fun j => match fs[j]? with | some f => !factorsOk f | none => false)
    let d := d.setHw Fl.isenseCalStatusRunning m 0
    let d := each (localAxes m) clearTrack d
    let d := d.setHw Fl.isenseCalStatusFailAxes m failed
    let d := if failed = 0 then (storeAll m 0 fs d).setHw Fl.isenseCalStatusDone m 1 else d.stick Fl.isenseCalStatusLimit m
    d.modMv m fun x => { x with cal := none, calEnd := some (BitVec.ofNat 8 failed) }

/-- A calibration that runs, or is to begin, is abandoned (R260). -/
def calAbandon (m : Nat) (d : Dev) : Dev :=
  let next := d.calEnding m
  (d.setHw Fl.isenseCalStatusRunning m 0).modMv m fun x =>
    { x with cal := none, calGone := x.calGone ++ if next then x.calNext else x.calActs
             calActs := if next then x.calActs else [], calNext := [] }

/-- Actions on a calibration end (R258, R259). -/
def calFinish (m : Nat) (st : Status) (failed : Nat) (acts : List (Nat × Nat × Bool)) (d : Dev) : Dev :=
  acts.foldl (fun d e => d.endAct e.1 e.2.1 st (BitVec.ofNat 32 (m + (if e.2.2 then 8 else 0) + failed * 16))) d

/-- The end of a calibration closes its actions; those of the next one wait on. -/
def calClose (m : Nat) (st : Status) (failed : Nat) (d : Dev) : Dev :=
  calFinish m st failed (d.mv m).calActs (d.modMv m fun x => { x with calActs := x.calNext, calNext := [] })

/-- Phase 1 takes a good end from the latch frame. -/
def calPhase1 (m : Nat) (e : Option (BitVec 8)) (d : Dev) : Dev := if e = some 0 then calClose m .ok 0 d else d

/-- Phase 2 raises CAL_LIMIT for a failed end that the latch frame carries. -/
def calRaise (m : Nat) (e : Option (BitVec 8)) (d : Dev) : Dev :=
  match e with
  | some f => if f = 0 then d else d.raise .calLimit m m presLink
  | none => d

/-- After the reactions of phase 2, a failed calibration closes its actions, and so do the abandoned ones. -/
def calPhase2 (m : Nat) (e : Option (BitVec 8)) (d : Dev) : Dev :=
  let d := match e with
    | some f => if f = 0 then d else calClose m .stoppedFault f.toNat d
    | none => d
  calFinish m .stoppedFault 0 (d.mv m).calGone (d.modMv m fun x => { x with calGone := [] })

end Dev

/-- CALIBRATE. -/
def execCalibrate (i : Fin 128) (slot : BitVec 16) (x : Desc) (s : State) : Host.Outcome State Fault Refusal :=
  s.onDev (Dev.dispatch .calibrate i slot (withOpcode .calibrate x) Dev.opCalibrate)

/-- CALIBRATION_END (R258, R259). -/
def execCalibrationEnd (m : Fin 8) (factors : List CalData) (s : State) : Host.Outcome State Fault Refusal :=
  s.onDev (Dev.calEnded m factors)

end Sys2Proof.Machine
end

