-- ==== Sys2Proof/Machine/Pwm.lean ====
section
/-! DEFINITION. Pwm.lean: the PWM periods of a movement: transfers, sensorless angle and float windows, winding short, bootstrap
refresh, loop runs; AUX_PWM; precharge, park and wake; halts (chapters 6, 7, 9, 10, 17). -/

namespace Sys2Proof.Machine.Dev

/-! ## X legs (R182, R188, R272, R280 to R284) -/

/-- The aux set that a setpoint frame has committed enters into force at a tick boundary (R281). -/
def xTransfer (n : Nat) (d : Dev) : Dev :=
  d.modLegs n fun l =>
    match l.xbuf with
    | none => l
    | some c => { l with xval := c.duty.getD l.xval, xk := c.xk.getD l.xk, xbuf := none }

/-- The check of R283 for one axis. -/
def auxCheck (x : Desc) (d : Dev) (n : Nat) : Option (Status × Nat) :=
  let xk := bits x.w2 16 4
  if !(d.axis n).armed then some (.notArmed, 0)
  else if x.opflag 0 && (decide (10 < xk) || decide (20 < xk * rate5k d.time.rate)) then some (.paramRange, 2)
  else none

/-- The change that an AUX_PWM makes. -/
def auxSet (x : Desc) : XCmd :=
  { duty := if x.opflag 1 then none else some (BitVec.ofNat 16 (bits x.w2 0 16))
    xk := if x.opflag 0 then some (BitVec.ofNat 4 (bits x.w2 16 4)) else none }

/-- The result word of AUX_PWM for an axis, after its change has joined the coming aux set. -/
def auxResult (d : Dev) (n : Nat) : Nat :=
  let l := (d.mva n).legs
  let c := (d.axis n).xduty
  let duty := (c.bind (·.duty)).getD l.xval
  let xk := ((c.bind (·.xk)).getD l.xk).toNat
  let k := if xk = 0 then d.kOf (n / 8) else xk
  (if xKept (d.mva n) then 1 else 0) +
    if d.on Fl.pwmXcfgXmode n && decide (mvClocks d.time.rate / k ≤ duty.toNat) then 2 else 0

/-- An admitted AUX_PWM. -/
def opAuxPwm (c : Ctx) (d : Dev) : Dev :=
  let axes := d.leaves c.x.unit
  match axisFails axes (auxCheck c.x d) with
  | f :: fs => c.refuseAxes (f :: fs) d
  | [] =>
    let d := if c.x.opflag 1 && !c.x.opflag 0 then d else each axes (fun n d => xMerge n (auxSet c.x) d) d
    c.okAxes (BitVec.ofNat 32 (d.auxResult (axes.headD 0))) d

/-! ## The winding short (R191) -/

/-- The short runs one PWM period on, and changes sides; a low bootstrap ends a high-side interval early; a probe holds it (R193; log
entry 146). -/
def shortStep (n : Nat) (low : Bool) (d : Dev) : Dev :=
  let x := d.mva n
  if (x.drive ≠ .brake ∧ x.drive ≠ .orphanBrake) ∨ probing x then d
  else d.modLegs n fun l =>
    if l.high && low then { l with high := false, left := d.altPeriods n }
    else if l.left ≤ 1 then { l with high := !l.high, left := d.altPeriods n }
    else { l with left := l.left - 1 }

/-! ## Sensorless angle (R215, R216, R222, R226) -/

/-- The position that the setpoint gives in period i of K, in 1/256 count. -/
def forcedPos (d : Dev) (n i K : Nat) : Int :=
  let sp := (d.mva n).sp
  sp.pos.toInt + rnd (sp.speed.toInt * i) (256 * K)

/-- The forced angle at a setpoint position. -/
def forcedAngle (d : Dev) (n : Nat) (p : Int) : BitVec 16 :=
  let s := (d.mva n).sl
  s.theta + BitVec.ofInt 16 (rnd ((p - s.ref) * 256) (d.cpe n))

/-- A new sector of RAMP begins with a commutation: the one before it counted and was not good, so that the count restarts; SYNCMAX
sectors begun at or above VHAND fail the start (R216, R218). -/
def newSector (n : Nat) (d : Dev) : Dev :=
  let s := (d.mva n).sl
  let above := decide (d.vhand n ≤ (d.mva n).sp.speed.toInt.natAbs)
  let counts := s.counts || above
  let begun := if above then s.begun + 1 else s.begun
  let fail := s.next.isNone && above && decide (max (d.cfg Fl.slSyncSyncmax n) (d.zccount n) ≤ begun)
  let now := d.mvNow (n / 8)
  d.modSl n fun s =>
    { s with good := if s.counts && !s.secGood then 0 else s.good, counts := counts, begun := begun, secGood := false, comm := now
             next := if fail then some .fail else s.next }

/-- RAMP and FORCED: angle and position count follow the setpoint. -/
def forcedStep (n i K : Nat) (d : Dev) : Dev :=
  let s := (d.mva n).sl
  if !d.sensorless n ∨ (s.phase ≠ phRamp ∧ s.phase ≠ phForced) then d
  else
    let p := d.forcedPos n i K
    let a := d.forcedAngle n p
    let now := d.mvNow (n / 8)
    wrapCheck n (setCounter n (s.cbase + (p - s.ref)) (d.modSl n fun s => { s with angle := a, angAt := now }))

/-- RAMP commutates at the period start at which its forced angle stands in another sector than before. -/
def commutate (n : Nat) (was : Sl) (d : Dev) : Dev :=
  let s := (d.mva n).sl
  if was.phase = phRamp ∧ s.phase = phRamp ∧ rampSector s ≠ rampSector was then newSector n d else d

/-- Speed magnitude of the profile. -/
def spMag (d : Dev) (n : Nat) : Nat := (d.mva n).sp.speed.toInt.natAbs

/-- OBSERVER and FORCED change into each other at a PWM boundary (R222); while the profile waits for the rotor, its speed is not judged (R225,
R228, R233) (log entry 205). -/
def handSwitch (n i K : Nat) (d : Dev) : Dev :=
  let s := (d.mva n).sl
  if s.phase = phObserver ∧ !(d.mva n).sp.wait ∧ d.spMag n < d.vlow n then
    let p := d.forcedPos n i K
    let c := d.posInt n
    d.modSl n fun s => { s with phase := phForced, theta := s.obsA, angle := s.obsA, ref := p, cbase := c, band := 0 }
  else if s.phase = phForced ∧ d.vhand n ≤ d.spMag n ∧ d.zccount n ≤ s.band then
    (setCounter n (d.posInt n + d.angleCounts n (angleDiff s.obsA s.angle)) d).modSl n fun s =>
      { s with phase := phObserver, angle := s.obsA, band := 0 }
  else d

/-- LOSS_COAST ends in a short once the rotor is slow, or has no valid speed (R226). -/
def coastEnd (n : Nat) (d : Dev) : Dev :=
  let s := (d.mva n).sl
  if s.phase ≠ phCoast then d
  else if d.stillDue n || !s.cvalid || decide ((d.crossSpeed n).toInt.natAbs < d.thresh n) then endSeq n .brake phNone .lost d
  else d

/-- Float windows are scheduled (R223). -/
def windowsOn (d : Dev) (n : Nat) : Bool :=
  let s := (d.mva n).sl
  d.sensorless n && d.on Fl.slLossWfloatEn n && (d.mva n).drive == .field &&
    (s.phase == phObserver || (s.phase == phForced && decide (d.vlow n ≤ d.spMag n)))

/-- Length of a float window in PWM periods. -/
def windowLen (d : Dev) (n : Nat) : Nat := d.cfg Fl.slLossFloatper n + 1

/-- The reference angle of the windows at this period start and its speed in counts per tick; the observer's angle is advanced from its last
run. -/
def windowRef (d : Dev) (n : Nat) : BitVec 16 × Int :=
  let x := d.mva n
  if x.sl.phase = phObserver then
    (x.sl.obsA + BitVec.ofInt 16 (d.advance16 n x.sl.obsV.toInt (d.mvNow (n / 8) - x.sl.obsAt)), x.sl.obsV.toInt)
  else (x.sl.angle, x.sp.speed.toInt)

/-- The crossing ahead of an angle in a direction: its angle in 60°, and its distance in sixths of an angle unit (R223). -/
def crossAhead (a : BitVec 16) (v : Int) : Nat × Nat :=
  let r := 6 * a.toNat % 65536
  let k := 6 * a.toNat / 65536
  if v < 0 then (k, r) else if r = 0 then (k, 0) else ((k + 1) % 6, 65536 - r)

/-- What a period start does to float windows: nothing, open the window of a crossing, skip it, or let it pass. -/
inductive WinStep where
  | none
  | start (j : Nat)
  | skip (j : Nat)
  | pass (j : Nat)
  deriving DecidableEq, Repr

/-- A window opens at the period start nearest to its crossing less half its length: from this one on the distance is below
(len + 1) / 2 periods; one that should have begun before the conditions held passes; it is skipped where the sector is shorter than
len + 2 periods (R223). -/
def windowPick (d : Dev) (n K : Nat) : WinStep :=
  let s := (d.mva n).sl
  let (a, v) := d.windowRef n
  let (j, D) := crossAhead a v
  let len := d.windowLen n
  let f := d.cpe n * K
  if v = 0 ∨ s.wdone = some j ∨ 3 * (len + 1) * v.natAbs ≤ D * f then .none
  else if 65536 * f < 6 * v.natAbs * (len + 2) then .skip j
  else if !s.wcond ∧ D * f < 3 * (len - 1) * v.natAbs then .pass j
  else .start j

/-- Float windows at a period start: one that runs goes on; one opens, or is skipped where the sector is too short or where the axis
has left the conditions before (R223). -/
def windowStep (n K : Nat) (d : Dev) : Dev :=
  let x := d.mva n
  let l := x.legs
  let on := d.windowsOn n
  let pick := d.windowPick n K
  let d := d.modSl n fun s => { s with wcond := on, wdone := if on then s.wdone else none }
  if 1 < l.wleft && on then d.modLegs n fun l => { l with wleft := l.wleft - 1 }
  else
    let d := d.modLegs n fun l => { l with wphase := none, wleft := 0 }
    if !on then (if x.sl.wcond && l.wphase.isNone then d.bump Fl.slStatusWskip n 1 else d)
    else match pick with
      | .none => d
      | .skip j => (d.modSl n fun s => { s with wdone := some j }).bump Fl.slStatusWskip n 1
      | .pass j => d.modSl n fun s => { s with wdone := some j }
      | .start j =>
        (d.modSl n fun s => { s with wdone := some j, wtaken := false, winEmf := s.emf }).modLegs n fun l =>
          { l with wphase := some (crossPhase j), wleft := d.windowLen n }

/-! ## The observer (R222) -/

/-- One run of the observer of an axis in drive FIELD; in OBSERVER the position count follows its angle, and SLS channel 1 takes its counts
from it (R433). -/
def observe (n : Nat) (d : Dev) : Dev :=
  let x := d.mva n
  if x.drive ≠ .field ∨ (!d.sensorless n ∧ (d.cfg Fl.slObsRph n = 0 ∨ d.cfg Fl.slObsLph n = 0)) then d
  else
    let par := d.cfg Fl.slObsRph n + d.cfg Fl.slObsLph n * 2 ^ 16 + max 1 (d.cfg Fl.slObsCfgBw n) * 2 ^ 32
    let f := x.foc
    let a := Config.obsAngle f.vd f.vq f.iu f.iv par x.sl.obsA
    let d' := d.modSl n fun s =>
      { s with obsA := a, obsAt := d.mvNow (n / 8), obsV := Config.obsSpeed f.vd f.vq f.iu f.iv par s.obsV, emf := Config.obsEmf f.vd f.vq f.iu f.iv par s.emf }
    if d.sensorless n && x.sl.phase == phObserver then
      let e := addSteps n (angleDiff a x.sl.obsA) (d'.modSl n fun s => { s with angle := a })
      let k := e.wholeCount n - d.wholeCount n
      if k = 0 then e else watchEdge n k (d.mvNow (n / 8)) e
    else d'

/-! ## A period start and a period centre (R18, R175, R248, R274, R275) -/

/-- The loop runs in period i of K at a tick rate: in every period up to 50 kHz, else in every second one; and the periods since
its last run. -/
def loopRuns (rate : BitVec 2) (K i : Nat) : Option Nat :=
  if K * rate5k rate ≤ 10 then some 1
  else if i % 2 ≠ 0 then none
  else if i = 0 ∧ K % 2 = 1 then some 1
  else some 2

/-- When local axis j sets its commit flag, in counts from the period start (R175). -/
def commitAt (j : Nat) : Nat := 300 + 200 * j

/-- The commit buffer moves into force. -/
def transfer (n : Nat) (d : Dev) : Dev :=
  d.modLegs n fun l => match l.buf with
    | none => l
    | some b => { l with force := b, buf := none }

/-- What the legs bring into the period that begins: the low time of each leg so far. -/
def tails (old : Legs) : Four (Option Nat) :=
  match old.span.set with
  | none => ⟨some 0, some 0, some 0, some 0⟩
  | some g => Four.mk4 (tailEnd old.span g old.force)

/-- The X period of an ended span that goes on into the one that begins; a mode that the leg has taken inside stays (R279, R280). -/
def xCarry (old : Span) : List XRun :=
  let u : Int := (32 * old.len : Nat)
  let turned := (old.turns.map fun e => e.2.x).filter (· != .switch)
  (old.xrun.filter fun e => decide (u < e.at_ + ((32 * e.len : Nat) : Int))).map fun e =>
    { e with at_ := e.at_ - u, mode := turned.getLast?.getD e.mode }

/-- The first X period of the tick that begins after period i of K. -/
def xNext (d : Dev) (n M K i : Nat) : Option (Nat × Nat) :=
  let xk := d.xkOf n
  ((span 0 xk).find? fun j => decide ((i + 1) * M / K ≤ j * M / xk)).map fun j => (j * M / xk - i * M / K, periodLen M xk j)

/-- The X periods that period i of K meets: they start anew at the tick boundary (R280); a dropped low pulse is known before the X period that
it belongs to begins (R278). -/
def xComing (d : Dev) (n M K i : Nat) (g : SpanSet) (mode : LegMode) (q : Meas) (old : Legs) (tail : Option Nat) : List XRun :=
  let carry := if i = 0 then [] else xCarry old.span
  let runs := xRuns mode g (d.bstuv (n / 8)) (g.xper ++ (d.xNext n M K i).toList) q.bstX tail (old.refresh.getLsbD 3)
  (joinRuns g.edge (carry ++ runs)).take (carry.length + g.xper.length)

/-- The period that begins, with the refreshes that it needs (R249, R250, R315); the converters stand still during a calibration (R258). -/
def coming (d : Dev) (n M K i : Nat) (q : Meas) (old : Legs) : Span :=
  let m := n / 8
  let x := d.mva n
  let off := floated x
  let g := d.spanSet n M K i
  let tail := tails old
  let sp : Span :=
    { len := periodLen M K i, on := (x.drive == .field || x.drive == .openloop) && (d.mv m).cal != some true, off := off
      rise := x.legs.force, fresh := x.legs.wphase.isSome && decide (off ≠ old.span.off), tail := tail, set := some g
      modes := x.legs.modes, xrun := d.xComing n M K i g x.legs.modes.x q old tail.x
      loose := if d.flag Fl.pwmMvstatusDllLock m then [] else [(0, none)], vbs := d.hw Fl.vbusStatusVbs m }
  let again := (span 0 3).filter fun ph => d.needsRefresh n sp g q (x.legs.refresh.getLsbD ph) ph
  let xAgain := (((sp.xrun.filter fun e => decide (0 ≤ e.at_)).getLast?).map (·.refresh)).getD (x.legs.refresh.getLsbD 3)
  { sp with refresh := BitVec.ofNat 4 (maskOf (again ++ if xAgain then [3] else [])) }

/-- The pulse that a leg begins a period with, where it switches. -/
def nextPulse (sp : Span) (ph : Nat) : Option Pulse :=
  if ph = 3 then (sp.xrun.head?.filter fun e => e.at_ = 0 && e.mode == .switch).map (·.p)
  else if sp.modes.of ph = .switch then sp.set.map fun g => spanPulse sp g sp.rise ph else none

/-- The period begins: its refreshes are counted, and X periods whose raw count lies beyond them (R272, R315). -/
def beginSpan (n : Nat) (sp : Span) (d : Dev) : Dev :=
  let d := d.modLegs n fun l => { l with refresh := sp.refresh, span := { sp with cond := l.span.cond, prev := l.span.prev, block := l.bstOff } }
  let xs := (sp.xrun.filter fun e => e.refresh && decide (0 ≤ e.at_)).map fun _ => 3
  let d := ((bitsSet 3 (sp.refresh.toNat % 8)) ++ xs).foldl
    (fun d ph => (d.stick Fl.gateStatusBstRefreshed (4 * n + ph)).bump Fl.gateStatusRefresh (4 * n + ph) 1) d
  match sp.set with
  | some g =>
    if sp.modes.x = .switch && g.xper.any fun e => beyond g.xval g.xraw (32 * e.2) then d.stick Fl.pwmStatusCompareBeyondPeriod n else d
  | none => d

/-- The sequence of a sensorless axis, its probe and its short at a period start. -/
def seqPeriod (n i K : Nat) (q : Meas) (d : Dev) : Dev :=
  let was := (d.mva n).sl
  let d := commutate n was (slBoundary n (forcedStep n i K d))
  let d := probeStep n (coastEnd n (handSwitch n i K d))
  windowStep n K (shortStep n (d.shortLow n q) d)

/-- From the current sample to the centre of the period in which the new duty applies, in half counts (R176). -/
def loopAhead (d : Dev) (n M K i : Nat) : Nat :=
  let m := n / 8
  let L := periodLen M K i
  if d.on Fl.pwmMvcfgMidupd m && !d.edgeAligned m && decide (commitAt (n % 8) + 5 ≤ L / 2) then L
  else 2 * L + periodLen M K ((i + 1) % K)

/-- A loop run of one axis. -/
def loopRun (n delta M K i : Nat) (d : Dev) : Dev :=
  let v := (d.mva n).fb.speed
  let now := d.periodAt (n / 8) i
  filterIq n v now (currentRun n delta M (d.loopAhead n M K i) v now (observe n (takePairs n d)))

/-- One axis at a period start. -/
def axisPeriod (n i K : Nat) (q : Meas) (d : Dev) : Dev :=
  let rate := (d.mv (n / 8)).rate
  let M := mvClocks rate
  let old := (d.mva n).legs
  let d := setModes n (seqPeriod n i K q (transfer n (lateReady n d)))
  let sp := d.coming n M K i q old
  let d := measure n q old (nextPulse sp) d
  let d := match (d.mva n).drive with
    | .field => d
    | .openloop => d
    | .brake => d
    | .orphanBrake => d
    | _ => zeroCurrents n d
  let d := beginSpan n sp d
  match loopRuns rate K i with
  | none => d
  | some delta => loopRun n delta M K i d

/-- The eight axes in ascending order; an axis without a measurement is left out. -/
def axesPeriod (i K : Nat) : Nat → List Meas → Dev → Dev
  | _, [], d => d
  | n, q :: r, d => axesPeriod i K (n + 1) r (axisPeriod n i K q d)

/-- A reading of VDRV: VDRV_OK from 9.5 V rising, or 9.0 V falling, to 16.0 V (R313). -/
def vdrvRead (m : Nat) (v : BitVec 8) (d : Dev) : Dev :=
  let lo := if d.flag Fl.gateMvstatusVdrvOk m then 90 else 95
  (d.setHw Fl.gateMvstatusVdrv m v.toNat).setFlag Fl.gateMvstatusVdrvOk m (decide (lo ≤ v.toNat) && decide (v.toNat ≤ 160))

/-- The code of the 10-bit converter for a voltage of the VBS ball in mV: full scale is 3.000 V (R487; log entry 184). -/
def vbsCode (pin : BitVec 12) : Nat := min 1023 (rnd (pin.toNat * 1023 : Nat) 3000).toNat

/-- The bus voltage in 100 mV for a voltage of the VBS ball in mV: FS stands for 3.000 V (R487). -/
def vbsOf (d : Dev) (m : Nat) (pin : BitVec 12) : Nat := min 4095 (rnd (vbsCode pin * max 1 (d.cfg Fl.vbusCfgFs m) : Nat) 1023).toNat

/-- A reading of the bus: the conditions of VBUS_OV and VBUS_UV end beyond their hysteresis of 2 % of FS (R487, R488). -/
def vbsRead (m : Nat) (pin : BitVec 12) (d : Dev) : Dev :=
  let v := d.vbsOf m pin
  let d := d.setHw Fl.vbusStatusVbs m v
  let fs := max 1 (d.cfg Fl.vbusCfgFs m)
  let ov := min 1800 (d.cfg Fl.vbusLimOv m)
  let uv := d.cfg Fl.vbusLimUv m
  let d := if 50 * v + fs ≤ 50 * ov then d.setHw Fl.vbusStatusOvNow m 0 else d
  if uv = 0 ∨ 50 * uv + fs ≤ 50 * v then d.setHw Fl.vbusStatusUvNow m 0 else d

/-- A new mode of the feedback inputs, or a new CPE, leaves the position as it stands, in whole counts in encoder mode; a new mode makes it
unverified and clears the index reference, which the setting of ZEN does as well; a new filter length counts its samples anew (R361,
R362, R365, R367, R369, R374). -/
def fbForce (r : Reg) (n : Nat) (mask v : Word) (t : Nat) (d : Dev) : Dev :=
  let e := enforce r n mask v d
  let p := if e.fbMode n = 0 then d.posInt n / 256 * 256 else d.posInt n
  let kept := if e.fbMode n = d.fbMode n ∧ e.cfg Fl.elecCfgCpe n = d.cfg Fl.elecCfgCpe n then e else setCounter n p e
  let kept := if e.fbMode n = d.fbMode n then kept
    else
      let new := unverified n (kept.modFb n fun f => { f with zref := none, sector := none })
      if (d.mva n).fb.init then takeSector n new else new
  let kept := if e.on Fl.fbCfgZen n && !d.on Fl.fbCfgZen n then kept.modFb n fun f => { f with zref := none } else kept
  kept.modFb n fun f =>
    { f with filtAt := if e.cfg Fl.fbCfgFilt n = d.cfg Fl.fbCfgFilt n then f.filtAt else t
             swAt := if e.cfg Fl.fbCfgSwfilt n = d.cfg Fl.fbCfgSwfilt n then f.swAt else t }

/-- Bits of a movement register come into force at the instant t, in hub clocks; writing 0 to OFFTRACK clears the tracked offsets
(R255). -/
def mvForce (r : Reg) (i : Nat) (mask v : Word) (t : Nat) (d : Dev) : Dev :=
  match r with
  | .fbCfg => fbForce r i mask v t d
  | .elecCfg => fbForce r i mask v t d
  | .isenseCfg =>
    let d := enforce r i mask v d
    if bit mask 13 && !bit v 13 then clearTrack i d else d
  | _ => enforce r i mask v d

/-- A waiting write of a movement register takes effect. -/
def mvTake (t : Nat) (w : PendW) (d : Dev) : Dev :=
  match decodeOffset w.off with
  | none => d
  | some (r, i) => mvForce r i w.mask w.val t d

/-- A period start of a movement, where its waiting writes take effect (the tick boundary's are taken there): nothing where its tick has
had all its periods; every leg is off where its PWM frequency is too high (R269). -/
def periodStart (m : Nat) (meas : List Meas) (vbs : BitVec 12) (vdrv : BitVec 8) (d : Dev) : Dev :=
  let K := d.kOf m
  let i := (d.mv m).period
  if !d.mvRuns m ∨ K ≤ i then d
  else
    let d := if i = 0 then d else takePend (fun w => inMv m w.off && !w.tick) (mvTake (d.periodAt m i)) d
    let d := vdrvRead m vdrv (vbsRead m vbs (d.modMv m fun x => { x with period := i + 1 }))
    if !d.kOk m then each (localAxes m) (fun n d => modesAt (32 * (d.mva n).legs.span.len) n d) d
    else axesPeriod i K (8 * m) (meas.take 8) d

/-- A period centre of one axis: a commit in time is taken, a late one is counted (R275, R276). -/
def axisCentre (centre : Nat) (n : Nat) (d : Dev) : Dev :=
  let c := commitAt (n % 8)
  if (d.mva n).legs.buf.isNone then d
  else if c + 5 ≤ centre then (transfer n d).modLegs n fun l => { l with span := { l.span with again := true } }
  else if c < centre then d.bump Fl.pwmStatusLateCommit n 1
  else d

/-- A period centre of a movement: an update boundary where MIDUPD is 1 in centre-aligned mode (R275). -/
def periodCentre (m : Nat) (d : Dev) : Dev :=
  let K := d.kOf m
  let i := (d.mv m).period
  if !d.mvRuns m ∨ i = 0 ∨ !d.on Fl.pwmMvcfgMidupd m ∨ d.edgeAligned m then d
  else each (localAxes m) (axisCentre (periodLen (mvClocks (d.mv m).rate) K (i - 1) / 2)) d

/-! ## Precharge, park and wake (R186, R513, R514) -/

/-- An instant `off` hub clocks after the movement's last boundary, in units of 125 ps from the start of the PWM period. -/
def inPeriod (d : Dev) (m off : Nat) : Nat := 20 * off - 32 * (((d.mv m).period - 1) * mvClocks (d.mv m).rate / d.kOf m)

/-- The precharge of an axis has run: its low sides turn off, `off` hub clocks after the movement's last boundary. -/
def prechargeEnd (n off : Nat) (d : Dev) : Dev :=
  if (d.mva n).drive = .precharge then
    modesAt (d.inPeriod (n / 8) off) n (d.modMva n fun x => { x with pre := false, preAt := (d.mv (n / 8)).start + off })
  else d

/-- Every axis of a movement is unarmed. -/
def mvUnarmed (d : Dev) (m : Nat) : Bool := (localAxes m).all fun n => !(d.axis n).armed

/-- The movement is parked. -/
def parked (d : Dev) (m : Nat) : Bool := (d.hw Fl.pwrStatusParked 0).testBit m

/-- A bit of a mask field of one register. -/
def setBit (d : Dev) (f : Fld) (m : Nat) (b : Bool) : Dev :=
  let w := d.hw f 0
  d.setHw f 0 (if b then w ||| 2 ^ m else if w.testBit m then w - 2 ^ m else w)

/-- The movement has been unarmed for PARKTIME ms (400,000 hub clocks each). -/
def parkDue (d : Dev) (m : Nat) : Bool :=
  d.mvOn m && !d.parked m && !(d.mv m).waking && d.mvUnarmed m && d.cfg Fl.pwrParkParktime 0 ≠ 0 &&
    decide (d.cfg Fl.pwrParkParktime 0 * 400000 ≤ (d.mv m).idle)

/-- The movement parks. -/
def park (m : Nat) (d : Dev) : Dev := if d.parkDue m then d.setBit Fl.pwrStatusParked m true else d

/-- The wake of a movement ends: it is unparked, and the precharge of each axis that waits begins. -/
def wakeEnd (m : Nat) (d : Dev) : Dev :=
  if !(d.mv m).waking then d
  else
    let d := ((d.modMv m fun x => { x with waking := false })).setBit Fl.pwrStatusParked m false
    each (localAxes m) (fun n d =>
      if (d.mva n).drive = .precharge then modesAt (d.turnAt n) n (d.modMva n fun x => { x with pre := true, wakePre := true }) else d) d

/-! ## Halts (R201, R287, R288) and the delay line (R289) -/

/-- Every axis of a movement enters HALT, where nothing of higher precedence holds it. -/
def haltAxes (m : Nat) (d : Dev) : Dev :=
  each (localAxes m) (fun n d => match (d.mva n).drive with
    | .sto => d
    | .orphanSto => d
    | .orphanBrake => d
    | _ => modesAt (d.turnAt n) n (setDrive n .halt d)) d

/-- A halt ends: its axes return in drive OFF, unarmed. -/
def haltEnd (m : Nat) (d : Dev) : Dev :=
  each (localAxes m) (fun n d =>
    if (d.mva n).drive = .halt then disarmAxis false n (setDrive n .off (seqDrop n d)) else d) d

/-- A clock monitor trips. -/
def clockTrip (m : Nat) (d : Dev) : Dev :=
  if !d.mvOn m ∨ (d.mv m).clkBad then d
  else ((haltAxes m (d.modMv m fun x => { x with clkBad := true })).stick Fl.pwmMvstatusClkTrip m).raise1 .mvClock m m m

/-- The clock has been correct for 100 µs. -/
def clockBack (m : Nat) (d : Dev) : Dev :=
  if !(d.mv m).clkBad then d
  else
    let d := d.modMv m fun x => { x with clkBad := false }
    if (d.mv m).halted then d else haltEnd m d

/-- The hub's ticks stop during a lockout, which its own oscillator goes on to time (R443, R463). -/
def lockBlind (d : Dev) : Dev :=
  if d.flag Fl.lockStatusLockout 0 then { d with lock := { d.lock with blind := true } } else d

/-- A debug request for a movement is granted while scope 3 is open. -/
def debugHalt (m : Nat) (d : Dev) : Dev :=
  if !d.scopeOpen 3 then d
  else if m = 8 then ({ d with sys := { d.sys with hubHalt := true } } : Dev).lockBlind
  else if !d.mvOn m ∨ (d.mv m).halted then d
  else (haltAxes m (d.modMv m fun x => { x with halted := true })).setHw Fl.pwmMvstatusDbgHalt m 1

/-- A debug halt ends. -/
def debugResume (m : Nat) (d : Dev) : Dev :=
  if m = 8 then { d with sys := { d.sys with hubHalt := false } }
  else if !(d.mv m).halted then d
  else
    let d := (d.modMv m fun x => { x with halted := false }).setHw Fl.pwmMvstatusDbgHalt m 0
    if (d.mv m).clkBad then d else haltEnd m d

/-- The delay line loses lock: the edges that follow lie on the 4 ns count (R289). -/
def dllLost (m : Nat) (d : Dev) : Dev :=
  if !d.mvOn m ∨ !d.flag Fl.pwmMvstatusDllLock m then d
  else
    let d := each (localAxes m) (fun n d =>
      let t := d.turnAt n
      d.modLegs n fun l => { l with span := { l.span with loose := l.span.loose ++ [(t, none)] } }) d
    (d.setHw Fl.pwmMvstatusDllLock m 0).stick Fl.pwmMvstatusDllLost m

/-- The delay line finds its lock: the edges that follow lie on their taps again (R289). -/
def dllLock (m : Nat) (d : Dev) : Dev :=
  if !d.mvOn m ∨ d.flag Fl.pwmMvstatusDllLock m then d
  else
    let d := each (localAxes m) (fun n d =>
      let t := d.turnAt n
      d.modLegs n fun l => { l with span := { l.span with loose := l.span.loose.map fun e => (e.1, some (e.2.getD t)) } }) d
    d.setHw Fl.pwmMvstatusDllLock m 1

end Sys2Proof.Machine.Dev

namespace Sys2Proof.Machine

/-- AUX_PWM. -/
def execAuxPwm (i : Fin 128) (slot : BitVec 16) (x : Desc) (s : State) : Host.Outcome State Fault Refusal :=
  s.onDev (Dev.dispatch .auxPwm i slot (withOpcode .auxPwm x) Dev.opAuxPwm)

/-- PWM_BOUNDARY: a period start, or a period centre (R269, R275). -/
def execPwmBoundary (m : Fin 8) (mid : Bool) (meas : List Meas) (vbs : BitVec 12) (vdrv : BitVec 8) (s : State) :
    Host.Outcome State Fault Refusal :=
  s.onDev fun d => if mid then Dev.periodCentre m d else (Dev.periodStart m meas vbs vdrv d).settle

/-- PRECHARGE_END (R186). -/
def execPrechargeEnd (e : AxisAt) (s : State) : Host.Outcome State Fault Refusal := s.onDev (Dev.prechargeEnd e.ax e.off)

/-- PARK (R513). -/
def execPark (m : Fin 8) (s : State) : Host.Outcome State Fault Refusal := s.onDev (Dev.park m)

/-- WAKE_END (R514). -/
def execWakeEnd (m : Fin 8) (s : State) : Host.Outcome State Fault Refusal := s.onDev (Dev.wakeEnd m)

/-- CLOCK_MONITOR_TRIP (R288). -/
def execClockMonitorTrip (m : Fin 8) (s : State) : Host.Outcome State Fault Refusal := s.onDev (Dev.clockTrip m)

/-- CLOCK_RECOVERY (R288). -/
def execClockRecovery (m : Fin 8) (s : State) : Host.Outcome State Fault Refusal := s.onDev (Dev.clockBack m)

/-- DLL_LOST (R289). -/
def execDllLost (m : Fin 8) (s : State) : Host.Outcome State Fault Refusal := s.onDev (Dev.dllLost m)

/-- DLL_LOCK (R289). -/
def execDllLock (m : Fin 8) (s : State) : Host.Outcome State Fault Refusal := s.onDev (Dev.dllLock m)

/-- DEBUG_HALT (R287). -/
def execDebugHalt (m : Fin 9) (s : State) : Host.Outcome State Fault Refusal := s.onDev (Dev.debugHalt m)

/-- DEBUG_RESUME (R201, R287). -/
def execDebugResume (m : Fin 9) (s : State) : Host.Outcome State Fault Refusal := s.onDev (Dev.debugResume m)

end Sys2Proof.Machine
end

