-- ==== Sys2Proof/Machine/Gate.lean ====
section
/-! DEFINITION. Gate.lean: shorts, interlock, bootstraps, gate supply, OFFTEST (chapter 10). -/

namespace Sys2Proof.Machine

/-! ## The verdict of an OFFTEST (R319, R320) -/

/-- The change of a node over a step. -/
def stepChange (s : TestStep) (p : Nat) : Int := s.stop.getD p 0 - s.start.getD p 0
/-- In the source step of a node: it moves by 1.0 V; it has moved or stands at its rail (R319). -/
def stepUp (s : TestStep) (p : Nat) : Bool := decide (10 ≤ stepChange s p)
def stepUpOk (s : TestStep) (vb p : Nat) : Bool := stepUp s p || decide ((vb : Int) - 20 ≤ s.stop.getD p 0)
/-- The same in the sink step. -/
def stepDown (s : TestStep) (p : Nat) : Bool := decide (stepChange s p ≤ -10)
def stepDownOk (s : TestStep) (p : Nat) : Bool := stepDown s p || decide (s.stop.getD p 0 ≤ 20)
/-- In the source step of p, another node changes by at least half of p's change. -/
def stepFollows (s : TestStep) (p q : Nat) : Bool := decide (stepChange s p ≤ 2 * stepChange s q)

/-- The sink and the source step of a node. -/
def sinkStep (ss : List TestStep) (p : Nat) : TestStep := ss.getD (2 * p) ⟨[], []⟩
def sourceStep (ss : List TestStep) (p : Nat) : TestStep := ss.getD (2 * p + 1) ⟨[], []⟩

/-- A phase is shorted to ground, or to the bus. -/
def toGround (ss : List TestStep) (vb p : Nat) : Bool := !stepUpOk (sourceStep ss p) vb p
def toBus (ss : List TestStep) (p : Nat) : Bool := !stepDownOk (sinkStep ss p) p

/-- A phase is open: it moves alone, or another phase moves, the third follows it and this one does not. -/
def openPhase (ss : List TestStep) (p : Nat) : Bool :=
  let others := (span 0 3).filter (· ≠ p)
  let own := sourceStep ss p
  (stepUp own p && others.all fun q => !stepFollows own p q) ||
    others.any fun q => let s := sourceStep ss q; stepUp s q && !stepFollows s q p && (others.filter (· ≠ q)).all fun r => stepFollows s q r

/-- The findings of R319 as R320 lays them out. -/
def findings (ss : List TestStep) (vb : Nat) (invx skip dist : Bool) : Nat :=
  let x := 3
  let phases := (span 0 3).flatMap fun p =>
    let g := toGround ss vb p
    let b := toBus ss p
    (if g then [2 * p] else []) ++ (if b then [2 * p + 1] else []) ++ if openPhase ss p && !g && !b then [6 + p] else []
  let load := if invx then stepDown (sinkStep ss x) x else stepUp (sourceStep ss x) x
  let short := if invx then toGround ss vb x else toBus ss x
  maskOf (phases ++ (if skip then [] else (if load then [9] else []) ++ if short then [10] else []) ++ if dist then [11] else [])

namespace Dev

/-! ## Shorts and interlock (R305 to R312) -/

/-- A soft turn-off of the axis is under way (R309). -/
def softOn (d : Dev) (n : Nat) : Bool :=
  let l := (d.mva n).legs
  decide (0 < l.goingFor) && l.runs.any fun g => g.kind.isSoft

/-- The soft turn-off of an axis at an instant of the period: every switch that is on, or in its turn-on profile, sinks weakly until its gate
is below 2 V; `soft` gives these times by pins (R309). -/
def softOff (n : Nat) (e : InPeriod) (soft : List Nat) (d : Dev) : Dev :=
  let sink := 50 * (d.cfg Fl.gateScSoftI n + 1)
  let runs := (span 0 4).filterMap fun ph => (d.switchAt n e ph).map fun h =>
    let pin := d.swapped n ph
    ({ pin := pin, high := h, on := false, at_ := e.t, kind := .soft sink, done := soft[pin]? } : GateRun)
  ((d.modLegs n (Legs.offAt e.t)).modLegs n fun l => { l with runs := l.runs ++ runs }).stick Fl.gateAxstatusSoftOff n

/-- A leg is within 150 ns, 1,200 units, of a switching edge of its own (R307). -/
def blanked (d : Dev) (n : Nat) (e : InPeriod) (ph : Nat) : Bool :=
  let x := d.mv (n / 8)
  let K := d.kOf (n / 8)
  let before := 32 * periodLen (mvClocks x.rate) K ((x.period - 1 + K - 1) % K)
  let now := (d.senseEdges n e.gates ph).any fun g => (g.off :: g.on.toList).any fun s => decide (s ≤ e.t) && decide (e.t < s + 1200)
  now || (d.mva n).legs.runs.any fun g => g.pin = d.swapped n ph && !g.kind.isSoft && decide (before + e.t < g.at_ + 1200)

/-- The shunt comparator's condition (R306, R325). -/
def shuntOver (d : Dev) (n : Nat) (v : Int) : Bool := decide (max 1 (d.cfg Fl.gateScOcth n) < v.natAbs)

/-- The di/dt condition of a leg: the bus-side sense counts for a leg whose high side is on, the sense at its SL for one whose low side is
(R306, R325). -/
def didtOver (d : Dev) (n : Nat) (s : Senses) (e : InPeriod) (ph : Nat) : Bool :=
  match d.switchAt n e ph with
  | some true => decide (((max 1 (d.cfg Fl.gateScDdth n) * 100 : Nat) : Int) < s.bus)
  | some false => decide (((max 1 (d.cfg Fl.gateScSlth n) * 50 : Nat) : Int) < s.sl.getD (d.swapped n ph) 0)
  | none => false

/-- The event of a leg is confirmed: outside its blank after FILT, or at the blank's end from one that it has remembered (R307). -/
def didtConfirmed (d : Dev) (n : Nat) (s : Senses) (e : InPeriod) (since ph : Nat) : Bool :=
  let c := d.didtOver n s e ph
  !d.blanked n e ph && ((c && decide (4 * d.cfg Fl.gateScFilt n ≤ since)) ||
    ((d.mva n).legs.didt.getLsbD ph && (c || d.shuntOver n s.shunt)))

/-- The senses of an axis: events in a blank are remembered, confirmed ones flag their legs, turn the axis off softly and raise
SHORT_DIDT; during a soft turn-off a further leg sets its flag only (R307, R311, R312). -/
def shortDidt (n : Nat) (s : Senses) (e : InPeriod) (since : Nat) (soft : List Nat) (d : Dev) : Dev :=
  if !d.senseOn n then d
  else
    let ls := (span 0 4).filter (d.didtConfirmed n s e since)
    let kept := maskOf ((span 0 4).filter fun ph => !ls.contains ph && ((d.mva n).legs.didt.getLsbD ph || (d.didtOver n s e ph && d.blanked n e ph)))
    let flagged := each ls (fun l d => d.stick Fl.gateStatusShort (4 * n + l)) (d.modLegs n fun l => { l with didt := BitVec.ofNat 4 kept })
    if ls.isEmpty ∨ d.softOn n then flagged
    else (each ls (fun l d => d.raise .shortDidt n l (n / 8)) (softOff n e soft flagged)).settle

/-- The blank of a leg ends: the event that it has remembered is discarded and counted where neither the di/dt condition of the leg nor that
of the shunt comparator is present (R307). -/
def didtEarly (n leg : Nat) (s : Senses) (e : InPeriod) (d : Dev) : Dev :=
  if d.senseOn n && (d.mva n).legs.didt.getLsbD leg && !d.blanked n e leg && !d.didtOver n s e leg && !d.shuntOver n s.shunt then
    (d.modLegs n fun l => { l with didt := l.didt &&& ~~~ BitVec.ofNat 4 (2 ^ leg) }).bump Fl.gateAxstatusDidtEarly n 1
  else d

/-- The shunt comparator's condition has lasted for OCFILT (R308). -/
def shuntOc (n : Nat) (shunt : Int) (e : InPeriod) (since : Nat) (soft : List Nat) (d : Dev) : Dev :=
  if d.senseOn n && d.shuntOver n shunt && decide (25 * d.cfg Fl.gateScOcfilt n ≤ since) then
    ((if d.softOn n then d else softOff n e soft d).stick Fl.gateAxstatusShuntOc n).raise1 .shuntOc n 0 (n / 8)
  else d

/-- An opposite gate has not fallen for 2 µs (R305). -/
def ilStuck (n leg : Nat) (e : InPeriod) (since : Nat) (soft : List Nat) (d : Dev) : Dev :=
  if d.gatesOn n && decide (2000 ≤ since) then
    ((softOff n e soft d).stick Fl.gateStatusIlStuck (4 * n + leg)).raise1 .interlockStuck n leg (n / 8)
  else d

/-- A bootstrap below BSTUV ends the high-side interval of a winding short early; the low side follows at once, for n whole periods (R191, R316;
log entry 185). -/
def shortEarly (n ph bst t : Nat) (d : Dev) : Dev :=
  let x := d.mva n
  if (x.drive = .brake ∨ x.drive = .orphanBrake) ∧ !probing x ∧ x.legs.high ∧ ph < 3 ∧ bst < d.bstuv (n / 8) then
    d.modLegs n fun l => { (l.turn t ⟨.low, .low, .low, .switch⟩) with high := false, left := d.altPeriods n + 1 }
  else d

/-- The bootstrap at the pins of a leg falls while the high side is on: below 5.0 V it turns off, and waits for its low side (R316). -/
def bstUv (n pin bst : Nat) (e : InPeriod) (d : Dev) : Dev :=
  let ph := d.swapped n pin
  if d.gatesOn n && d.switchAt n e ph == some true then
    let d := shortEarly n ph bst e.t d
    if bst < 500 then
      ((d.modLegs n fun l => { l with bstOff := l.bstOff ||| BitVec.ofNat 4 (2 ^ ph), span := { l.span with cut := l.span.cut ++ [(ph, e.t)] } }).stick
        Fl.gateStatusBstUv (4 * n + ph)).raise1 .bstUv n ph (n / 8)
    else d
  else d

/-! ## Gate supply (R313) -/

/-- VDRV has been out of its window for 1 µs: below 9.0 V, or above 16.0 V. -/
def vdrvFault (m : Nat) (ov : Bool) (v : BitVec 8) (d : Dev) : Dev :=
  if !d.mvOn m ∨ (ov ∧ v.toNat ≤ 160) ∨ (!ov ∧ 90 ≤ v.toNat) then d
  else
    let d := (d.setHw Fl.gateMvstatusVdrv m v.toNat).setHw Fl.gateMvstatusVdrvOk m 0
    if d.mvUnarmed m then d
    else if ov then (d.stick Fl.gateMvstatusVdrvOv m).raise1 .vdrvOv m m m
    else (d.stick Fl.gateMvstatusVdrvUv m).raise1 .vdrvUv m m m

/-! ## OFFTEST (R317 to R321) -/

/-- The checks of R317 for one axis. -/
def offtCheck (d : Dev) (n : Nat) : Option (Status × Nat) :=
  let m := n / 8
  if (d.axis n).armed then some (.wrongState, 1)
  else if !(d.mvPowered m && d.trained m) then some (.wrongState, 2)
  else if d.hw Fl.vbusStatusVbs m < 200 then some (.wrongState, 3)
  else if (d.axis n).lat.valid && decide (d.thresh n ≤ d.speedMag n) then some (.wrongState, 4)
  else if (d.axis n).test.isSome then some (.busy, 0)
  else none

/-- An OFFTEST of one axis is to begin at the coming tick boundary. -/
def offtAsk (a : Nat) (skip : Bool) (n : Nat) (d : Dev) : Dev :=
  (d.modAxis n fun y => { y with test := some a }).modMva n fun x =>
    { x with offt := some false, offtDist := false, offtSkip := skip, offtEnd := none }

/-- An admitted OFFTEST. -/
def opOfftest (c : Ctx) (d : Dev) : Dev :=
  let axes := d.leaves c.x.unit
  match axisFails axes d.offtCheck with
  | f :: fs => c.refuseAxes (f :: fs) d
  | [] =>
    let d := c.accepted d
    let (a, d) := d.openAct c.owner c.x.unit axes
    each axes (offtAsk a (c.x.opflag 0)) d

/-- The test begins at the movement's tick boundary (R318). -/
def offtBegin (n : Nat) (d : Dev) : Dev :=
  let m := n / 8
  if (d.mva n).offt = some false then
    (d.modMva n fun x => { x with offt := some true, offtDist := false, offtAt := (d.mv m).start, offtVb := d.hw Fl.vbusStatusVbs m }).setHw
      Fl.offtStatusRunning n 1
  else d

/-- The current in µA that an OFFTEST drives through SH at a pin of the axis, `at_` in hub clocks: it sinks, then sources, U, V, W for 0.3 ms each
and X for 0.1 ms each, X only without skip_x (R318). -/
def testCurrent (d : Dev) (n pin at_ : Nat) : Int :=
  let x := d.mva n
  let t := at_ - x.offtAt
  let k := if t < 720000 then t / 120000 else 6 + (t - 720000) / 40000
  if x.offt ≠ some true ∨ at_ < x.offtAt ∨ 7 < k ∨ k / 2 ≠ pin ∨ (pin = 3 ∧ x.offtSkip) then 0
  else if k % 2 = 0 then -250 else 250

/-- The test has run its 2.0 ms: its verdict (R318 to R320). -/
def offtEnded (n : Nat) (steps : List TestStep) (d : Dev) : Dev :=
  let x := d.mva n
  if x.offt ≠ some true ∨ (d.mv (n / 8)).start + hubClocks (d.mv (n / 8)).rate < x.offtAt + 800000 then d
  else
    let f := findings steps x.offtVb (d.on Fl.pwmOvrInvx n) x.offtSkip x.offtDist
    let d := d.modMva n fun x => { x with offt := none, offtEnd := some (BitVec.ofNat 13 f) }
    let d := (d.setHw Fl.offtStatusVerdict n f).setHw Fl.offtStatusRunning n 0
    if f = 0 then d.setHw Fl.offtStatusPassed n 1 else d.raise1 .offtestFail n 0 (n / 8)

/-- The end of an abandoned test. -/
def offtDrop (n : Nat) (d : Dev) : Dev :=
  let d := d.modMva n fun x => { x with offt := none, offtEnd := some 0x1000 }
  ((d.setHw Fl.offtStatusVerdict n 0x1000).setHw Fl.offtStatusRunning n 0).setHw Fl.offtStatusPassed n 0

/-- A test is abandoned (R321): the currents go at once, no source is raised. -/
def offtAbandon (n : Nat) (d : Dev) : Dev := if (d.mva n).offt.isNone then d else offtDrop n d

/-- A movement goes off: its test is abandoned even where its end is on its way to the hub (R321). -/
def offtGone (n : Nat) (d : Dev) : Dev := if (d.axis n).test.isNone then d else offtDrop n d

/-- The action of an axis's OFFTEST ends. -/
def offtClose (n : Nat) (st : Status) (f : BitVec 13) (d : Dev) : Dev :=
  let a := (d.axis n).test
  (d.modAxis n fun y => { y with test := none }).endAct? a n st (f.setWidth 32)

/-- Phase 1 takes the ends without findings from the latch frame. -/
def offtPhase1 (ends : List (Nat × BitVec 13)) (d : Dev) : Dev :=
  ends.foldl (fun d e => if e.2 = 0 then offtClose e.1 .ok 0 d else d) d

/-- Phase 2 takes the others, after the reactions, and the tests abandoned since the last tick. -/
def offtPhase2 (ends : List (Nat × BitVec 13)) (d : Dev) : Dev :=
  let d := ends.foldl (fun d e => if e.2 = 0 then d else offtClose e.1 .stoppedFault e.2 d) d
  each (span 0 64) (fun n d =>
    if (d.mva n).offtEnd = some 0x1000 then
      offtClose n .stoppedFault 0x1000 (d.modMva n fun x => { x with offtEnd := none })
    else d) d

end Dev

/-- SHORT_DIDT (R306, R307, R311, R312). -/
def execShortDidt (ax : Fin 64) (e : DidtEvent) (s : State) : Host.Outcome State Fault Refusal :=
  s.onDev (Dev.shortDidt ax e.v e.at_ e.since e.soft)

/-- DIDT_EARLY (R307). -/
def execDidtEarly (e : BlankEnd) (s : State) : Host.Outcome State Fault Refusal := s.onDev (Dev.didtEarly e.ax e.leg e.v e.at_)

/-- SHUNT_OC (R308). -/
def execShuntOc (e : OcEvent) (s : State) : Host.Outcome State Fault Refusal :=
  s.onDev (Dev.shuntOc e.ax e.shunt e.at_ e.since e.soft)

/-- INTERLOCK_STUCK (R305). -/
def execInterlockStuck (ax : Fin 64) (e : StuckEvent) (s : State) : Host.Outcome State Fault Refusal :=
  s.onDev (Dev.ilStuck ax e.leg e.at_ e.since e.soft)

/-- BST_UV (R316). -/
def execBstUv (ax : Fin 64) (e : BstEvent) (s : State) : Host.Outcome State Fault Refusal :=
  s.onDev (Dev.bstUv ax e.leg e.bst e.at_)

/-- VDRV_FAULT (R313). -/
def execVdrvFault (m : Fin 8) (ov : Bool) (reading : BitVec 8) (s : State) : Host.Outcome State Fault Refusal :=
  s.onDev (Dev.vdrvFault m ov reading)

/-- OFFTEST. -/
def execOfftest (i : Fin 128) (slot : BitVec 16) (x : Desc) (s : State) : Host.Outcome State Fault Refusal :=
  s.onDev (Dev.dispatch .offtest i slot (withOpcode .offtest x) Dev.opOfftest)

/-- OFFTEST_END (R318 to R320). -/
def execOfftestEnd (ax : Fin 64) (steps : List TestStep) (s : State) : Host.Outcome State Fault Refusal :=
  s.onDev (Dev.offtEnded ax steps)

end Sys2Proof.Machine
end

