-- ==== Sys2Proof/Machine/Signature.lean ====
section
/-! DEFINITION. Signature.lean: the signature engine: comparison, reactions, reopen, the remontoire, SIGN_LOAD and LEARN
(chapter 11). -/

namespace Sys2Proof.Machine

/-- The table or learn buffer of a direction that the remontoire windows (R344, R352). -/
def Sign.inUse (g : Sign) (dir : Nat) : Option SignTbl :=
  match g.learn with
  | some l => if dir = 0 then (if l.dir0 then some l.tbl0 else none) else if l.dir1 then some l.tbl1 else none
  | none => if dir = 0 then g.tbl0 else g.tbl1

/-- The SIGN_LOAD whose tag and ring the records of a direction carry (R342). -/
def Sign.owner (g : Sign) (dir : Nat) : Option Owner := (if dir = 0 then g.own0 else g.own1).orElse fun _ => g.ownLast

/-- Index of the cell at a latched position (R333), possibly out of the table. -/
def SignTbl.index (t : SignTbl) (p : Pos) : Int := (quot p.toInt 256 - t.origin) / (2 ^ t.pitch : Int)

/-- The index lies in the table. -/
def SignTbl.has (t : SignTbl) (i : Int) : Bool := decide (0 ≤ i) && decide (i < t.ncells)

/-- The cell i where the window holds its block. -/
def Sign.cell (g : Sign) (i : Nat) : Option Word :=
  (g.win.find? fun b => b.num = i / 16).bind fun b => b.cells[i % 16]?

/-- Upper and lower envelope of a cell (R332). -/
def upperOf (w : Word) : Int := signed 16 (bits w 16 16)
def lowerOf (w : Word) : Int := signed 16 (bits w 0 16)

namespace Dev

def sign (d : Dev) (n : Nat) : Sign := SMap.get d.signs n {}
def setSign (d : Dev) (n : Nat) (g : Sign) : Dev := { d with signs := SMap.set d.signs n g }
def modSign (d : Dev) (n : Nat) (f : Sign → Sign) : Dev := d.setSign n (f (d.sign n))

/-! ## Direction and value (R334, R337) -/

/-- The axis is in a motion mode. -/
def inMode (d : Dev) (n : Nat) : Bool := (d.axis n).mot.mode ≠ .none

/-- Engine direction: of the motion command while there is one, else the last one. In hand mode it turns in phase 5 with the command that
phase 1 has sampled (R334). -/
def engineDir (d : Dev) (n : Nat) : Nat :=
  let m := (d.axis n).mot
  match m.mode with
  | .none => (d.sign n).wdir
  | .velocity => if m.cmd = 0 then (if m.dir < 0 then 1 else 0) else if m.cmd < 0 then 1 else 0
  | .step => if m.stepDir < 0 then 1 else 0
  | .hand => if m.stepDir < 0 then 1 else 0
  | _ => if m.dir < 0 then 1 else 0

/-- Normalised current. -/
def normalised (d : Dev) (n : Nat) : Int := if d.engineDir n = 0 then (d.axis n).lat.iq.toInt else -(d.axis n).lat.iq.toInt

/-! ## The comparison (R335 to R337, R347, R353) -/

/-- The conditions of R335 but for LEARN, PREDICTED and suppression. -/
def signConds (d : Dev) (n : Nat) : Bool :=
  let x := d.axis n
  let dir := d.engineDir n
  d.on Fl.signCfgEn n && x.lat.drive == .field && d.inMode n && !x.mot.torque &&
    (!d.sensorless n || x.lat.phase == phObserver) && x.lat.valid &&
    (sgn x.lat.speed.toInt == if dir = 0 then 1 else -1) && decide (d.cfg Fl.signVminVmin n ≤ x.lat.speed.toInt.natAbs) && !x.stale

/-- A detection found. -/
def detect (n : Nat) (slack ceil last : Bool) (v : Int) (d : Dev) : Dev :=
  { d with detects := d.detects ++ [{ ax := n, slack := slack, ceil := ceil, last := last, value := v, dir := d.engineDir n }] }

/-- The two counters against a cell (R336). -/
def countRuns (n : Nat) (c : Word) (last : Bool) (d : Dev) : Dev :=
  let v := d.normalised n
  let o := if upperOf c < v then d.hw Fl.signStatusObstRun n + 1 else 0
  let s := if v < lowerOf c then d.hw Fl.signStatusSlackRun n + 1 else 0
  let oHit := decide (max 1 (d.cfg Fl.signCfgSignN n) ≤ o)
  let sHit := decide (max 1 (d.cfg Fl.signCfgSlackN n) ≤ s)
  let d := (d.setHw Fl.signStatusObstRun n (if oHit then 0 else o)).setHw Fl.signStatusSlackRun n (if sHit then 0 else s)
  let d := if oHit then detect n false false last v d else d
  if sHit then detect n true false last v d else d

/-- A compared tick whose cell is in the window; an empty cell counts nothing. -/
def compareCell (n : Nat) (c : Word) (d : Dev) : Dev :=
  let d := (d.modSign n fun g => { g with holdRun := 0 }).setHw Fl.signStatusSignHold n 0
  if upperOf c < lowerOf c then d else countRuns n c false (d.modSign n fun g => { g with lastCell := some c })

/-- A compared tick whose cell is missing: SIGN_HOLD, the last valid cell, and after HOLDMAX of them SIGN_STARVED. -/
def compareHold (n : Nat) (d : Dev) : Dev :=
  let g := d.sign n
  let run := g.holdRun + 1
  let hit := decide (max 1 (d.cfg Fl.signCfgHoldmax n) ≤ run)
  let d := (d.modSign n fun g => { g with holdRun := if hit then 0 else run, starved := g.starved || hit }).setHw Fl.signStatusSignHold n 1
  let d := d.bump Fl.signStatusMiss n 1
  match g.lastCell with
  | none => d
  | some c => countRuns n c true d

/-- The axis is not compared in this tick: SIGN_HOLD reads 0 (R347). -/
def notHeld (n : Nat) (d : Dev) : Dev := if d.flag Fl.signStatusSignHold n then d.setHw Fl.signStatusSignHold n 0 else d

/-- The run of compared ticks with SIGN_HOLD ends (R347). -/
def breakHold (n : Nat) (d : Dev) : Dev := if (d.sign n).holdRun = 0 then d else d.modSign n fun g => { g with holdRun := 0 }

/-- A compared tick; one out of the table, or without a table, has no cell to lack. -/
def compare (n : Nat) (d : Dev) : Dev :=
  let g := d.sign n
  match g.inUse (d.engineDir n) with
  | none => notHeld n (breakHold n d)
  | some t =>
    let i := t.index (d.axis n).lat.pos
    if !t.has i then (notHeld n (breakHold n d)).stick Fl.signStatusOutOfTable n
    else match g.cell i.toNat with
      | some c => compareCell n c d
      | none => compareHold n d

/-- A value is merged into a cell (R353). -/
def mergeCell (v : Int) (w : Word) : Word :=
  let hi := max (upperOf w) (saturate 16 v)
  let lo := min (lowerOf w) (saturate 16 v)
  putBits (putBits 0 16 16 (BitVec.ofInt 16 hi).toNat) 0 16 (BitVec.ofInt 16 lo).toNat

/-- A merged cell in its block. -/
def mergeBlock (v : Int) (i : Nat) (b : SignBlk) : SignBlk :=
  if b.num ≠ i / 16 then b
  else
    let w := b.cells.getD (i % 16) 0
    let w' := mergeCell v w
    if w' = w then b else { b with cells := b.cells.set (i % 16) w', dirty := true }

/-- A tick of a LEARN that records. -/
def learnTick (n : Nat) (d : Dev) : Dev :=
  let g := d.sign n
  match g.inUse (d.engineDir n) with
  | none => d
  | some t =>
    let i := t.index (d.axis n).lat.pos
    if !t.has i then d.stick Fl.signStatusOutOfTable n
    else if (g.cell i.toNat).isNone then d.bump Fl.signStatusMiss n 1
    else d.modSign n fun g => { g with win := g.win.map (mergeBlock (d.normalised n) i.toNat) }

/-- The ceiling (R337). -/
def ceiling (n : Nat) (d : Dev) : Dev :=
  let x := d.axis n
  if !x.armed ∨ x.lat.drive ≠ .field ∨ x.stale then d
  else
    let v := if d.inMode n then d.normalised n else (x.lat.iq.toInt.natAbs : Int)
    if v ≤ d.cfg Fl.signCeilCeil n then (if (d.sign n).ceilRun = 0 then d else d.modSign n fun g => { g with ceilRun := 0 })
    else
      let run := (d.sign n).ceilRun + 1
      if max 1 (d.cfg Fl.signCfgSignN n) ≤ run then detect n false true false v (d.modSign n fun g => { g with ceilRun := 0 })
      else d.modSign n fun g => { g with ceilRun := run }

/-- The engine in phase 1, one axis. -/
def signAxis (n : Nat) (d : Dev) : Dev :=
  let g := d.sign n
  let d :=
    if !d.signConds n || g.susp then notHeld n d
    else if (d.axis n).lat.pred then notHeld n (if g.learn.isSome then d else d.bump Fl.signStatusPredSkip n 1)
    else if g.learn.isSome then learnTick n (notHeld n d)
    else compare n d
  ceiling n d

/-- The engine in phase 1. -/
def signPhase1 (d : Dev) : Dev := if d.motionOn then each (span 0 64) signAxis d else d

/-! ## Reactions (R338 to R342) -/

/-- The result word of a detection (R342). -/
def detectWord (e : Detect) (suppressed reopenEnd : Bool) : Word :=
  BitVec.ofNat 32 ((BitVec.ofInt 16 e.value).toNat + (if e.ceil then 2 ^ 16 else 0) + (if e.last then 2 ^ 17 else 0) +
    (if suppressed then 2 ^ 18 else 0) + (if reopenEnd then 2 ^ 19 else 0) + e.dir % 2 * 2 ^ 20)

/-- The event record of a detection. -/
def signEvent (n : Nat) (dir : Nat) (st : Status) (w : Word) (d : Dev) : Dev :=
  match (d.sign n).owner dir with
  | some o => d.event o st n w
  | none => d.stick Fl.signStatusCeilHit n

/-- The reaction code in force for a detection. -/
def reactCode (d : Dev) (e : Detect) : Nat :=
  if e.slack then (let c := d.cfg Fl.signCfgSlackReact e.ax; if c = 2 then 1 else c)
  else
    let c := d.cfg Fl.signCfgObstReact e.ax
    if c ≠ 1 && ((d.sign e.ax).reopen.map (·.running)).getD false then 1 else c

/-- The reaction unit holds the detecting axis. -/
def reactUnitOk (d : Dev) (n : Nat) : Bool :=
  let u := d.cfg Fl.signReopenUnit n
  (d.unit u).bound && (d.leaves u).contains n

/-- The leaves that a detection's reaction acts on. -/
def reactLeaves (d : Dev) (e : Detect) : List Nat :=
  if d.reactCode e = 0 then [] else if d.reactUnitOk e.ax then d.leaves (d.cfg Fl.signReopenUnit e.ax) else [e.ax]

/-- A leaf is faulted or safe. -/
def outOf (d : Dev) (n : Nat) : Bool := (d.axis n).st == .faulted || (d.axis n).st == .safe

/-- A fault reaction of this phase 2 has met a leaf of the reaction: `after` is the block after the reactions. -/
def suppressed (after : Dev) (d : Dev) (e : Detect) : Bool :=
  (d.reactLeaves e).any fun n => after.outOf n && (after.axis n).react ≠ 0

/-- The comparison of a leaf is suspended. -/
def suspend (n : Nat) (d : Dev) : Dev := d.modSign n fun g => { g with susp := true }

/-- A reaction on one leaf; whether it waits to reopen. -/
def reactLeaf (code serial : Nat) (n : Nat) (d : Dev) : Bool × Dev :=
  let x := d.axis n
  if d.outOf n then (false, d)
  else if code = 3 then
    if !x.armed then (false, d)
    else
      let d := suspend n d
      let d := if x.st = .moving then (stop n true 0 .sign none (d.dropReopen n)).modMot n fun m => { m with mode := .none, v := 0, wait := false }
               else d
      (false, d.modAxis n fun y => { y with cmd := .float false, seq := none, seqOff := true, brakeHold := false })
  else if x.st ≠ .moving then (false, d)
  else
    let dir := d.engineDir n
    let dist := d.cfg Fl.signReopenD n
    let d := suspend n (stop n true 0 .sign none d)
    if code = 2 && dist ≠ 0 then
      (true, d.modSign n fun g => { g with reopen := some (match g.reopen with
        | some r => if r.running then { dir := dir, dist := dist, serials := [serial], running := false }
                    else { r with serials := r.serials ++ [serial] }
        | none => { dir := dir, dist := dist, serials := [serial], running := false }) })
    else (false, d)

/-- A reaction on a list of leaves; those that wait to reopen. -/
def reactAll (code serial : Nat) : List Nat → Dev → List Nat × Dev
  | [], d => ([], d)
  | n :: r, d =>
    let (b, d) := reactLeaf code serial n d
    let (l, d) := reactAll code serial r d
    (if b then n :: l else l, d)

/-- A detection's reaction in phase 2, after the fault reactions. -/
def signReact (d : Dev) (e : Detect) : Dev :=
  let code := d.reactCode e
  if code = 0 then d
  else
    let ls := d.reactLeaves e
    let d := if d.reactUnitOk e.ax then d else d.stick Fl.signStatusReactUnitLost e.ax
    let k := d.signSerial
    let (wait, d) := reactAll code k ls d
    if wait.isEmpty then d
    else
      let run : ReopenRun := { axes := wait, ran := false, from_ := e.ax, result := detectWord e false true }
      { d with signSerial := k + 1, reopens := SMap.set d.reopens k run }

/-- SIGN_STARVED is raised (R347, R353). -/
def starvedRaise (n : Nat) (d : Dev) : Dev :=
  if (d.sign n).starved then (d.modSign n fun g => { g with starved := false }).raise .signStarved n 0 presSign else d

/-! ## Reopen (R340) -/

/-- A leaf has come to standstill and is to reopen. -/
def reopenDue (d : Dev) (n : Nat) : Bool :=
  match (d.sign n).reopen with
  | some r => !r.running && (d.axis n).stop.isNone && (d.axis n).st ≠ .moving
  | none => false

/-- The leaf reopens: a profile with its stored set, or not where it is faulted, safe or unarmed. -/
def reopen (n : Nat) (d : Dev) : Dev :=
  match (d.sign n).reopen with
  | none => d
  | some r =>
    if !d.reopenDue n then d
    else
      let x := d.axis n
      if !x.armed || d.outOf n then d.modSign n fun g => { g with reopen := none }
      else
        let t : Pos := BitVec.ofInt 40 (x.lat.pos.toInt + (if r.dir = 0 then -1 else 1) * (r.dist * 256 : Int))
        let d := settleP n d
        let d := enter n .profile (sgn (fine t - (d.axis n).mot.p)) none d
        let d := startProfile n (d.modMot n fun m => { m with target := t })
        let d := d.modSign n fun g => { g with reopen := some { r with running := true } }
        { d with reopens := d.reopens.map fun e => if r.serials.contains e.1 then (e.1, { e.2 with ran := true }) else e }

/-- A reopen of an axis is over once it does not move any more. -/
def reopenOver (n : Nat) (d : Dev) : Dev :=
  match (d.sign n).reopen with
  | some r => if r.running && (d.axis n).st ≠ .moving then d.modSign n fun g => { g with reopen := none } else d
  | none => d

/-- A reaction whose leaves have all ended their reopen: its second event. -/
def reopenClose (e : Nat × ReopenRun) (d : Dev) : Dev :=
  if e.2.axes.any fun n => ((d.sign n).reopen.map (·.serials.contains e.1)).getD false then d
  else
    let d := { d with reopens := SMap.drop d.reopens e.1 }
    if e.2.ran then signEvent e.2.from_ (if bit e.2.result 20 then 1 else 0) .obstacle e.2.result d else d

/-- Reopens that have ended, after phase 5. -/
def reopenEnds (d : Dev) : Dev :=
  let d := each (d.signs.map (·.1)) reopenOver d
  d.reopens.foldl (fun d e => reopenClose e d) d

/-! ## The remontoire (R344 to R347, R353) -/

/-- A changed block goes back to the learn buffer. -/
def writeBack (t : SignTbl) (b : SignBlk) (d : Dev) : Dev :=
  if b.dirty then { d with hif := { d.hif with early := d.hif.early ++ [.write (t.base + 64 * b.num) b.cells] } } else d

/-- Every changed block of an axis goes back. -/
def writeBackAll (n : Nat) (d : Dev) : Dev :=
  let g := d.sign n
  match g.inUse g.wdir with
  | none => d
  | some t =>
    if g.win.any (·.dirty) then
      (g.win.foldl (fun d b => writeBack t b d) d).modSign n fun g => { g with win := g.win.map fun b => { b with dirty := false } }
    else d

/-- The window of an axis is discarded: a new generation. Reads that have not left yet are given up; the others stay outstanding
until they complete (R43, R346). -/
def discard (n : Nat) (d : Dev) : Dev :=
  let d := writeBackAll n d
  let g := d.sign n
  let left := (g.asked.filter fun b => !d.queuedRead n b).map fun b => (b, g.gen)
  let d := { d with hif := { d.hif with outq := d.hif.outq.filter fun m => match m with | .readCells a _ _ => a ≠ n | _ => true } }
  d.modSign n fun g => { g with gen := g.gen + 1, win := [], asked := [], bad := [], old := g.old ++ left }

/-- The blocks that the window holds, in the order in which they are wanted (R344). -/
def wanted (d : Dev) (n : Nat) (t : SignTbl) : List Nat :=
  let x := d.axis n
  let dir := (d.sign n).wdir
  let v := max (d.speedMag n) (quot x.mot.v 256).natAbs
  let lead := max 1 (d.cfg Fl.signVminLeadticks n)
  let cell := 16 * 2 ^ t.pitch * 65536
  let ahead := min 14 (max 2 (1 + (lead * v + cell - 1) / cell))
  let b : Int := t.index x.lat.pos / 16
  let step : Int := if dir = 0 then 1 else -1
  let last : Int := (t.ncells - 1) / 16
  let all := (b :: (span 1 ahead).map fun (k : Nat) => b + step * (k : Int)) ++ [b - step]
  (all.filter fun k => decide (0 ≤ k) && decide (k ≤ last)).map (·.toNat)

/-- The window of an axis follows its direction and its position: blocks that are not wanted any more leave it; at standstill every
changed block goes back. -/
def windowFollow (n : Nat) (d : Dev) : Dev :=
  let dir := d.engineDir n
  let d := if dir = (d.sign n).wdir then d else (discard n d).modSign n fun g => { g with wdir := dir }
  let g := d.sign n
  match g.inUse dir with
  | none => if g.win.isEmpty && g.asked.isEmpty then d else discard n d
  | some t =>
    let w := d.wanted n t
    let gone := g.win.filter fun b => !w.contains b.num
    let d := gone.foldl (fun d b => writeBack t b d) d
    let d := d.modSign n fun g => { g with win := g.win.filter fun b => w.contains b.num, bad := g.bad.filter w.contains }
    if (d.axis n).st = .moving then d else writeBackAll n d

/-- Reads that an axis wants. -/
def wants (d : Dev) (n : Nat) : List Nat :=
  let g := d.sign n
  match g.inUse g.wdir with
  | none => []
  | some t => ((d.wanted n t).filter fun b => !(g.win.any (·.num = b)) && !g.asked.contains b && !g.bad.contains b).eraseDups

/-- Cells that the window holds in one piece from index i on, in the engine direction, looking at most n blocks ahead. -/
def heldFrom (g : Sign) (dir : Nat) : Nat → Int → Nat
  | 0, _ => 0
  | n + 1, i =>
    if 0 ≤ i ∧ (g.win.any fun b => (b.num : Int) = i / 16) then
      let here := if dir = 0 then 16 - (i % 16).toNat else (i % 16).toNat + 1
      here + heldFrom g dir n (if dir = 0 then i + here else i - here)
    else 0

/-- How urgent an axis's reads are (R345): first where the present cell is missing, then by the ticks of travel held ahead. -/
def urgency (d : Dev) (n : Nat) : Nat :=
  let g := d.sign n
  match g.inUse g.wdir with
  | none => 0
  | some t =>
    let i := t.index (d.axis n).lat.pos
    if t.has i && (g.cell i.toNat).isNone then 0
    else
      let v := max (d.speedMag n) (quot (d.axis n).mot.v 256).natAbs
      1 + heldFrom g g.wdir 16 i * 2 ^ t.pitch * 65536 / max 1 v

/-- Axes by urgency; of equal ones the lower first. -/
def byUrgency (key : Nat → Nat) : List Nat → List Nat
  | [] => []
  | a :: r => insert a (byUrgency key r)
where
  /-- a put before the first that is not more urgent. -/
  insert (a : Nat) : List Nat → List Nat
    | [] => [a]
    | b :: t => if key a ≤ key b then a :: b :: t else b :: insert a t

/-- The most reads that the remontoire keeps outstanding (R43), within the tags that are free and that are not the ring engine's. -/
def tagLimit (d : Dev) : Nat := min (min (d.cfg Fl.hifCfgSignTags 0) (d.allTags - 16 - d.busTags)) (d.allTags - d.ringTags)

/-- One axis issues its reads, as tags allow: they join the ordered output (R45). -/
def ask (n : Nat) (d : Dev) : Dev :=
  let g := d.sign n
  match g.inUse g.wdir with
  | none => d
  | some t =>
    let l := (d.wants n).take (d.tagLimit - d.signTags)
    if l.isEmpty then d
    else
      let d := l.foldl (fun d b => d.post (.readCells n b (t.base + 64 * b))) d
      d.modSign n fun g => { g with asked := g.asked ++ l }

/-- The remontoire reads: SIGN is on and the link serves. -/
def signReads (d : Dev) : Bool := d.motionOn && d.linkServes

/-- The windows in the completion window: each follows its axis, before the writes of the tick. -/
def windowsFollow (d : Dev) : Dev := if d.signReads then each (d.signs.map (·.1)) windowFollow d else d

/-- The remontoire issues its reads, behind the writes of the tick (R45, R345). -/
def remontoire (d : Dev) : Dev := if d.signReads then each (byUrgency d.urgency (d.signs.map (·.1))) ask d else d

/-- The completion window of a tick: its writes, then the reads of the remontoire, behind what is left from the window before (R45); n
items leave before the next boundary. -/
def window (n : Nat) (d : Dev) : Dev :=
  if !d.linkServes then d else issueN n (windowWrites d).remontoire

/-- A tag has come free in the completion window: further reads, at once where nothing else waits to leave (R345). -/
def moreCells (d : Dev) : Dev :=
  let idle := d.hif.outq.isEmpty
  let d := d.remontoire
  if idle then issueN d.hif.outq.length d else d

/-- Every tag that is free serves a read that waits for one (R43; log entry 130). -/
def moreTags (d : Dev) : Dev := d.moreReads.moreCells

/-- SIGN_HOLD ends once the window holds the present cell (R347). -/
def held (n : Nat) (d : Dev) : Dev :=
  match (d.sign n).inUse (d.engineDir n) with
  | none => notHeld n d
  | some t => if ((d.sign n).cell (t.index (d.axis n).lat.pos).toNat).isSome then notHeld n d else d

/-- A read of cells completes, or fails; reads of an earlier generation are dropped (R346, R347). -/
def cellsDone (n blk gen : Nat) (cells : Option (List Word)) (d : Dev) : Dev :=
  let g := d.sign n
  if g.old.contains (blk, gen) then (d.modSign n fun g => { g with old := g.old.erase (blk, gen) }).moreTags
  else if gen ≠ g.gen ∨ !g.asked.contains blk ∨ d.queuedRead n blk then d
  else
    let d := d.modSign n fun g => { g with asked := g.asked.filter (· ≠ blk) }
    match cells with
    | some l => (held n (d.modSign n fun g => { g with win := g.win ++ [{ num := blk, cells := l, dirty := false }] })).moreTags
    | none =>
      let d := (d.modSign n fun g => { g with bad := g.bad ++ [blk], starved := g.starved || g.learn.isSome })
      (d.stick Fl.signStatusReadErr n).moreTags

/-! ## SIGN_LOAD (R349, R350) -/

/-- The table that a descriptor describes. -/
def loadTbl (x : Desc) (base : Nat) (origin : Word) (ncells : Nat) : SignTbl :=
  { base := base, origin := origin.toInt, pitch := bits x.w1 9 4, ncells := ncells }

/-- Pitch and number of cells are in range. -/
def pitchOk (x : Desc) : Bool := decide (bits x.w1 9 4 ≤ 12)
def cellsOk (n : Nat) : Bool := decide (1 ≤ n) && decide (n ≤ 65536)

/-- The checks of R350 for one axis. -/
def loadCheck (x : Desc) (d : Dev) (n : Nat) : Option (Status × Nat) :=
  if !x.opflag 1 && !pitchOk x then some (.paramRange, 1)
  else if !x.opflag 1 && !cellsOk (bits x.w5 0 17) then some (.paramRange, 5)
  else if (d.sign n).learn.isSome then some (.busy, 0)
  else none

/-- A table is installed or removed on one axis. -/
def loadAxis (o : Owner) (x : Desc) (n : Nat) (d : Dev) : Dev :=
  let dir := if x.opflag 0 then 1 else 0
  let t := loadTbl x (x.addr 2) x.w4 (bits x.w5 0 17)
  let t? := if x.opflag 1 then none else some t
  let o? := if x.opflag 1 then none else some o
  let d := if dir = (d.sign n).wdir then discard n d else d
  let d := d.modSign n fun g =>
    { g with tbl0 := if dir = 0 then t? else g.tbl0, tbl1 := if dir = 0 then g.tbl1 else t?
             own0 := if dir = 0 then o? else g.own0, own1 := if dir = 0 then g.own1 else o?
             ownLast := some o, lastCell := none }
  let d := if x.opflag 1 then notHeld n d else d
  (d.setHw Fl.signTblNcells (2 * n + dir) (if x.opflag 1 then 0 else t.ncells)).setHw Fl.signTblPitch (2 * n + dir)
    (if x.opflag 1 then 0 else t.pitch)

/-- A window would be discarded. -/
def windowHeld (d : Dev) (x : Desc) (n : Nat) : Bool :=
  let g := d.sign n
  (if x.opflag 0 then 1 else 0) = g.wdir && (!g.win.isEmpty || !g.asked.isEmpty)

/-- An admitted SIGN_LOAD. -/
def opSignLoad (c : Ctx) (d : Dev) : Dev :=
  let axes := d.leaves c.x.unit
  match axisFails axes (loadCheck c.x d) with
  | f :: fs => c.refuseAxes (f :: fs) d
  | [] =>
    let held := d.windowHeld c.x (axes.headD 0)
    c.okAxes (if held then 1 else 0) (each axes (loadAxis c.owner c.x) d)

/-! ## LEARN (R351 to R354) -/

/-- Cycles and cells of a LEARN. -/
def learnCycles (x : Desc) : Nat := bits x.w7 17 8
def learnCells (x : Desc) : Nat := bits x.w7 0 17

/-- The checks of R352 for one axis. -/
def learnCheck (x : Desc) (d : Dev) (n : Nat) : Option (Status × Nat) :=
  if learnCycles x = 0 then none
  else if !x.opflag 0 && !x.opflag 1 then some (.paramRange, 0)
  else if !pitchOk x || !cellsOk (learnCells x) then some (.paramRange, 0)
  else if (d.axis n).st = .moving ∨ (d.sign n).learn.isSome then some (.busy, 0)
  else none

/-- A LEARN begins on one axis. -/
def learnAxis (a : Nat) (o : Owner) (x : Desc) (n : Nat) (d : Dev) : Dev :=
  let l : Learn := { act := a, owner := o, dir0 := x.opflag 0, dir1 := x.opflag 1,
                     tbl0 := loadTbl x (x.addr 2) x.w6 (learnCells x), tbl1 := loadTbl x (x.addr 4) x.w6 (learnCells x),
                     cycles := learnCycles x, done := 0, got0 := false, got1 := false }
  let d := (discard n d).modSign n fun g => { g with learn := some l }
  (d.setFlag Fl.signTblLearning (2 * n) l.dir0).setFlag Fl.signTblLearning (2 * n + 1) l.dir1

/-- The LEARN of one axis ends: changed blocks go back, the window is discarded, its part of the action ends. -/
def learnEnd (n : Nat) (st : Status) (d : Dev) : Dev :=
  match (d.sign n).learn with
  | none => d
  | some l =>
    let d := (discard n d).modSign n fun g => { g with learn := none }
    let d := (d.setHw Fl.signTblLearning (2 * n) 0).setHw Fl.signTblLearning (2 * n + 1) 0
    d.endAct l.act n st (BitVec.ofNat 32 l.done)

/-- An admitted LEARN. -/
def opLearn (c : Ctx) (d : Dev) : Dev :=
  let axes := d.leaves c.x.unit
  match axisFails axes (learnCheck c.x d) with
  | f :: fs => c.refuseAxes (f :: fs) d
  | [] =>
    if learnCycles c.x = 0 then c.okAxes 0 (each axes (fun n d => learnEnd n .stopped d) (c.accepted d))
    else
      let d := c.accepted d
      let (a, d) := d.openAct c.owner c.x.unit axes
      each axes (learnAxis a c.owner c.x) d

/-- A cycle of one axis's LEARN is complete (R354). -/
def learnCycle (n : Nat) (d : Dev) : Dev :=
  match (d.sign n).learn with
  | none => d
  | some l =>
    if (l.dir0 && !l.got0) || (l.dir1 && !l.got1) then d
    else
      let l := { l with done := l.done + 1, got0 := false, got1 := false }
      let d := d.modSign n fun g => { g with learn := some l }
      let d := d.event l.owner .learnCycle n (BitVec.ofNat 32 l.done)
      if l.cycles ≤ l.done then learnEnd n .ok d else d

/-- Phase 2 ends the LEARN of an axis that took a fault reaction, or that is starved. -/
def learnFault (starved : List Nat) (n : Nat) (d : Dev) : Dev :=
  if 2 ≤ (d.axis n).react ∨ starved.contains n then learnEnd n .stoppedFault d else d

end Dev

/-- SIGN_LOAD. -/
def execSignLoad (i : Fin 128) (slot : BitVec 16) (x : Desc) (s : State) : Host.Outcome State Fault Refusal :=
  s.onDev (Dev.dispatch .signLoad i slot (withOpcode .signLoad x) Dev.opSignLoad)

/-- LEARN. -/
def execLearn (i : Fin 128) (slot : BitVec 16) (x : Desc) (s : State) : Host.Outcome State Fault Refusal :=
  s.onDev (Dev.dispatch .learn i slot (withOpcode .learn x) Dev.opLearn)

/-- REMONTOIRE_READ (R345 to R347). -/
def execRemontoireRead (ax : Fin 64) (block gen : Nat) (cells : Option (List Word)) (s : State) :
    Host.Outcome State Fault Refusal := s.onDev (Dev.cellsDone ax block gen cells)

/-- Phase 2 of one starved axis: the source is raised, and a LEARN ends (R347, R354). -/
def Dev.starve (n : Nat) (d : Dev) : Dev :=
  if (d.sign n).starved then Dev.learnFault [n] n (Dev.starvedRaise n d).settle else d

/-- SIGN_STARVED (R347, R353, R354). -/
def execSignStarved (ax : Fin 64) (s : State) : Host.Outcome State Fault Refusal := s.onDev (Dev.starve ax)

/-- REOPEN (R340). -/
def execReopen (ax : Fin 64) (s : State) : Host.Outcome State Fault Refusal := s.onDev (Dev.reopen ax)

end Sys2Proof.Machine
end

