-- ==== Sys2Proof/Machine/Bus.lean ====
section
/-! DEFINITION. Bus.lean: the CAN FD controllers: enabling, receiving and routing, the object table, the transmit queue, error
counters and bus-off (chapter 13). TEC and REC follow ISO 11898-1 (R388; PRESUMED, log entry 30). -/

namespace Sys2Proof.Machine.Dev

/-! ## State of a controller (R388) -/

/-- Restricted operation is in force (R387). -/
def restricted (d : Dev) (c : Nat) : Bool := d.on Fl.canCfgRestrict c

/-- Error-passive: a counter has reached 128 (R388). -/
def passive (x : CanCtl) : Bool := decide (128 ≤ x.tec) || decide (128 ≤ x.recv)

/-- CAN_STATUS.STATE (R388). -/
def canState (x : CanCtl) : Nat :=
  if !x.on || x.integrating then 3 else if 255 < x.tec then 2 else if passive x then 1 else 0

/-- The controller takes part in the traffic of its bus. -/
def onBus (x : CanCtl) : Bool := x.on && !x.integrating && decide (x.tec ≤ 255)

/-! ## Enabling (R383, R386) -/

/-- A timing field: 0 acts as 1 (R400). -/
def atLeast1 (n : Nat) : Nat := max 1 n

/-- The timing set in force is valid (R383). -/
def timingOk (d : Dev) (c : Nat) : Bool :=
  let f := fun (x : Fld) => atLeast1 (d.cfg x c)
  decide (80 ≤ f Fl.canNbtNbrp * (1 + f Fl.canNbtNseg1 + f Fl.canNbtNseg2)) &&
  decide (10 ≤ f Fl.canDbtDbrp * (1 + f Fl.canDbtDseg1 + f Fl.canDbtDseg2)) &&
  decide (f Fl.canNbtNsjw ≤ f Fl.canNbtNseg2) && decide (f Fl.canDbtDsjw ≤ f Fl.canDbtDseg2)

/-- The controller leaves the bus. -/
def canLeave (c : Nat) (d : Dev) : Dev :=
  ((d.modCan c fun x => { x with on := false, integrating := false, leaving := false, busOff := false }).setHw
    Fl.canStatusBoffWait c 0).setHw Fl.canStatusRecovering c 0

/-- ENABLE has changed from 0 to 1 and the staged fields are in force: the timing is checked, the counters are cleared,
integration starts. -/
def canEnter (c : Nat) (d : Dev) : Dev :=
  let d := (d.setHw Fl.canStatusBoffWait c 0).setHw Fl.canStatusRecovering c 0
  let ok := d.timingOk c
  let d := d.modCan c fun x => { x with on := ok, integrating := ok, leaving := false, busOff := false, tec := 0, recv := 0 }
  if ok then d else d.stick Fl.canStatusBtErr c

/-- A frame lasts no longer than this many hub clocks: 64 bytes with every stuff bit, all at the nominal rate (log entry 177). -/
def longestFrame (d : Dev) (c : Nat) : Nat :=
  900 * 5 * (atLeast1 (d.cfg Fl.canNbtNbrp c) * (1 + atLeast1 (d.cfg Fl.canNbtNseg1 c) + atLeast1 (d.cfg Fl.canNbtNseg2 c)))

/-- ENABLE has changed from 1 to 0: queued frames are withdrawn; a frame that is being transmitted or received is finished first (log entry 177). -/
def canExit (c : Nat) (d : Dev) : Dev :=
  let d := d.modCan c (withdrawAll 3)
  let till := d.time.start + d.longestFrame c
  if (d.can c).active.isSome then d.modCan c fun x => { x with leaving := true, leaveBy := till }
  else
    let was := onBus (d.can c)
    (d.canLeave c).modCan c fun x => { x with leaving := was, leaveBy := till }

/-- A frame that was under way when ENABLE was cleared can still be. -/
def finishing (d : Dev) (c : Nat) : Bool := (d.can c).leaving && decide (d.time.start ≤ (d.can c).leaveBy)

/-- The end of the frame under way, where ENABLE has been cleared meanwhile. -/
def canRest (c : Nat) (d : Dev) : Dev := if (d.can c).leaving then d.canLeave c else d

/-- 11 recessive bits end the integration (R386). -/
def integrated (c : Nat) (d : Dev) : Dev := d.modCan c fun x => { x with integrating := false }

/-! ## Receiving (R390, R391) -/

/-- Route of a base identifier (R404). -/
def route (d : Dev) (c : Nat) (id : Nat) : Nat := bits (regWord d.regs.force .canRoute (128 * c + id / 16 % 128)) (2 * (id % 16)) 2

/-- An enabled filter of the controller. -/
def filters (d : Dev) (c : Nat) : List Nat := ((span 0 8).map (8 * c + ·)).filter (d.on Fl.canXfiltIdEn ·)

/-- A filter lets an extended identifier through. -/
def matches_ (d : Dev) (id : Nat) (k : Nat) : Bool :=
  (id ^^^ d.cfg Fl.canXfiltIdId k) &&& d.cfg Fl.canXfiltMaskMask k == 0

/-- Where a frame goes: to the ring, to its object (R390). -/
def routes (d : Dev) (c : Nat) (f : Frame) : Bool × Bool :=
  if f.ide then ((d.filters c).isEmpty || (d.filters c).any (d.matches_ f.id.toNat), false)
  else
    let r := d.route c f.id.toNat
    (r % 2 == 1, 2 ≤ r && !f.rtr)

/-- A frame has reached its end: it is held for phase 1, or dropped where 16 frames are held (R391). -/
def hold (c : Nat) (f : Frame) (d : Dev) : Dev :=
  let r := d.routes c f
  if !r.1 && !r.2 then d
  else if (d.can c).held.length < 16 then d.modCan c fun x => { x with held := x.held ++ [(f, r)] }
  else ((d.modCan c fun x => { x with spill := x.spill + 1 }).countDrop Fl.bqDroppedCount c 1).bump Fl.canErrlogRxOvf c 1

/-- REC after a frame received without error: down by one, from above 127 to a value of 119 to 127 that the standard leaves
open. -/
def recDown (c : Nat) (d : Dev) : Dev :=
  if d.restricted c then d
  else if (d.can c).recv ≤ 127 then d.modCan c fun x => { x with recv := x.recv - 1 }
  else
    let (w, d) := d.free
    d.modCan c fun x => { x with recv := 119 + w.toNat % 9 }

/-- A frame is received without error (R390). -/
def received (c : Nat) (f : Frame) (d : Dev) : Dev :=
  let x := d.can c
  if x.active.isSome || !(onBus x || d.finishing c) then d
  else
    let d := if onBus x then recDown c d else d
    canRest c (hold c f d)

/-! ## Phase 1 of a tick (R77, R391 to R393, R397) -/

/-- Little-endian words of bytes. -/
def wordsOf (b : List Byte) (n : Nat) : List Word :=
  (span 0 n).map fun k => BitVec.ofNat 32 ((b.getD (4 * k) 0).toNat + (b.getD (4 * k + 1) 0).toNat * 2 ^ 8 +
    (b.getD (4 * k + 2) 0).toNat * 2 ^ 16 + (b.getD (4 * k + 3) 0).toNat * 2 ^ 24)

/-- A flag at its bit. -/
def at_ (b : Bool) (k : Nat) : Nat := if b then 2 ^ k else 0

/-- Word 0 of an entry (R76). -/
def headWord (f : Frame) : Word := BitVec.ofNat 32 (f.id.toNat + at_ f.ide 29 + at_ f.fdf 30 + at_ f.brs 31)

/-- Word 1 of an entry, without its loss fields. -/
def lenWord (c : Nat) (f : Frame) : Word :=
  BitVec.ofNat 32 (f.dlc.toNat + f.data.length % 128 * 2 ^ 4 + at_ f.esi 11 + at_ f.rtr 12 + c * 2 ^ 24)

/-- The words of a bus ring entry (R76). -/
def busEntry (d : Dev) (c : Nat) (f : Frame) : List Word := [headWord f, lenWord c f, d.tick32, 0] ++ wordsOf f.data 16

/-- The object of a base identifier is written: LOST if NEW stands, then NEW (R392, R393). -/
def writeObject (c : Nat) (f : Frame) (d : Dev) : Dev :=
  let k := 2048 * c + f.id.toNat % 2048
  let status := (SMap.get d.objs k []).getD 0 0
  let status := status ||| (if bit status 0 then 2 else 0) ||| 1
  { d with objs := SMap.set d.objs k ([status, headWord { f with ide := false }, lenWord 0 { f with rtr := false }, d.tick32] ++
      wordsOf f.data 16) }

/-- A held frame is taken over. -/
def takeOver (c : Nat) (e : Frame × Bool × Bool) (d : Dev) : Dev :=
  let d := if e.2.2 then writeObject c e.1 d else d
  if !e.2.1 then d
  else if !(d.bq c).active then d.countDrop Fl.bqDroppedCount c 1
  else d.modBq c fun q => { q with queue := q.queue ++ [(d.busEntry c e.1, 0)] }

/-- Frames dropped behind the held ones stand between the last of their entries and the next one. -/
def takeSpill (c n : Nat) (d : Dev) : Dev :=
  if n = 0 || !(d.bq c).active then d
  else match (d.bq c).queue.getLast? with
    | none => addLost c n d
    | some e => d.modBq c fun q => { q with queue := q.queue.dropLast ++ [(e.1, e.2 + n)] }

/-- Phase 1 of one controller: held frames in the order of their ends, then the ends of CAN_TX, which wait while RESTRICT is 1 (R387; log
entry 178). -/
def canPhase1 (c : Nat) (d : Dev) : Dev :=
  let x := d.can c
  let (go, stay) := if d.restricted c then ([], x.ends) else (x.ends, [])
  let d := d.setCan c { x with held := [], spill := 0, ends := stay }
  let d := takeSpill c x.spill (x.held.foldl (fun d e => takeOver c e d) d)
  go.foldl (fun d (e : Owner × Status × Word) => d.finish e.1 e.2.1 0 e.2.2) d

/-! ## The transmit queue (R394 to R398) -/

/-- The frame a CAN_TX describes; an indirect one gets its data later. -/
def txFrame (x : Desc) : Frame :=
  let fdf := bit x.w2 30
  let rtr := bit x.w3 4
  let dlc : BitVec 4 := x.w3.setWidth 4
  let n := if rtr then 0 else dlcBytes fdf dlc
  let bytes := ([x.w4, x.w5, x.w6, x.w7].flatMap fun w => (span 0 4).map fun k => BitVec.ofNat 8 (bits w (8 * k) 8)).take n
  { id := BitVec.ofNat 29 (bits x.w2 0 29), ide := bit x.w2 29, fdf := fdf, brs := bit x.w2 31, esi := false, rtr := rtr,
    dlc := dlc, data := if x.opflag 0 then List.replicate n 0 else bytes }

/-- The length of the frame that a CAN_TX describes. -/
def txLen (x : Desc) : Nat := if bit x.w3 4 then 0 else dlcBytes (bit x.w2 30) (x.w3.setWidth 4)

/-- Check 1 of R395: the word that holds the first failing field. -/
def txCheck (x : Desc) : Option Nat :=
  let f := txFrame x
  if !f.ide && 0x7FF < f.id.toNat then some 2
  else if f.brs && !f.fdf then some 2
  else if f.rtr && f.fdf then some 3
  else if 16 < txLen x && !x.opflag 0 then some 3
  else none

/-- An admitted CAN_TX. The data of an indirect frame is read once a tag is free (R43; log entry 130). -/
def opCanTx (k : Ctx) (d : Dev) : Dev :=
  let c := bits k.x.w1 9 2
  match txCheck k.x with
  | some w => k.refuse .paramRange w d
  | none =>
    if !d.on Fl.canCfgEnable c then k.refuse .wrongState 0 d
    else if 32 ≤ (d.can c).queue.length then k.refuse .busy 0 d
    else
      let d := k.accepted d
      let key := (d.can c).nextKey
      let t : TxFrame := { key := key, act := k.owner, frame := txFrame k.x, maxtx := bits k.x.w3 8 8, tries := 0,
                           lostArb := false, eligible := !k.x.opflag 0, addr := k.x.addr 4, gone := 0 }
      let d := d.modCan c fun x => { x with queue := x.queue ++ [t], nextKey := key + 1 }
      if k.x.opflag 0 && d.busFree then
        let d := d.modCan c fun x => { x with reads := x.reads ++ [key] }
        { d with hif := { d.hif with early := d.hif.early ++ [.readData c key (k.x.addr 4)] } }
      else d

/-- The data read of an indirect frame has gone out and not come back. -/
def readOut (d : Dev) (c key : Nat) : Bool :=
  !((d.hif.early ++ d.hif.outq).any fun m => match m with | .readData c' k _ => c' == c && k == key | _ => false)

/-- What a data read brings: the frame that still waits for it becomes eligible, or is withdrawn (R395). -/
def takeData (c key : Nat) (data : Option (List Byte)) (d : Dev) : Dev :=
  match (d.can c).queue.find? fun t => t.key == key && !t.eligible with
  | none => d
  | some t =>
    match data with
    | none => d.modCan c fun x => withdrawOne 5 x t
    | some b =>
      let bytes := (span 0 t.frame.data.length).map fun i => b.getD i 0
      d.modCan c fun x => { x with queue := x.queue.map fun u =>
        if u.key = key then { u with eligible := true, frame := { u.frame with data := bytes } } else u }

/-- The data read of a frame completes, and its tag comes free. -/
def dataRead (c key : Nat) (data : Option (List Byte)) (d : Dev) : Dev :=
  if !(d.can c).reads.contains key || !d.readOut c key then d
  else (takeData c key data (d.modCan c fun x => { x with reads := x.reads.filter (· ≠ key) })).moreTags

/-- The arbitration field of a frame as a number: the smaller wins (R396). -/
def arbKey (f : Frame) : Nat :=
  if f.ide then f.id.toNat / 2 ^ 18 * 2 ^ 21 + 2 ^ 20 + 2 ^ 19 + f.id.toNat % 2 ^ 18 * 2 + at_ f.rtr 0
  else f.id.toNat * 2 ^ 21 + at_ f.rtr 20

/-- The frame that wins over the others; the earlier one among equals. -/
def bestTx : List TxFrame → Option TxFrame
  | [] => none
  | t :: r => match bestTx r with
    | none => some t
    | some u => if arbKey u.frame < arbKey t.frame then some u else some t

/-- The measured transmitter delay (R385). -/
def setTdcv (c : Nat) (f : Frame) (tdcv : Option Nat) (d : Dev) : Dev :=
  match tdcv with
  | none => d
  | some n =>
    if !(f.fdf && f.brs && d.on Fl.canDbtTdcEn c) then d
    else
      let d := d.setHw Fl.canStatusTdcv c (min 127 n)
      if 127 < n then d.stick Fl.canStatusBtErr c else d

/-- The bus becomes available: the frame that would win arbitration starts, with the error state indicator of the device. -/
def txStart (c : Nat) (tdcv : Option Nat) (d : Dev) : Dev :=
  let x := d.can c
  if !onBus x || x.active.isSome || d.restricted c then d
  else match bestTx (x.queue.filter (·.eligible)) with
    | none => d
    | some t =>
      let f := { t.frame with esi := t.frame.fdf && passive x }
      let d := d.setCan c { x with active := some t.key, queue := x.queue.map fun u => if u.key = t.key then { u with frame := f } else u }
      (setTdcv c f tdcv d).emit (.canFrame c f)

/-- The frame in transmission. -/
def inFlight (x : CanCtl) : Option TxFrame := x.queue.find? fun t => some t.key == x.active

/-- Result word of a completed CAN_TX (R397). -/
def txWord (t : TxFrame) (tries : Nat) (passive : Bool) : Word :=
  BitVec.ofNat 32 (min 255 tries + at_ t.lostArb 8 + at_ passive 9)

/-- A frame has been transmitted (R390, R397). -/
def txDone (c : Nat) (d : Dev) : Dev :=
  let x := d.can c
  match inFlight x with
  | none => d
  | some t =>
    let d := d.setCan c { x with active := none, queue := x.queue.filter (fun u => u.key ≠ t.key)
                                 tec := if d.restricted c then x.tec else x.tec - 1
                                 ends := if t.gone = 6 then x.ends else x.ends ++ [(t.act, .ok, txWord t (t.tries + 1) (passive x))] }
    let d := if d.on Fl.canCfgSelfrx c then hold c t.frame d else d
    canRest c d

/-! ## Errors and bus-off (R388, R389) -/

/-- An attempt ends without success: the frame competes again, or is withdrawn. A controller that loses arbitration receives the frame that
has won. -/
def txBack (c : Nat) (t : TxFrame) (d : Dev) : Dev :=
  let d := d.modCan c fun x => { x with active := none, queue := x.queue.map fun u => if u.key = t.key then t else u }
  if t.gone ≠ 0 then d.modCan c fun x => withdrawOne t.gone x t
  else if t.maxtx ≠ 0 && t.maxtx ≤ t.tries && !d.restricted c then d.modCan c fun x => withdrawOne 1 x t
  else d

/-- The last error in the arbitration or the data phase (R402). -/
def lastError (c : Nat) (code : BitVec 3) (dataPhase : Bool) (d : Dev) : Dev :=
  d.setHw (if dataPhase then Fl.canStatusDlec else Fl.canStatusLec) c code.toNat

/-- An active error flag is counted (R403, and the worked example of the chapter). -/
def countFlag (c : Nat) (d : Dev) : Dev := if passive (d.can c) then d else d.bump Fl.canErrlogErrframes c 1

/-- The controller detects an error or loses arbitration. One that leaves the bus has done with the frame that it was receiving. -/
def busError (c : Nat) (e : BusErr) (d : Dev) : Dev :=
  let x := d.can c
  if !onBus x then (match e with
    | .rx .. => if x.on then d else canRest c d
    | _ => d)
  else match e with
    | .arbitrationLost => match inFlight x with
      | none => d
      | some t => txBack c { t with lostArb := true } d
    | .flag sending =>
      if d.restricted c then d
      else d.modCan c fun x => if sending then { x with tec := x.tec + 8 } else { x with recv := min 255 (x.recv + 8) }
    | .tx code dp mild => match inFlight x with
      | none => d
      | some t =>
        let d := lastError c code dp d
        if d.restricted c then canRest c (txBack c t d)
        else
          let spared := mild && ((passive x && code == 3) || (code == 1 && !dp))
          let d := (countFlag c d).modCan c fun x => { x with tec := if spared then x.tec else x.tec + 8 }
          canRest c (txBack c { t with tries := t.tries + 1 } d)
    | .rx code dp after =>
      if x.active.isSome then d
      else
        let d := lastError c code dp d
        canRest c (if d.restricted c then d
          else (countFlag c d).modCan c fun x => { x with recv := min 255 (x.recv + 1 + if after then 8 else 0) })

/-- Entry into bus-off, once TEC is above 255 (R389). -/
def busOffEnter (c : Nat) (d : Dev) : Dev :=
  let x := d.can c
  if !x.on || x.integrating || x.busOff || x.tec ≤ 255 then d
  else
    let d := d.modCan c fun x => { x with busOff := true }
    let d := (d.raise1 .canBusOff 0 c presBus).bump Fl.canErrlogBoffCnt c 1
    let d := if d.on Fl.canCfgBoffFlush c then d.modCan c (withdrawAll 4) else d
    if d.on Fl.canCfgBoffAuto c then d.setHw Fl.canStatusRecovering c 1 else d.setHw Fl.canStatusBoffWait c 1

/-- RECOVER while it is waited for (R389). -/
def canRecover (c : Nat) (d : Dev) : Dev :=
  if d.flag Fl.canStatusBoffWait c then (d.setHw Fl.canStatusBoffWait c 0).setHw Fl.canStatusRecovering c 1 else d

/-- FLUSH (R398). -/
def canFlush (c : Nat) (d : Dev) : Dev := d.modCan c (withdrawAll 2)

/-- A write of CAN_CMD (R401). -/
def canCommand (c : Nat) (value : Word) (d : Dev) : Dev :=
  let d := if bit value 0 then canRecover c d else d
  if bit value 1 then canFlush c d else d

/-- The recovery from bus-off is complete (R389). -/
def recovered (c : Nat) (d : Dev) : Dev :=
  if !d.flag Fl.canStatusRecovering c then d
  else (d.modCan c fun x => { x with tec := 0, recv := 0, busOff := false }).setHw Fl.canStatusRecovering c 0

/-! ## Reads of the ring engine that complete behind the completion window (R43, R345) -/

/-- A read of the host area completes; its tags serve what waits for one. -/
def pageDone (r : Option (List Word)) (d : Dev) : Dev := if d.hif.dbRead then (doorbellDone r d).moreCells else d

/-- A descriptor read of a ring completes; its tag serves what waits for one. -/
def descDone (i : Nat) (r : Option Desc) (d : Dev) : Dev :=
  if 0 < (d.sq i).stale || (d.sq i).asked then (fetchDone i r d).moreCells else d

end Sys2Proof.Machine.Dev

namespace Sys2Proof.Machine

/-- DOORBELL_READ_COMPLETE (R54). -/
def execDoorbellReadComplete (r : Option (List Word)) (s : State) : Host.Outcome State Fault Refusal := s.onDev (Dev.pageDone r)

/-- DESCRIPTOR_FETCH (R33, R80). -/
def execDescriptorFetch (i : Fin 128) (r : Option Desc) (s : State) : Host.Outcome State Fault Refusal := s.onDev (Dev.descDone i r)

/-- CAN_TX (R395). -/
def execCanTx (i : Fin 128) (slot : BitVec 16) (x : Desc) (s : State) : Host.Outcome State Fault Refusal :=
  s.onDev (Dev.dispatch .canTx i slot (withOpcode .canTx x) Dev.opCanTx)

/-- INTEGRATION_DONE (R386). -/
def execIntegrationDone (c : Fin 4) (s : State) : Host.Outcome State Fault Refusal := s.onDev (Dev.integrated c)

/-- CAN_FRAME_RECEIVED (R390, R391). -/
def execCanFrameReceived (c : Fin 4) (f : Frame) (s : State) : Host.Outcome State Fault Refusal := s.onDev (Dev.received c f)

/-- CAN_TX_ATTEMPT (R396). -/
def execCanTxAttempt (c : Fin 4) (tdcv : Option Nat) (s : State) : Host.Outcome State Fault Refusal := s.onDev (Dev.txStart c tdcv)

/-- CAN_TX_SUCCESS (R397). -/
def execCanTxSuccess (c : Fin 4) (s : State) : Host.Outcome State Fault Refusal := s.onDev (Dev.txDone c)

/-- CAN_ERROR (R388, R397). -/
def execCanError (c : Fin 4) (e : BusErr) (s : State) : Host.Outcome State Fault Refusal := s.onDev (Dev.busError c e)

/-- BUS_OFF (R389). -/
def execBusOff (c : Fin 4) (s : State) : Host.Outcome State Fault Refusal := s.onDev (Dev.busOffEnter c)

/-- BUS_OFF_RECOVERY_DONE (R389). -/
def execBusOffRecoveryDone (c : Fin 4) (s : State) : Host.Outcome State Fault Refusal := s.onDev (Dev.recovered c)

/-- CAN_DATA_READ (R395). -/
def execCanDataRead (c : Fin 4) (key : Nat) (data : Option (List Byte)) (s : State) : Host.Outcome State Fault Refusal := s.onDev (Dev.dataRead c key data)

end Sys2Proof.Machine
end

