-- ==== Sys2Proof/Machine/Escapement.lean ====
section
/-! DEFINITION. Escapement.lean: STO pins, SAFE pins, the escapement's own checks, the orphan state, SS1, SLS and SLC
(chapter 15). -/

namespace Sys2Proof.Machine.Dev

/-! ## STO pins (R435 to R439) -/

/-- The qualified state of a pin and the readback of its path. -/
def pinFields (pinB : Bool) : Fld × Fld :=
  if pinB then (Fl.stoStatusPinB, Fl.stoStatusPathB) else (Fl.stoStatusPinA, Fl.stoStatusPathA)

/-- The two pins of a movement differ in their qualified state. -/
def stoUnlike (d : Dev) (m : Nat) : Bool := (d.hw Fl.stoStatusPinA 0).testBit m != (d.hw Fl.stoStatusPinB 0).testBit m

/-- Since when the pins differ, after a change of one of them. -/
def stoTime (m : Nat) (d : Dev) : Dev :=
  { d with sys := { d.sys with stoAt := if d.stoUnlike m then SMap.set d.sys.stoAt m d.time.start else SMap.drop d.sys.stoAt m } }

/-- A pin is qualified active: its path acts, and STO_ACTIVE is raised. -/
def stoOn (m : Nat) (pinB : Bool) (d : Dev) : Dev :=
  let f := pinFields pinB
  if (d.hw f.1 0).testBit m then d
  else (stoTime m ((d.setBit f.1 m true).setBit f.2 m true)).raise1 .stoActive m m m

/-- A pin is qualified inactive: its path no longer acts; torque does not return. Below 1.08 V of VCL the pin stays active (R435, R571). -/
def stoOff (m : Nat) (pinB : Bool) (d : Dev) : Dev :=
  let f := pinFields pinB
  if !(d.hw f.1 0).testBit m || !(d.hw Fl.pwrStatusVclOk 0).testBit m then d else stoTime m ((d.safeSense.setBit f.1 m false).setBit f.2 m false)

/-- The pins of a movement can have differed for longer than DISC ms (0 acts as 1) before the present tick ends: a millisecond of the
fastest oscillator of R443 lasts 10/11 of one, and one lasts 400,000 hub clocks (R439, R466). -/
def discGone (d : Dev) (m : Nat) : Bool :=
  decide (10 * (max 1 (d.cfg Fl.stoCfgDisc 0) * 400000) < 11 * (d.nextBoundary - SMap.get d.sys.stoAt m 0))

/-- The pins of a movement have differed for longer than DISC. -/
def stoDiffer (m : Nat) (d : Dev) : Dev := if d.stoUnlike m && d.discGone m then d.raise1 .stoDiscrepancy m m m else d

/-! ## SAFE pins (R440, R442) -/

/-- A change of a SAFE pin or an ESC_FAULT wants vector 69 (R442). -/
def escMessage (d : Dev) : Dev := if d.on Fl.escCfgIrqEn 0 then { d with sys := { d.sys with escIrq := d.sys.escIrq + 1 } } else d

/-- Both SAFE pins go low or high; each change wants a message. -/
def safePins (low : Bool) (d : Dev) : Dev :=
  if d.flag Fl.escStatusSafeA 0 == low && d.flag Fl.escStatusSafeB 0 == low then d
  else ((d.setFlag Fl.escStatusSafeA 0 low).setFlag Fl.escStatusSafeB 0 low).escMessage

/-- A condition has reached the escapement: both pins fall. -/
def safeFall (d : Dev) : Dev :=
  if d.safeCond || d.sys.safeDue then safePins true { d with sys := { d.sys with safeDue := false } } else d

/-- No condition has held for 1 ms: the pins rise. -/
def safeRise (d : Dev) : Dev := if d.safeCond || d.sys.safeDue then d else safePins false d

/-! ## ESC_FAULT and the self-test (R443, R444) -/

/-- ESC_FAULT: it holds until the next device reset. -/
def escFault (cause : EscCause) (d : Dev) : Dev :=
  let d := match cause with
    | .clock => d.setHw Fl.escStatusOscFail 0 1
    | .tick => d.setHw Fl.escStatusTickFail 0 1
    | .readback => d.setHw Fl.escStatusReadbackFail 0 1
    | .selftest => d
  ({ d with sys := { d.sys with escFault := true } }).escMessage.raise1 .escFault 0 0 presEsc

/-- The self-test has run, also after another ESC_FAULT: until it has passed all gates are off (R444), so that the legs without a period
start to come take their modes now. -/
def selftestEnd (pass : Bool) (d : Dev) : Dev :=
  if !d.sys.released || d.flag Fl.escStatusSelftestOk 0 then d
  else if pass then
    let d := d.setHw Fl.escStatusSelftestOk 0 1
    each ((span 0 64).filter fun n => d.gatesWait n) (fun n d => modesAt (d.turnAt n) n d) d
  else escFault .selftest d

/-! ## Orphan state (R200, R446, R447) -/

/-- The axis is armed as its movement knows it, and no STO pin holds it (R183, R200). -/
def mvArmed (d : Dev) (n : Nat) : Bool :=
  !d.stoPin (n / 8) && match (d.mva n).drive with
    | .off => false
    | .sto => false
    | .orphanSto => false
    | .orphanBrake => false
    | _ => true

/-- The choice of R200 for an axis. -/
def orphanDrive (d : Dev) (n : Nat) : Drive :=
  if d.on Fl.axisSafeOrphan n && d.mvArmed n && decide ((d.mva n).fb.speed.toInt.natAbs < d.thresh n) then .orphanBrake
  else .orphanSto

/-- An axis takes its orphan drive: ORPHAN_STO removes the gate enables at once; the short begins, and X ends, at the next period start of the
leg, or at once without a clock or in a halt (R190, R200, R279). -/
def toOrphan (n : Nat) (k : Drive) (d : Dev) : Dev :=
  let d := offtAbandon n (setDrive n k (seqDrop n d))
  if k = .orphanSto then d.modLegs n (Legs.offAt (d.turnAt n)) else if d.mvRuns (n / 8) then xModesFrom (d.turnAt n) n d else modesAt (d.turnAt n) n d

/-- Orphan entry: the drive states of R200, ORPH, and the source ORPHAN. -/
def orphanEnter (m : Nat) (byMonitor : Bool) (d : Dev) : Dev :=
  let pick := (localAxes m).map fun n => (n, d.orphanDrive n)
  let d := (d.setHw Fl.escMvstatusOrphan m 1).setFlag Fl.escMvstatusByMonitor m byMonitor
  let d := d.raise1 .orphan m m m
  let d := pick.foldl (fun d (e : Nat × Drive) => toOrphan e.1 e.2 d) d
  let d := if (d.mv m).cal.isSome then calAbandon m d else d
  d.modMv m fun x => { x with spTaken := none }

/-- Consecutive tick intervals without a valid beat last 200 µs: 80,000 hub clocks. -/
def beatGone (d : Dev) (m : Nat) : Bool := decide (80000 ≤ (d.mv m).beatGap)

/-- ORPHAN_ENTRY by either rule of R446: the tick rule where its intervals have passed, the monitor rule as its oscillator times it. -/
def orphanRule (m : Nat) (byMonitor : Bool) (d : Dev) : Dev :=
  if !d.mvOn m || d.orphan m || !(byMonitor || d.beatGone m) then d else orphanEnter m byMonitor d

/-! ## SS1, SLS, SLC (R449 to R456) -/

/-- An instant `ms` milliseconds after t comes before the movement's present tick ends. -/
def msGone (d : Dev) (m t ms : Nat) : Bool := decide (t + ms * 400000 ≤ (d.mv m).start + hubClocks (d.mv m).rate)

/-- The three events of the SS1 monitor (R449, R468): no edge or crossing for STILL ms, TMAX ms since its start, an interval that shows
the axis speeding up. -/
def ss1Due (d : Dev) (n : Nat) : Ss1Cause → Bool
  | .still => let w := (d.mva n).watch
    d.msGone (n / 8) (max w.ss1At (max (w.at1.getD 0) (if w.last2.isSome then w.at2 else 0))) (max 1 (d.cfg Fl.escSs1Still n))
  | .tmax => d.msGone (n / 8) (d.mva n).watch.ss1At (max 1 (d.cfg Fl.escSs1Tmax n))
  | .accelerating => (d.mva n).watch.ss1Up

/-- The SS1 monitor applies class 3 to its axis and ends. -/
def ss1Trip (n : Nat) (cause : Ss1Cause) (d : Dev) : Dev :=
  if !d.flag Fl.escAxstatusSs1 n || !d.ss1Due n cause then d
  else
    let d := stickAxis (n / 8) 31 3 n (d.setHw Fl.escAxstatusSs1 n 0)
    (reactNow 3 [n] d).addReq (n / 8) { cls := 3, axes := [n], code := 0, status := .stoppedFault }

/-- SLS and SLC take the safety hold at any class (R441). -/
def safetyFn (s : Src) (n : Nat) (d : Dev) : Dev := (d.setHw Fl.escAxstatusHold n 1).raise1 s n 0 (n / 8)

/-- A channel has seen N (0 acts as 1) consecutive short intervals (R453); its count starts anew. -/
def slsOver (n : Nat) (channel2 : Bool) (d : Dev) : Dev :=
  let w := (d.mva n).watch
  if !d.slsOn n || (if channel2 then w.run2 else w.run1) < max 1 (d.cfg Fl.escSlsCfgN n) then d
  else safetyFn .slsExceeded n (d.modWatch n fun w => if channel2 then { w with run2 := 0 } else { w with run1 := 0 })

/-- DN (0 acts as 1) consecutive mismatches, or channel 1 has moved too far without a crossing while channel 2 has a reading (R454). -/
def slsDisagree (d : Dev) (n : Nat) : Bool :=
  let w := (d.mva n).watch
  decide (max 1 (d.cfg Fl.escSlsCfgDn n) ≤ w.differ) ||
    decide (2 * d.cfg Fl.elecCfgCpe n + 6 * d.cfg Fl.escSlsCfgDtol n < w.moved.natAbs)

/-- The channels disagree (R454); the comparison starts anew. The check is suspended while channel 2 has no reading. -/
def slsDiffer (n : Nat) (d : Dev) : Dev :=
  if d.slsOn n && !d.slsBlind n && d.slsDisagree n then
    safetyFn .slsDiscrepancy n (d.modWatch n fun w => { w with differ := 0, moved := 0 })
  else d

/-- The last N (0 acts as 1) samples of the comparator, each at the end of an active vector of at least 400 ns, lie above TH, which counts
0.25 mV (R455, R470). -/
def slcHigh (d : Dev) (n : Nat) (samples : List (Nat × Int)) : Bool :=
  let vs := (samples.filter fun e => decide (400 ≤ e.1)).map (·.2)
  let k := max 1 (d.cfg Fl.escSlcN n)
  decide (k ≤ vs.length) && (vs.drop (vs.length - k)).all fun v => decide (250 * d.cfg Fl.escSlcTh n < v.natAbs)

/-- N consecutive samples above the threshold (R455). -/
def slcOver (n : Nat) (samples : List (Nat × Int)) (d : Dev) : Dev :=
  if d.mvOn (n / 8) && d.on Fl.escSlcEn n && d.slcHigh n samples then safetyFn .slcExceeded n d else d

/-- 64 periods without a sample in FIELD or OPENLOOP (R456). -/
def slcBlind (n : Nat) (d : Dev) : Dev :=
  if (d.mva n).watch.blind < 64 then d
  else (d.modWatch n fun w => { w with blind := 0 }).stick Fl.escAxstatusSlcBlind n

end Sys2Proof.Machine.Dev

namespace Sys2Proof.Machine

/-- STO_ACTIVE (R438). -/
def execStoActive (m : Fin 8) (pinB : Bool) (s : State) : Host.Outcome State Fault Refusal := s.onDev (Dev.stoOn m pinB)

/-- STO_PIN_RELEASE (R435, R438). -/
def execStoPinRelease (m : Fin 8) (pinB : Bool) (s : State) : Host.Outcome State Fault Refusal := s.onDev (Dev.stoOff m pinB)

/-- STO_DISCREPANCY (R439). -/
def execStoDiscrepancy (m : Fin 8) (s : State) : Host.Outcome State Fault Refusal := s.onDev (Dev.stoDiffer m)

/-- ESC_FAULT (R443). -/
def execEscFault (cause : EscCause) (s : State) : Host.Outcome State Fault Refusal := s.onDev (Dev.escFault cause)

/-- SELFTEST_END (R444). -/
def execSelftestEnd (pass : Bool) (s : State) : Host.Outcome State Fault Refusal := s.onDev (Dev.selftestEnd pass)

/-- SAFE_PIN_RELEASE (R440). -/
def execSafePinRelease (s : State) : Host.Outcome State Fault Refusal := s.onDev Dev.safeRise

/-- SAFE_CONDITION (R440). -/
def execSafeCondition (s : State) : Host.Outcome State Fault Refusal := s.onDev Dev.safeFall

/-- ORPHAN_ENTRY (R446, R447). -/
def execOrphanEntry (m : Fin 8) (byMonitor : Bool) (s : State) : Host.Outcome State Fault Refusal := s.onDev (Dev.orphanRule m byMonitor)

/-- SS1_TRIP (R449). -/
def execSs1Trip (ax : Fin 64) (cause : Ss1Cause) (s : State) : Host.Outcome State Fault Refusal := s.onDev (Dev.ss1Trip ax cause)

/-- SLS_EXCEEDED (R453). -/
def execSlsExceeded (ax : Fin 64) (channel2 : Bool) (s : State) : Host.Outcome State Fault Refusal := s.onDev (Dev.slsOver ax channel2)

/-- SLS_DISCREPANCY (R454). -/
def execSlsDiscrepancy (m j : Fin 8) (s : State) : Host.Outcome State Fault Refusal := s.onDev (Dev.slsDiffer (8 * m.val + j.val))

/-- SLC_EXCEEDED (R455). -/
def execSlcExceeded (e : SlcEvent) (s : State) : Host.Outcome State Fault Refusal :=
  s.onDev (Dev.slcOver e.ax e.samples)

/-- SLC_BLIND (R456). -/
def execSlcBlind (ax : Fin 64) (s : State) : Host.Outcome State Fault Refusal := s.onDev (Dev.slcBlind ax)

end Sys2Proof.Machine
end

