-- ==== Sys2Proof/Machine/Thermal.lean ====
section
/-! DEFINITION. Thermal.lean: temperature sensors, their limits and their cross-check, bus and supply comparators, and the
monitor bank (chapter 16). -/

namespace Sys2Proof.Machine.Dev

/-! ## Sensors (R476, R478, R481) -/

/-- The die of a sensor: 0 to 7 a movement, 8 the hub. -/
def dieOf (s : Nat) : Nat := if s < 48 then s / 6 else 8

/-- The sensors of a die. -/
def sensorsOf (die : Nat) : List Nat := if die < 8 then span (6 * die) 6 else span 48 4

/-- The die is powered and its sensors are measured (R476, R486). -/
def dieOn (d : Dev) (die : Nat) : Bool := if die < 8 then d.mvOn die else d.hubOn 4

/-- A sensor is enabled: a remote one by its mode. -/
def sensorEnabled (d : Dev) (s : Nat) : Bool :=
  if 48 ≤ s then true
  else if s % 6 < 4 then true
  else if s % 6 = 4 then d.on Fl.trCfgMode0 (s / 6) else d.on Fl.trCfgMode1 (s / 6)

/-- The neighbours of a sensor (R481). -/
def neighbours (d : Dev) (s : Nat) : List Nat :=
  let m := s / 6
  let b := 6 * m
  if 48 ≤ s then (span 48 4).filter (· ≠ s)
  else match s % 6 with
    | 0 => [b + 1, b + 2, b + 3, 6 * ((m + 7) % 8) + 3]
    | 3 => [b, b + 1, b + 2, 6 * ((m + 1) % 8)]
    | 4 => if d.on Fl.thermCfgRpair m then [b + 5] else []
    | 5 => if d.on Fl.thermCfgRpair m then [b + 4] else []
    | _ => (span b 4).filter (· ≠ s)

/-- A reading in 1/16 °C. -/
def tempInt (v : Nat) : Int := signed 16 v

/-- The temperature in 1/16 °C of a diode whose VBE differs by this many µV at 10 µA and 100 µA (R476): 200.0027 µV per kelvin at an ideality of
1.008, k / q being 86.1733 µV/K (log entry 188). -/
def diodeTemp (uv : Int) : Int := rnd (1600000 * uv - 43704 * 2000027) 20000270

/-- The bits of the binary logarithm of a mantissa m / 2^32 in 1 to 2, n of them. -/
def logBits : Nat → Nat → Nat
  | 0, _ => 0
  | n + 1, m =>
    let s := m * m / 2 ^ 32
    if 2 ^ 33 ≤ s then 2 ^ n + logBits n (s / 2) else logBits n s

/-- The natural logarithm of q / 2^40 in 1/2^24, from 24 bits of the binary one; ln 2 is 11,629,080 / 2^24. -/
def lnFix (q : Nat) : Int :=
  let e := Nat.log2 q
  ((e : Int) * 2 ^ 24 + logBits 24 (q * 2 ^ 32 / 2 ^ e) - 40 * 2 ^ 24) * 11629080 / 2 ^ 24

/-- The resistance of an NTC with its pin at x / 2^20 of the reference, through the internal 10 kΩ, lies outside 100 Ω to 1 MΩ (R476, R483). -/
def ntcOpen (x : Int) : Bool :=
  decide (10000 * x < 100 * (2 ^ 20 - x)) || decide (1000000 * (2 ^ 20 - x) < 10000 * x)

/-- The temperature in 1/16 °C of an NTC by its ratio, its B in K and its resistance at 25 °C in 10 Ω (R476): the inverse of
1 / 298.15 K + ln (R / R25) / B (log entry 188). -/
def ntcTemp (x : Int) (b r25 : Nat) : Int :=
  if ntcOpen x then (if x < 2 ^ 19 then 32767 else -4370)
  else
    let q := 1000 * x.toNat * 2 ^ 40 / ((2 ^ 20 - x).toNat * r25)
    let den : Int := 100 * b * 2 ^ 24 + 29815 * lnFix q
    if den ≤ 0 then 32767 else rnd (160 * 29815 * b * 2 ^ 24 - 43704 * den) (10 * den).toNat

/-- A temperature as TEMP reports it; `broken`: an open or shorted input. -/
structure TempReading where
  value  : BitVec 16
  broken : Bool
  deriving DecidableEq, Repr

/-- The temperature of a sample (R476, R483, R496): a remote sensor converts it by its mode, with the diode offset of 0.25 K per LSB; an NTC
outside 100 Ω to 1 MΩ is open or shorted. -/
def tempOf (d : Dev) (s : Nat) (x : TempSample) : TempReading :=
  let m := s / 6
  let word (v : Int) : BitVec 16 := BitVec.ofInt 16 (saturate 16 v)
  let mode := if s % 6 = 4 then d.cfg Fl.trCfgMode0 m else d.cfg Fl.trCfgMode1 m
  if 48 ≤ s ∨ s % 6 < 4 then ⟨word x.raw, x.broken⟩
  else if mode = 1 then ⟨word (diodeTemp x.raw + 4 * signed 8 (d.cfg Fl.trNtcDofs m)), x.broken⟩
  else ⟨word (ntcTemp x.raw (d.cfg Fl.trCfgB m) (max 1 (d.cfg Fl.trNtcR25 m))), x.broken || ntcOpen x.raw⟩

/-- The readings of a die. -/
def tempsOf (d : Dev) (die : Nat) (l : List TempSample) : List TempReading := ((sensorsOf die).zip l).map fun e => d.tempOf e.1 e.2

/-- A reading outside −60 to +200 °C, or of an open or shorted input (R483). -/
def outside (r : TempReading) : Bool := r.broken || decide (r.value.toInt < -960) || decide (3200 < r.value.toInt)

/-- The marks a die goes by: those the hub has told a movement, the hub's own. -/
def brokenAt (d : Dev) (s : Nat) : Bool :=
  if s < 48 then (d.mv (s / 6)).marks.getLsbD (s % 6) else d.flag Fl.tempBroken s

/-- A mark is set; the first setting raises TSENSE_BROKEN (R483). -/
def mark (f : Fld) (s : Nat) (d : Dev) : Dev :=
  if d.flag f s then d else (d.setHw f s 1).raise .tsenseBroken (dieOf s) (dieOf s) presThermal

/-! ## Measurement (R477 to R480) -/

/-- The fields of a die's configuration and status, its index among them, and the cap of its TRIP. -/
structure DieRegs where
  sel  : Fld
  warn : Fld
  trip : Fld
  temp : Fld
  valid : Fld
  fast : Fld
  warnF : Fld
  tripF : Fld
  idx  : Nat
  cap  : Nat

/-- The registers of a die (R495, R498). -/
def dieRegs (die : Nat) : DieRegs :=
  if die < 8 then ⟨Fl.thermCfgSel, Fl.thermCfgWarn, Fl.thermCfgTrip, Fl.thermStatusTemp, Fl.thermStatusValid, Fl.thermStatusFast,
    Fl.thermStatusWarn, Fl.thermStatusTrip, die, 165⟩
  else ⟨Fl.thermHubcfgSel, Fl.thermHubcfgWarn, Fl.thermHubcfgTrip, Fl.thermHubstatusTemp, Fl.thermHubstatusValid,
    Fl.thermHubstatusFast, Fl.thermHubstatusWarn, Fl.thermHubstatusTrip, 0, 125⟩

/-- The largest of some readings. -/
def maxInt : List Int → Option Int
  | [] => none
  | x :: r => match maxInt r with
    | none => some x
    | some y => some (max x y)

/-- Readings of usable sensors: enabled, not marked broken, inside the range. -/
def usableReadings (d : Dev) (die : Nat) (rs : List TempReading) : List (Nat × Int) :=
  ((sensorsOf die).zip rs).filterMap fun e =>
    if d.sensorEnabled e.1 && !d.brokenAt e.1 && !outside e.2 then some (e.1, e.2.value.toInt) else none

/-- The interval of a die (R477). -/
def setFast (die : Nat) (l : List Int) (d : Dev) : Dev :=
  let r := dieRegs die
  let warn : Int := d.cfg r.warn r.idx
  if l.isEmpty || l.any fun t => decide (16 * (warn - 10) ≤ t) then d.setHw r.fast r.idx 1
  else if l.all fun t => decide (t < 16 * (warn - 12)) then d.setHw r.fast r.idx 0
  else d

/-- The warning limit (R479). -/
def warnCheck (die : Nat) (t : Int) (d : Dev) : Dev :=
  let r := dieRegs die
  let warn : Int := d.cfg r.warn r.idx
  if d.flag r.warnF r.idx then (if t < 16 * (warn - 5) then d.setHw r.warnF r.idx 0 else d)
  else if 16 * warn ≤ t then
    let d := d.setHw r.warnF r.idx 1
    if die < 8 then d.raise .mvTempWarn die die die else d.raise .hubTempWarn 0 0 presThermal
  else d

/-- Measurements in a row at or above TRIP. -/
def tripRun (d : Dev) (die : Nat) : Nat := if die < 8 then (d.mv die).trip else SMap.get d.therm.trip 8 0
def setTripRun (die n : Nat) (d : Dev) : Dev :=
  if die < 8 then d.modMv die fun x => { x with trip := n } else { d with therm := { d.therm with trip := SMap.set d.therm.trip 8 n } }

/-- The trip limit: raised in the second measurement in a row, and at once where VALID read 0 already and still does
(R479, R480). -/
def tripCheck (die : Nat) (t : Int) (blind : Bool) (d : Dev) : Dev :=
  let r := dieRegs die
  let trip : Int := min r.cap (d.cfg r.trip r.idx)
  let n := if blind then 2 else if 16 * trip ≤ t then min 2 (d.tripRun die + 1) else 0
  let d := setTripRun die n d
  if d.flag r.tripF r.idx then (if t < 16 * (trip - 10) then d.setHw r.tripF r.idx 0 else d)
  else if n = 2 then
    let d := d.setHw r.tripF r.idx 1
    if die < 8 then d.raise .mvOvertemp die die die else d.raise .hubOvertemp 0 0 presThermal
  else d

/-- A reading reaches TEMP (R494); one outside the range marks its sensor (R483). -/
def takeReading (s : Nat) (v : BitVec 16) (bad : Bool) (d : Dev) : Dev :=
  let d := (d.setHw Fl.tempValue s v.toNat).setHw Fl.tempOff s 0
  let d := if bad then mark Fl.tempBroken s d else d
  { d with therm := { d.therm with fresh := d.therm.fresh ++ [s], since := SMap.set d.therm.since s d.time.start } }

/-- A die measures its enabled sensors: the reported value, the interval and the limits; the readings go to the hub. -/
def temperature (die : Nat) (l : List TempSample) (d : Dev) : Dev :=
  if !d.dieOn die || (die < 8 && !d.mvRuns die) then d
  else
    let rs := d.tempsOf die l
    let r := dieRegs die
    let u := d.usableReadings die rs
    let sel := u.filter fun e => (d.cfg r.sel r.idx).testBit (if die < 8 then e.1 % 6 else e.1 - 48)
    let rep := maxInt (sel.map (·.2))
    let t := rep.getD 0x7FFF
    let blind := !d.flag r.valid r.idx && rep.isNone
    let d := (d.setHw r.temp r.idx (BitVec.ofInt 16 t).toNat).setFlag r.valid r.idx rep.isSome
    let d := (tripCheck die t blind (warnCheck die t (setFast die (u.map (·.2)) d))).settle
    let got := ((sensorsOf die).zip rs).filter fun e => d.sensorEnabled e.1
    if die < 8 then d.modMv die fun x => { x with temps := x.temps ++ got.map fun e => (e.1, e.2.value, outside e.2) }
    else (got.foldl (fun d e => takeReading e.1 e.2.value (outside e.2) d) d).settle

/-! ## The cross-check in phase 1 (R481, R482) -/

/-- Two measurement intervals of a die, in hub clocks. -/
def twoIntervals (d : Dev) (die : Nat) : Nat :=
  let r := dieRegs die
  if d.flag r.fast r.idx then 800000 else 8000000

/-- A sensor is usable as a neighbour. -/
def neighbourOk (d : Dev) (s : Nat) : Bool :=
  d.sensorEnabled s && !d.flag Fl.tempBroken s && d.dieOn (dieOf s) &&
  match SMap.find d.therm.since s with
  | none => false
  | some t => decide (d.time.start - t ≤ d.twoIntervals (dieOf s))

/-- Two readings differ by more than LIM. -/
def disagree (d : Dev) (a b : Nat) : Bool :=
  decide (16 * max 42 (d.cfg Fl.thermChkLim 0) < (tempInt (d.hw Fl.tempValue a) - tempInt (d.hw Fl.tempValue b)).natAbs)

/-- Counts of evaluations in a row: as a candidate at s, with a single neighbour at 64 + s. -/
def evalRun (d : Dev) (k : Nat) : Nat := SMap.get d.therm.cand k 0
def setRun (k n : Nat) (d : Dev) : Dev := { d with therm := { d.therm with cand := SMap.set d.therm.cand k n } }

/-- The evaluation of one sensor. -/
def evaluate (s : Nat) (d : Dev) : Dev :=
  let need := max 1 (d.cfg Fl.thermChkN 0)
  let ns := (d.neighbours s).filter d.neighbourOk
  let bad := ns.filter (d.disagree s)
  match ns with
  | [] => d
  | [o] =>
    let n := if bad.isEmpty then 0 else d.evalRun (64 + s) + 1
    if need ≤ n then mark Fl.tempSuspect o (mark Fl.tempSuspect s (setRun (64 + s) 0 d)) else setRun (64 + s) n (setRun s 0 d)
  | _ =>
    let n := if ns.length < 2 * bad.length then d.evalRun s + 1 else 0
    if need ≤ n then mark Fl.tempBroken s (setRun s 0 d) else setRun s n (setRun (64 + s) 0 d)

/-- Phase 1: every sensor with a new measurement is evaluated (R482). -/
def crossCheck (d : Dev) : Dev :=
  let fresh := (sortNat d.therm.fresh).eraseDups
  let d := { d with therm := { d.therm with fresh := [] } }
  if !d.hubOn 4 then d
  else (fresh.foldl (fun d s => evaluate s d) d).settle

/-- A cleared mark restarts its count (R494), and those of the sensors that have it as their only usable neighbour (R483). -/
def clearMark (s : Nat) (d : Dev) : Dev :=
  let pairs := (d.neighbours s).filter fun o => (d.neighbours o).filter d.neighbourOk = [s]
  each pairs (fun o d => setRun (64 + o) 0 d) (setRun (64 + s) 0 (setRun s 0 d))

/-- The hub's broken marks of a movement's sensors, as the setpoint frame carries them (R483). -/
def marksOf (d : Dev) (m : Nat) : BitVec 6 := BitVec.ofNat 6 (maskOf ((span 0 6).filter fun k => d.flag Fl.tempBroken (6 * m + k)))

/-- THERM_HUBSTATUS.NVS_OK (R485, R486). -/
def nvsOk (d : Dev) : Bool :=
  let us := (span 48 4).filter fun s => !d.flag Fl.tempBroken s && !d.flag Fl.tempOff s
  d.hubOn 4 && !us.isEmpty && us.all fun s =>
    decide (0 ≤ tempInt (d.hw Fl.tempValue s)) && decide (tempInt (d.hw Fl.tempValue s) ≤ 1360)

/-! ## Motor bus and supply rails (R488, R489) -/

/-- The bus has been above OV for 10 µs. -/
def busOver (m : Nat) (pin : BitVec 12) (d : Dev) : Dev :=
  let v := d.vbsOf m pin
  if !d.mvOn m || v ≤ min 1800 (d.cfg Fl.vbusLimOv m) || d.flag Fl.vbusStatusOvNow m then d
  else ((d.setHw Fl.vbusStatusVbs m v).setHw Fl.vbusStatusOvNow m 1).raise1 .vbusOv m m m

/-- The bus has been below UV for 100 µs while an axis is armed; an ARM that takes effect on a low bus raises the source again (R488) (log entry 204). -/
def busUnder (m : Nat) (pin : BitVec 12) (d : Dev) : Dev :=
  let v := d.vbsOf m pin
  let uv := d.cfg Fl.vbusLimUv m
  if !d.mvOn m || d.mvUnarmed m || uv = 0 || uv ≤ v || (d.flag Fl.vbusStatusUvNow m && !(d.mv m).uvNew) then d
  else (((d.modMv m fun x => { x with uvNew := false }).setHw Fl.vbusStatusVbs m v).setHw Fl.vbusStatusUvNow m 1).raise1 .vbusUv m m m

/-- The nominal voltages of VCORE, VANA, VIO and VAON in mV (R504). -/
def railNominal (rail : Nat) : Nat := if rail = 0 then 800 else if rail = 3 then 1800 else 3300

/-- A rail lies below half of its nominal voltage: power-on reset holds the device (R505). -/
def railGone (rail mv : Nat) : Bool := decide (2 * mv < railNominal rail)

/-- A rail has been below 90 % or above 112 % of its nominal voltage for 5 µs. -/
def supplyFault (rail mv : Nat) (d : Dev) : Dev :=
  if 90 * railNominal rail ≤ 100 * mv ∧ 100 * mv ≤ 112 * railNominal rail then d
  else ((d.setBit Fl.supplyStatusNow rail true).setBit Fl.supplyStatusSeen rail true).raise1 .supplyFault 0 rail presSupply

/-- Whether a rail that has left its window is back in it is the surroundings' to say: each look at SUPPLY_STATUS.NOW may find
any of its bits fallen (log entry 31). -/
def railLook (d : Dev) : Dev :=
  if d.hw Fl.supplyStatusNow 0 = 0 then d
  else
    let (w, d) := d.free
    d.setHw Fl.supplyStatusNow 0 (d.hw Fl.supplyStatusNow 0 &&& w.toNat)

/-! ## The monitor bank (R490 to R493) -/

def mon (d : Dev) (c : Nat) : MonCtl := SMap.get d.mons c {}
def setMon (d : Dev) (c : Nat) (x : MonCtl) : Dev := { d with mons := SMap.set d.mons c x }

/-- The enabled inputs of a converter from `lo` on, ascending. -/
def monInputs (d : Dev) (c lo : Nat) : List Nat :=
  [c, c + 8, c + 16, c + 24].filter fun i => lo ≤ i && (d.cfg Fl.monEnEn 0).testBit i

/-- A mains period in hub clocks: that of MAINS_STATUS, or DEFPER while it is not valid (R491, R501). -/
def monPeriod (d : Dev) : Nat :=
  if d.time.mainsValid then d.time.mainsPeriod.toNat else 400 * max 14300 (min 25000 (d.cfg Fl.monCfgDefper 0))

/-- The length of an integration that starts now (R491). -/
def monLen (d : Dev) : Nat := (d.cfg Fl.monCfgNper 0 + 1) * d.monPeriod

/-- The end of an integration or a rest lies before the tick boundary to come. -/
def monDue (d : Dev) (c : Nat) : Bool := decide ((d.mon c).ends < d.nextBoundary)

/-- An integration of the scan starts at t, synchronised while the mains time base is valid, or the rest after the scan (R491). -/
def monStart (c lo t : Nat) (d : Dev) : Dev :=
  match d.monInputs c lo with
  | [] => d.setMon c { run := none, resting := lo ≠ 0, ends := t + d.cfg Fl.monCfgGap 0 * d.monPeriod }
  | i :: _ => d.setMon c { run := some (i, false, !d.time.mainsValid), resting := false, ends := t + d.monLen }

/-- A converter that neither integrates nor rests begins a scan. -/
def monWake (c : Nat) (d : Dev) : Dev :=
  if !d.hubOn 4 || (d.mon c).run.isSome || (d.mon c).resting then d else monStart c 0 d.time.start d

/-- The pin carries DIR of a STEP/DIR pair: its own CMD_CFG is ignored (R140). -/
def pinIgnored (d : Dev) (c : Nat) : Bool := c % 2 == 1 && d.cfg Fl.cmdCfgMode (c - 1) == 4

/-- Mode of a CMD pin: 0 off, 1 analog, 2 duty, 3 frequency, 4 STEP/DIR. -/
def cmdMode (d : Dev) (c : Nat) : Nat := if d.pinIgnored c then 0 else d.cfg Fl.cmdCfgMode c

/-- A conversion of an analog CMD pin: its fraction, and how often in a row it has lain below 0.1 V or above 2.9 V (R137). -/
def cmdSample (i : Nat) (v : BitVec 20) (d : Dev) : Dev :=
  let c := i - 8
  if d.cmdMode c ≠ 1 then d
  else
    let x := d.cmd c
    let bad := if v.toNat < 34953 || 1013623 < v.toNat then x.bad + 1 else 0
    d.setCmd c { x with raw := BitVec.ofNat 16 (v.toNat / 16), bad := bad, lostNow := x.lostNow || decide (2 ≤ bad) }

/-- An integration ends: its result is written, and the scan goes on or the converter rests. -/
def monDone (c : Nat) (value : BitVec 20) (clip : Bool) (d : Dev) : Dev :=
  match (d.mon c).run with
  | none => d
  | some (i, urgent, nosync) =>
    if !d.monDue c then d else
    let v : BitVec 20 := if clip then 0xFFFFF else value
    let w := v.toNat + (d.hw Fl.monResSeq i + 1) % 256 * 2 ^ 20 + at_ nosync 28 + at_ urgent 29 + at_ clip 30
    let d := { d with regs := { d.regs with hw := SMap.set d.regs.hw (Reg.offset .monRes i) (BitVec.ofNat 32 w) } }
    let d := if 8 ≤ i && i < 16 then cmdSample i v d else d
    let x := d.mon c
    if urgent then d.setMon c { x with run := none, ends := x.ends + x.held, held := 0 } else monStart c (i + 1) x.ends d

/-- The rest of a converter ends (R491). -/
def monRestEnd (c : Nat) (d : Dev) : Dev :=
  if !d.hubOn 4 || !(d.mon c).resting || (d.mon c).run.isSome || !d.monDue c then d else monStart c 0 (d.mon c).ends d

/-- A write of MON_URGENT `off` hub clocks into the tick: a rest waits for the conversion; one whose end has come meets the start of the scan
(R492). -/
def monUrgentWrite (value : Word) (off : Nat) (d : Dev) : Dev :=
  let i := bits value 0 5
  let c := i % 8
  let x := d.mon c
  let t := d.time.start + off
  if x.run.isSome || (x.resting && decide (x.ends ≤ t)) then d.bump Fl.monStatusUrgDrop 0 1
  else d.setMon c { x with run := some (i, true, !d.time.mainsValid), ends := t + d.monLen, held := if x.resting then x.ends - t else 0 }

end Sys2Proof.Machine.Dev

namespace Sys2Proof.Machine

/-- TEMP_MEASUREMENT (R477 to R480). -/
def execTempMeasurement (die : Fin 9) (readings : List TempSample) (s : State) : Host.Outcome State Fault Refusal := s.onDev (Dev.temperature die readings)

/-- VBUS_OV (R488). -/
def execVbusOv (m : Fin 8) (reading : BitVec 12) (s : State) : Host.Outcome State Fault Refusal := s.onDev (Dev.busOver m reading)

/-- VBUS_UV (R488). -/
def execVbusUv (m : Fin 8) (reading : BitVec 12) (s : State) : Host.Outcome State Fault Refusal := s.onDev (Dev.busUnder m reading)

/-- MONITOR_CONVERSION_DONE (R493). -/
def execMonitorConversionDone (c : Fin 8) (value : BitVec 20) (clip : Bool) (s : State) : Host.Outcome State Fault Refusal := s.onDev (Dev.monDone c value clip)

/-- MONITOR_REST_END (R491). -/
def execMonitorRestEnd (c : Fin 8) (s : State) : Host.Outcome State Fault Refusal := s.onDev (Dev.monRestEnd c)

end Sys2Proof.Machine
end

