-- ==== Sys2Proof/Machine/LockOps.lean ====
section
/-! DEFINITION. LockOps.lean: the access lock: unlock attempts, scopes, lockout (R459 to R465), and the loss of the host link,
which closes every scope (R46, R464). -/

namespace Sys2Proof.Machine.Dev

/-! ## Scopes (R459, R464) -/

/-- Scopes close; closing scope 3 ends every debug halt (R201, R287). -/
def closeScopes (mask : Nat) (d : Dev) : Dev :=
  let open_ := d.hw Fl.lockStatusScopes 0
  let d := d.setHw Fl.lockStatusScopes 0 (open_ - (open_ &&& mask))
  if (open_ &&& mask).testBit 2 then each (span 0 9) debugResume d else d

/-! ## Commands (R461 to R465, R474) -/

/-- LOCK_STATUS.LAST and the end of BUSY; the password goes. -/
def lockLast (n : Nat) (d : Dev) : Dev :=
  ({ d with lock := { d.lock with run := none, pw := [] } }).setHw Fl.lockStatusBusy 0 0 |>.setHw Fl.lockStatusLast 0 n

/-- A command is refused. -/
def lockRefuse (d : Dev) : Dev := lockLast 3 (d.stick Fl.lockStatusRefused 0)

/-- A successful unlock: its scopes open, FAILS falls to 0. -/
def unlock (mask : BitVec 3) (d : Dev) : Dev :=
  lockLast 1 ((d.setHw Fl.lockStatusScopes 0 (d.hw Fl.lockStatusScopes 0 ||| mask.toNat)).setHw Fl.lockStatusFails 0 0)

/-- The hub's ticks count the time: its PLL has lock, and it is in no debug halt (R287, R506). -/
def timeSeen (d : Dev) : Bool := d.flag Fl.clkStatusPllLock 0 && !d.sys.hubHalt

/-- A failed unlock: counted; from the 8th on a lockout, each one twice as long as the one before (R463). -/
def lockFail (d : Dev) : Dev :=
  let n := min 255 (d.hw Fl.lockStatusFails 0 + 1)
  let d := d.setHw Fl.lockStatusFails 0 n
  let d :=
    if n < 8 then d
    else
      let len := if n = 8 then 60 else min 61440 (2 * d.lock.lockLen)
      (({ d with lock := { d.lock with lockLen := len, since := d.time.start, blind := !d.timeSeen } }).setHw Fl.lockStatusLockout 0 1).setHw
        Fl.lockWaitWait 0 len
  lockLast 2 d

/-- Eight words of the password, four of the response; what has not been written is 0. -/
def pwBytes (d : Dev) : List Byte := wordBytes ((span 0 8).map fun k => d.lock.pw.getD k 0)
def respBytes (d : Dev) : List Byte := wordBytes ((span 0 4).map fun k => d.lock.resp.getD k 0)

/-- SHA-256 of the password as the verifier holds it. -/
def pwHash (d : Dev) : BitVec 256 := BitVec.ofNat 256 (ofBytes (sha256 d.pwBytes))

/-- The message of a challenge: nonce and mask (R462). -/
def challengeBytes (d : Dev) : List Byte :=
  wordBytes ((span 0 4).map fun k => regWord d.regs.hw .lockNonce k) ++ [d.lock.mask.setWidth 8]

/-- The expected response under the device key. -/
def expected (d : Dev) : Option (List Byte) :=
  Config.deviceKey.map fun k => (hmac (beBytes 32 k.toNat) d.challengeBytes).take 16

/-- A word of the password or the response is written; the others keep their values. -/
def putWord (l : List Word) (n k : Nat) (w : Word) : List Word := (span 0 n).map fun i => if i = k then w else l.getD i 0

/-- A write of LOCK_CMD: the command starts, any nonce goes (R462). One that comes while another runs is ignored (log entry 33);
RELOCK closes its scopes at once. -/
def lockCommand (value : Word) (d : Dev) : Dev :=
  let mask : BitVec 3 := BitVec.ofNat 3 (bits value 4 3)
  let op := bits value 0 3
  if d.lock.run.isSome || 5 ≤ op then d
  else
    let valid := d.flag Fl.lockStatusNonceValid 0
    let run : LockRun := match op with
      | 0 => .password mask
      | 1 => .challenge mask
      | 2 => .response valid
      | 3 => .relock
      | _ => .setpw
    let d := ({ d with lock := { d.lock with run := some run } }).setHw Fl.lockStatusBusy 0 1 |>.setHw Fl.lockStatusNonceValid 0 0
    if op = 3 then closeScopes mask.toNat d else d

/-- The running command completes. -/
def lockDone (d : Dev) : Dev :=
  match d.lock.run with
  | none => d
  | some (.password mask) =>
    match d.lock.verifier with
    | none => lockRefuse d
    | some v => if d.flag Fl.lockStatusLockout 0 then lockRefuse d else if d.pwHash = v then unlock mask d else lockFail d
  | some (.challenge mask) =>
    let n := Config.nonce d.fresh
    let d := { d with fresh := d.fresh + 1, lock := { d.lock with mask := mask } }
    let d := each (span 0 4) (fun k d => d.setHw Fl.lockNonceNonce k (n.toNat / 2 ^ (32 * k) % 2 ^ 32)) d
    lockLast 1 (d.setHw Fl.lockStatusNonceValid 0 1)
  | some (.response valid) =>
    if !valid then lockRefuse (d.stick Fl.lockStatusNoNonce 0)
    else if d.flag Fl.lockStatusLockout 0 then lockRefuse d
    else if d.expected = some d.respBytes then unlock d.lock.mask d
    else lockFail d
  | some .relock => lockLast 1 d
  | some .setpw =>
    if d.hw Fl.lockStatusScopes 0 = 7 && d.lock.verifier.isNone then
      lockLast 1 (({ d with lock := { d.lock with verifier := some d.pwHash } }).setHw Fl.lockStatusPwSet 0 1)
    else lockRefuse d

/-- 30 s after its issue, the nonce expires. -/
def nonceExpire (d : Dev) : Dev := d.setHw Fl.lockStatusNonceValid 0 0

/-- The lockout has run out. -/
def lockoutEnd (d : Dev) : Dev := ({ d with lock := { d.lock with blind := false } }.setHw Fl.lockStatusLockout 0 0).setHw Fl.lockWaitWait 0 0

/-- LOCK_WAIT: seconds left, rounded up, on a nominal oscillator; the surroundings say when the lockout ends (log entry 34). Where the
hub's ticks have stood still since its start, they bound the seconds left, and the value is an open one. -/
def lockWait (d : Dev) : Nat :=
  let left := max 1 (d.hw Fl.lockWaitWait 0 - (d.time.start - d.lock.since) / 400000000)
  if !d.flag Fl.lockStatusLockout 0 then 0
  else if d.lock.blind then 1 + (Config.freeWord d.fresh).toNat % left
  else left

/-! ## Loss of the host link (R46, R464) -/

/-- The link is lost, or the function enters D3hot: its state, the common effects, and every scope closes. -/
def hostLost (why : LinkLoss) (d : Dev) : Dev :=
  match why with
  | .down => if !d.hif.linkUp then d else closeScopes 7 ({ d with hif := { d.hif with linkUp := false } }).linkLost
  | .d3hot => if d.hif.d3hot then d else closeScopes 7 ({ d with hif := { d.hif with d3hot := true } }).linkLost

end Sys2Proof.Machine.Dev

namespace Sys2Proof.Machine

/-- HOST_LINK_LOST (R46). -/
def execHostLinkLost (why : LinkLoss) (s : State) : Host.Outcome State Fault Refusal := s.onDev (Dev.hostLost why)

/-- LOCK_COMMAND_DONE (R461 to R465). -/
def execLockCommandDone (s : State) : Host.Outcome State Fault Refusal := s.onDev Dev.lockDone

/-- NONCE_EXPIRY (R462). -/
def execNonceExpiry (s : State) : Host.Outcome State Fault Refusal := s.onDev Dev.nonceExpire

/-- LOCKOUT_EXPIRY (R463). -/
def execLockoutExpiry (s : State) : Host.Outcome State Fault Refusal := s.onDev Dev.lockoutEnd

end Sys2Proof.Machine
end

