-- ==== Sys2Proof/Machine/Power.lean ====
section
/-! DEFINITION. Power.lean: clocks, domains, resets, link training and configuration space (chapter 17, R554). -/

namespace Sys2Proof.Machine.Dev

/-! ## The registers of a movement (R517) -/

/-- A movement's registers return to their reset values, and writes on their way to it go. -/
def wipeMv (m : Nat) (d : Dev) : Dev :=
  let keep := fun (e : Nat × Word) => !inMv m e.1
  { d with regs := { d.regs with acc := d.regs.acc.filter keep, force := d.regs.force.filter keep, hw := d.regs.hw.filter keep,
                                 pend := d.regs.pend.filter fun w => !inMv m w.off } }

/-! ## Movements go off and come back (R510, R511, R516, R517) -/

/-- Both STO pins of a movement start active (R435). -/
def pinsActive (m : Nat) (d : Dev) : Dev :=
  (((d.setBit Fl.stoStatusPinA m true).setBit Fl.stoStatusPinB m true).setBit Fl.stoStatusPathA m true).setBit Fl.stoStatusPathB m true

/-- What the hub shows of an axis whose movement is off: drive OFF, the position of the mirror, unverified (R144, R510). -/
def axisOff (n : Nat) (d : Dev) : Dev :=
  let d := d.modAxis n fun x => { x with lat := { pos := x.lat.pos }, ss1 := false }
  d.setHw Fl.motionStatusPosUnverified n 1

/-- A movement loses its contents: its pairs are held, a calibration and tests are abandoned, its registers are reset. -/
def mvDown (m : Nat) (d : Dev) : Dev :=
  if !d.mvOn m then d
  else
    let held := d.safehold m
    let bit : BitVec 8 := BitVec.ofNat 8 (2 ^ m)
    let d := { d with sys := { d.sys with holdHeld := if held then d.sys.holdHeld ||| bit else d.sys.holdHeld &&& ~~~ bit } }
    let gone := (d.mv m).calGone ++ (d.mv m).calActs ++ (d.mv m).calNext
    let d := (each (localAxes m) offtGone d).setHw Fl.isenseCalStatusRunning m 0
    let d := each (span (6 * m) 6) (fun s d => d.setHw Fl.tempOff s 1) (wipeMv m d)
    let d := each (localAxes m) (fun n d => axisOff n (d.modMva n fun x => { offtEnd := x.offtEnd })) d
    let d := { d with flt := { d.flt with mvFlags := d.flt.mvFlags.filter fun e => decide (e.1 / 8 ≠ m) } }
    let d := d.modMv m fun _ => { calGone := gone }
    ((d.setBit Fl.pwrStatusMvOn m false).setBit Fl.pwrStatusParked m false).setHw Fl.linkStatusTrained m 0

/-- VCL of a movement falls below 1.08 V: it enters reset. The hub has not switched it off, so that it misses the latch frames of a link
that was trained until it trains again (R34, R510). -/
def vclDown (m : Nat) (d : Dev) : Dev :=
  let was := d.mvOn m
  let served := was && d.trained m
  let n := (d.mv m).latMiss
  let d := pinsActive m ((mvDown m d).setBit Fl.pwrStatusVclOk m false)
  if was then d.modMv m fun x => { x with lost := served, latMiss := n } else d

/-- A movement leaves reset with its registers at their reset values and its axes unarmed; an orphan comes back as an orphan (R511). -/
def mvUp (m : Nat) (d : Dev) : Dev :=
  let d := each (localAxes m) (disarmAxis false) ((d.setBit Fl.pwrStatusVclOk m true).setBit Fl.pwrStatusMvOn m true)
  let d := d.modMv m fun x => { x with load := true, rate := d.time.rate }
  if d.orphan m then each (localAxes m) (fun n d => d.modMva n fun x => { x with drive := .orphanSto }) d else d

/-- MOVEMENT_RESET_RELEASE: VCL is valid, and a movement that is switched on has waited in reset (R511, R530). -/
def mvRelease (m : Nat) (d : Dev) : Dev :=
  if !d.sys.released || d.mvOn m then d
  else if d.sys.ticking && d.sys.mvSw.getLsbD m then mvUp m d
  else d.setBit Fl.pwrStatusVclOk m true

/-- A tick boundary acts on PWR_CTRL.MV for one movement. -/
def mvSwitch (m : Nat) (d : Dev) : Dev :=
  let want := (d.cfg Fl.pwrCtrlMv 0).testBit m
  let bit : BitVec 8 := BitVec.ofNat 8 (2 ^ m)
  if d.sys.mvSw.getLsbD m == want then d
  else if want then pinsActive m { d with sys := { d.sys with mvSw := d.sys.mvSw ||| bit } }
  else (mvDown m { d with sys := { d.sys with mvSw := d.sys.mvSw &&& ~~~ bit } }).modMv m fun x => { x with lost := false }

/-! ## Links (R15, R16, R519) -/

/-- LINK_STATUS.SKEW, and LINK_SKEW beyond ±16 steps of 0.5 ns, which the hub's receiver raises. -/
def setSkew (m : Nat) (skew : BitVec 8) (d : Dev) : Dev :=
  let d := d.setHw Fl.linkStatusSkew m skew.toNat
  if 16 < skew.toInt.natAbs then d.raise .linkSkew m m presLink else d

/-- The link of a movement that is out of reset is trained: it takes the tick rate in force (R37). -/
def trainDone (m : Nat) (skew : BitVec 8) (d : Dev) : Dev :=
  if !d.mvOn m || d.trained m then d
  else
    let d := d.modMv m fun x => { x with rate := d.time.rate, period := 10, start := d.time.start, beatGap := 0, latMiss := 0, lost := false }
    (setSkew m skew (d.setHw Fl.linkStatusTrained m 1)).settle

/-- A link has not trained within 2 ms. -/
def trainFailed (m : Nat) (d : Dev) : Dev := if d.mvOn m && !d.trained m then d.setBit Fl.pwrEvtTrainFail m true else d

/-- A tick mark: a boundary more than 2 movement clocks off raises LINK_SKEW in the movement, a skew beyond ±8 ns in the hub. -/
def tickMark (m : Nat) (diff : Int) (skew : BitVec 8) (d : Dev) : Dev :=
  if !d.mvRuns m || !d.trained m then d
  else
    let d := if 2 < diff.natAbs then d.raise .linkSkew m m m else d
    (setSkew m skew d).settle

/-! ## Hub domains (R508, R529) -/

/-- A hub domain switches off: its contents stay, its work stops. -/
def hubOff (k : Nat) (d : Dev) : Dev :=
  let d := (d.setBit Fl.pwrStatusHubOn k false)
  let d := { d with sys := { d.sys with hubAt := d.sys.hubAt.filter fun e => e.1 ≠ k } }
  match k with
  | 3 => each (span 0 4) (fun c d => if d.on Fl.canCfgEnable c then canExit c (d.setCfg Fl.canCfgEnable c 0) else d) d
  | 4 => each (span 48 4) (fun s d => d.setHw Fl.tempOff s 1) { d with mons := [], therm := { d.therm with fresh := [] } }
  | _ => d

/-- A hub domain switches on: it is ready 20 µs (8,000 hub clocks) later. -/
def hubStart (k : Nat) (left : Nat) (d : Dev) : Dev :=
  { d with sys := { d.sys with hubAt := d.sys.hubAt ++ [(k, d.time.start + (d.tickLen - left) + 8000)] } }

/-- PWR_CTRL of hub domain k has come into force with `left` hub clocks to the next tick boundary. -/
def hubSwitch (k : Nat) (on : Bool) (left : Nat) (d : Dev) : Dev :=
  let was := d.hubOn k || d.sys.hubAt.any fun e => e.1 = k
  if on == was then d else if on then hubStart k left d else hubOff k d

/-- The domains that are ready by an instant are on, and take part in the tick from its next boundary on, because the phases of a tick run
within one command; SIGN begins with every window discarded (R508, R530; log entry 179). -/
def hubReady (t : Nat) (d : Dev) : Dev :=
  let ks := (d.sys.hubAt.filter fun e => e.2 ≤ t).map (·.1)
  if ks.isEmpty then d
  else
    let d := ks.foldl (fun d k => d.setBit Fl.pwrStatusHubOn k true) { d with sys := { d.sys with hubAt := d.sys.hubAt.filter fun e => t < e.2 } }
    if ks.contains 2 then each (d.signs.map (·.1)) discard d else d

/-! ## Clock (R506) -/

/-- The hub PLL loses lock; its ticks stop until it has lock again. -/
def pllLost (d : Dev) : Dev :=
  if d.flag Fl.clkStatusPllLock 0 then ((d.setHw Fl.clkStatusPllLock 0 0).stick Fl.clkStatusPllLost 0).lockBlind else d

/-- Movements that are switched on and whose VCL is valid leave reset (R518). -/
def mvsUp (d : Dev) : Dev :=
  each ((span 0 8).filter fun m => d.sys.mvSw.getLsbD m && (d.hw Fl.pwrStatusVclOk 0).testBit m) mvUp d

/-- The hub PLL locks; for the first time after power-on reset, the tick generator starts and the movements leave reset. -/
def pllLocked (d : Dev) : Dev :=
  if !d.sys.released || d.flag Fl.clkStatusPllLock 0 then d
  else
    let d := d.setHw Fl.clkStatusPllLock 0 1
    if d.sys.ticking then d else mvsUp { d with sys := { d.sys with ticking := true, first := true } }

/-! ## Resets (R516 to R518, R521) -/

/-- The slot that a reset catches in the middle of a PROGRAM or ERASE is left invalid (R528). -/
def slotsHit (d : Dev) : BitVec 2 :=
  match d.nvs with
  | some (.program page) => d.sys.badSlots ||| BitVec.ofNat 2 (2 ^ (page / 1024))
  | some (.erase slot) => d.sys.badSlots ||| BitVec.ofNat 2 (2 ^ slot)
  | _ => d.sys.badSlots

/-- The block as every reset of the device leaves it, with what outlasts each: OTP, the free-value counter, absolute time. -/
def cold (vcl : BitVec 8) (old : Dev) : Dev :=
  let d : Dev := { time := { start := old.time.start }, lock := { verifier := old.lock.verifier }, fresh := old.fresh,
                   sys := { released := true, badSlots := old.slotsHit } }
  let d := (d.setHw Fl.pwrStatusVclOk 0 vcl.toNat).setHw Fl.pwrStatusHubOn 0 0x3F
  d.setFlag Fl.lockStatusPwSet 0 old.lock.verifier.isSome

/-- Power-on reset is released. -/
def powerOn (vcl : BitVec 8) (d : Dev) : Dev :=
  let d := cold vcl d
  { d with lock := { d.lock with since := d.time.start } }

/-- Power-on reset holds the block until its release: OTP, absolute time and what a cut PROGRAM or ERASE leaves outlast it (R505, R517). -/
def heldReset (rail : Nat) (old : Dev) : Dev :=
  { time := { start := old.time.start }, lock := { verifier := old.lock.verifier }, fresh := old.fresh
    sys := { badSlots := old.slotsHit, vioOut := old.sys.vioOut || decide (rail = 2) } }

/-- RST_STATUS.CAUSE (R532). -/
def causeCode : ResetCause → Nat
  | .perst => 1
  | .hotReset => 2
  | .rstCmd => 3

/-- The positions that the mirror keeps through a device reset. -/
def keepMirror (old d : Dev) : Dev :=
  each (span 0 64) (fun n d => if (old.axis n).lat.pos = 0 then d else d.setAxis n { lat := { pos := (old.axis n).lat.pos } }) d

/-- FAILS and the lockout survive (R463). -/
def keepLockout (old d : Dev) : Dev :=
  let d := { d with lock := { d.lock with lockLen := old.lock.lockLen, since := old.lock.since, blind := old.flag Fl.lockStatusLockout 0 } }
  ((d.setHw Fl.lockStatusFails 0 (old.hw Fl.lockStatusFails 0)).setHw Fl.lockStatusLockout 0 (old.hw Fl.lockStatusLockout 0)).setHw
    Fl.lockWaitWait 0 (old.hw Fl.lockWaitWait 0)

/-- The contents of the MSI-X table, by offset. -/
def isMsix (e : Nat × Word) : Bool := decide (0x3000 ≤ e.1) && decide (e.1 < 0x3480)

/-- A reset by RST_CMD keeps the link, configuration space, the MSI-X table and its pending bits (R521). -/
def keepLink (old d : Dev) : Dev :=
  { d with
    hif := { d.hif with linkUp := old.hif.linkUp, d3hot := old.hif.d3hot, extTags := old.hif.extTags, msixPend := old.hif.msixPend,
                        msixOn := old.hif.msixOn, msixMask := old.hif.msixMask },
    sys := { d.sys with rstCmd := true, subsys := old.sys.subsys, cls := old.sys.cls, pci := old.sys.pci, aer := old.sys.aer,
                        devCtl := old.sys.devCtl },
    regs := { d.regs with acc := old.regs.acc.filter isMsix, force := old.regs.force.filter isMsix } }

/-- A device reset can come: power-on reset has been released, and RST_CMD has been written where that causes it. -/
def canReset (d : Dev) (cause : ResetCause) : Bool :=
  d.sys.released && (cause ≠ .rstCmd || (d.sys.rstCmd && d.flag Fl.imgStatusDone 0))

/-- A device reset: everything comes up as after power-on reset from its PLL lock on. -/
def deviceReset (cause : ResetCause) (vcl : BitVec 8) (old : Dev) : Dev :=
  let d := keepLockout old (keepMirror old (cold vcl old))
  let d := if cause = .rstCmd then keepLink old d else d
  let d := d.setHw Fl.rstStatusCause 0 (causeCode cause)
  if !old.flag Fl.clkStatusPllLock 0 then d
  else mvsUp { (d.setHw Fl.clkStatusPllLock 0 1) with sys := { d.sys with ticking := true, first := true } }

/-- A Function Level Reset: the effects of a link loss, closed scopes, configuration space and pending bits cleared; set-up
registers stay. -/
def flr (d : Dev) : Dev :=
  let d := closeScopes 7 d.linkLost
  { d with hif := { d.hif with msixPend := 0, extTags := false, msixOn := false, msixMask := false },
           sys := { d.sys with pci := [], aer := [], devCtl := 0x2810 } }

/-- The link is back, or the function has returned to D0. -/
def linkReturn (d : Dev) : Dev := { d with hif := { d.hif with linkUp := true, d3hot := false } }

/-! ## Output pins (R440, R420, R566, R571) -/

/-- What a pin shows: driven low, high (driven, or released to its pull-up), or high impedance. -/
inductive PinOut where
  | low | high | hiZ
  deriving DecidableEq, Repr

/-- An output that VIO supplies. -/
def vioPin (d : Dev) (o : PinOut) : PinOut := if d.sys.vioOut then .hiZ else o

/-- SAFE_A_n or SAFE_B_n. -/
def safePin (d : Dev) (pinB : Bool) : PinOut :=
  d.vioPin (if d.flag (if pinB then Fl.escStatusSafeB else Fl.escStatusSafeA) 0 then .low else .high)

/-- ALERTm_n, `ns` nanoseconds after its last pulse began. -/
def alertPin (d : Dev) (m ns : Nat) : PinOut := d.vioPin (if d.alertLow m ns then .low else .high)

/-- CTXDc between frames: recessive, in reset as at rest; the bits of a frame are the protocol's (R382). -/
def ctxdRest (d : Dev) : PinOut := d.vioPin .high

/-- TDO outside Shift-DR and Shift-IR, which no command of the block enters (R566). -/
def tdo : PinOut := .hiZ

/-! ## Configuration space (R41, R520, R521, R554) -/

/-- Configuration requests are retried until the image load has ended, but not after a RST_CMD reset. -/
def crsNow (d : Dev) : Bool := !d.flag Fl.imgStatusDone 0 && !d.sys.rstCmd

/-- The capabilities of configuration space (R41). -/
inductive Cap where
  | pm | msix | pcie | aer
  deriving DecidableEq, Repr

/-- The capability that holds an offset, and the place in it. Advanced Error Reporting is the only extended capability, so it
stands at 0x100 (log entry 16). -/
def capOf (reg : Nat) : Option (Cap × Nat) :=
  if 0x100 ≤ reg ∧ reg < 0x148 then some (.aer, reg - 0x100)
  else if Config.pcieCap.toNat ≤ reg ∧ reg < Config.pcieCap.toNat + 0x3C then some (.pcie, reg - Config.pcieCap.toNat)
  else if Config.msixCap.toNat ≤ reg ∧ reg < Config.msixCap.toNat + 12 then some (.msix, reg - Config.msixCap.toNat)
  else if Config.pmCap.toNat ≤ reg ∧ reg < Config.pmCap.toNat + 8 then some (.pm, reg - Config.pmCap.toNat)
  else none

/-- Bits of the header and of the error reporting capability that the host writes: the command register, the cache line size, BAR0 of
1 MB, the interrupt line; the masks, severities and control of error reporting. -/
def pciMask (reg : Nat) : Word :=
  if reg = 0x04 then 0x0546 else if reg = 0x0C then 0xFF else if reg = 0x10 then 0xFFF00000 else if reg = 0x14 then 0xFFFFFFFF
  else if reg = 0x3C then 0xFF else 0
def aerMask (reg : Nat) : Word :=
  if reg = 0x08 ∨ reg = 0x0C then 0x07FFF030 else if reg = 0x14 then 0x0000F1C1 else if reg = 0x18 then 0x00000140 else 0
def aerReset (reg : Nat) : Word := if reg = 0x0C then 0x00462030 else if reg = 0x14 then 0x00002000 else 0

/-- Registers of the PCI Express capability beside Device Control that the host writes: Link Control, Device Control 2 with the completion
timeout and its disable bit, and the target speed of Link Control 2 (R41). They are kept beyond the header, from 0x1000 on. -/
def pcieMask (k : Nat) : Word := if k = 0x10 then 0xCB else if k = 0x28 then 0x1F else if k = 0x30 then 0xF else 0
def pcieReg (d : Dev) (k : Nat) : Word := SMap.get d.sys.pci (0x1000 + k) (if k = 0x30 then 3 else 0)

/-- Device Control with Extended Tag Field Enable (R43). -/
def devCtlWord (d : Dev) : Nat := d.sys.devCtl.toNat + if d.hif.extTags then 0x100 else 0

/-- A register of a capability: no power states but D0 and D3hot and no PME, 72 vectors, 512 bytes of payload, a link of 8.0 GT/s by two
lanes with ASPM L1 only, completion timeouts of ranges A and B that may be disabled (R41). What neither the spec nor the PCI Express Base Specification gives is an open value. -/
def capRead (c : Cap) (k : Nat) (d : Dev) : Word × Dev :=
  let next (i : Nat) : Nat := (Config.capNext i).toNat * 256
  match c with
  | .pm =>
    let (w, d) := d.free
    if k = 0 then (BitVec.ofNat 32 (0x01 + next 1) ||| 0x00030000 ||| (w &&& 0x00200000), d)
    else ((if d.hif.d3hot then 3 else 0) ||| (w &&& 8), d)
  | .msix =>
    if k = 0 then
      (BitVec.ofNat 32 (0x11 + next 2 + 71 * 2 ^ 16 + (if d.hif.msixMask then 2 ^ 30 else 0) + if d.hif.msixOn then 2 ^ 31 else 0), d)
    else (if k = 4 then 0x3000 else 0x3800, d)
  | .pcie =>
    if k = 0 then (BitVec.ofNat 32 (0x10 + next 3 + 2 * 2 ^ 16), d)
    else if k = 4 then let (w, d) := d.free; (0x10008022 ||| (w &&& 0x00000FC0), d)
    else if k = 8 then let (w, d) := d.free; (BitVec.ofNat 32 d.devCtlWord ||| (w &&& 0x003F0000), d)
    else if k = 0x0C then let (w, d) := d.free; (0x00000823 ||| (w &&& 0xFF47F000), d)
    else if k = 0x10 then let (w, d) := d.free; (d.pcieReg k ||| (w &&& 0xFFFF0000), d)
    else if k = 0x24 then (0x13, d)
    else if k = 0x28 then (d.pcieReg k, d)
    else if k = 0x2C then (0x0E, d)
    else if k = 0x30 then let (w, d) := d.free; (d.pcieReg k ||| (w &&& 0xFFFFFFF0), d)
    else (0, d)
  | .aer =>
    if k = 0 then (0x00020001, d)
    else if aerMask k ≠ 0 then (SMap.get d.sys.aer k (aerReset k), d)
    else d.free

/-- A register of configuration space; one that the device does not implement reads as 0 (R41). -/
def pciRead (reg : Nat) (d : Dev) : Word × Dev :=
  if reg = 0x00 then (0x64251F4D, d)
  else if reg = 0x04 then
    let (w, d) := d.free
    (SMap.get d.sys.pci 0x04 0 ||| 0x00100000 ||| (w &&& 0xF9000000), d)
  else if reg = 0x08 then (BitVec.ofNat 32 (d.sys.cls.toNat * 256 + Config.revision.toNat), d)
  else if reg = 0x10 then (SMap.get d.sys.pci 0x10 0 ||| 4, d)
  else if reg = 0x2C then (d.sys.subsys, d)
  else if reg = 0x34 then (BitVec.ofNat 32 (Config.capNext 0).toNat, d)
  else if reg < 0x40 then (SMap.get d.sys.pci reg 0, d)
  else match capOf reg with
    | some (c, k) => capRead c k d
    | none => d.free

/-- The messages of vectors that are pending and no longer masked go out (R74, R550). -/
def msixGo (d : Dev) : Dev :=
  each (span 0 72) (fun v d => if d.masked v || !d.hif.msixPend.getLsbD v then d
    else ({ d with hif := { d.hif with msixPend := d.hif.msixPend &&& ~~~ BitVec.ofNat 72 (2 ^ v) } }).emit (.msix v)) d

/-- A write of a register of a capability: the power state (R46), MSI-X Enable and Function Mask (R74), Device Control with its
Function Level Reset bit (R41, R43), the settings of error reporting. -/
def capWrite (c : Cap) (k : Nat) (value : Word) (d : Dev) : Dev :=
  match c with
  | .pm =>
    if k ≠ 4 then d
    else if bits value 0 2 = 3 then (hostLost .d3hot d).settle
    else if bits value 0 2 = 0 then { d with hif := { d.hif with d3hot := false } }
    else d
  | .msix => if k ≠ 0 then d else msixGo { d with hif := { d.hif with msixMask := bit value 30, msixOn := bit value 31 } }
  | .pcie =>
    if pcieMask k ≠ 0 then { d with sys := { d.sys with pci := SMap.set d.sys.pci (0x1000 + k) (blend (d.pcieReg k) (pcieMask k) value) } }
    else if k ≠ 8 then d
    else
      let d := { d with hif := { d.hif with extTags := bit value 8 },
                        sys := { d.sys with devCtl := BitVec.ofNat 16 (bits value 0 15) &&& 0x78FF } }
      if bit value 15 then d.flr.settle else d
  | .aer => if aerMask k = 0 then d else
    { d with sys := { d.sys with aer := SMap.set d.sys.aer k (blend (SMap.get d.sys.aer k (aerReset k)) (aerMask k) value) } }

/-- A configuration request. -/
def configRequest (write : Bool) (reg : BitVec 12) (value : Word) (d : Dev) : Dev :=
  if !d.hif.linkUp then d
  else if d.crsNow then { d with regs := { d.regs with crs := true } }
  else
    let d := { d with regs := { d.regs with crs := false } }
    let r := reg.toNat / 4 * 4
    if !write then
      let (w, d) := d.pciRead r
      { d with regs := { d.regs with rdata := w } }
    else if pciMask r ≠ 0 then
      { d with sys := { d.sys with pci := SMap.set d.sys.pci r (blend (SMap.get d.sys.pci r 0) (pciMask r) value) } }
    else if r < 0x40 then d
    else match capOf r with
      | some (c, k) => capWrite c k value d
      | none => d

end Sys2Proof.Machine.Dev

namespace Sys2Proof.Machine

/-- Stored bytes that an interrupted PROGRAM or ERASE leaves open: the page, or the first page of the slot (log entry 35). -/
def Dev.openPage (d : Dev) : Option Nat :=
  match d.nvs with
  | some (.program page) => some page
  | some (.erase slot) => some (slot * 1024)
  | _ => none

/-- The store after a reset. -/
def storeAfterReset (d : Dev) (m : List Host.Cell) : List Host.Cell :=
  match d.openPage with
  | none => m
  | some page => Mem.writes m (page * 256) ((span 0 256).map fun i => (Config.freeWord (d.fresh + i)).setWidth 8)

/-- The block's counter after a reset that has used free bytes. -/
def Dev.skipFresh (d : Dev) : Dev := if d.openPage.isSome then { d with fresh := d.fresh + 256 } else d

/-- POWER_ON_RESET (R505, R517, R518): the release of power-on reset. -/
def execPowerOnReset (vcl : BitVec 8) (s : State) : Host.Outcome State Fault Refusal :=
  .next { s with dev := Dev.powerOn vcl s.dev.skipFresh, store := storeAfterReset s.dev s.store }

/-- SUPPLY_FAULT (R489): below half of a rail's nominal voltage the device is back in power-on reset (R505). -/
def execSupplyFault (e : RailReading) (s : State) : Host.Outcome State Fault Refusal :=
  if Dev.railGone e.rail e.mv then
    .next { s with dev := Dev.heldReset e.rail s.dev.skipFresh, store := storeAfterReset s.dev s.store }
  else s.onDev (Dev.supplyFault e.rail e.mv)

/-- DEVICE_RESET (R516 to R518, R521). -/
def execDeviceReset (cause : ResetCause) (vcl : BitVec 8) (s : State) : Host.Outcome State Fault Refusal :=
  if !s.dev.canReset cause then .next s
  else .next { s with dev := Dev.deviceReset cause vcl s.dev.skipFresh, store := storeAfterReset s.dev s.store }

/-- FUNCTION_LEVEL_RESET (R46, R517). -/
def execFunctionLevelReset (s : State) : Host.Outcome State Fault Refusal := s.onDev Dev.flr

/-- MOVEMENT_RESET (R516): VCL of the movement falls below 1.08 V. -/
def execMovementReset (m : Fin 8) (s : State) : Host.Outcome State Fault Refusal := s.onDev (Dev.vclDown m)

/-- MOVEMENT_RESET_RELEASE (R511). -/
def execMovementResetRelease (m : Fin 8) (s : State) : Host.Outcome State Fault Refusal := s.onDev (Dev.mvRelease m)

/-- PLL_LOSS (R506). -/
def execPllLoss (s : State) : Host.Outcome State Fault Refusal := s.onDev Dev.pllLost

/-- PLL_LOCK (R506, R518). -/
def execPllLock (s : State) : Host.Outcome State Fault Refusal := s.onDev Dev.pllLocked

/-- HOST_LINK_RETURN (R421, R507). -/
def execHostLinkReturn (s : State) : Host.Outcome State Fault Refusal := s.onDev Dev.linkReturn

/-- CONFIGURATION_REQUEST (R520, R554). -/
def execConfigurationRequest (write : Bool) (reg : BitVec 12) (value : Word) (s : State) : Host.Outcome State Fault Refusal :=
  s.onDev (Dev.configRequest write reg value)

/-- TICK_MARK (R15, R16). -/
def execTickMark (m : Fin 8) (diff : Int) (skew : BitVec 8) (s : State) : Host.Outcome State Fault Refusal := s.onDev (Dev.tickMark m diff skew)

/-- LINK_TRAINING_DONE (R519). -/
def execLinkTrainingDone (m : Fin 8) (skew : BitVec 8) (s : State) : Host.Outcome State Fault Refusal := s.onDev (Dev.trainDone m skew)

/-- TRAIN_FAIL (R519). -/
def execTrainFail (m : Fin 8) (s : State) : Host.Outcome State Fault Refusal := s.onDev (Dev.trainFailed m)

end Sys2Proof.Machine
end

