-- ==== Sys2Proof/Machine/RegWrite.lean ====
section
/-! DEFINITION. RegWrite.lean: writes of BAR0 registers (R10 to R12, R36, R142, R460, R536 to R544): the checks, the effect timings
and what a value does where it comes into force; and the commands that are such writes. -/

namespace Sys2Proof.Machine.Dev

/-! ## Mapping and domain (R520, R521, R536 to R538) -/

/-- The number of a switched hub domain (R508). -/
def domBit : Dom → Option Nat
  | .disp => some 0
  | .motion => some 1
  | .sign => some 2
  | .bus => some 3
  | .monitor => some 4
  | .nvs => some 5
  | _ => none

/-- The place of a register serves accesses (R537). -/
def serves (d : Dev) (r : Reg) (a : Nat) : Bool :=
  if r.place.dom == .mv then
    match pageMv a with
    | some m => d.mvOn m && d.trained m
    | none => false
  else match domBit r.place.dom with
    | some k => d.hubOn k
    | none => true

/-- An entry that its own chapter declares absent (R109, R110, R427, R537). -/
def absent (r : Reg) (i : Nat) : Bool :=
  match r with
  | .fltClass => (Src.ofCode i).isNone
  | .unitRef => decide (i < 64)
  | .unitRollup => decide (i < 64)
  | _ => false

/-- An event of the map itself: its flag and the offset (R548). -/
def mapEvent (f : Fld) (a : Nat) (d : Dev) : Dev := (d.stick f 0).setHw Fl.regStatusAddr 0 a

/-- BAR0 is decoded: the link is up, the image load has ended, no reset by RST_CMD is under way. -/
def barOpen (d : Dev) : Bool := d.hif.linkUp && !d.hif.d3hot && d.flag Fl.imgStatusDone 0 && !d.sys.rstCmd

/-! ## Idle-only fields (R12, R543) -/

/-- The axes that a field belongs to, where it is Idle-only, for a write of a value: those of CMD_CFG belong to the unit that UNIT
names and to the one that the write names (chapter 4, motion registers). -/
def ownerAxes (d : Dev) (r : Reg) (i : Nat) (f : Field) (value : Word) : List Nat :=
  match r with
  | .tickCfg => span 0 64
  | .pwrCtrl => if f.lo < 8 then localAxes f.lo else span 0 64
  | .cmdCfg =>
    let l := d.leaves (d.accepted Fl.cmdCfgUnit i)
    l ++ (d.leaves (bits value Fl.cmdCfgUnit.lo Fl.cmdCfgUnit.width)).filter fun n => !l.contains n
  | _ => if r.place.stride1 = 0x100 then localAxes i else if r.place.stride1 = 0x400 then [i / r.place.n2] else []

/-- Where WRITE_REJECTED of a register's fields is set: the flag, and whether it stands once, per movement or per axis. -/
inductive RejAt where
  | once (f : Fld)
  | mv (f : Fld)
  | ax (f : Fld)

/-- The table of R543. -/
def rejAt : Reg → Option RejAt
  | .tickCfg | .cmdCfg => some (.once Fl.regStatusWriteRejected)
  | .unitRef | .unitRollup => some (.once Fl.unitStatusWriteRejected)
  | .pwrCtrl => some (.once Fl.pwrStatusWriteRejected)
  | .motionDmax | .motionStill | .motionInpos | .motionRebaseLo | .motionRebaseHi | .swCfg =>
    some (.ax Fl.motionStatusWriteRejected)
  | .loopCur | .loopSpd | .loopPos | .loopLimit | .elecCfg | .driveCfg | .revCfg | .axisSafe =>
    some (.ax Fl.axisStatusWriteRejected)
  | .slAlign | .slRamp | .slHand | .slSync | .slLoss | .slCatch | .slObs | .slObsCfg => some (.ax Fl.slStatusWriteRejected)
  | .isenseCfg | .isenseScale | .isenseGain | .isenseOfs | .isenseOfsw => some (.ax Fl.isenseStatusWriteRejected)
  | .pwmXcfg | .pwmOvr | .pwmLegcfg | .pwmTrig01 | .pwmTrig23 | .pwmMvcfg => some (.ax Fl.pwmStatusWriteRejected)
  | .gateSc | .gateProfile | .gateBst => some (.ax Fl.gateAxstatusWriteRejected)
  | .signCfg | .signVmin | .signCeil | .signReopen => some (.ax Fl.signStatusWriteRejected)
  | .fbCfg | .hallMap | .fbZcfg | .fbSpd => some (.ax Fl.fbStatusWriteRejected)
  | .escSs1 | .escSlsPos | .escSlsNeg | .escSlsCfg | .escSlc => some (.ax Fl.escAxstatusWriteRejected)
  | .thermCfg | .trCfg | .trNtc | .vbusCfg | .vbusLim => some (.mv Fl.thermStatusWriteRejected)
  | _ => none

/-- A write of an Idle-only field of running axes is rejected. -/
def reject (r : Reg) (i : Nat) (axes : List Nat) (d : Dev) : Dev :=
  match rejAt r with
  | none => d
  | some (.once f) => d.stick f 0
  | some (.mv f) => d.stick f i
  | some (.ax f) => each axes (fun n d => d.stick f n) d

/-! ## Value rules -/

/-- The six sectors of a HALL_MAP are each of 0 to 5 once (R377). -/
def hallMapOk (v : Nat) : Bool :=
  let l := (span 0 6).map fun k => v / 2 ^ (3 * k) % 8
  (span 0 6).all fun x => l.contains x

/-- A value that leaves a field unchanged, and what the refusal sets (R36, R85, R110, R151, R290, R357, R376, R377, R413, R427,
R496). -/
def valueRule (r : Reg) (i : Nat) (f : Field) (v : Nat) : Option (Dev → Dev) :=
  match r, f.lo with
  | .tickCfg, 0 => if v = 3 then some id else none
  | .hifWdog, 16 => if 6 ≤ v then some id else none
  | .unitRollup, 0 => if 6 ≤ v then some id else none
  | .cmdCfg, 0 =>
    if 5 ≤ v then some id else if v = 4 ∧ i % 2 = 1 then some (fun d => d.stick Fl.regStatusWriteRejected 0) else none
  | .pwmMvcfg, 0 => if v = 0 ∨ 11 ≤ v then some id else none
  | .signCeil, 0 => if v = 0 ∨ 0x7FFF < v then some id else none
  | .fbCfg, 0 => if v = 3 then some id else none
  | .trCfg, 0 => if v = 3 then some id else none
  | .trCfg, 2 => if v = 3 then some id else none
  | .hallMap, 0 => if hallMapOk v then none else some (fun d => d.stick Fl.fbStatusMapRejected i)
  | .fltClass, 0 =>
    match Src.ofCode i with
    | none => some id
    | some s => if v < s.row.lo ∨ s.row.hi < v then some (fun d => d.stick Fl.fltStatusClassRejected 0) else none
  | _, _ => none

/-- CLASS of a fixed source, and the mirror of HIF_WDOG.CLASS, are read-only (R413, R427). -/
def classFixed (r : Reg) (i : Nat) : Bool :=
  r == .fltClass && match Src.ofCode i with
    | none => true
    | some s => s.fixed || s == .hostSilent

/-- A calibration of the movement protects the field (R260). -/
def calKeeps (d : Dev) (r : Reg) (i : Nat) (f : Field) : Bool :=
  d.flag Fl.isenseCalStatusRunning (i / 8) && match r with
    | .isenseCfg => f.lo == 0
    | .isenseGain | .isenseOfs | .isenseOfsw => true
    | _ => false

/-! ## What a value does where it comes into force -/

/-- A bit goes from 0 to 1, or from 1 to 0. -/
def rises (old new : Word) (k : Nat) : Bool := !bit old k && bit new k
def falls (old new : Word) (k : Nat) : Bool := bit old k && !bit new k

/-- The doorbell page comes into use, with no area read yet, or goes out of use (R57, R82). -/
def doorbellOn (d : Dev) : Dev :=
  { d with hif := { d.hif with dbActive := true, dbBase := d.base64 Fl.hifDbBaseLoAddrLo Fl.hifDbBaseHiAddrHi 0, dbLast := [] } }
def doorbellOff (d : Dev) : Dev :=
  { d with hif := { d.hif with dbActive := false, dbRead := false, dbAgain := false, dbTags := 0, silent := 0, silentRaised := false } }

/-- The position of an axis that a rebase replaces or adds to: that of the coming latch, or of the mirror. -/
def rebaseBase (d : Dev) (n : Nat) : Int :=
  match (d.mv (n / 8)).latWay with
  | some f => ((f.axes.getD (n % 8) {}).pos).toInt
  | none => if d.mvOn (n / 8) && d.trained (n / 8) then d.posInt n else (d.axis n).lat.pos.toInt

/-- The position after a rebase: whole counts in encoder mode (R142). -/
def rebaseTo (d : Dev) (n : Nat) : Pos :=
  let v := signed 40 (d.cfg Fl.motionRebaseHiPosHi n * 2 ^ 32 + d.cfg Fl.motionRebaseLoPosLo n)
  let p := if d.on Fl.motionRebaseHiRel n then d.rebaseBase n + v else v
  BitVec.ofInt 40 (if d.fbMode n = 0 then p / 256 * 256 else p)

/-- The quantities of an axis that move with its position. -/
def shiftAxis (n : Nat) (new : Pos) (d : Dev) : Dev :=
  let delta := new.toInt - d.rebaseBase n
  let dp : Pos := BitVec.ofInt 40 delta
  let counter := d.posInt n + delta
  let d := setCounter n counter d
  let d := d.modMva n fun x =>
    { x with sp := { x.sp with pos := x.sp.pos + dp }, unver := false, fb := { x.fb with zref := none },
             sl := { x.sl with ref := x.sl.ref + delta, cbase := x.sl.cbase + delta } }
  let d := d.modMv (n / 8) fun x =>
    { x with latWay := x.latWay.map fun f =>
               { f with axes := f.axes.zipIdx.map fun e => if e.2 = n % 8 then { e.1 with pos := e.1.pos + dp } else e.1
                        unver := f.unver &&& ~~~ BitVec.ofNat 8 (2 ^ (n % 8)) }
             spTaken := x.spTaken.map fun f =>
               { f with axes := f.axes.zipIdx.map fun e => if e.2 = n % 8 then { e.1 with pos := e.1.pos + dp } else e.1 } }
  d.modAxis n fun x =>
    { x with lat := { x.lat with pos := new }, spPos := x.spPos + dp, spLast := x.spLast + dp,
             mot := { x.mot with p := x.mot.p + delta * 65536, target := x.mot.target + dp } }

/-- A rebase is judged at its boundary (R142, R156, R346, R369). -/
def rebase (n : Nat) (d : Dev) : Dev :=
  if (d.axis n).armed && (d.axis n).st ≠ .idle then d.stick Fl.motionStatusWriteRejected n
  else rebaseStrikes n (discard n ((shiftAxis n (d.rebaseTo n) d).setHw Fl.motionStatusPosUnverified n 0))

/-- Bits of a register come into force, `left` hub clocks before the next tick boundary (log entry 194). -/
def comeIn (r : Reg) (i : Nat) (mask v : Word) (left : Nat) (d : Dev) : Dev :=
  let old := regWord d.regs.force r i
  let new := blend old mask v
  if r == .unitRef then
    let d := if bit mask 9 then enforce r i 0x200 v d else d
    if bit mask 0 then refTake i (bits v 0 9) d else d
  else
    let d := mvForce r i mask v (d.time.start + (d.tickLen - left)) d
    match r with
    | .sqCfg => if rises old new 0 then sqEnable i d else if falls old new 0 then sqDisable i d else d
    | .cqCfg => if rises old new 0 then cqEnable i d else if falls old new 0 then cqDisable i d else d
    | .bqCfg => if rises old new 0 then bqEnable i d else if falls old new 0 then bqDisable i d else d
    | .hifCfg => if rises old new 0 then d.doorbellOn else if falls old new 0 then d.doorbellOff else d
    | .canCfg =>
      if rises old new 0 then (if d.hubOn 3 then canEnter i d else d.setCfg Fl.canCfgEnable i 0)
      else if falls old new 0 then canExit i d else d
    | .cmdCfg =>
      if rises old new 13 then d.setCmd i { d.cmd i with engaging := true }
      else if falls old new 13 then stopPin i d else d
    | .motionRebaseHi => rebase i d
    | .isenseCfg => if bits old 0 2 = bits new 0 2 then d else d.setHw Fl.isenseCalStatusDone (i / 8) 0
    | .tickCfg => { d with time := { d.time with rate := BitVec.ofNat 2 (bits new 0 2) } }
    | .pwrCtrl => each (span 0 6) (fun k d => if bit mask (8 + k) then hubSwitch k (bit new (8 + k)) left d else d) d
    | _ => d

/-- A waiting write of a hub register takes effect at a tick boundary. -/
def hubTake (w : PendW) (d : Dev) : Dev :=
  match decodeOffset w.off with
  | none => d
  | some (r, i) => comeIn r i w.mask w.val d.tickLen d

/-! ## Commits and waiting (R10, R11) -/

/-- The next PWM boundary of a movement (R269), in units of 0.5 ns: a hub clock is 5 of them, a movement clock 8. -/
def nextPwm (d : Dev) (m : Nat) : Nat :=
  let x := d.mv m
  let K := d.kOf m
  x.start * 5 + (if x.period < K then mvClocks x.rate * max x.period 1 / K else mvClocks x.rate) * 8

/-- A write registered at `off` misses the boundary that its register waits for. R11 gives the cutoff to Boundary writes, commits and
requests, not to an Idle-only field that a tick boundary takes (R10). -/
def tooLate (d : Dev) (r : Reg) (a off : Nat) (tick : Bool) : Bool :=
  if tick then false
  else match pageMv a with
    | some m => if r.place.dom == .mv then decide (d.nextPwm m < (d.time.start + off) * 5 + 40) else d.late off
    | none => d.late off

/-- Bits of a register wait for their boundary. -/
def wait (r : Reg) (i : Nat) (mask v : Word) (off : Nat) (tick : Bool) (d : Dev) : Dev :=
  let a := r.offset i
  let w : PendW := { off := a, mask := mask, val := v, late := d.tooLate r a off tick, tick := tick }
  { d with regs := { d.regs with pend := d.regs.pend ++ [w] } }

/-- The staged registers that a commit takes with it: registers and bits (R81, R82, R86, R88, R148, R399, R400). -/
def staged : Reg → List (Reg × Word)
  | .sqCfg => [(.sqBaseLo, 0xFFFFF000), (.sqBaseHi, 0xFFFFFFFF), (.sqCfg, 0x00FFFFFE)]
  | .cqCfg => [(.cqBaseLo, 0xFFFFF000), (.cqBaseHi, 0xFFFFFFFF), (.cqCfg, 0x0000007C)]
  | .bqCfg => [(.bqBaseLo, 0xFFFFF000), (.bqBaseHi, 0xFFFFFFFF), (.bqCfg, 0x0000007C)]
  | .hifCfg => [(.hifDbBaseLo, 0xFFFFF000), (.hifDbBaseHi, 0xFFFFFFFF)]
  | .canCfg => [(.canNbt, 0x3FFFFFFF), (.canDbt, 0x03FFFFFF), (.canCfg, 0x0000001C)]
  | .motionRebaseHi => [(.motionRebaseLo, 0xFFFFFFFF), (.motionRebaseHi, 0x000001FF)]
  | _ => []

/-- The staged values of a commit, as they stand, wait for its boundary. -/
def commit (r : Reg) (i off : Nat) (d : Dev) : Dev :=
  (staged r).foldl (fun d e => wait e.1 i e.2 (regWord d.regs.acc e.1 i) off false d) d

/-- Idle-only fields that a tick boundary takes (R10, R36, R291). -/
def atTick (r : Reg) (f : Field) : Bool := (r == .tickCfg && f.lo == 0) || (r == .pwmMvcfg && f.lo < 5)

/-- An accepted value takes effect by its field's timing. -/
def takeField (r : Reg) (i : Nat) (f : Field) (value : Word) (off : Nat) (d : Dev) : Dev :=
  let mask := fieldMask f.lo f.width
  let committed := f.lo == 0 && !bit (regWord d.regs.acc r i) 0 && bit value 0
  let d := accept r i mask value d
  match f.effect with
  | .live => comeIn r i mask value (d.tickLen - off) d
  | .idle => if atTick r f then wait r i mask value off true d else comeIn r i mask value (d.tickLen - off) d
  | .staged => d
  | .boundary => wait r i mask value off false (if committed then commit r i off d else d)

/-! ## One field of a write (R539 to R544) -/

/-- The condition behind a sticky fault flag is still present (R419; the sources of each flag stand in R408). -/
def persists (d : Dev) (n : Nat) (k : Nat) : Bool :=
  let m := n / 8
  match k with
  | 3 => (d.mva n).legs.bstOff ≠ 0
  | 4 => (d.axis n).armed && (d.axis n).follow
  | 8 => d.fbMode n = 1 && (d.mva n).fb.init && (d.hw Fl.fbStatusLevel n = 0 || d.hw Fl.fbStatusLevel n = 7)
  | 13 => !d.flag Fl.gateMvstatusVdrvOk m && !d.mvUnarmed m
  | 14 => (d.mv m).clkBad
  | 15 => decide (16 < (signed 8 (d.hw Fl.linkStatusSkew m)).natAbs) || decide (2 ≤ (d.mv m).latMiss)
  | 16 => d.flt.broken.any fun e => e.1 = m || e.1 = 8
  | 17 => d.stoPin m
  | 18 => d.orphan m
  | 19 => d.flag Fl.thermStatusWarn m || d.flag Fl.thermStatusTrip m || d.flag Fl.thermHubstatusWarn 0 ||
      d.flag Fl.thermHubstatusTrip 0
  | 20 => d.flag Fl.vbusStatusOvNow m || d.flag Fl.vbusStatusUvNow m
  | 22 => !d.hif.linkUp || d.hif.d3hot || d.hif.silentRaised
  | 23 => (span 0 4).any fun c => (d.can c).busOff
  | 24 => d.sys.escFault || d.hw Fl.supplyStatusNow 0 ≠ 0
  | _ => false

/-- A clear of a flag of axis n clears it in its movement too, and in a latch frame on its way (R419; log entry 180). -/
def dropFlag (n k : Nat) (d : Dev) : Dev :=
  let cut (w : Word) : Word := putBits w k 1 0
  let d := { d with flt := { d.flt with mvFlags := SMap.set d.flt.mvFlags n (cut (SMap.get d.flt.mvFlags n 0)) } }
  d.modMv (n / 8) fun x => { x with latWay := x.latWay.map fun f =>
    { f with flags := f.flags.zipIdx.map fun e => if e.2 = n % 8 then cut e.1 else e.1 } }

/-- What a clear of a flag does beside the clear (R149, R381, R419, R494) (log entry 189). -/
def flagCleared (r : Reg) (i : Nat) (f : Field) (d : Dev) : Dev :=
  match r, f.lo with
  | .fltSticky, k =>
    let d := dropFlag i k (if k = 24 then d.railLook else d)
    if d.persists i k then d.setHw ⟨.fltSticky, k, 1⟩ i 1 else d
  | .motionStatus, 2 => d.modFb i fun x => { x with swaOff := false }
  | .motionStatus, 3 => d.modFb i fun x => { x with swbOff := false }
  | .fbStatus, 1 => d.modFb i fun x => { x with zref := none }
  | .temp, _ => clearMark i d
  | _, _ => d

/-- The lock refuses a field (R460). -/
def lockRejects (a : Nat) (d : Dev) : Dev := (d.stick Fl.lockStatusRejected 0).setHw Fl.lockRejAddrAddr 0 a

/-- A movement that is an orphan keeps its PWR_CTRL.MV bit (R510). -/
def orphanKeeps (d : Dev) (r : Reg) (f : Field) : Bool := r == .pwrCtrl && decide (f.lo < 8) && d.orphan f.lo

/-- One field of a write. `img`: the hub applies an image record, whose gate HMAC_OK has opened (R526) (log entry 189). -/
def writeField (img : Bool) (r : Reg) (i : Nat) (value : Word) (off : Nat) (f : Field) (d : Dev) : Dev :=
  let mask := fieldMask f.lo f.width
  match f.access with
  | .ro => d
  | .wo => d
  | .count => if value &&& mask = 0 then d else d.setHw ⟨r, f.lo, f.width⟩ i 0
  | .flag =>
    if value &&& mask = 0 then d
    else flagCleared r i f { d with regs := { d.regs with
      hw := SMap.set d.regs.hw (r.offset i) (regWord d.regs.hw r i &&& ~~~(value &&& mask)) } }
  | .rw =>
    let v := bits value f.lo f.width
    let changed := bits (regWord d.regs.acc r i) f.lo f.width != v
    let armed := (d.ownerAxes r i f value).filter fun n => (d.axis n).armed
    if classFixed r i then d
    else if f.gated && !img && changed && !d.scopeOpen 1 then lockRejects (r.offset i) d
    else if f.effect == .idle && changed && !armed.isEmpty then reject r i armed d
    else if changed && d.calKeeps r i f then d.stick Fl.isenseStatusWriteRejected i
    else if changed && d.orphanKeeps r f then d.stick Fl.pwrStatusWriteRejected 0
    else match valueRule r i f v with
      | some g => g d
      | none => takeField r i f value off d

/-- The fields of a register as a write takes them: each bit of PWR_CTRL.MV belongs to a movement of its own (R529). The field at
bit 0 comes last, behind the staged fields that it may commit. -/
def writeFields (r : Reg) : List Field :=
  match r with
  | .pwrCtrl => (r.fields.filter fun f => 8 ≤ f.lo) ++ (span 0 8).map fun m => ⟨m, 1, .rw, 1, .idle, false⟩
  | _ => r.fields.reverse

/-! ## Write-only registers and the rest of a write -/

/-- A write of NVS_CMD: the first reason of R528 that holds refuses it; OP 3 is ignored (R533). -/
def nvsReason (m : List Host.Cell) (op slot : Nat) (d : Dev) : Nat :=
  let page := d.accepted Fl.nvsAddrPage 0
  let target := if op = 1 then page / 1024 else slot
  if op ≠ 0 && !d.scopeOpen 2 then 1
  else if op ≠ 0 && !d.nvsOk then 2
  else if !d.hubOn 5 || d.nvs.isSome then 3
  else if op ≠ 0 && target = d.hw Fl.imgStatusSlot 0 then 4
  else if op = 1 && !((span 0 256).all fun k => Mem.read m (page * 256 + k) = 0xFF) then 5
  else 0

/-- A store command is refused, or starts (R527, R528). -/
def nvsCommand (m : List Host.Cell) (value : Word) (d : Dev) : Dev :=
  let op := bits value 0 2
  let slot := bits value 2 1
  let page := d.accepted Fl.nvsAddrPage 0
  if op = 3 then d
  else
    let why := d.nvsReason m op slot
    if why ≠ 0 then (d.stick Fl.nvsStatusRefused 0).setHw Fl.nvsStatusReason 0 why
    else ({ d with nvs := some (if op = 0 then .read page else if op = 1 then .program page else .erase slot) }).setHw
      Fl.nvsStatusBusy 0 1

/-- An entry of the MSI-X table is unmasked: a pending message goes out (R74, R550). -/
def unmask (v : Nat) (d : Dev) : Dev :=
  if d.masked v || !d.hif.msixPend.getLsbD v then d
  else ({ d with hif := { d.hif with msixPend := d.hif.msixPend &&& ~~~ BitVec.ofNat 72 (2 ^ v) } }).emit (.msix v)

/-- What a write does as a whole, beside its fields. -/
def writeActs (m : List Host.Cell) (r : Reg) (i : Nat) (value : Word) (off : Nat) (d : Dev) : Dev :=
  match r with
  | .hifKick => d.kick
  | .hifWdog => { d with hif := { d.hif with silent := 0, silentRaised := false } }
  | .hifCfg => if bit value 0 then d else { d with hif := { d.hif with silent := 0, silentRaised := false } }
  | .rstCmd => if bits value 0 16 = 0xD5E7 then ringsOff { d with sys := { d.sys with rstCmd := true } } else d
  | .nvsCmd => d.nvsCommand m value
  | .fltAck => ack value d
  | .fltClear => clearWrite value off d
  | .lockCmd => lockCommand value d
  | .lockPw => { d with lock := { d.lock with pw := putWord d.lock.pw 8 i value } }
  | .lockResp => { d with lock := { d.lock with resp := putWord d.lock.resp 4 i value } }
  | .monUrgent => monUrgentWrite value off d
  | .canCmd => canCommand i value d
  | .motionRebaseHi => commit r i off d
  | .msixTable => if i % 4 = 3 then unmask (i / 4) d else d
  | _ => d

/-- The word of a message object: object and word (R392). -/
def objAt (i : Nat) : Nat × Nat := (2048 * (i / 40960) + i % 40960 / 20, i % 40960 % 20)

/-- A write of a message object clears NEW and LOST by ones in its status word (R392). -/
def writeObj (i : Nat) (value : Word) (d : Dev) : Dev :=
  let (k, w) := objAt i
  match SMap.find d.objs k with
  | some l => if w = 0 then { d with objs := SMap.set d.objs k (l.set 0 (l.getD 0 0 &&& ~~~(value &&& 3))) } else d
  | none => d

/-- A write of a mapped register whose place serves it. -/
def writeReg (img : Bool) (m : List Host.Cell) (r : Reg) (i : Nat) (value : Word) (off : Nat) (d : Dev) : Dev :=
  if r == .canObj then writeObj i value d
  else writeActs m r i value off ((writeFields r).foldl (fun d f => writeField img r i value off f d) d)

/-- A write that has passed R42 at an offset: mapping, domain and orphan checks, then the register (R537, R538, R542). -/
def storeWord (img : Bool) (m : List Host.Cell) (a : Nat) (value : Word) (off : Nat) (d : Dev) : Dev :=
  match decodeOffset a with
  | none => mapEvent Fl.regStatusUnmapped a d
  | some (r, i) =>
    if absent r i then d
    else if !d.serves r a then
      let d := mapEvent Fl.regStatusOffDomain a d
      if r == .nvsCmd && bits value 0 2 ≠ 3 then (d.stick Fl.nvsStatusRefused 0).setHw Fl.nvsStatusReason 0 3 else d
    else if r.place.dom == .mv && d.orphan ((pageMv a).getD 0) then mapEvent Fl.regStatusOrphanWrite a d
    else (writeReg img m r i value off d).settle

/-- A BAR0 write of another size or alignment (R42), and a read of that kind. -/
def badAccess (write : Bool) (d : Dev) : Dev :=
  if !d.hif.linkUp || d.hif.d3hot then d
  else if !d.barOpen then (if !write && d.sys.rstCmd then { d with regs := { d.regs with rdata := 0xFFFFFFFF } } else d)
  else
    let d := d.stick Fl.hifStatusBadAccess 0
    if write then d else { d with regs := { d.regs with rdata := 0xFFFFFFFF } }

/-- A host write of BAR0. -/
def busWrite (m : List Host.Cell) (a : Nat) (value : Word) (off : Nat) (d : Dev) : Dev :=
  if !d.barOpen then d else if a % 4 ≠ 0 then d.badAccess true else storeWord false m a value off (hubReady (d.time.start + off) d)

end Sys2Proof.Machine.Dev

namespace Sys2Proof.Machine.Dev

/-! ## The end of a store command (R527, R528) -/

/-- The page buffer as bytes. -/
def pageBytes (d : Dev) : List Byte := wordBytes ((span 0 64).map fun k => regWord d.regs.acc .nvsData k)

/-- A word of the store. -/
def storeWordAt (m : List Host.Cell) (a : Nat) : Nat :=
  (Mem.read m a).toNat + (Mem.read m (a + 1)).toNat * 2 ^ 8 + (Mem.read m (a + 2)).toNat * 2 ^ 16 + (Mem.read m (a + 3)).toNat * 2 ^ 24

/-- The block after a store command: its result, DONE, a failed read-back. -/
def nvsEnd (m : List Host.Cell) (verified : Bool) (d : Dev) : Dev :=
  match d.nvs with
  | none => d
  | some run =>
    if !d.hubOn 5 then d
    else
      let d := ({ d with nvs := none }.setHw Fl.nvsStatusBusy 0 0).stick Fl.nvsStatusDone 0
      match run with
      | .read page => each (span 0 64) (fun k d => d.setCfg Fl.nvsDataData k (storeWordAt m (page * 256 + 4 * k))) d
      | .program _ => if verified then d else { d.stick Fl.nvsStatusVerifyFail 0 with fresh := d.fresh + 256 }
      | .erase slot => { d with sys := { d.sys with badSlots := d.sys.badSlots &&& ~~~ BitVec.ofNat 2 (2 ^ slot) } }

/-- The store after a store command; a page whose read-back differs holds open values (log entry 36). -/
def nvsStore (m : List Host.Cell) (verified : Bool) (d : Dev) : List Host.Cell :=
  if !d.hubOn 5 then m
  else match d.nvs with
  | some (.program page) => Mem.writes m (page * 256)
      (if verified then d.pageBytes else (span 0 256).map fun i => (Config.freeWord (d.fresh + i)).setWidth 8)
  | some (.erase slot) => m.filter fun c => c.1 / 0x40000 ≠ slot
  | _ => m

end Sys2Proof.Machine.Dev

namespace Sys2Proof.Machine

/-- A host write of BAR0. -/
def State.write (s : State) (a : Nat) (value : Word) (off : Nat) : State := { s with dev := Dev.busWrite s.store a value off s.dev }

/-- value with one bit set or cleared. -/
def withBit (value : Word) (k : Nat) (b : Bool) : Word := putBits value k 1 (if b then 1 else 0)

/-- The configuration register of a ring; none where the kind has no such ring (R4). -/
def ringCfg (k : RingKind) (i : Nat) : Option Nat :=
  match k with
  | .sq => some (Reg.offset .sqCfg i)
  | .cq => if i < 64 then some (Reg.offset .cqCfg i) else none
  | .bq => if i < 4 then some (Reg.offset .bqCfg i) else none

/-- REGISTER_WRITE (R539 to R544). -/
def execRegisterWrite (addr : BitVec 20) (value : Word) (off : Nat) (s : State) : Host.Outcome State Fault Refusal :=
  .next (s.write addr.toNat value off)

/-- HIF_KICK (R54, R57). -/
def execHifKick (value : Word) (off : Nat) (s : State) : Host.Outcome State Fault Refusal :=
  .next (s.write (Reg.offset .hifKick 0) value off)

/-- DOORBELL_ENABLE (R82): HIF_CFG with DB_EN = 1. -/
def execDoorbellEnable (value : Word) (off : Nat) (s : State) : Host.Outcome State Fault Refusal :=
  .next (s.write (Reg.offset .hifCfg 0) (withBit value 0 true) off)

/-- RING_ENABLE (R78): the ring's configuration with ENABLE = 1. -/
def execRingEnable (k : RingKind) (i : Fin 128) (value : Word) (off : Nat) (s : State) : Host.Outcome State Fault Refusal :=
  match ringCfg k i with
  | some a => .next (s.write a (withBit value 0 true) off)
  | none => .next s

/-- RING_DISABLE (R79): the ring's configuration with ENABLE = 0. -/
def execRingDisable (k : RingKind) (i : Fin 128) (value : Word) (off : Nat) (s : State) : Host.Outcome State Fault Refusal :=
  match ringCfg k i with
  | some a => .next (s.write a (withBit value 0 false) off)
  | none => .next s

/-- REBASE (R142): a write of MOTION_REBASE_HI. -/
def execRebase (ax : Fin 64) (value : Word) (off : Nat) (s : State) : Host.Outcome State Fault Refusal :=
  .next (s.write (Reg.offset .motionRebaseHi ax) value off)

/-- CMD_ENGAGE (R139): CMD_CFG with ENGAGE = 1. -/
def execCmdEngage (c : Fin 8) (value : Word) (off : Nat) (s : State) : Host.Outcome State Fault Refusal :=
  .next (s.write (Reg.offset .cmdCfg c) (withBit value 13 true) off)

/-- CMD_DISENGAGE (R139): CMD_CFG with ENGAGE = 0. -/
def execCmdDisengage (c : Fin 8) (value : Word) (off : Nat) (s : State) : Host.Outcome State Fault Refusal :=
  .next (s.write (Reg.offset .cmdCfg c) (withBit value 13 false) off)

/-- UNIT_REF_WRITE (R109, R580). -/
def execUnitRefWrite (u : Fin 512) (value : Word) (off : Nat) (s : State) : Host.Outcome State Fault Refusal :=
  .next (s.write (Reg.offset .unitRef u) value off)

/-- TICK_RATE_CHANGE (R36, R37). -/
def execTickRateChange (value : Word) (off : Nat) (s : State) : Host.Outcome State Fault Refusal :=
  .next (s.write (Reg.offset .tickCfg 0) value off)

/-- FLT_ACK (R418). -/
def execFltAck (value : Word) (off : Nat) (s : State) : Host.Outcome State Fault Refusal :=
  .next (s.write (Reg.offset .fltAck 0) value off)

/-- FLT_CLEAR (R422, R428). -/
def execFltClear (value : Word) (off : Nat) (s : State) : Host.Outcome State Fault Refusal :=
  .next (s.write (Reg.offset .fltClear 0) value off)

/-- MON_URGENT (R492). -/
def execMonUrgent (value : Word) (off : Nat) (s : State) : Host.Outcome State Fault Refusal :=
  .next (s.write (Reg.offset .monUrgent 0) value off)

/-- CAN_ENABLE (R386): CAN_CFG with ENABLE = 1. -/
def execCanEnable (c : Fin 4) (value : Word) (off : Nat) (s : State) : Host.Outcome State Fault Refusal :=
  .next (s.write (Reg.offset .canCfg c) (withBit value 0 true) off)

/-- CAN_DISABLE (R386): CAN_CFG with ENABLE = 0. -/
def execCanDisable (c : Fin 4) (value : Word) (off : Nat) (s : State) : Host.Outcome State Fault Refusal :=
  .next (s.write (Reg.offset .canCfg c) (withBit value 0 false) off)

/-- RECOVER (R389, R401). -/
def execRecover (c : Fin 4) (value : Word) (off : Nat) (s : State) : Host.Outcome State Fault Refusal :=
  .next (s.write (Reg.offset .canCmd c) (withBit value 0 true) off)

/-- FLUSH (R398, R401). -/
def execFlush (c : Fin 4) (value : Word) (off : Nat) (s : State) : Host.Outcome State Fault Refusal :=
  .next (s.write (Reg.offset .canCmd c) (withBit value 1 true) off)

/-- A write of LOCK_CMD with an operation. -/
def lockWrite (op : Nat) (value : Word) (off : Nat) (s : State) : State :=
  s.write (Reg.offset .lockCmd 0) (putBits value 0 3 op) off

/-- PASSWORD (R461). -/
def execPassword (value : Word) (off : Nat) (s : State) : Host.Outcome State Fault Refusal := .next (lockWrite 0 value off s)

/-- CHALLENGE (R462). -/
def execChallenge (value : Word) (off : Nat) (s : State) : Host.Outcome State Fault Refusal := .next (lockWrite 1 value off s)

/-- RESPONSE (R462). -/
def execResponse (value : Word) (off : Nat) (s : State) : Host.Outcome State Fault Refusal := .next (lockWrite 2 value off s)

/-- RELOCK (R464). -/
def execRelock (value : Word) (off : Nat) (s : State) : Host.Outcome State Fault Refusal := .next (lockWrite 3 value off s)

/-- SETPW (R465). -/
def execSetpw (value : Word) (off : Nat) (s : State) : Host.Outcome State Fault Refusal := .next (lockWrite 4 value off s)

/-- A write of NVS_CMD with an operation. -/
def nvsWrite (op : Nat) (value : Word) (off : Nat) (s : State) : State :=
  s.write (Reg.offset .nvsCmd 0) (putBits value 0 2 op) off

/-- NVS_READ (R527, R528). -/
def execNvsRead (value : Word) (off : Nat) (s : State) : Host.Outcome State Fault Refusal := .next (nvsWrite 0 value off s)

/-- NVS_PROGRAM (R527, R528). -/
def execNvsProgram (value : Word) (off : Nat) (s : State) : Host.Outcome State Fault Refusal := .next (nvsWrite 1 value off s)

/-- NVS_ERASE (R527, R528). -/
def execNvsErase (value : Word) (off : Nat) (s : State) : Host.Outcome State Fault Refusal := .next (nvsWrite 2 value off s)

/-- NVS_COMMAND_DONE (R527, R528). -/
def execNvsCommandDone (verified : Bool) (s : State) : Host.Outcome State Fault Refusal :=
  .next { s with dev := Dev.nvsEnd s.store verified s.dev, store := Dev.nvsStore s.store verified s.dev }

/-- MOVEMENT_SWITCH_OFF (R510): PWR_CTRL with MV bit m = 0. -/
def execMovementSwitchOff (m : Fin 8) (value : Word) (off : Nat) (s : State) : Host.Outcome State Fault Refusal :=
  .next (s.write (Reg.offset .pwrCtrl 0) (withBit value m false) off)

/-- MOVEMENT_SWITCH_ON (R511): PWR_CTRL with MV bit m = 1. -/
def execMovementSwitchOn (m : Fin 8) (value : Word) (off : Nat) (s : State) : Host.Outcome State Fault Refusal :=
  .next (s.write (Reg.offset .pwrCtrl 0) (withBit value m true) off)

/-- HUB_DOMAIN_SWITCH (R508, R509, R529). -/
def execHubDomainSwitch (value : Word) (off : Nat) (s : State) : Host.Outcome State Fault Refusal :=
  .next (s.write (Reg.offset .pwrCtrl 0) value off)

/-- BAD_ACCESS (R42). -/
def execBadAccess (write : Bool) (s : State) : Host.Outcome State Fault Refusal := s.onDev (Dev.badAccess write)

end Sys2Proof.Machine
end

