-- ==== Sys2Proof/Machine/RegRead.lean ====
section
/-! DEFINITION. RegRead.lean: what a read of BAR0 returns (R537, R539, R540), the 64-bit values read in halves (R545), and the
commands that are such reads. -/

namespace Sys2Proof.Machine

/-- Codes of AXIS_STATUS.DRIVE (R182). -/
def Drive.code : Drive → Nat
  | .off => 0 | .precharge => 1 | .field => 2 | .openloop => 3 | .catching => 4 | .float => 5 | .brake => 6 | .sto => 7
  | .orphanSto => 8 | .orphanBrake => 9 | .halt => 10

/-- Codes of MOTION_STATUS.MODE (R149). -/
def Mode.code : Mode → Nat
  | .none => 0 | .profile => 1 | .velocity => 2 | .streaming => 3 | .step => 4 | .hand => 5

/-- A word made of fields: lowest bit and value. -/
def pack (l : List (Nat × Nat)) : Word := BitVec.ofNat 32 ((l.map fun e => e.2 * 2 ^ e.1).sum)

/-- A Bool as a field value. -/
def b1 (b : Bool) : Nat := if b then 1 else 0

namespace Dev

/-- The bits of a register that some fields cover. -/
def maskFor (r : Reg) (p : Access → Bool) : Word :=
  r.fields.foldl (fun m f => if p f.access then m ||| fieldMask f.lo f.width else m) 0

/-- What the register maps hold of a register: RW fields as last accepted, the device's own fields; write-only fields and
reserved bits read 0 (R7, R539, R540). -/
def stored (d : Dev) (r : Reg) (i : Nat) : Word :=
  (regWord d.regs.acc r i &&& maskFor r (· == .rw)) |||
  (regWord d.regs.hw r i &&& maskFor r fun a => a == .ro || a == .flag || a == .count)

/-- A movement that is powered has K × tick rate above 100 kHz (R36). -/
def kCheck (d : Dev) : Bool := (span 0 8).any fun m => d.mvOn m && !d.kOk m

/-- Fields that show parts of the state kept elsewhere: lowest bit and value; the bits they cover read 0 in `stored`. -/
def shown (d : Dev) (r : Reg) (i : Nat) : List (Nat × Nat) :=
  match r with
  | .tickCfg => [(2, b1 d.kCheck)]
  | .tickCountLo => [(0, d.time.tick.toNat % 2 ^ 32)]
  | .mainsStatus => [(0, b1 d.time.mainsValid), (1, d.time.mainsPeriod.toNat)]
  | .mainsCount => [(0, d.time.mainsCount.toNat)]
  | .unitStatus => [(16, d.groups.length)]
  | .strikeStatus => [(0, d.strikeLive)]
  | .signEngStatus => [(0, d.signTags)]
  | .hifStatus => [(0, b1 d.hif.dbActive), (1, b1 d.hif.extTags), (4, b1 d.ringError)]
  | .fltStatus => [(4, b1 d.flt.seq.isSome)]
  | .escStatus => [(8, maskOf ((span 0 8).filter d.safehold)), (16, maskOf ((span 0 8).filter d.orph))]
  | .thermHubstatus => [(21, b1 d.nvsOk)]
  | .monStatus => [(0, maskOf ((span 0 8).filter fun c => (d.mon c).run.isSome)), (16, b1 !d.time.mainsValid)]
  | .sqStatus => let q := d.sq i
    [(0, q.cons), (16, b1 q.active), (17, b1 q.fence.isSome), (24, errCode q.error)]
  | .cqStatus => let q := d.cq i
    [(0, q.prod), (16, b1 q.active), (17, b1 q.phase), (18, b1 (uncredited q ≠ 0)), (24, errCode q.error)]
  | .bqStatus => let q := d.bq i
    [(0, q.prod), (16, b1 q.active), (17, b1 q.phase), (24, errCode q.error)]
  | .msixPba => [(0, d.hif.msixPend.toNat / 2 ^ (32 * i) % 2 ^ 32)]
  | .unitInfo => let u := d.unit i
    [(0, u.parent.getD 0), (9, b1 u.parent.isSome), (10, b1 u.bound), (11, u.members.length), (18, u.refNow)]
  | .unitLeafLo => [(0, (d.unit i).leaf.toNat % 2 ^ 32)]
  | .unitState => [(0, UState.code (d.stateOf i)), (3, b1 ((d.unit i).bound && d.unitArmed i))]
  | .strikeInfo => let e := d.strike i
    [(0, SState.code e.st), (3, e.unit.toNat), (12, e.key.toNat), (14, e.mode.toNat), (16, b1 e.rep), (17, b1 e.fip),
     (18, e.action.toNat), (21, e.actUnit.toNat)]
  | .strikeKeyLo => [(0, (d.strike i).value.toNat % 2 ^ 32)]
  | .strikeLast => [(0, (d.strike i).last.toNat)]
  | .canStatus => [(0, canState (d.can i)), (23, (d.can i).queue.length)]
  | .canErrcnt => [(0, min 256 (d.can i).tec), (16, min 255 (d.can i).recv)]
  | .pwmPeriod => let M := mvClocks (d.mv i).rate
    [(0, M / d.kOf i), (16, M % d.kOf i)]
  | .motionStatus => let m := (d.axis i).mot
    [(5, Mode.code m.mode), (8, b1 m.down), (16, m.queue.length)]
  | .axisStatus => [(0, Drive.code (d.mva i).drive)]
  | .slStatus => let x := (d.mva i).sl
    [(0, x.phase.toNat), (4, b1 x.known), (5, min 3 x.attempt), (7, min 3 x.catchTry), (9, min 7 x.lossRun)]
  | .pwmXstat => let l := (d.mva i).legs
    [(0, l.xval.toNat), (16, l.xk.toNat), (20, b1 (xKept (d.mva i)))]
  | .pwmStatus => [(2, b1 ((d.mva i).drive == .halt))]
  | .signTbl => let g := d.sign (i / 2)
    let t := if i % 2 = 0 then g.tbl0 else g.tbl1
    let learns := match g.learn with
      | some l => if i % 2 = 0 then l.dir0 else l.dir1
      | none => false
    [(0, (t.map (·.ncells)).getD 0), (17, (t.map (·.pitch)).getD 0), (21, b1 learns)]
  | .temp => [(16, b1 (!d.dieOn (dieOf i) || !d.sensorEnabled i || d.flag Fl.tempOff i))]
  | .lockWait => [(0, d.lockWait)]
  | _ => []

/-- The value of a register (R539, R540). The entry of HOST_SILENT in FLT_CLASS mirrors HIF_WDOG.CLASS (R413). -/
def regValue (d : Dev) (r : Reg) (i : Nat) : Word :=
  let w := (d.shown r i).foldl (fun w e =>
    match r.fields.find? fun f => f.lo = e.1 with
    | some f => putBits w f.lo f.width e.2
    | none => w) (d.stored r i)
  if r == .fltClass && Src.ofCode i == some .hostSilent then putBits w 0 3 (d.accepted Fl.hifWdogClass 0) else w

/-! ## 64-bit pairs (R545) -/

/-- The block of a pair, its instance, and the value of its low and high registers. -/
def wideOf (d : Dev) : Wide → Nat × Nat × Reg × Reg × Nat
  | .tickCount => (0, 0, .tickCountLo, .tickCountHi, d.time.tick.toNat / 2 ^ 32)
  | .unitLeaf u => (1, u.val, .unitLeafLo, .unitLeafHi, (d.unit u).leaf.toNat / 2 ^ 32)
  | .strikeKey i => (2, i.val, .strikeKeyLo, .strikeKeyHi, (d.strike i).value.toNat / 2 ^ 32)
  | .capTick => (3, 0, .fltCapTickLo, .fltCapTickHi, d.hw Fl.fltCapTickHiTickHi 0)

/-- A read is answered. -/
def answer (w : Word) (d : Dev) : Dev := { d with regs := { d.regs with rdata := w } }

/-- A read of a low half: the high half of the same instant goes into the snapshot of its block. -/
def readLow (p : Wide) (d : Dev) : Dev :=
  let (b, i, lo, _, hi) := d.wideOf p
  answer (d.regValue lo i) { d with regs := { d.regs with snap := SMap.set d.regs.snap b (BitVec.ofNat 32 hi, i, true) } }

/-- Sets the stale flag of a pair; that of the tick count stands in the read itself. -/
def snapStale (p : Wide) (d : Dev) : Dev :=
  match p with
  | .tickCount => d
  | .unitLeaf _ => d.stick Fl.unitStatusSnapStale 0
  | .strikeKey _ => d.stick Fl.strikeStatusSnapStale 0
  | .capTick => d.stick Fl.fltStatusSnapStale 0

/-- A read of a high half: the snapshot; stale where no low-half read has come since the last high-half read of the block, or
where the snapshot is of another instance. -/
def readHigh (p : Wide) (d : Dev) : Dev :=
  let (b, i, _, _, _) := d.wideOf p
  let (w, at_, ok) := SMap.get d.regs.snap b (0, 0, false)
  let stale := !ok || at_ != i
  let d := { d with regs := { d.regs with snap := SMap.set d.regs.snap b (w, at_, false) } }
  let d := if stale then snapStale p d else d
  answer (if stale && p == .tickCount then w ||| 0x10000 else w) d

/-! ## A read of any offset -/

/-- A word of a message object (R392); UPDATING reads 0, because a write of an object is one step here. -/
def readObj (d : Dev) (i : Nat) : Word := ((SMap.find d.objs (objAt i).1).getD []).getD (objAt i).2 0

/-- The pair whose low half, or whose high half, a register is. -/
def lowPair (r : Reg) (i : Nat) : Option Wide :=
  match r with
  | .tickCountLo => some .tickCount
  | .unitLeafLo => some (.unitLeaf (Fin.ofNat 512 i))
  | .strikeKeyLo => some (.strikeKey (Fin.ofNat 1024 i))
  | .fltCapTickLo => some .capTick
  | _ => none
def highPair (r : Reg) (i : Nat) : Option Wide :=
  match r with
  | .tickCountHi => some .tickCount
  | .unitLeafHi => some (.unitLeaf (Fin.ofNat 512 i))
  | .strikeKeyHi => some (.strikeKey (Fin.ofNat 1024 i))
  | .fltCapTickHi => some .capTick
  | _ => none

/-- A read of a mapped register whose place serves it. -/
def readReg (r : Reg) (i : Nat) (d : Dev) : Dev :=
  if r == .canObj then answer (d.readObj i) d
  else match lowPair r i, highPair r i with
  | some p, _ => readLow p d
  | none, some p => readHigh p d
  | none, none =>
    let d := if r == .supplyStatus then d.railLook else d
    answer (d.regValue r i) (if r == .lockWait && d.lock.blind then d.free.2 else d)

/-- A read of BAR0 at an aligned offset. While a reset by RST_CMD runs, only DEV_INFO and IMG_STATUS answer (R521). -/
def busRead (a : Nat) (d : Dev) : Dev :=
  if !d.hif.linkUp || d.hif.d3hot then d
  else if d.sys.rstCmd then
    (match decodeOffset a with
     | some (.devInfo, i) => answer (d.regValue .devInfo i) d
     | some (.imgStatus, i) => answer (d.regValue .imgStatus i) d
     | _ => answer 0xFFFFFFFF d)
  else if !d.barOpen then d
  else if a % 4 ≠ 0 then d.badAccess false
  else match decodeOffset a with
  | none => answer 0 (mapEvent Fl.regStatusUnmapped a d)
  | some (r, i) =>
    if absent r i then answer 0 d
    else if !d.serves r a then answer 0 (mapEvent Fl.regStatusOffDomain a d)
    else readReg r i d

/-- The offset of a half. -/
def lowAt (p : Wide) (d : Dev) : Nat := let (_, i, lo, _, _) := d.wideOf p; lo.offset i
def highAt (p : Wide) (d : Dev) : Nat := let (_, i, _, hi, _) := d.wideOf p; hi.offset i

end Dev

/-- LOW_HALF_READ (R545). -/
def execLowHalfRead (p : Wide) (s : State) : Host.Outcome State Fault Refusal := s.onDev fun d => d.busRead (d.lowAt p)

/-- HIGH_HALF_READ (R545). -/
def execHighHalfRead (p : Wide) (s : State) : Host.Outcome State Fault Refusal := s.onDev fun d => d.busRead (d.highAt p)

/-- No register serves an access at an offset (R537). -/
def Dev.unserved (d : Dev) (a : Nat) : Bool :=
  match decodeOffset a with
  | none => true
  | some (r, _) => !d.serves r a

/-- UNMAPPED_ACCESS (R537): an access to an offset that is unmapped or whose domain is off. Where a register serves it after all, a
write, whose value the event does not carry, changes nothing, and a read returns the register (log entry 37). -/
def execUnmappedAccess (write : Bool) (addr : BitVec 20) (s : State) : Host.Outcome State Fault Refusal :=
  if !write then s.onDev (Dev.busRead addr.toNat)
  else if s.dev.unserved addr.toNat then .next (s.write addr.toNat 0 0)
  else .next s

end Sys2Proof.Machine
end

