-- ==== Sys2Proof/Machine/Image.lean ====
section
/-! DEFINITION. Image.lean: the configuration image and its load (R518, R522 to R526, R535, R555). -/

namespace Sys2Proof.Machine

/-- The header of a slot (R523). -/
structure ImgHead where
  magic  : Nat
  format : Nat
  hmac   : Bool
  gen    : Word
  length : Nat
  count  : Nat
  device : Nat
  minRev : Nat
  deriving DecidableEq, Repr

/-- One record (R525): its type and its payload. -/
structure ImgRec where
  kind    : Nat
  payload : List Word
  deriving DecidableEq, Repr

/-- Bytes of the store. -/
def storeBytes (m : List Host.Cell) (a n : Nat) : List Byte := (span a n).map (Mem.read m)

/-- Store address of a slot. -/
def slotBase (slot : Nat) : Nat := slot * 0x40000

/-- The header of a slot. -/
def imgHead (m : List Host.Cell) (slot : Nat) : ImgHead :=
  let w (k : Nat) : Nat := Dev.storeWordAt m (slotBase slot + 4 * k)
  { magic := w 0, format := w 1 % 2 ^ 16, hmac := (w 1).testBit 16, gen := BitVec.ofNat 32 (w 2), length := w 3, count := w 4,
    device := w 5 % 2 ^ 16, minRev := w 5 / 2 ^ 16 % 2 ^ 8 }

/-- The records from an offset on, where n of them end exactly at the length. -/
def imgRecords (m : List Host.Cell) (base length : Nat) : Nat → Nat → Nat → Option (List ImgRec)
  | _, off, 0 => if off = length then some [] else none
  | 0, _, _ => none
  | fuel + 1, off, n + 1 =>
    if length < off + 4 then none
    else
      let h := Dev.storeWordAt m (base + off)
      let k := h / 2 ^ 16
      if length < off + 4 + 4 * k then none
      else
        let r : ImgRec := { kind := h % 2 ^ 8, payload := (span 0 k).map fun i => BitVec.ofNat 32 (Dev.storeWordAt m (base + off + 4 + 4 * i)) }
        (imgRecords m base length fuel (off + 4 + 4 * k) n).map (r :: ·)

/-- Length in range: 64 to 262,108, a multiple of 4. -/
def lengthOk (n : Nat) : Bool := decide (64 ≤ n) && decide (n ≤ 262108) && n % 4 == 0

/-- A slot carries the magic (R523). -/
def hasMagic (m : List Host.Cell) (slot : Nat) : Bool := (imgHead m slot).magic == 0x4D494751

/-- The CRC-32 of a slot matches. -/
def crcOk (m : List Host.Cell) (slot : Nat) : Bool :=
  let h := imgHead m slot
  (crc32 (storeBytes m (slotBase slot) h.length)).toNat == Dev.storeWordAt m (slotBase slot + h.length)

/-- The records of a valid slot (R524). -/
def slotRecords (m : List Host.Cell) (bad : BitVec 2) (slot : Nat) : Option (List ImgRec) :=
  let h := imgHead m slot
  if hasMagic m slot && h.format == 1 && h.device == 0x6425 && decide (h.minRev ≤ Config.revision.toNat) && lengthOk h.length &&
      !bad.getLsbD slot && crcOk m slot then
    imgRecords m (slotBase slot) h.length h.length 0x40 h.count
  else none

/-- The HMAC of a slot matches under the device key (R462, R524). -/
def hmacOk (m : List Host.Cell) (slot : Nat) : Bool :=
  let h := imgHead m slot
  h.hmac && match Config.deviceKey with
    | none => false
    | some k => hmac (beBytes 32 k.toNat) (storeBytes m (slotBase slot) (h.length + 4)) ==
        storeBytes m (slotBase slot + h.length + 4) 32

/-- The slot that a load takes: the valid one with the later generation; equal generations select slot 0 (R522). -/
def pickSlot (m : List Host.Cell) (bad : BitVec 2) : Option (Nat × List ImgRec) :=
  match slotRecords m bad 0, slotRecords m bad 1 with
  | none, none => none
  | some r, none => some (0, r)
  | none, some r => some (1, r)
  | some r0, some r1 => if 0 < ((imgHead m 1).gen - (imgHead m 0).gen).toInt then some (1, r1) else some (0, r0)

namespace Dev

/-- A register that only takes commands (R526): one with a write-only field. -/
def writeOnly (r : Reg) : Bool := r.fields.any fun f => f.access == .wo

/-- A register that holds a field gated by scope 1 (R544). -/
def gatedReg (r : Reg) : Bool := r.fields.any (·.gated)

/-- The offsets a WRITE record covers. -/
def recOffsets (r : ImgRec) : List Nat :=
  (span 0 (r.payload.length - 1)).map fun k => bits (r.payload.getD 0 0) 2 18 * 4 + 4 * k

/-- A record is skipped and counted (R526). -/
def recSkipped (hmac : Bool) (r : ImgRec) : Bool :=
  if r.kind = 1 then
    decide (r.payload.length < 2) || (recOffsets r).any fun a => match decodeOffset a with
      | some (g, _) => writeOnly g || (gatedReg g && !hmac)
      | none => false
  else r.kind ≠ 2 || r.payload.length ≠ 2

/-- A record is applied: as BAR0 writes of the hub itself (R526, R555), or as identifiers. -/
def recApply (m : List Host.Cell) (r : ImgRec) (d : Dev) : Dev :=
  if r.kind = 1 then
    ((recOffsets r).zip (r.payload.drop 1)).foldl (fun d e => storeWord true m e.1 e.2 0 d) d
  else { d with sys := { d.sys with subsys := r.payload.getD 0 0, cls := (r.payload.getD 1 0).setWidth 24 } }

/-- The records of an image in order; how many were skipped. -/
def imgApply (m : List Host.Cell) (hmac : Bool) : List ImgRec → Nat × Dev → Nat × Dev
  | [], e => e
  | r :: rest, (n, d) =>
    if recSkipped hmac r then imgApply m hmac rest (n + 1, d) else imgApply m hmac rest (n, recApply m r d)

/-- The load has ended: IMG_STATUS, NVS_IMAGE, and the end of a reset by RST_CMD, with the messages that it has held back (R521, R526,
R535). -/
def imgEnd (m : List Host.Cell) (skipped : Nat) (d : Dev) : Dev :=
  let bad (slot : Nat) : Bool := hasMagic m slot && (slotRecords m d.sys.badSlots slot).isNone
  let d := ((d.setFlag Fl.imgStatusSlot0Bad 0 (bad 0)).setFlag Fl.imgStatusSlot1Bad 0 (bad 1)).setHw Fl.imgStatusSkipped 0 (min 255 skipped)
  let d := if bad 0 || bad 1 || skipped ≠ 0 then d.raise1 .nvsImage 0 0 presStore else d
  msixGo { d.setHw Fl.imgStatusDone 0 1 with sys := { d.sys with rstCmd := false } }

/-- The load can end: every movement that has left reset has trained its link, or has failed to in time (R555). -/
def imgReady (d : Dev) : Bool :=
  d.sys.released && d.flag Fl.clkStatusPllLock 0 && !d.flag Fl.imgStatusDone 0 &&
    (span 0 8).all fun m => !d.mvOn m || d.trained m || (d.hw Fl.pwrEvtTrainFail 0).testBit m

/-- Configuration space carries the identifiers of the new image from the end of the load on, the reset values without one (R521, R554). -/
def idsReset (d : Dev) : Dev := { d with sys := { d.sys with subsys := ({} : Sys).subsys, cls := ({} : Sys).cls } }

/-- The image load: the records of the slot that is taken, or reset values without one. -/
def imgLoad (m : List Host.Cell) (d : Dev) : Dev :=
  if !d.imgReady then d
  else
  let d := d.idsReset
  match pickSlot m d.sys.badSlots with
  | none => imgEnd m 0 (d.setHw Fl.imgStatusSlot 0 2)
  | some (slot, recs) =>
    let hmac := hmacOk m slot
    let d := ((d.setHw Fl.imgStatusSlot 0 slot).setHw Fl.imgStatusGen 0 ((imgHead m slot).gen.toNat % 2 ^ 16)).setFlag
      Fl.imgStatusHmacOk 0 hmac
    let (n, d) := imgApply m hmac recs (0, d)
    imgEnd m n d

end Dev

/-- IMAGE_LOAD_DONE (R526). -/
def execImageLoadDone (s : State) : Host.Outcome State Fault Refusal := s.onDev (Dev.imgLoad s.store)

end Sys2Proof.Machine
end

