-- ==== Sys2Proof/Machine/Cmd.lean ====
section
/-! DEFINITION. Cmd.lean: the CMD pins: samples, LOST, engagement, the step interpolator (R137 to R140); the mains time base (R21). -/

namespace Sys2Proof.Machine.Dev

/-! ## Command pins (R137 to R139) -/

/-- The command that a pin's fraction makes (R138): counts per tick with 16 fraction bits, or current LSB (log entry 195). -/
def pinCommand (d : Dev) (c : Nat) : Int :=
  let e : Int := (d.cmd c).x.toNat - d.cfg Fl.cmdScaleZero c
  let over_ : Int := e.natAbs - d.cfg Fl.cmdScaleDead c * 16
  if over_ ≤ 0 then 0 else sgn e * quot (signed 32 (d.cfg Fl.cmdGainGain c) * over_) 65536

/-- The axes of a pin that still follow it. -/
def pinAxes (d : Dev) (c : Nat) : List Nat := (d.cmd c).axes.filter fun n => (d.axis n).mot.pin == some c

/-- Phase 2 of a pin: one that has met LOST sets the flag and ends its engagement (R137, R139); so ends the engagement of one that
has become the DIR pin of a pair (log entry 83). -/
def lostStep (c : Nat) (d : Dev) : Dev :=
  if d.pinIgnored c && !(d.cmd c).axes.isEmpty then stopPin c d
  else if !(d.cmd c).lostNow then d
  else
    let d := (d.setCmd c { d.cmd c with lostNow := false }).stick Fl.cmdCfgLost c
    if (d.cmd c).axes.isEmpty then d else stopPin c d

/-- The input of a pin in analog, duty or frequency mode meets its LOST condition. For an analog pin the conversions tell. -/
def cmdLost (c : Nat) (d : Dev) : Dev :=
  if d.cmdMode c = 0 ∨ 3 < d.cmdMode c ∨ (d.cmdMode c = 1 ∧ !(d.cmd c).lostNow) then d
  else lostStep c (d.setCmd c { d.cmd c with lostNow := true })

/-- A leaf can enter hand or step mode (R139, R211). -/
def engageOk (d : Dev) (n : Nat) : Bool :=
  let x := d.axis n
  (x.st == .idle || x.st == .stopped) && x.armed && !d.flag Fl.motionStatusPosUnverified n && !d.slUnset n

/-- A leaf enters step mode at its setpoint, or hand mode with the pin's command. -/
def engageAxis (c n : Nat) (d : Dev) : Dev :=
  let d := settleP n d
  if d.cmdMode c = 4 then
    let p := quot (d.axis n).mot.p 65536
    (enter n .step 1 none d).modMot n fun m => { m with cmd := p, pin := some c, stepDir := (d.cmd c).lastDir }
  else
    let v := d.pinCommand c
    (enter n .hand (if v < 0 then -1 else 1) none d).modMot n fun m =>
      { m with cmd := v, torque := d.on Fl.cmdCfgFunc c, pin := some c, stepDir := if v < 0 then -1 else 1 }

/-- Phase 4 judges an engagement (R139, R509). The odd pin of a STEP/DIR pair is ignored (R140). -/
def engage (c : Nat) (d : Dev) : Dev :=
  if !(d.cmd c).engaging then d
  else
    let d := d.setCmd c { d.cmd c with engaging := false }
    if d.pinIgnored c then d
    else
      let u := d.cfg Fl.cmdCfgUnit c
      let axes := d.leaves u
      if d.motionOn && d.cmdMode c ≠ 0 && (d.unit u).bound && axes.all d.engageOk then
        (each axes (engageAxis c) (d.setCmd c { d.cmd c with axes := axes })).setHw Fl.cmdCfgEngaged c 1
      else (d.setCfg Fl.cmdCfgEngage c 0).stick Fl.cmdCfgEngageRej c

/-! ## The step interpolator (R140) -/

/-- Position of the interpolator at an instant, in 1/256 count: the present step in 256 equal fine steps. -/
def stepAt (x : CmdPin) (t : Nat) : Int :=
  let k := min 256 ((t - x.edgeAt) * 5 * 256 / (2 * max 1 x.interval))
  x.stepPos + quot (x.step * k) 256

/-- A rising STEP edge as the 50 MHz samples see it: it counts where its low and its high level have held for three of them (R567); a step that REV_DROP discards commands nothing (R140, R334) (log entry 190). -/
def stepEdge (i : Nat) (dir : Bool) (e : StepHeld) (off : Nat) (d : Dev) : Dev :=
  let c := 2 * i
  if d.cmdMode c ≠ 4 ∨ e.low < 3 ∨ e.high < 3 then d
  else
    let s := (if dir then 1 else -1) * signed 32 (d.cfg Fl.cmdGainGain c)
    let iv := min (20 * e.gap) 100000000
    let old := d
    let d := d.setCmd c { d.cmd c with lastDir := if dir then 1 else -1 }
    let axes := d.pinAxes c
    let against := axes.filter fun n => d.reversal n (sgn s)
    if axes.any fun n => (d.axis n).mot.rev then
      d.setCmd c { d.cmd c with held := (d.cmd c).held + s, interval := iv }
    else if against.any fun n => !d.brakeReverse n then old.stick Fl.cmdCfgRevDrop c
    else if against.isEmpty then
      let x := d.cmd c
      d.setCmd c { x with stepPos := x.stepPos + x.step, step := s, interval := iv, edgeAt := (d.time.start + off) / 8 * 8 }
    else (each against brakeFirst d).setCmd c { d.cmd c with held := (d.cmd c).held + s, interval := iv }

/-- Steps held during braking are spread together once it is over. -/
def stepRelease (c : Nat) (d : Dev) : Dev :=
  let x := d.cmd c
  if x.held = 0 then d
  else if (d.pinAxes c).isEmpty then d.setCmd c { x with held := 0 }
  else if (d.pinAxes c).any fun n => (d.axis n).mot.rev then d
  else d.setCmd c { x with stepPos := x.stepPos + x.step, step := x.held, edgeAt := d.time.start, held := 0 }

/-- An axis in step mode moves by what the interpolator has moved; while it brakes or waits for its start it follows the latch. -/
def stepFollow (delta : Int) (n : Nat) (d : Dev) : Dev :=
  d.modAxis n fun x =>
    { x with mot := { x.mot with cmd := if x.mot.rev || x.mot.wait then x.lat.pos.toInt else x.mot.cmd + delta } }

/-- The fraction of a duty or frequency input (R137) from what it measures: a duty in 1/65,536, or a frequency in Hz, 10 kHz being 1. -/
def inputFraction (mode : Nat) (w : BitVec 16) : BitVec 16 :=
  if mode = 2 then w else BitVec.ofNat 16 (min 0xFFFF (w.toNat * 65536 / 10000))

/-- What a duty or frequency input measures lies outside the limits of LOST (R137). -/
def inputLost (mode : Nat) (w : BitVec 16) : Bool :=
  if mode = 2 then decide (w.toNat * 100 < 2 * 65536) || decide (98 * 65536 < w.toNat * 100)
  else decide (w.toNat < 500) || decide (10500 < w.toNat)

/-- Phase 1 takes the value of a pin: the last conversion, the fraction that the measured duty or frequency of the input makes (an
open value, log entry 2), or the interpolated position. -/
def pinSample (c : Nat) (d : Dev) : Dev :=
  let axes := d.pinAxes c
  if d.cmdMode c = 4 then
    let x := d.cmd c
    let p := stepAt x d.time.start
    if p = x.sampled then (if axes.isEmpty then d else each axes (stepFollow 0) d)
    else each axes (stepFollow (p - x.sampled)) (d.setCmd c { x with sampled := p })
  else if d.cmdMode c = 0 then d
  else
    let d :=
      if d.cmdMode c = 1 then (if (d.cmd c).x = (d.cmd c).raw then d else d.setCmd c { d.cmd c with x := (d.cmd c).raw })
      else
        let (w, d) := d.free
        d.setCmd c { d.cmd c with x := inputFraction (d.cmdMode c) (w.setWidth 16)
                                  lostNow := (d.cmd c).lostNow || inputLost (d.cmdMode c) (w.setWidth 16) }
    let v := d.pinCommand c
    each axes (fun n d => d.modMot n fun m => { m with cmd := v }) d

/-! ## Mains (R21) -/

/-- No qualified edge for 30 ms, by an instant. -/
def mainsGone (t : Nat) (d : Dev) : Dev :=
  if d.time.mainsValid && decide (d.time.mainsLast + 12000000 ≤ t) then
    { d with time := { d.time with mainsValid := false, mainsRef := none } }
  else d

/-- A rising edge of MAINS_SYNC, where its levels pass the 10 µs glitch filter (R566): distances in hub clocks, 14.3 ms and 25.0 ms; 30 ms without a
qualified edge are over first (log entry 190). -/
def mainsEdge (e : MainsHeld) (d : Dev) : Dev :=
  let t := d.time.start + e.off
  let d := mainsGone t d
  if e.low < 10000 ∨ e.high < 10000 then d else
  match d.time.mainsRef with
  | none => { d with time := { d.time with mainsRef := some t } }
  | some r =>
    if t - r < 5720000 then d
    else if t - r ≤ 10000000 then
      { d with time := { d.time with mainsRef := some t, mainsLast := t, mainsCount := d.time.mainsCount + 1,
                                     mainsPeriod := BitVec.ofNat 31 (t - r), mainsValid := true } }
    else { d with time := { d.time with mainsRef := some t } }

end Sys2Proof.Machine.Dev

namespace Sys2Proof.Machine

/-- CMD_LOST (R137, R139). -/
def execCmdLost (c : Fin 8) (s : State) : Host.Outcome State Fault Refusal := s.onDev (Dev.cmdLost c)

/-- STEP_EDGE (R140). -/
def execStepEdge (i : Fin 4) (dir : Bool) (e : StepHeld) (off : Nat) (s : State) : Host.Outcome State Fault Refusal :=
  s.onDev (Dev.stepEdge i dir e off)

/-- MAINS_EDGE (R21). -/
def execMainsEdge (e : MainsHeld) (s : State) : Host.Outcome State Fault Refusal := s.onDev (Dev.mainsEdge e)

/-- MAINS_TIMEOUT (R21): the 30 ms end within the present tick. -/
def execMainsTimeout (s : State) : Host.Outcome State Fault Refusal := s.onDev fun d => Dev.mainsGone (d.time.start + d.tickLen) d

end Sys2Proof.Machine
end

