-- ==== Sys2Proof/Machine/Frames.lean ====
section
/-! DEFINITION. Frames.lean: the movement's side of the cluster link: setpoint frames, the movement's tick boundary, latch frames
(R15, R16, R23, R28, R34, R35, R172, R186, R445 to R447, R514). -/

namespace Sys2Proof.Machine.Dev

/-! ## Setpoint frames on arrival (R15, R186, R412, R514) -/

/-- A frame carries an ARM for an axis in drive OFF: the low sides turn on, once the movement is awake; an OFFTEST is abandoned (R321). -/
def armArrives (n : Nat) (sp : AxisSp) (d : Dev) : Dev :=
  if (d.mva n).drive ≠ .off || sp.cmd == .off then d
  else
    let m := n / 8
    let d := offtAbandon n d
    let d := if d.parked m && !(d.mv m).waking then d.modMv m fun x => { x with waking := true } else d
    let wake := (d.mv m).waking
    let d := d.modMv m fun x => { x with uvNew := true }
    modesAt (d.turnAt n) n ((setDrive n .precharge d).modMva n fun x => { x with pre := !wake, wakePre := wake, wakeLate := false })

/-- f on each of the eight axes of a movement with its part of a frame. -/
def overAxes (f : Nat → AxisSp → Dev → Dev) : Nat → List AxisSp → Dev → Dev
  | _, [], d => d
  | n, a :: r, d => overAxes f (n + 1) r (f n a d)

/-- A setpoint frame arrives. An orphan ignores it (R447); a movement in a halt keeps its link receiver (R287, R288). -/
def frameArrives (m : Nat) (d : Dev) : Dev :=
  if !d.mvOn m || !d.trained m then d
  else match (d.mv m).spWay with
    | none => d
    | some f =>
      let d := d.modMv m fun x => { x with spWay := none }
      if d.orphan m then d
      else
        let d := d.modMv m fun x => { x with spTaken := some f, reqs := x.reqs.filter fun r => decide (f.ack < r.serial) }
        if !d.mvRuns m then d else overAxes armArrives (8 * m) (f.axes.take 8) d

/-- The frame of the tick that ends at the coming boundary is there (R28, R35): a frame of another tick is none. -/
def spNow (d : Dev) (m : Nat) : Option SpFrame := (d.mv m).spTaken.filter fun f => f.beat == d.time.tick.setWidth 8

/-- A setpoint frame is lost on its way (R35, R40). -/
def frameMissed (m : Nat) (crc : Bool) (d : Dev) : Dev :=
  if !d.mvOn m || !d.trained m || (d.spNow m).isSome then d
  else
    let d := (d.modMv m fun x => { x with spWay := none, spTaken := none }).stick Fl.linkStatusSetpointMissed m
    if crc then d.bump Fl.linkStatusCrcErrors m 1 else d

/-! ## Drive commands at the tick boundary (R172, R182, R186, R190, R213, R234) -/

/-- The axis takes a drive, and its sequence ends. -/
def dropTo (k : Drive) (n : Nat) (d : Dev) : Dev := seqDrop n (setDrive n k d)

/-- The FIELD hold: of a sensorless axis only with a known angle, else FLOAT (R183, R212). -/
def fieldOrFloat (n : Nat) (d : Dev) : Dev :=
  if d.sensorless n && !(d.mva n).sl.known then (setDrive n .float d).modMva n fun x => { x with xOff := false }
  else setDrive n .field d

/-- A sequence under way meets a frame: abandoned where the frame says so, ended by a reaction that has faulted the axis, in FIELD or by R220 in
BRAKE, ended in HOLD where the axis holds (R213, R221, R222, R234). -/
def seqGoesOn (n : Nat) (sp : AxisSp) (d : Dev) : Dev :=
  let ph := (d.mva n).sl.phase
  if sp.cmd == .hold && (ph == phRamp || ph == phForced) then
    (setDrive n .field d).modSl n fun s => { s with phase := phHold, req := none, next := none }
  else if sp.fault && ph ≠ phObserver && ph ≠ phForced then
    let d := seqDrop n d
    setDrive n (if (d.mva n).sl.known then .field else .brake) d
  else if sp.seqOff then
    if ph = phAlign then (dropTo .float n d).modMva n fun x => { x with xOff := false }
    else if ph = phCatchBrake || ph = phRetry then seqDrop n d
    else if ph = phCatch || ph = phResync then d.modSl n fun s => { s with stopping := true }
    else d
  else if sp.seqStop then d.modSl n fun s => { s with stopping := s.stopping || s.phase == phCatch || s.phase == phResync }
  else d

/-- A drive command other than off acts on an axis that is precharged. -/
def driveCmd (n : Nat) (sp : AxisSp) (d : Dev) : Dev :=
  match sp.cmd with
  | .off => dropTo .off n d
  | .float b => (dropTo .float n d).modMva n fun x => { x with xOff := b }
  | .brake => dropTo .brake n d
  | _ =>
    if !d.sensorless n then setDrive n .field d
    else match sp.seq with
      | some r => if sp.seqOff then fieldOrFloat n d else seqBegin n r d
      | none =>
        if seqRuns (d.mva n).sl.phase then seqGoesOn n sp d
        else if (sp.cmd == .openloop || sp.cmd == .catching) && (d.mva n).drive ≠ .precharge then d
        else fieldOrFloat n d

/-- The precharge of an axis runs at the boundary, or has ended less than 1 µs (400 hub clocks) before it (R186, R514). -/
def preRuns (d : Dev) (n : Nat) : Bool := (d.mva n).pre || decide ((d.mv (n / 8)).start < (d.mva n).preAt + 400)

/-- The boundary meets an axis in PRECHARGE: after a wake it stays there until its precharge has run for 1 µs, and its late entry is
counted (R514); else a precharge that still runs there is cut (R186). -/
def prechargeMeets (n : Nat) (sp : AxisSp) (d : Dev) : Dev :=
  let m := n / 8
  let x := d.mva n
  if sp.cmd ≠ .off && ((d.mv m).waking || (x.wakePre && d.preRuns n)) then
    d.modMva n fun x => { x with wakeLate := true }
  else
    let d := if d.preRuns n && sp.cmd ≠ .off then d.stick Fl.axisStatusPrechargeCut n else d
    let d := if x.wakeLate && sp.cmd ≠ .off then d.bump Fl.pwrEvtWakeLate 0 1 else d
    driveCmd n sp (d.modMva n fun x => { x with pre := false, wakePre := false, wakeLate := false })

/-- The drive command of the setpoint in force acts; drives of higher precedence stay, and an axis in OFF waits for its precharge. -/
def driveMeets (n : Nat) (sp : AxisSp) (d : Dev) : Dev :=
  match (d.mva n).drive with
  | .off => d
  | .sto => d
  | .orphanSto => d
  | .orphanBrake => d
  | .halt => d
  | .precharge => prechargeMeets n sp d
  | _ => driveCmd n sp d

/-- An STO or the orphan state has taken the axis's torque: no SS1 begins there (R447, R457). -/
def torqueOff (d : Dev) (n : Nat) : Bool :=
  match (d.mva n).drive with
  | .sto => true
  | .orphanSto => true
  | .orphanBrake => true
  | _ => false

/-- The parts of a frame beside the drive: the change of the X leg, the SS1 monitor, which begins with the first setpoint of its stop, the
end of a safety hold, a torque command that begins (R181, R282, R441, R449). -/
def frameExtras (n : Nat) (sp : AxisSp) (old : AxisSp) (d : Dev) : Dev :=
  let d := if sp.torque.isSome && old.torque.isNone then d.modFoc n fun f => { f with intS := 0 } else d
  let d := match sp.xduty with
    | some c => d.modLegs n fun l => { l with xbuf := some c }
    | none => d
  let begins := sp.ss1 && !old.ss1 && d.on Fl.escSs1En n && !d.flag Fl.escAxstatusSs1 n && !d.torqueOff n
  let d := if begins then watchSs1 n (d.mv (n / 8)).start d else d
  if sp.unhold then d.safeSense.setHw Fl.escAxstatusHold n 0 else d

/-- A setpoint takes effect (R28). -/
def spTake (n : Nat) (sp : AxisSp) (d : Dev) : Dev :=
  let x := d.mva n
  let d := d.modMva n fun x => { x with sp := { sp with seq := none, seqOff := false, seqStop := false, xduty := none,
                                                        unhold := false } }
  driveMeets n sp (frameExtras n sp x.sp d)

/-- Without a frame the previous setpoint goes on by one tick at the previous speed, whose part below 1/256 count is dropped (R35; log
entry 135). -/
def spExtend (n : Nat) (d : Dev) : Dev :=
  d.modMva n fun x => { x with sp := { x.sp with pos := x.sp.pos + BitVec.ofInt 40 (quot x.sp.speed.toInt 256) } }

/-! ## Samples (R23, R141, R229) -/

/-- The speed that the axis reports at the boundary b, whether it is valid, and whether it is an estimate (R229). -/
def speedAt (d : Dev) (n b : Nat) : Speed × Bool × Bool :=
  let x := d.mva n
  if !d.sensorless n then (if x.fb.valid then (d.edgeSpeed n b, true, false) else (0, false, false))
  else d.slSpeed n

/-- The result bits of a start: the attempts made, of which the last has failed where it ends so (R232). -/
def seqResult (s : Sl) : Word :=
  BitVec.ofNat 32 (min 4 (if s.ending = some .failed then s.attempt else s.attempt + 1) + (if s.aligned then 8 else 0) +
    if s.caught then 16 else 0)

/-- What the latch frame carries of one axis. -/
def latchOf (d : Dev) (b n : Nat) : Latch :=
  let x := d.mva n
  let v := d.speedAt n b
  { pos := d.counter n, speed := v.1, valid := v.2.1, est := v.2.2, iq := BitVec.ofInt 16 (rnd x.foc.iqF 65536),
    vlim := d.flag Fl.axisStatusVoltageLimited n, swa := x.fb.swaPos, swaCnt := x.fb.swaCnt, swb := x.fb.swbPos,
    swbCnt := x.fb.swbCnt, phase := x.sl.phase, known := x.sl.known, ending := x.sl.ending, seqRes := seqResult x.sl,
    drive := x.drive, pred := d.flag Fl.isenseStatusPredicted n }

/-- Ends of tests that a latch frame carries: those that are not abandoned. -/
def offtOf (d : Dev) (m : Nat) : List (Nat × BitVec 13) :=
  (localAxes m).filterMap fun n => match (d.mva n).offtEnd with
    | some v => if v = 0x1000 then none else some (n, v)
    | none => none

/-- The latch frame of a movement. -/
def latFrame (d : Dev) (m b : Nat) : LatFrame :=
  { axes := (localAxes m).map (d.latchOf b), reqs := (d.mv m).reqs, flags := (localAxes m).map fun n => SMap.get d.flt.mvFlags n 0,
    unver := BitVec.ofNat 8 (maskOf ((span 0 8).filter fun j => (d.mva (8 * m + j)).unver)), offt := d.offtOf m,
    cal := (d.mv m).calEnd,
    temps := (d.mv m).temps }

/-- What a latch frame has taken along is no longer the movement's. -/
def latSent (m : Nat) (d : Dev) : Dev :=
  let d := each (localAxes m) (fun n d => d.modMva n fun x =>
    { x with unver := false, sl := { x.sl with ending := none }
             offtEnd := if x.offtEnd = some 0x1000 then x.offtEnd else none }) d
  let d := { d with flt := { d.flt with mvFlags := (localAxes m).foldl SMap.drop d.flt.mvFlags } }
  d.modMv m fun x => { x with temps := [], calEnd := none }

/-- The movement sends its latch frame. -/
def latSend (m b : Nat) (d : Dev) : Dev :=
  let f := d.latFrame m b
  (latSent m d).modMv m fun x => { x with latWay := some f }

/-- Sticky flags of an axis join those that its movement still holds. -/
def flagsBack (n : Nat) (w : Word) (d : Dev) : Dev :=
  if w = 0 then d else { d with flt := { d.flt with mvFlags := SMap.set d.flt.mvFlags n (mergeFlags (SMap.get d.flt.mvFlags n 0) w) } }

/-- What a lost latch frame carried goes with the next good one (R34, R141, R412, R419). -/
def latBack (m : Nat) (f : LatFrame) (d : Dev) : Dev :=
  let d := each (span 0 8) (fun j d => flagsBack (8 * m + j) (f.flags.getD j 0) d) d
  let d := each (span 0 8) (fun j d => d.modMva (8 * m + j) fun x =>
    { x with unver := x.unver || f.unver.getLsbD j
             sl := { x.sl with ending := x.sl.ending.orElse fun _ => ((f.axes.getD j {}).ending) }
             offtEnd := x.offtEnd.orElse fun _ => (f.offt.find? fun e => e.1 = 8 * m + j).map (·.2) }) d
  d.modMv m fun x => { x with latWay := none, calEnd := x.calEnd.orElse fun _ => f.cal, temps := f.temps ++ x.temps }

/-- A missing latch frame is counted; the second in a row raises LINK_LATCH_LOST, once in a run (R34). It is presented with those of
the other movements in the same clock (R416, R581). -/
def latCount (m : Nat) (d : Dev) : Dev :=
  let n := (d.mv m).latMiss + 1
  let d := (d.modMv m fun x => { x with latMiss := n }).stick Fl.linkStatusLatchMiss m
  if n = 2 then d.raise .linkLatchLost m m presLink else d

/-- LATCH_FRAME_MISS: the frame for the coming tick is lost, and counted. -/
def latMissed (m : Nat) (crc : Bool) (d : Dev) : Dev :=
  if !d.mvOn m || !d.trained m || (d.mv m).missed then d
  else
    let d := match (d.mv m).latWay with
      | some f => latBack m f d
      | none => d
    let d := if crc then d.bump Fl.linkStatusCrcErrors m 1 else d
    (latCount m (d.modMv m fun x => { x with missed := true })).settle

/-! ## The movement's tick boundary (R16, R18, R37, R446, R511) -/

/-- The tick rate from the coming tick boundary on (R37). -/
def rateAt (d : Dev) : BitVec 2 :=
  match (d.regs.pend.filter fun w => w.off == Reg.offset .tickCfg 0 && !w.late).getLast? with
  | some w => BitVec.ofNat 2 (bits w.val 0 2)
  | none => d.time.rate

/-- One axis at its boundary before the setpoint: the ticks of its waits run down, its speed is formed. -/
def axisTick (b n : Nat) (d : Dev) : Dev :=
  let d := speedStill n (d.modFb n fun f => { f with quiet := f.quiet + 1 })
  let d := if (d.mva n).drive = .brake then d.modMva n fun x => { x with probeIn := x.probeIn - 1 } else d
  let d := slTick n d
  let d := if d.sensorless n && (d.mva n).drive == .brake && (d.mva n).probeIn == 0 then probeBegin n d else d
  d.modFb n fun f => { f with speed := (d.speedAt n b).1 }

/-- One axis at its boundary after the setpoint: tests, loops and the set of its X leg. -/
def axisLoops (n : Nat) (d : Dev) : Dev :=
  xTransfer n (predictedTick n (tickLoops n (d.mva n).fb.speed (offtBegin n d)))

/-- Beats (R445, R446): a valid one carries the count of the tick that ends; the intervals without one add up. An orphan ignores
beats (R447), so each of its intervals counts in BEAT_MISS (R472). -/
def beatStep (m : Nat) (d : Dev) : Dev :=
  let x := d.mv m
  if !d.trained m || x.load then d
  else if d.orphan m then d.bump Fl.escMvstatusBeatMiss m 1
  else if (d.spNow m).isSome then d.modMv m fun x => { x with beatGap := 0 }
  else (d.modMv m fun x => { x with beatGap := x.beatGap + hubClocks x.rate }).bump Fl.escMvstatusBeatMiss m 1

/-- The setpoints of the frame take effect, or the previous ones go on (R28, R35). A frame of another tick is not applied. -/
def spStep (m : Nat) (d : Dev) : Dev :=
  let now := d.spNow m
  let d := d.modMv m fun x => { x with spWay := none, spTaken := none }
  if d.orphan m || !d.trained m then d
  else match now with
    | some f => (overAxes spTake (8 * m) (f.axes.take 8) d).modMv m fun x => { x with marks := f.marks }
    | none =>
      if (d.mv m).load then d
      else each (localAxes m) spExtend (d.stick Fl.linkStatusSetpointMissed m)

/-- The counter of an axis takes the mirror's position, in whole counts in encoder mode (R365); no stamps are kept (R374). -/
def loadCount (n : Nat) (d : Dev) : Dev :=
  let p := (d.axis n).lat.pos.toInt
  (setCounter n (if d.fbMode n = 0 then p / 256 * 256 else p) d).modFb n fun f => { f with stamps := [], valid := false, dir := 0 }

/-- The first boundary after training loads the counters from the mirror (R144, R511). -/
def loadMirror (m : Nat) (d : Dev) : Dev :=
  if (d.mv m).load && d.trained m then each (localAxes m) loadCount d else d

/-- The instant of the movement's tick boundary that comes. -/
def mvEdge (d : Dev) (m : Nat) : Nat :=
  let x := d.mv m
  if x.rate = d.time.rate then d.nextBoundary else x.start + hubClocks x.rate

/-- The movement's boundary: its instant, its rate, its period count. A movement that has received the frame, or whose link has
just trained, takes the rate in force from here (R37). -/
def mvClock (m : Nat) (d : Dev) : Dev :=
  let x := d.mv m
  let b := d.mvEdge m
  let rate := if (d.spNow m).isSome || x.load then d.rateAt else x.rate
  d.modMv m fun x => { x with start := b, period := 0, rate := rate, idle := if d.mvUnarmed m then x.idle + hubClocks x.rate else 0 }

/-- The tick boundary of a movement in a debug halt, or one that a movement whose clock monitor has tripped still marks: its link receiver
and its beat monitor go on (R16, R287, R288) (log entry 183). -/
def haltTick (m : Nat) (d : Dev) : Dev :=
  let d := beatStep m (loadMirror m d)
  let d := if d.beatGone m then orphanRule m false d else d
  let d := (mvClock m d).modMv m fun x => { x with spWay := none, spTaken := none }
  (if d.trained m then d.modMv m fun x => { x with load := false } else d).settle

/-- The movement's tick boundary. -/
def mvTick (m : Nat) (d : Dev) : Dev :=
  if !d.sys.ticking || !d.flag Fl.clkStatusPllLock 0 || !d.mvOn m then d
  else if !d.mvRuns m then haltTick m d
  else
    let d := loadMirror m d
    let d := beatStep m (takePend (fun w => inMv m w.off) (mvTake (d.mvEdge m)) d)
    let d := if d.beatGone m then orphanRule m false d else d
    let d := mvClock m d
    let b := (d.mv m).start
    let d := each (localAxes m) (axisTick b) d
    let d := calBegin m (spStep m d)
    let d := each (localAxes m) axisLoops d
    let d := park m d
    let d := if d.trained m then (latSend m b d).modMv m fun x => { x with load := false } else d
    d.settle

end Sys2Proof.Machine.Dev

namespace Sys2Proof.Machine

/-- SETPOINT_FRAME (R15, R172, R186, R514). -/
def execSetpointFrame (m : Fin 8) (s : State) : Host.Outcome State Fault Refusal := s.onDev (Dev.frameArrives m)

/-- SETPOINT_FRAME_MISS (R35). -/
def execSetpointFrameMiss (m : Fin 8) (crc : Bool) (s : State) : Host.Outcome State Fault Refusal := s.onDev (Dev.frameMissed m crc)

/-- LATCH_FRAME_MISS (R34). -/
def execLatchFrameMiss (m : Fin 8) (crc : Bool) (s : State) : Host.Outcome State Fault Refusal := s.onDev (Dev.latMissed m crc)

/-- MOVEMENT_TICK_BOUNDARY (R16). -/
def execMovementTickBoundary (m : Fin 8) (s : State) : Host.Outcome State Fault Refusal := s.onDev (Dev.mvTick m)

end Sys2Proof.Machine
end

