-- ==== Sys2Proof/Machine/Tick.lean ====
section
/-! DEFINITION. Tick.lean: the tick boundary of the hub and the six phases of its tick (R17, R22 to R37, R62, R73). -/

namespace Sys2Proof.Machine

/-- What an admitted descriptor of an opcode does. -/
def Op.act : Op → Ctx → Dev → Dev
  | .move => Dev.opMove
  | .stop => Dev.opStop
  | .resume => Dev.opResume
  | .speed => Dev.opSpeed
  | .setprofile => Dev.opSetprofile
  | .setpoint => Dev.opSetpoint
  | .strikeArm => Dev.opStrikeArm
  | .strikeDisarm => Dev.opStrikeDisarm
  | .start => Dev.opStart
  | .catchRotor => Dev.opCatch
  | .brake => Dev.opBrake
  | .float => Dev.opFloat
  | .arm => Dev.opArm
  | .disarm => Dev.opDisarm
  | .auxPwm => Dev.opAuxPwm
  | .offtest => Dev.opOfftest
  | .calibrate => Dev.opCalibrate
  | .signLoad => Dev.opSignLoad
  | .learn => Dev.opLearn
  | .bind => Dev.opBind
  | .unbind => Dev.opUnbind
  | .canTx => Dev.opCanTx
  | .snapshot => Dev.opSnapshot
  | .fence => Dev.opFence
  | .nop => Dev.opNop

namespace Dev

/-! ## The boundary (R17, R36, R54, R57, R142, R442, R508) -/

/-- The tick count and the instant of the boundary; the first boundary begins tick 0 (R518). -/
def advance (d : Dev) : Dev :=
  if d.sys.first then { d with sys := { d.sys with first := false } }
  else { d with time := { d.time with tick := d.time.tick + 1, start := d.time.start + d.tickLen } }

/-- A register of a movement waits for the movement's own boundaries. -/
def isMvReg (off : Nat) : Bool := (span 0 8).any fun m => inMv m off

/-- Vector 69 goes out in the completion window of the first tick that begins after the change (R442). -/
def escTick (d : Dev) : Dev :=
  if d.sys.escIrq = 0 then d
  else { d with sys := { d.sys with escIrq := 0 }, hif := { d.hif with irq69 := d.hif.irq69 + if d.linkServes then d.sys.escIrq else 0 } }

/-- Clear requests move on by one boundary (R422, R428). -/
def clearTick (d : Dev) : Dev := { d with flt := { d.flt with clrNow := d.flt.clr, clr := d.flt.clrLate, clrLate := none } }

/-- What a tick boundary does before phase 1. Whether the tick that ends was silent goes by the settings it ran under (R57). -/
def boundary (d : Dev) : Dev :=
  let d := silentTick (advance { d with out := [], detects := [] })
  let d := hubReady d.time.start d
  let d := takePend (fun w => !isMvReg w.off) hubTake d
  let d := mainsGone d.time.start (each (span 0 8) mvSwitch d)
  let d := readDoorbell d
  let d := each (span 0 8) monWake d
  clearTick (escTick (each (span 0 4) busOffEnter d))

/-! ## Phase 1 (R23, R34, R73, R141) -/

/-- One axis takes its part of a latch frame; a switch latch is new where its count has changed. -/
def takeLatch (unver : Bool) (n : Nat) (l : Latch) (d : Dev) : Dev :=
  let o := (d.axis n).lat
  let a := o.swaCnt ≠ l.swaCnt
  let b := o.swbCnt ≠ l.swbCnt
  let d := d.modAxis n fun x => { x with lat := { l with swaNew := a, swbNew := b }, stale := false }
  let d := if a then d.stick Fl.motionStatusSwaNew n else d
  let d := if b then d.stick Fl.motionStatusSwbNew n else d
  if unver then d.setHw Fl.motionStatusPosUnverified n 1 else d

/-- The axes of a latch frame. -/
def takeLatches (unver : BitVec 8) : Nat → List Latch → Dev → Dev
  | _, [], d => d
  | n, l :: r, d => takeLatches unver (n + 1) r (takeLatch (unver.getLsbD (n % 8)) n l d)

/-- An axis without a good latch frame keeps its values and reports LATCH_STALE where its link should have given one. -/
def keepLatch (stale : Bool) (n : Nat) (d : Dev) : Dev :=
  d.modAxis n fun x => { x with stale := stale, lat := { x.lat with swaNew := false, swbNew := false, ending := none } }

/-- The hub keeps the sticky flags that a latch frame carries (R419). -/
def takeFlags : Nat → List Word → Dev → Dev
  | _, [], d => d
  | n, w :: r, d =>
    takeFlags (n + 1) r (if w = 0 then d else { d with regs := { d.regs with
      hw := SMap.set d.regs.hw (Reg.offset .fltSticky n) (mergeFlags (regWord d.regs.hw .fltSticky n) w) } })

/-- Phase 1 takes the latch frame of a movement, if it has come. -/
def latchMv (m : Nat) (d : Dev) : Dev :=
  match (d.mv m).latWay with
  | some f =>
    let d := d.modMv m fun x => { x with latWay := none, latMiss := 0, missed := false }
    takeLatches f.unver (8 * m) (f.axes.take 8) (takeFlags (8 * m) (f.flags.take 8) d)
  | none =>
    let due := d.mvOn m && d.trained m || (d.mv m).lost
    let d := each (localAxes m) (keepLatch due) d
    if !due then d
    else if (d.mv m).missed then d.modMv m fun x => { x with missed := false }
    else latCount m d

/-- The latch frames that are there at the boundary. -/
def latFrames (d : Dev) : List (Nat × LatFrame) := (span 0 8).filterMap fun m => (d.mv m).latWay.map fun f => (m, f)

/-- Phase 1 until the comparison of the signature engine. -/
def phase1Latch (d : Dev) : Dev :=
  let d := each (span 0 64) (fun n d => d.modAxis n fun x => { x with spLast := x.spPos }) d
  let d := (each (span 0 8) latchMv d).settle
  let d := { d with time := { d.time with mainsLatch := d.time.mainsCount } }
  signPhase1 (formRefs (each (span 0 8) pinSample d))

/-- The sensor readings of a latch frame, which the thermal manager takes while its domain is on (R486). -/
def takeTemps (f : LatFrame) (d : Dev) : Dev :=
  if !d.hubOn 4 then d else f.temps.foldl (fun d (e : Nat × BitVec 16 × Bool) => takeReading e.1 e.2.1 e.2.2 d) d

/-- The end of a sequence that the latch of an axis shows. -/
def takeEnding (n : Nat) (d : Dev) : Dev :=
  match (d.axis n).lat.ending with
  | some e => seqEnded n e d
  | none => d

/-- The rest of phase 1: readings, ends of actions without a fault, frames of the bus, checks of the motion. -/
def phase1Rest (fs : List (Nat × LatFrame)) (d : Dev) : Dev :=
  let d := crossCheck (fs.foldl (fun d (e : Nat × LatFrame) => takeTemps e.2 d) d)
  let d := each (span 0 64) takeEnding d
  let d := fs.foldl (fun d (e : Nat × LatFrame) => offtPhase1 e.2.offt (calPhase1 e.1 e.2.cal d)) d
  let d := each (span 0 4) canPhase1 d
  (each (span 0 64) phase1Axis d).settle

/-! ## Phase 2 (R24, R105, R412, R414) -/

/-- The requests of a latch frame that the hub has not applied yet. -/
def takeReqs (m : Nat) (f : LatFrame) (d : Dev) : Dev :=
  let new := f.reqs.filter fun r => decide ((d.mv m).taken < r.serial)
  let d := new.foldl (fun d r => d.addReact r.react) d
  d.modMv m fun x => { x with taken := new.foldl (fun t r => max t r.serial) x.taken }

/-- Phase 2. -/
def phase2 (fs : List (Nat × LatFrame)) (d : Dev) : Dev :=
  let ds := d.detects
  let starved := (d.signs.filter fun e => e.2.starved).map (·.1)
  let d := each (span 0 64) seqFaults (each (span 0 8) lostStep d)
  let d := fs.foldl (fun d (e : Nat × LatFrame) => takeReqs e.1 e.2 (calRaise e.1 e.2.cal d)) d
  let d := phase2End (each starved starvedRaise d).settle
  let d := ds.foldl (fun d e => signReact d e) d
  let d := each (d.signs.map (·.1)) (learnFault starved) d
  let d := each (span 0 8) (fun m d => calPhase2 m ((fs.find? fun e => e.1 = m).bind (·.2.cal)) d) d
  { (offtPhase2 (fs.flatMap (·.2.offt)) d) with detects := [] }

/-- The event record of a detection, which tells whether a fault reaction of this phase 2 has come before its own (R338, R342). -/
def detectEvent (after : Dev) (d : Dev) (e : Detect) : Dev :=
  signEvent e.ax e.dir (if e.slack then .slack else .obstacle) (detectWord e (suppressed after d e) false) d

/-- Phases 1 and 2: the records of the signature engine come before those of the other ends of phase 1 (R73). -/
def phases12 (d : Dev) : Dev :=
  let fs := d.latFrames
  let d := phase1Latch d
  if d.detects.isEmpty then phase2 fs (phase1Rest fs d)
  else
    let after := phase2 fs (phase1Rest fs d)
    phase2 fs (phase1Rest fs (d.detects.foldl (detectEvent after) d))

/-! ## Phase 4 (R26, R33, R62, R139, R340) -/

/-- An event of the ring engine before the fetch cutoff. -/
def earlyEvent (d : Dev) : Early → Dev
  | .doorbell r => doorbellDone r d
  | .fetch i r => fetchDone i r d
  | .kick => kick d

/-- A ring that comes to a slot whose fetch has failed stops (R80). -/
def comeTo (i : Nat) (d : Dev) : Dev :=
  let q := d.sq i
  if q.active && q.error.isNone && q.fetchFail && q.fetched.isEmpty && q.fence.isNone then d.sqError i .fetchError else d

/-- The ring drops out for the rest of the tick. -/
def dropOut (i : Nat) (d : Dev) : Dev := d.modSq i fun q => { q with out := true }

/-- A descriptor of a ring is dispatched by its opcode. -/
def dispatchOne (i slot : Nat) (x : Desc) (d : Dev) : Dev :=
  match Op.ofCode x.opcode with
  | none => badOpcode i (BitVec.ofNat 16 slot) x d
  | some o => dispatch o i (BitVec.ofNat 16 slot) x o.act d

/-- The turn of a ring in a round: it gives one descriptor, or drops out. A FENCE that waits is looked at in its ring's turn, so not in a
tick whose 512 dispatches are spent before it (R26, R67; log entry 131). -/
def turn (i : Nat) (d : Dev) : Dev :=
  let q := d.sq i
  if 512 ≤ d.hif.total || !q.active || q.error.isSome || q.out then d
  else if 32 ≤ q.given then dropOut i d
  else if q.fence.isSome then
    let d := fenceStep i d
    if (d.sq i).fence.isSome then dropOut i d else comeTo i d
  else match q.fetched with
    | [] => dropOut i (comeTo i d)
    | (slot, x) :: _ =>
      if !d.hasCredit q x then dropOut i d
      else
        let d := dispatchOne i slot x d
        if (d.sq i).fence.isSome then dropOut i d else comeTo i d

/-- A round over the rings of a class; which ring has given the first descriptor. -/
def round : List Nat → Option Nat → Dev → Option Nat × Dev
  | [], first, d => (first, d)
  | i :: r, first, d =>
    let d' := turn i d
    round r (if first.isNone && decide (d.hif.total < d'.hif.total) then some i else first) d'

/-- Rounds until no ring of the class gives a descriptor. -/
def rounds (order : List Nat) : Nat → Option Nat → Dev → Option Nat × Dev
  | 0, first, d => (first, d)
  | n + 1, first, d =>
    let r := round order first d
    if r.2.hif.total = d.hif.total then r else rounds order n r.1 r.2

/-- The active rings of a class in ascending order behind its pointer. -/
def classOrder (d : Dev) (c ptr : Nat) : List Nat :=
  ((span 0 128).map fun k => (ptr + 1 + k) % 128).filter fun i => (d.sq i).active && (d.sq i).prio.toNat = c

/-- The start pointer of a class. -/
def ptrOf (d : Dev) (c : Nat) : Nat := if c = 0 then d.hif.ptr0 else if c = 1 then d.hif.ptr1 else d.hif.ptr2
def setPtr (c i : Nat) (d : Dev) : Dev :=
  { d with hif := if c = 0 then { d.hif with ptr0 := i } else if c = 1 then { d.hif with ptr1 := i } else { d.hif with ptr2 := i } }

/-- A class is served; its pointer takes the ring that gave its first descriptor. -/
def serveClass (c : Nat) (d : Dev) : Dev :=
  let r := rounds (d.classOrder c (d.ptrOf c)) 33 none d
  match r.1 with
  | some i => setPtr c i r.2
  | none => r.2

/-- A tick's budget starts anew. -/
def newBudget (d : Dev) : Dev :=
  { d with hif := { d.hif with total := 0, sqs := d.hif.sqs.map fun (e : Nat × Sq) => (e.1, { e.2 with given := 0, out := false }) } }

/-- Phase 4: reopens first, engagements, then the rings. -/
def phase4 (d : Dev) : Dev :=
  let d := if d.hubOn 1 then each (d.signs.map (·.1)) reopen d else d
  let d := newBudget (each (span 0 8) engage d)
  if d.hubOn 0 then each (span 0 3) serveClass d else d

/-! ## Phase 5 (R27, R340, R354) -/

/-- Phase 5. -/
def phase5 (d : Dev) : Dev :=
  let d := each (span 0 64) phase5Axis d
  let d := each (d.signs.map (·.1)) learnCycle (reopenEnds d)
  each (span 0 8) stepRelease d

/-! ## Phase 6 (R37, R172, R445) -/

/-- One axis of a setpoint frame. -/
def frameOf (d : Dev) (n : Nat) : AxisSp :=
  let x := d.axis n
  let holds := (x.cmd == .field || x.cmd == .openloop) && x.st ≠ .moving && x.stop.isNone
  { pos := x.spPos, speed := x.spSpeed, lim := BitVec.ofNat 16 (d.cfg Fl.loopLimitImax n),
    torque := if x.mot.torque && x.stop.isNone then some x.mot.cmd else none,
    cmd := if holds then .hold else x.cmd, seq := x.seq, seqOff := x.seqOff,
    seqStop := x.stop.isSome && x.mot.wait && (x.lat.phase == phCatch || x.lat.phase == phResync),
    xduty := x.xduty, ss1 := x.ss1, unhold := x.unhold,
    back := decide (x.mot.dir < 0), wait := x.mot.wait, fault := x.st == .faulted }

/-- What a frame has taken along. -/
def frameSent (n : Nat) (d : Dev) : Dev :=
  let rest := d.holdCmd n
  d.modAxis n fun x => { x with seq := none, seqOff := false, xduty := none, unhold := false
                                cmd := if x.cmd == .precharge then rest else x.cmd }

/-- The setpoint frame of a movement, with its beat. -/
def sendFrame (m : Nat) (d : Dev) : Dev :=
  if !d.mvOn m || !d.trained m then d
  else
    let f : SpFrame := { beat := d.time.tick.setWidth 8, axes := (localAxes m).map d.frameOf, ack := (d.mv m).taken, marks := d.marksOf m }
    (each (localAxes m) frameSent d).modMv m fun x => { x with spWay := some f }

/-- Phase 6. -/
def phase6 (d : Dev) : Dev := each (span 0 8) sendFrame d

/-! ## The tick (R22) -/

/-- The tick generator runs (R506, R518), and the hub is in no debug halt (R287). -/
def tickRuns (d : Dev) : Bool := d.sys.ticking && d.flag Fl.clkStatusPllLock 0 && !d.sys.hubHalt

/-- The phases of a tick, and its completion window. -/
def phases (early : List Early) (room : Nat) (d : Dev) : Dev :=
  let d := phases12 d
  let d := if d.hubOn 1 then phase3 d else d
  let d := phase4 (early.foldl earlyEvent d)
  let d := if d.hubOn 1 then phase5 d else d
  window room (windowsFollow (phase6 d)).settle

/-- The hub's tick boundary, with the tick that it begins, up to its completion window 40 µs (16,000 hub clocks) behind it. -/
def tickBoundary (early : List Early) (room : Nat) (d : Dev) : Dev :=
  if d.tickRuns then (fun d : Dev => hubReady (d.time.start + 16000) d) (phases early room (boundary d)) else d

end Dev

/-- TICK_BOUNDARY (R22). -/
def execTickBoundary (early : List Early) (room : Nat) (s : State) : Host.Outcome State Fault Refusal := s.onDev (Dev.tickBoundary early room)

end Sys2Proof.Machine
end

