-- ==== Sys2Proof/Machine/Dispatch.lean ====
section
/-! DEFINITION. Dispatch.lean: one arm per command. -/

namespace Sys2Proof.Machine

/-- The effect of a command on everything but the queue. -/
def exec (i : Instr) (s : State) : Host.Outcome State Fault Refusal :=
  match i with
  | .tickBoundary early room => Sys2Proof.Machine.execTickBoundary early room s
  | .doorbellReadComplete r => Sys2Proof.Machine.execDoorbellReadComplete r s
  | .descriptorFetch sq r => Sys2Proof.Machine.execDescriptorFetch sq r s
  | .moderatedMessage v => Sys2Proof.Machine.execModeratedMessage v s
  | .hifKick value off => Sys2Proof.Machine.execHifKick value off s
  | .doorbellEnable value off => Sys2Proof.Machine.execDoorbellEnable value off s
  | .ringEnable k q value off => Sys2Proof.Machine.execRingEnable k q value off s
  | .ringDisable k q value off => Sys2Proof.Machine.execRingDisable k q value off s
  | .hostSilent => Sys2Proof.Machine.execHostSilent s
  | .hostLinkLost why => Sys2Proof.Machine.execHostLinkLost why s
  | .functionLevelReset => Sys2Proof.Machine.execFunctionLevelReset s
  | .badOpcode sq slot d => Sys2Proof.Machine.execBadOpcode sq slot d s
  | .move sq slot d => Sys2Proof.Machine.execMove sq slot d s
  | .stop sq slot d => Sys2Proof.Machine.execStop sq slot d s
  | .resume sq slot d => Sys2Proof.Machine.execResume sq slot d s
  | .speed sq slot d => Sys2Proof.Machine.execSpeed sq slot d s
  | .setprofile sq slot d => Sys2Proof.Machine.execSetprofile sq slot d s
  | .setpoint sq slot d => Sys2Proof.Machine.execSetpoint sq slot d s
  | .strikeArm sq slot d => Sys2Proof.Machine.execStrikeArm sq slot d s
  | .strikeDisarm sq slot d => Sys2Proof.Machine.execStrikeDisarm sq slot d s
  | .start sq slot d => Sys2Proof.Machine.execStart sq slot d s
  | .catchRotor sq slot d => Sys2Proof.Machine.execCatchRotor sq slot d s
  | .brake sq slot d => Sys2Proof.Machine.execBrake sq slot d s
  | .float sq slot d => Sys2Proof.Machine.execFloat sq slot d s
  | .arm sq slot d => Sys2Proof.Machine.execArm sq slot d s
  | .disarm sq slot d => Sys2Proof.Machine.execDisarm sq slot d s
  | .auxPwm sq slot d => Sys2Proof.Machine.execAuxPwm sq slot d s
  | .offtest sq slot d => Sys2Proof.Machine.execOfftest sq slot d s
  | .calibrate sq slot d => Sys2Proof.Machine.execCalibrate sq slot d s
  | .signLoad sq slot d => Sys2Proof.Machine.execSignLoad sq slot d s
  | .learn sq slot d => Sys2Proof.Machine.execLearn sq slot d s
  | .bind sq slot d => Sys2Proof.Machine.execBind sq slot d s
  | .unbind sq slot d => Sys2Proof.Machine.execUnbind sq slot d s
  | .canTx sq slot d => Sys2Proof.Machine.execCanTx sq slot d s
  | .snapshot sq slot d => Sys2Proof.Machine.execSnapshot sq slot d s
  | .fence sq slot d => Sys2Proof.Machine.execFence sq slot d s
  | .fenceRelease sq => Sys2Proof.Machine.execFenceRelease sq s
  | .fenceTimeout sq => Sys2Proof.Machine.execFenceTimeout sq s
  | .nop sq slot d => Sys2Proof.Machine.execNop sq slot d s
  | .standstill ax => Sys2Proof.Machine.execStandstill ax s
  | .moveEnd ax => Sys2Proof.Machine.execMoveEnd ax s
  | .settleTimeout ax => Sys2Proof.Machine.execSettleTimeout ax s
  | .reversalBrakingEnd ax => Sys2Proof.Machine.execReversalBrakingEnd ax s
  | .rebase ax value off => Sys2Proof.Machine.execRebase ax value off s
  | .cmdEngage c value off => Sys2Proof.Machine.execCmdEngage c value off s
  | .cmdDisengage c value off => Sys2Proof.Machine.execCmdDisengage c value off s
  | .cmdLost c => Sys2Proof.Machine.execCmdLost c s
  | .stepEdge q dir gap off => Sys2Proof.Machine.execStepEdge q dir gap off s
  | .unitRefWrite u value off => Sys2Proof.Machine.execUnitRefWrite u value off s
  | .tickRateChange value off => Sys2Proof.Machine.execTickRateChange value off s
  | .movementTickBoundary m => Sys2Proof.Machine.execMovementTickBoundary m s
  | .tickMark m diff skew => Sys2Proof.Machine.execTickMark m diff skew s
  | .setpointFrame m => Sys2Proof.Machine.execSetpointFrame m s
  | .setpointFrameMiss m crc => Sys2Proof.Machine.execSetpointFrameMiss m crc s
  | .latchFrameMiss m crc => Sys2Proof.Machine.execLatchFrameMiss m crc s
  | .orphanEntry m byMonitor => Sys2Proof.Machine.execOrphanEntry m byMonitor s
  | .linkTrainingDone m skew => Sys2Proof.Machine.execLinkTrainingDone m skew s
  | .trainFail m => Sys2Proof.Machine.execTrainFail m s
  | .pwmBoundary m mid meas vbs vdrv => Sys2Proof.Machine.execPwmBoundary m mid meas vbs vdrv s
  | .prechargeEnd e => Sys2Proof.Machine.execPrechargeEnd e s
  | .park m => Sys2Proof.Machine.execPark m s
  | .wakeEnd m => Sys2Proof.Machine.execWakeEnd m s
  | .shortDidt ax e => Sys2Proof.Machine.execShortDidt ax e s
  | .shuntOc e => Sys2Proof.Machine.execShuntOc e s
  | .interlockStuck ax e => Sys2Proof.Machine.execInterlockStuck ax e s
  | .bstUv ax e => Sys2Proof.Machine.execBstUv ax e s
  | .vdrvFault m ov reading => Sys2Proof.Machine.execVdrvFault m ov reading s
  | .offtestEnd ax steps => Sys2Proof.Machine.execOfftestEnd ax steps s
  | .calibrationEnd m factors => Sys2Proof.Machine.execCalibrationEnd m factors s
  | .alignEnd ax => Sys2Proof.Machine.execAlignEnd ax s
  | .bemfCrossing ax phase half x => Sys2Proof.Machine.execBemfCrossing ax phase half x s
  | .retryBrakeEnd ax => Sys2Proof.Machine.execRetryBrakeEnd ax s
  | .catchWindowEnd ax => Sys2Proof.Machine.execCatchWindowEnd ax s
  | .speedProbe m j => Sys2Proof.Machine.execSpeedProbe m j s
  | .floatWindowSample ax v => Sys2Proof.Machine.execFloatWindowSample ax v s
  | .feedbackEdge ax fa fb fz h => Sys2Proof.Machine.execFeedbackEdge ax fa fb fz h s
  | .indexLatch e => Sys2Proof.Machine.execIndexLatch e s
  | .switchLatch ax swb e => Sys2Proof.Machine.execSwitchLatch ax swb e s
  | .speedTimeout ax => Sys2Proof.Machine.execSpeedTimeout ax s
  | .signStarved ax => Sys2Proof.Machine.execSignStarved ax s
  | .reopen ax => Sys2Proof.Machine.execReopen ax s
  | .remontoireRead ax block gen cells => Sys2Proof.Machine.execRemontoireRead ax block gen cells s
  | .faultArrival from_ => Sys2Proof.Machine.execFaultArrival from_ s
  | .reactionSequenceEnd second => Sys2Proof.Machine.execReactionSequenceEnd second s
  | .alertPulseEnd m => Sys2Proof.Machine.execAlertPulseEnd m s
  | .railBroken m p => Sys2Proof.Machine.execRailBroken m p s
  | .railRestored m p => Sys2Proof.Machine.execRailRestored m p s
  | .fltAck value off => Sys2Proof.Machine.execFltAck value off s
  | .fltClear value off => Sys2Proof.Machine.execFltClear value off s
  | .stoActive m pinB => Sys2Proof.Machine.execStoActive m pinB s
  | .stoPinRelease m pinB => Sys2Proof.Machine.execStoPinRelease m pinB s
  | .stoDiscrepancy m => Sys2Proof.Machine.execStoDiscrepancy m s
  | .escFault cause => Sys2Proof.Machine.execEscFault cause s
  | .selftestEnd pass => Sys2Proof.Machine.execSelftestEnd pass s
  | .safePinRelease => Sys2Proof.Machine.execSafePinRelease s
  | .safeCondition => Sys2Proof.Machine.execSafeCondition s
  | .ss1Trip ax cause => Sys2Proof.Machine.execSs1Trip ax cause s
  | .slsExceeded ax channel2 => Sys2Proof.Machine.execSlsExceeded ax channel2 s
  | .slsDiscrepancy m j => Sys2Proof.Machine.execSlsDiscrepancy m j s
  | .slcExceeded e => Sys2Proof.Machine.execSlcExceeded e s
  | .slcBlind ax => Sys2Proof.Machine.execSlcBlind ax s
  | .clockMonitorTrip m => Sys2Proof.Machine.execClockMonitorTrip m s
  | .clockRecovery m => Sys2Proof.Machine.execClockRecovery m s
  | .dllLost m => Sys2Proof.Machine.execDllLost m s
  | .dllLock m => Sys2Proof.Machine.execDllLock m s
  | .debugHalt m => Sys2Proof.Machine.execDebugHalt m s
  | .debugResume m => Sys2Proof.Machine.execDebugResume m s
  | .pllLoss => Sys2Proof.Machine.execPllLoss s
  | .mainsEdge off => Sys2Proof.Machine.execMainsEdge off s
  | .mainsTimeout => Sys2Proof.Machine.execMainsTimeout s
  | .tempMeasurement die readings => Sys2Proof.Machine.execTempMeasurement die readings s
  | .vbusOv m reading => Sys2Proof.Machine.execVbusOv m reading s
  | .vbusUv m reading => Sys2Proof.Machine.execVbusUv m reading s
  | .supplyFault e => Sys2Proof.Machine.execSupplyFault e s
  | .monitorConversionDone c value clip => Sys2Proof.Machine.execMonitorConversionDone c value clip s
  | .monUrgent value off => Sys2Proof.Machine.execMonUrgent value off s
  | .canEnable c value off => Sys2Proof.Machine.execCanEnable c value off s
  | .canDisable c value off => Sys2Proof.Machine.execCanDisable c value off s
  | .integrationDone c => Sys2Proof.Machine.execIntegrationDone c s
  | .canFrameReceived c f => Sys2Proof.Machine.execCanFrameReceived c f s
  | .canTxAttempt c tdcv => Sys2Proof.Machine.execCanTxAttempt c tdcv s
  | .canTxSuccess c => Sys2Proof.Machine.execCanTxSuccess c s
  | .canError c e => Sys2Proof.Machine.execCanError c e s
  | .busOff c => Sys2Proof.Machine.execBusOff c s
  | .busOffRecoveryDone c => Sys2Proof.Machine.execBusOffRecoveryDone c s
  | .recover c value off => Sys2Proof.Machine.execRecover c value off s
  | .flush c value off => Sys2Proof.Machine.execFlush c value off s
  | .canDataRead c key data => Sys2Proof.Machine.execCanDataRead c key data s
  | .password value off => Sys2Proof.Machine.execPassword value off s
  | .challenge value off => Sys2Proof.Machine.execChallenge value off s
  | .response value off => Sys2Proof.Machine.execResponse value off s
  | .relock value off => Sys2Proof.Machine.execRelock value off s
  | .setpw value off => Sys2Proof.Machine.execSetpw value off s
  | .lockCommandDone => Sys2Proof.Machine.execLockCommandDone s
  | .nonceExpiry => Sys2Proof.Machine.execNonceExpiry s
  | .lockoutExpiry => Sys2Proof.Machine.execLockoutExpiry s
  | .nvsRead value off => Sys2Proof.Machine.execNvsRead value off s
  | .nvsProgram value off => Sys2Proof.Machine.execNvsProgram value off s
  | .nvsErase value off => Sys2Proof.Machine.execNvsErase value off s
  | .nvsCommandDone verified => Sys2Proof.Machine.execNvsCommandDone verified s
  | .powerOnReset vcl => Sys2Proof.Machine.execPowerOnReset vcl s
  | .deviceReset cause vcl => Sys2Proof.Machine.execDeviceReset cause vcl s
  | .movementReset m => Sys2Proof.Machine.execMovementReset m s
  | .imageLoadDone => Sys2Proof.Machine.execImageLoadDone s
  | .movementSwitchOff m value off => Sys2Proof.Machine.execMovementSwitchOff m value off s
  | .movementSwitchOn m value off => Sys2Proof.Machine.execMovementSwitchOn m value off s
  | .hubDomainSwitch value off => Sys2Proof.Machine.execHubDomainSwitch value off s
  | .lowHalfRead p => Sys2Proof.Machine.execLowHalfRead p s
  | .highHalfRead p => Sys2Proof.Machine.execHighHalfRead p s
  | .badAccess write => Sys2Proof.Machine.execBadAccess write s
  | .unmappedAccess write addr => Sys2Proof.Machine.execUnmappedAccess write addr s
  | .registerWrite addr value off => Sys2Proof.Machine.execRegisterWrite addr value off s
  | .configurationRequest write reg value => Sys2Proof.Machine.execConfigurationRequest write reg value s
  | .hostLinkReturn => Sys2Proof.Machine.execHostLinkReturn s
  | .pllLock => Sys2Proof.Machine.execPllLock s
  | .didtEarly e => Sys2Proof.Machine.execDidtEarly e s
  | .gathererPresentationEnd p => Sys2Proof.Machine.execGathererPresentationEnd p s
  | .monitorRestEnd c => Sys2Proof.Machine.execMonitorRestEnd c s
  | .movementResetRelease m => Sys2Proof.Machine.execMovementResetRelease m s

end Sys2Proof.Machine
end

