-- ==== Sys2Proof/WellFormed.lean ====
section
/-! DEFINITION. WellFormed.lean: what the operands of a command must satisfy to be something that the block's surroundings can
present to it. `exec` answers a next state on ill-formed operands as well. -/

namespace Sys2Proof

/-- A frame of the message bus (R76, R386): an 11-bit identifier without IDE, no bit-rate switch in a classic frame, no remote
frame in CAN FD, as many bytes as its length code gives. -/
def Frame.ok (f : Frame) : Bool :=
  (f.ide || decide (f.id.toNat < 2048)) && (f.fdf || (!f.brs && !f.esi)) && !(f.fdf && f.rtr) &&
    decide (f.data.length = if f.rtr then 0 else dlcBytes f.fdf f.dlc)

/-- The host area has 196 words (R53). -/
def hostAreaOk (r : Option (List Word)) : Bool :=
  match r with
  | none => true
  | some w => decide (w.length = 196)

/-- An event of the ring engine inside a tick. -/
def Early.ok : Early → Bool
  | .doorbell r => hostAreaOk r
  | .fetch _ _ => true
  | .kick => true

/-- An instant lies in a tick of at most 200 µs: 80,000 hub clocks (R17, R36). -/
def offOk (off : Nat) : Bool := decide (off < 80000)

/-- An address of BAR0, word-aligned (R537). -/
def addrOk (addr : BitVec 20) : Bool := decide (addr.toNat % 4 = 0)

/-- How many rings a kind has (R4). -/
def RingKind.count : RingKind → Nat
  | .sq => 128
  | .cq => 64
  | .bq => 4

/-- One value for each leg of an axis (R4). -/
def four {α : Type} (l : List α) : Bool := decide (l.length = 4)

/-- The eight measurements of a period start, each with its four legs, and at most ten X periods (R280). -/
def measOk (l : List Meas) : Bool := decide (l.length = 8) && l.all fun q => four q.bst && four q.gates && decide (q.bstX.length ≤ 10)

/-- An instant of a PWM period has the answers of four legs. -/
def InPeriod.ok (e : InPeriod) : Bool := four e.gates

/-- The eight steps of an OFFTEST, each with its four nodes (R318). -/
def stepsOk (l : List TestStep) : Bool := decide (l.length = 8) && l.all fun s => four s.start && four s.stop

/-- The well-formed commands. -/
def Instr.wellFormed : Instr → Bool
  | .tickBoundary early _ => early.all Early.ok
  | .doorbellReadComplete r => hostAreaOk r
  | .ringEnable k i _ off => decide (i.val < k.count) && offOk off
  | .ringDisable k i _ off => decide (i.val < k.count) && offOk off
  | .hifKick _ off => offOk off
  | .doorbellEnable _ off => offOk off
  | .rebase _ _ off => offOk off
  | .cmdEngage _ _ off => offOk off
  | .cmdDisengage _ _ off => offOk off
  | .stepEdge _ _ _ off => offOk off
  | .unitRefWrite _ _ off => offOk off
  | .tickRateChange _ off => offOk off
  | .pwmBoundary _ _ meas _ _ => measOk meas
  | .shortDidt _ e => four e.v.sl && four e.soft && e.at_.ok
  | .shuntOc e => four e.soft && e.at_.ok
  | .interlockStuck _ e => four e.soft && e.at_.ok
  | .bstUv _ e => e.at_.ok
  | .didtEarly e => four e.v.sl && e.at_.ok
  | .offtestEnd _ steps => stepsOk steps
  | .bemfCrossing _ _ _ x => offOk x.off
  | .calibrationEnd _ factors => decide (factors.length = 8)
  | .feedbackEdge _ _ _ _ h => offOk h.off
  | .indexLatch e => offOk e.off
  | .switchLatch _ _ e => offOk e.off
  | .remontoireRead _ _ _ cells => (cells.map fun l => decide (l.length = 16)).getD true
  | .fltAck _ off => offOk off
  | .fltClear _ off => offOk off
  | .prechargeEnd e => offOk e.off
  | .mainsEdge e => offOk e.off
  | .tempMeasurement die readings => decide (readings.length = if die.val < 8 then 6 else 4)
  | .monUrgent _ off => offOk off
  | .canEnable _ _ off => offOk off
  | .canDisable _ _ off => offOk off
  | .canFrameReceived _ f => f.ok
  | .canDataRead _ _ data => (data.map fun l => decide (l.length ≤ 64)).getD true
  | .recover _ _ off => offOk off
  | .flush _ _ off => offOk off
  | .password _ off => offOk off
  | .challenge _ off => offOk off
  | .response _ off => offOk off
  | .relock _ off => offOk off
  | .setpw _ off => offOk off
  | .nvsRead _ off => offOk off
  | .nvsProgram _ off => offOk off
  | .nvsErase _ off => offOk off
  | .movementSwitchOff _ _ off => offOk off
  | .movementSwitchOn _ _ off => offOk off
  | .hubDomainSwitch _ off => offOk off
  | .unmappedAccess _ addr => addrOk addr
  | .registerWrite addr _ off => addrOk addr && offOk off
  | .descriptorFetch _ _ | .moderatedMessage _ | .hostSilent | .hostLinkLost _ | .functionLevelReset | .badOpcode _ _ _
  | .move _ _ _ | .stop _ _ _ | .resume _ _ _ | .speed _ _ _ | .setprofile _ _ _ | .setpoint _ _ _ | .strikeArm _ _ _
  | .strikeDisarm _ _ _ | .start _ _ _ | .catchRotor _ _ _ | .brake _ _ _ | .float _ _ _ | .arm _ _ _ | .disarm _ _ _
  | .auxPwm _ _ _ | .offtest _ _ _ | .calibrate _ _ _ | .signLoad _ _ _ | .learn _ _ _ | .bind _ _ _ | .unbind _ _ _
  | .canTx _ _ _ | .snapshot _ _ _ | .fence _ _ _ | .fenceRelease _ | .fenceTimeout _ | .nop _ _ _ | .standstill _
  | .moveEnd _ | .settleTimeout _ | .reversalBrakingEnd _ | .cmdLost _ | .movementTickBoundary _ | .tickMark _ _ _
  | .setpointFrame _ | .setpointFrameMiss _ _ | .latchFrameMiss _ _ | .orphanEntry _ _ | .linkTrainingDone _ _
  | .trainFail _ | .park _ | .wakeEnd _ | .vdrvFault _ _ _
  | .alignEnd _ | .retryBrakeEnd _ | .catchWindowEnd _ | .speedProbe _ _ | .floatWindowSample _ _ | .speedTimeout _ | .signStarved _
  | .reopen _ | .faultArrival _ | .reactionSequenceEnd _ | .alertPulseEnd _ | .railBroken _ _ | .railRestored _ _
  | .stoActive _ _ | .stoPinRelease _ _ | .stoDiscrepancy _ | .escFault _ | .selftestEnd _ | .safePinRelease
  | .safeCondition | .ss1Trip _ _ | .slsExceeded _ _ | .slsDiscrepancy _ _ | .slcExceeded _ | .slcBlind _
  | .clockMonitorTrip _ | .clockRecovery _ | .dllLost _ | .dllLock _ | .debugHalt _ | .debugResume _ | .pllLoss
  | .mainsTimeout | .vbusOv _ _ | .vbusUv _ _ | .supplyFault _ | .monitorConversionDone _ _ _ | .integrationDone _
  | .canTxAttempt _ _ | .canTxSuccess _ | .canError _ _ | .busOff _ | .busOffRecoveryDone _ | .lockCommandDone
  | .nonceExpiry | .lockoutExpiry | .nvsCommandDone _ | .powerOnReset _ | .deviceReset _ _ | .movementReset _
  | .imageLoadDone | .lowHalfRead _ | .highHalfRead _ | .badAccess _ | .configurationRequest _ _ _ | .hostLinkReturn
  | .pllLock | .gathererPresentationEnd _ | .monitorRestEnd _ | .movementResetRelease _ => true

end Sys2Proof
end

