-- ==== Sys2Proof/Safety.lean ====
section
/-! DEFINITION. Safety.lean: what counts as a safe run, in the terms that the claims use: canonical data, admission of a
descriptor, what a command leaves alone. -/

namespace Sys2Proof.Machine

/-- Keys of a sparse array rise strictly from a bound on. -/
def risingFrom {α : Type} : Nat → SMap α → Bool
  | _, [] => true
  | lo, (k, _) :: r => decide (lo ≤ k) && risingFrom (k + 1) r

/-- The store keeps its canonical form. -/
def State.storeOk (s : State) : Prop := Mem.wf s.store = true

/-- A command that may write the store: the end of a PROGRAM or ERASE, and the resets, which may cut one short (R527, R528). -/
def writesStore : Instr → Bool
  | .nvsCommandDone _ => true
  | .powerOnReset _ => true
  | .deviceReset _ _ => true
  | .supplyFault e => Dev.railGone e.rail e.mv
  | _ => false

/-- The commands that write an enable bit: register, instance, bit, value, instant (R78, R79, R82, R139, R386). -/
def enableWrite : Instr → Option (Reg × Nat × Nat × Bool × Nat)
  | .doorbellEnable _ off => some (.hifCfg, 0, 0, true, off)
  | .ringEnable .sq i _ off => some (.sqCfg, i, 0, true, off)
  | .ringEnable .cq i _ off => if i.val < 64 then some (.cqCfg, i, 0, true, off) else none
  | .ringEnable .bq i _ off => if i.val < 4 then some (.bqCfg, i, 0, true, off) else none
  | .ringDisable .sq i _ off => some (.sqCfg, i, 0, false, off)
  | .ringDisable .cq i _ off => if i.val < 64 then some (.cqCfg, i, 0, false, off) else none
  | .ringDisable .bq i _ off => if i.val < 4 then some (.bqCfg, i, 0, false, off) else none
  | .cmdEngage c _ off => some (.cmdCfg, c, 13, true, off)
  | .cmdDisengage c _ off => some (.cmdCfg, c, 13, false, off)
  | .canEnable c _ off => some (.canCfg, c, 0, true, off)
  | .canDisable c _ off => some (.canCfg, c, 0, false, off)
  | _ => none

namespace Dev

/-- Descriptor x of opcode o, next in ring i, is dispatched and passes the checks that stand before its own (R29, R60, R62,
R509). -/
def admits (d : Dev) (o : Op) (i : Nat) (x : Desc) : Prop :=
  d.canGive i x = true ∧ d.check60 (d.sq i) o x = none ∧ (refusedDown o x && d.down x.unit) = false ∧
    (needsMotion o x && !d.motionOn) = false

/-- The final record of descriptor x in a slot of ring i (R71). -/
def finalOf (d : Dev) (i : Nat) (slot : BitVec 16) (x : Desc) (st : Status) (unit : Nat) (result : Word) : CRec :=
  { d.recOf (d.ownerOf i slot x) .final st unit result (decide (0 < d.need (d.sq i) x)) with
    hidden := x.silent && st == .ok }

/-- The completion ring that takes the records of x is active. -/
def recorded (d : Dev) (i : Nat) (x : Desc) : Prop := (d.cq (d.recordCq (d.sq i) x)).active = true

/-- Slot `slot` of ring i has returned to the host, and nothing but ring i's own entry has changed among the rings (R50). -/
def slotTaken (d t : Dev) (i : Nat) (slot : BitVec 16) : Prop :=
  (t.sq i).cons = (slot.toNat + 1) % 2 ^ (d.sq i).size ∧ ∀ j, j ≠ i → t.sq j = d.sq j

/-- The ring of x has taken the records rs, behind those that waited there. -/
def recordsAdded (d t : Dev) (i : Nat) (x : Desc) (rs : List CRec) : Prop :=
  (t.cq (d.recordCq (d.sq i) x)).queue = (d.cq (d.recordCq (d.sq i) x)).queue ++ rs

/-- An owner's descriptor came from ring i since its last enable. -/
def fromRing (d : Dev) (i : Nat) (o : Owner) : Prop := o.sq = i ∧ o.epoch = (d.sq i).epoch

/-- The condition of the FENCE x of ring i holds (R67): at once; every earlier descriptor of the ring has ended; the unit does not move; the
tick has come. -/
def fenceMet (d : Dev) (i : Nat) (x : Desc) : Prop :=
  x.fenceMode = 0 ∨
  (x.fenceMode = 1 ∧ (∀ a ∈ d.acts.list, ¬ d.fromRing i a.owner) ∧
    ∀ e ∈ d.cans, (∀ t ∈ e.2.queue, ¬ d.fromRing i t.act) ∧ ∀ r ∈ e.2.ends, ¬ d.fromRing i r.1) ∨
  (x.fenceMode = 2 ∧ d.stateOf x.unit ≠ .moving) ∨
  (x.fenceMode = 3 ∧ 0 ≤ (d.tick32 - x.w3).toInt)

/-- r is the last record that the ring of x has taken, behind those that waited there. -/
def recordAdded (d t : Dev) (i : Nat) (x : Desc) (r : CRec) : Prop :=
  (t.cq (d.recordCq (d.sq i) x)).queue = (d.cq (d.recordCq (d.sq i) x)).queue ++ [r]

/-- The device-driven registers at every offset but the listed ones are as they were, and so are all other registers. -/
def regsBut (d t : Dev) (offs : List Nat) : Prop :=
  t.regs = { d.regs with hw := t.regs.hw } ∧ ∀ a, a ∉ offs → SMap.find t.regs.hw a = SMap.find d.regs.hw a

/-- Source src has been raised at a place by presenter pres (R408, R411 to R413, R419): its sticky flag stands on every axis of its
reaction set, in the axis's movement or in the hub; from class 2 on its reaction is on its way to the hub's phase 2, and from class 3 on the axes that the class acts on
have lost their gate enables. -/
def reacted (d t : Dev) (src : Src) (place pres : Nat) : Prop :=
  let cls := d.classOf src
  let axes := classAxes cls (reactionSet src place)
  (∀ n ∈ reactionSet src place, (t.flagsAt pres n).getLsbD src.row.bit = true) ∧
  (2 ≤ cls → ∃ r : React, r.cls = cls ∧ r.axes = axes ∧ r.code = src.row.code ∧
    if pres < 8 ∧ cls < 5 then ∃ q ∈ (t.mv pres).reqs, q.react = r else r ∈ t.flt.reacts) ∧
  (3 ≤ cls → ∀ n ∈ axes, (t.mva n).drive = .sto ∨ (t.mva n).drive = .orphanSto)

/-- Axis n is in profile mode and its profile runs in phase 5: armed in FIELD, without a stop, a wait, an overshoot or a latched voltage
limit, with its target not yet reached (R116, R127, R180, R183). -/
def runsProfile (d : Dev) (n : Nat) : Prop :=
  let x := d.axis n
  x.armed = true ∧ x.cmd = .field ∧ x.stop = none ∧ x.lat.vlim = false ∧ x.lat.drive ≠ .precharge ∧ (d.mva n).drive ≠ .halt ∧
    d.sensorless n = false ∧ x.mot.mode = .profile ∧ x.mot.rev = false ∧ x.mot.wait = false ∧ x.mot.reached = none ∧
    x.mot.ovs ≠ 1 ∧ x.mot.ovs ≠ 2

/-- Strike e acts on leaf n of its action unit (R160, R162). -/
def strikeTakes (d : Dev) (e : Strike) (n : Nat) : Bool :=
  let x := d.axis n
  match e.action.toNat with
  | 1 => x.st != .faulted && x.st != .safe
  | 2 => x.st != .faulted && x.st != .safe
  | 3 => (setFault { x.set with vmax := e.param.setWidth 24 } {}).isNone
  | 4 => x.st != .faulted && x.st != .safe && x.armed
  | _ => true

/-- Strike e acts on every leaf of its action unit, and a RELEASE on an entry that is held (R161, R162). -/
def strikeActs (d : Dev) (e : Strike) : Bool :=
  (d.leaves e.actUnit.toNat).all (d.strikeTakes e) &&
    (e.action.toNat != 5 || (d.strike (bits e.param 0 10)).st == .held)

/-- A position strike is behind at its base tick (R157). -/
def strikeBehind (d : Dev) (e : Strike) : Prop :=
  e.key = 0 ∧ ((e.mode = 1 ∧ e.value.toInt ≤ (d.axis (d.rep e.unit.toNat)).lat.pos.toInt) ∨
    (e.mode = 2 ∧ (d.axis (d.rep e.unit.toNat)).lat.pos.toInt ≤ e.value.toInt))

/-- Entry i has become x; no other entry and nothing else has changed. -/
def strikeSet (d t : Dev) (i : Nat) (x : Strike) : Prop :=
  t.strike i = x ∧ (∀ j, j ≠ i → t.strike j = d.strike j) ∧ t = { d with strikes := t.strikes }

/-- The static level that HALT gives the legs of axis n (R201, R269, R444): the low sides of U, V and W, or none. -/
def haltModes (d : Dev) (n : Nat) : Four LegMode :=
  if d.kOk (n / 8) = true ∧ d.flag Fl.escStatusSelftestOk 0 = true ∧ d.on Fl.axisSafeHalt n = true
  then { u := .low, v := .low, w := .low, x := .off } else { u := .off, v := .off, w := .off, x := .off }

/-- Axis n has entered HALT with its level, or stays in a drive of higher precedence (R183, R190, R201). -/
def haltEntered (d t : Dev) (n : Nat) : Prop :=
  if (d.mva n).drive ∈ [Drive.sto, .orphanSto, .orphanBrake] then (t.mva n).drive = (d.mva n).drive
  else (t.mva n).drive = .halt ∧ (t.mva n).legs.modes = d.haltModes n

/-- An axis in HALT has returned in drive OFF, unarmed; one in another drive keeps it (R201). -/
def haltLeft (d t : Dev) (n : Nat) : Prop :=
  if (d.mva n).drive = .halt then (t.mva n).drive = .off ∧ ((t.axis n).armed = false ∨ (d.axis n).st = .safe)
  else (t.mva n).drive = (d.mva n).drive

/-- Every axis but the listed ones is as it was, in the hub and in its movement. -/
def axesBut (d t : Dev) (axes : List Nat) : Prop :=
  (∀ n, n ∉ axes → t.axis n = d.axis n) ∧ ∀ n, n ∉ axes → t.mva n = d.mva n

end Dev
end Sys2Proof.Machine
end

