-- ==== Sys2Proof/Certificates/Slice0/Obligations.lean ====
section
/-! DEFINITION. Obligations.lean: the statements for the provers. `y = withOpcode o x` is descriptor x with opcode o. -/

open Sys2Proof Sys2Proof.Machine

/-! ## The queue, the reset state, the store -/

/-- A step takes the command at the front of the queue: it is `exec` of that command on the state with the rest; on an empty queue the
block idles (the model's choice, log entry 43). -/
def Obligations.StepTakesFrontCommand : Prop :=
  (∀ (c : Instr) (rest : List Instr) (s : State),
    step { s with pending := c :: rest } = exec c { s with pending := rest }) ∧
  (∀ s : State, s.pending = [] → step s = .next s)

/-- What reset leaves, by reset values that the spec states: every axis idle, unarmed, drive OFF and not verified (R104, R149, R182); SAFE
pins low, self-test not passed (R467); every strike free (R153); no ring active (R86 to R88); the tick at 10 kHz (R36); the stored sets
cleared (R114) and DMAX unlimited (R145); every scope of the lock closed (R473); all movements and the hub domains DISP, MOTION, SIGN,
BUS, MONITOR and NVS switched on in PWR_CTRL (R529). Every field of the register tables is
at the reset value of its row, accepted and in force, but for the four registers whose tables give one per index. No
command waits, and the store has its canonical form. -/
def Obligations.ResetLeaves : Prop :=
  let d := State.reset.dev
  (∀ n < 64, (d.axis n).st = .idle ∧ (d.axis n).armed = false ∧ (d.mva n).drive = .off ∧ (d.axis n).set = {} ∧
    d.hw Fl.motionStatusPosUnverified n = 1) ∧
  d.hw Fl.escStatusSafeA 0 = 1 ∧ d.hw Fl.escStatusSafeB 0 = 1 ∧ d.hw Fl.escStatusSelftestOk 0 = 0 ∧
  (∀ i < 1024, (d.strike i).st = .free) ∧
  (∀ i < 128, (d.sq i).active = false) ∧ (∀ i < 64, (d.cq i).active = false) ∧ (∀ i < 4, (d.bq i).active = false) ∧
  d.cfg Fl.tickCfgRate 0 = 0 ∧ d.cfg Fl.pwrCtrlMv 0 = 0xFF ∧ d.cfg Fl.pwrCtrlDisp 0 = 1 ∧ d.cfg Fl.pwrCtrlMotion 0 = 1 ∧
  d.cfg Fl.pwrCtrlSign 0 = 1 ∧ d.cfg Fl.pwrCtrlBus 0 = 1 ∧ d.cfg Fl.pwrCtrlMonitor 0 = 1 ∧ d.cfg Fl.pwrCtrlNvs 0 = 1 ∧
  (∀ n < 64, d.cfg Fl.motionDmaxDmax n = 0xFFFFFFFF) ∧
  (∀ (r : Reg) (i : Nat), r ∉ [Reg.fltClass, .signReopen, .msixTable, .devInfo] → ∀ f ∈ r.fields,
    bits (regWord d.regs.acc r i) f.lo f.width = f.reset ∧ bits (regWord d.regs.force r i) f.lo f.width = f.reset) ∧
  d.hw Fl.lockStatusScopes 0 = 0 ∧ State.reset.pending = [] ∧ State.reset.storeOk

/-- Every step keeps the store in its canonical form: rising addresses, no byte listed that reads as an erased one (R522). -/
def Obligations.StoreStaysCanonical : Prop :=
  ∀ s t : State, s.storeOk → step s = .next t → t.storeOk

/-- Every command answers a next state with the queue as it was, and only the end of a store command and the resets touch the store: in
particular no descriptor, register write or event of an axis does (R522, R527). -/
def Obligations.OnlyStoreCommandsWriteStore : Prop :=
  ∀ (c : Instr) (s : State), ∃ t, exec c s = .next t ∧ t.pending = s.pending ∧
    (writesStore c = false → t.store = s.store)

/-! ## Rings and descriptors (chapter 2) -/

/-- R69: an admitted NOP completes with OK in its dispatch tick: its slot returns, its final record with result 0 and this tick waits
in its completion ring (hidden where `silent` suppresses it), and nothing but the rings and the drop counts changes; DW1 to DW7 are
reserved: a NOP with one of them not 0 is refused with RESERVED_SET. -/
def Obligations.NopCompletes : Prop :=
  (∀ (s : State) (i : Fin 128) (slot : BitVec 16) (x y : Desc), y = withOpcode .nop x → s.dev.admits .nop i y →
    ∃ d, exec (.nop i slot x) s = .next { s with dev := d } ∧ s.dev.slotTaken d i slot ∧
      (s.dev.recorded i y → s.dev.recordAdded d i y (s.dev.finalOf i slot y .ok 0 0)) ∧
      d = { s.dev with hif := d.hif, regs := d.regs } ∧
      d.regs = { s.dev.regs with hw := d.regs.hw }) ∧
  (∀ (s : State) (i : Fin 128) (slot : BitVec 16) (x y : Desc) (k : Nat), y = withOpcode .nop x → s.dev.canGive i y = true →
    1 ≤ k → k < 8 → y.word k ≠ 0 →
    ∃ d, exec (.nop i slot x) s = .next { s with dev := d } ∧ s.dev.slotTaken d i slot ∧
      (s.dev.recorded i y → ∃ w, s.dev.recordAdded d i y (s.dev.finalOf i slot y .reservedSet 0 w)) ∧
      d = { s.dev with hif := d.hif, regs := d.regs } ∧ d.regs = { s.dev.regs with hw := d.regs.hw })

/-- Refusals (R60). A descriptor whose opcode is none of the index is refused with BAD_OPCODE and the opcode as result word. A
descriptor that its ring can give and that fails a check of R60 changes no unit, no axis and no strike: it only returns its slot and
writes its refusal, with the status and the result word of the first check that fails, behind the hidden interim record that returns the
second credit of a descriptor with two (R64). Named here for MOVE, ARM, BIND and STRIKE_ARM. -/
def Obligations.RefusalsChangeNothing : Prop :=
  (∀ (s : State) (i : Fin 128) (slot : BitVec 16) (x : Desc), Op.ofCode x.opcode = none → s.dev.canGive i x = true →
    ∃ d, exec (.badOpcode i slot x) s = .next { s with dev := d } ∧ s.dev.slotTaken d i slot ∧
      (s.dev.recorded i x → s.dev.recordAdded d i x (s.dev.finalOf i slot x .badOpcode 0 (BitVec.ofNat 32 x.opcode.toNat))) ∧
      d = { s.dev with hif := d.hif, regs := d.regs } ∧
      d.regs = { s.dev.regs with hw := d.regs.hw }) ∧
  (∀ (s : State) (i : Fin 128) (slot : BitVec 16) (x : Desc) (o : Op) (c : Instr) (st : Status) (w : Nat), (o, c) ∈
      [(Op.move, Instr.move i slot x), (.arm, .arm i slot x), (.bind, .bind i slot x), (.strikeArm, .strikeArm i slot x)] →
    s.dev.canGive i (withOpcode o x) = true →
    s.dev.check60 (s.dev.sq i) o (withOpcode o x) = some (st, w) →
    ∃ d, exec c s = .next { s with dev := d } ∧ s.dev.slotTaken d i slot ∧
      (s.dev.recorded i (withOpcode o x) → ∃ l : List CRec, l.length ≤ 1 ∧ (∀ r ∈ l, r.hidden = true) ∧
        s.dev.recordsAdded d i (withOpcode o x)
          (l ++ [s.dev.finalOf i slot (withOpcode o x) st (withOpcode o x).unit (BitVec.ofNat 32 w)])) ∧
      d = { s.dev with hif := d.hif, regs := d.regs } ∧ d.regs = { s.dev.regs with hw := d.regs.hw } ∧ d.hif.outq = s.dev.hif.outq)

/-- A FENCE that is admitted completes with OK at once where its condition holds, of each of the four modes; the ring of one whose
condition does not hold blocks behind it. The FENCE of a ring is released with OK in the tick in which its condition holds, and waits on
otherwise; it completes with FENCE_TIMEOUT where the condition does not hold when the timeout has passed, stopping the ring in FENCE_HALT
under halt_on_timeout and not without (R67, R68). While it waits, the consumer index stands at its slot (the model's choice, log entry
19). -/
def Obligations.FenceBlocksItsRing : Prop :=
  (∀ (s : State) (i : Fin 128) (slot : BitVec 16) (x y : Desc), y = withOpcode .fence x → s.dev.admits .fence i y →
    (s.dev.fenceMet i y → ∃ d, exec (.fence i slot x) s = .next { s with dev := d } ∧ (d.sq i).fence = none ∧
      (d.sq i).cons = (slot.toNat + 1) % 2 ^ (s.dev.sq i).size ∧ (d.sq i).out = ((s.dev.sq i).out || y.fenceMode == 0) ∧
      (s.dev.recorded i y → s.dev.recordAdded d i y (s.dev.finalOf i slot y .ok (if y.fenceMode = 2 then y.unit else 0) 0)) ∧
      (∀ j, j ≠ i.val → d.sq j = s.dev.sq j) ∧ d = { s.dev with hif := d.hif, regs := d.regs }) ∧
    (¬ s.dev.fenceMet i y →
      ∃ d f, exec (.fence i slot x) s = .next { s with dev := d } ∧ (d.sq i).fence = some f ∧ f.desc = y ∧ f.slot = slot ∧
        f.since = s.dev.time.tick ∧ (d.sq i).cons = slot.toNat ∧ (∀ z, d.canGive i z = false) ∧
        (∀ j, j ≠ i.val → d.sq j = s.dev.sq j) ∧ d = { s.dev with hif := d.hif })) ∧
  (∀ (s : State) (i : Fin 128) (f : Fence), (s.dev.sq i).fence = some f → s.dev.fenceHolds f = true →
    ∃ d, exec (.fenceRelease i) s = .next { s with dev := d } ∧ (d.sq i).fence = none ∧
      (d.sq i).cons = (f.slot.toNat + 1) % 2 ^ (s.dev.sq i).size ∧ (d.sq i).error = (s.dev.sq i).error ∧
      (f.owner.credit = true → (s.dev.cq f.owner.cq).active = true → (d.cq f.owner.cq).queue = (s.dev.cq f.owner.cq).queue ++
        [{ s.dev.recOf f.owner .final .ok (if f.desc.fenceMode = 2 then f.desc.unit else 0) 0 true with hidden := f.owner.silent }]) ∧
      (∀ j, j ≠ i.val → d.sq j = s.dev.sq j) ∧ d = { s.dev with hif := d.hif, regs := d.regs }) ∧
  (∀ (s : State) (i : Fin 128), (∀ f, (s.dev.sq i).fence = some f → s.dev.fenceHolds f = false) →
    exec (.fenceRelease i) s = .next s) ∧
  (∀ (s : State) (i : Fin 128), (∀ f, (s.dev.sq i).fence = some f → s.dev.fenceHolds f = true ∨ s.dev.fenceTimedOut f = false) →
    exec (.fenceTimeout i) s = .next s) ∧
  (∀ (s : State) (i : Fin 128) (f : Fence), (s.dev.sq i).fence = some f → s.dev.fenceHolds f = false →
    s.dev.fenceTimedOut f = true →
    ∃ d, exec (.fenceTimeout i) s = .next { s with dev := d } ∧ (d.sq i).fence = none ∧
      (d.sq i).error = (if bit f.desc.w2 2 then some .fenceHalt else (s.dev.sq i).error) ∧
      (f.owner.credit = true → (s.dev.cq f.owner.cq).active = true → (d.cq f.owner.cq).queue = (s.dev.cq f.owner.cq).queue ++
        [s.dev.recOf f.owner .final .fenceTimeout (if f.desc.fenceMode = 2 then f.desc.unit else 0) 0 true]) ∧
      (∀ j, j ≠ i.val → d.sq j = s.dev.sq j) ∧ d = { s.dev with hif := d.hif, regs := d.regs })

/-- A completed read of the host area gives every active ring without error its index, or stops it where the index is out of range
(R54, R80), but for a submission ring whose enable the read left before: there the index of the page of then is not taken (R78); a
failed one sets DB_READ_FAIL and changes no ring, but that waiting descriptor reads may take the tags that it frees (R43). Both return
the tags of the read. -/
def Obligations.DoorbellReadMovesIndices : Prop :=
  (∀ (s : State) (w : List Word), s.dev.hif.dbRead = true → s.dev.hif.dbAgain = false →
    ∃ d, exec (.doorbellReadComplete (some w)) s = .next { s with dev := d } ∧ d.hif.dbRead = false ∧ d.hif.dbTags = 0 ∧
      d.hif.dbLast = w ∧
      (∀ i < 128, (s.dev.sq i).active = true → (s.dev.sq i).error = none →
        if (s.dev.sq i).oldPage = true then (d.sq i).prod = (s.dev.sq i).prod ∧ (d.sq i).oldPage = false ∧ (d.sq i).error = none
        else if Dev.indexWord w i < 2 ^ (s.dev.sq i).size then (d.sq i).prod = Dev.indexWord w i ∧ (d.sq i).error = none
        else (d.sq i).error = some .producerRange) ∧
      (∀ i < 64, (s.dev.cq i).active = true → (s.dev.cq i).error = none →
        if Dev.consumerOk (s.dev.cq i).size (s.dev.cq i).prod (s.dev.cq i).cons (Dev.indexWord w (128 + i)) = true
        then (d.cq i).cons = Dev.indexWord w (128 + i) ∧ (d.cq i).error = none
        else (d.cq i).error = some .consumerRange ∧ (d.cq i).cons = (s.dev.cq i).cons) ∧
      (∀ i < 4, (s.dev.bq i).active = true → (s.dev.bq i).error = none →
        if Dev.consumerOk (s.dev.bq i).size (s.dev.bq i).prod (s.dev.bq i).cons (Dev.indexWord w (192 + i)) = true
        then (d.bq i).cons = Dev.indexWord w (192 + i) ∧ (d.bq i).error = none
        else (d.bq i).error = some .consumerRange ∧ (d.bq i).cons = (s.dev.bq i).cons)) ∧
  (∀ s : State, s.dev.hif.dbRead = true → s.dev.hif.dbAgain = false →
    ∃ d, exec (.doorbellReadComplete none) s = .next { s with dev := d } ∧ d.hif.dbRead = false ∧ d.hif.dbTags = 0 ∧
      d.hw Fl.hifStatusDbReadFail 0 = 1 ∧ (∀ i, { d.sq i with asked := (s.dev.sq i).asked } = s.dev.sq i) ∧
      d.hif.cqs = s.dev.hif.cqs ∧ d.hif.bqs = s.dev.hif.bqs)

/-- A descriptor read that completes puts the descriptor behind those fetched before and moves on to the next slot; one that fails with
nothing before it in the ring stops the ring with FETCH_ERROR, and one with something before it is kept until the ring comes to its slot
(R33, R80; that those fetched before go first is the model's reading, log entry 24). Beside the ring it changes nothing but that waiting
reads of other rings, of CAN controllers and of the remontoire may take the tag that has come free (R43; their order is the model's
choice, log entry 130). -/
def Obligations.DescriptorFetchQueues : Prop :=
  ∀ (s : State) (i : Fin 128), (s.dev.sq i).asked = true → (s.dev.sq i).stale = 0 →
    (∀ x : Desc, ∃ d, exec (.descriptorFetch i (some x)) s = .next { s with dev := d } ∧
      (d.sq i).fetched = (s.dev.sq i).fetched ++ [((s.dev.sq i).fetchAt, x)] ∧
      (d.sq i).fetchAt = ((s.dev.sq i).fetchAt + 1) % 2 ^ (s.dev.sq i).size ∧
      (∀ j, j ≠ i.val → { d.sq j with asked := (s.dev.sq j).asked } = s.dev.sq j) ∧
      (∀ c, { d.can c with reads := [] } = { s.dev.can c with reads := [] }) ∧
      (∀ n, { d.sign n with asked := [] } = { s.dev.sign n with asked := [] }) ∧
      d = { s.dev with hif := d.hif, cans := d.cans, signs := d.signs, out := d.out }) ∧
    ((s.dev.sq i).fetched ≠ [] ∨ (s.dev.sq i).fence.isSome = true →
      ∃ d, exec (.descriptorFetch i none) s = .next { s with dev := d } ∧
        d.sq i = { s.dev.sq i with asked := false, fetchFail := true } ∧
        (∀ j, j ≠ i.val → { d.sq j with asked := (s.dev.sq j).asked } = s.dev.sq j) ∧
        d = { s.dev with hif := d.hif, cans := d.cans, signs := d.signs, out := d.out }) ∧
    ((s.dev.sq i).fetched = [] → (s.dev.sq i).fence = none →
      ∃ d, exec (.descriptorFetch i none) s = .next { s with dev := d } ∧ (d.sq i).error = some .fetchError ∧
        (∀ j, j ≠ i.val → { d.sq j with asked := (s.dev.sq j).asked } = s.dev.sq j) ∧
        (∀ c, { d.can c with reads := [] } = { s.dev.can c with reads := [] }) ∧
        (∀ n, { d.sign n with asked := [] } = { s.dev.sign n with asked := [] }) ∧
        d = { s.dev with hif := d.hif, cans := d.cans, signs := d.signs, out := d.out, regs := d.regs })

/-! ## Motion (chapter 4) -/

/-- An admitted MOVE that passes R121 on every axis of its target starts each axis's profile: moving, in profile mode, toward its
target from vstart, with the set that the MOVE leaves, under one new action; no other axis changes. -/
def Obligations.MoveStartsProfiles : Prop :=
  ∀ (s : State) (i : Fin 128) (slot : BitVec 16) (x y : Desc), y = withOpcode .move x → s.dev.admits .move i y →
    axisFails (s.dev.leaves y.unit) (Dev.moveCheck y s.dev) = [] →
    ∃ d, exec (.move i slot x) s = .next { s with dev := d } ∧ s.dev.slotTaken d i slot ∧
      (∀ n ∈ s.dev.leaves y.unit, (d.axis n).st = .moving ∧ (d.axis n).mot.mode = .profile ∧
        (d.axis n).mot.target = BitVec.ofInt 40 (s.dev.moveTarget n y) ∧ (d.axis n).set = s.dev.moveSet n y ∧
        (d.axis n).mot.v = (s.dev.moveSet n y).vstart.toNat * 256 ∧ (d.axis n).mot.act = some s.dev.acts.next ∧
        (d.axis n).stop = none ∧ (d.axis n).armed = (s.dev.axis n).armed ∧ (d.axis n).lat = (s.dev.axis n).lat) ∧
      (∀ n, n ∉ s.dev.leaves y.unit → d.axis n = s.dev.axis n) ∧
      d = { s.dev with hif := d.hif, acts := d.acts, hax := d.hax, signs := d.signs, regs := d.regs } ∧
      s.dev.regsBut d (Reg.offset .cqDropped (s.dev.recordCq (s.dev.sq i) y) ::
        (s.dev.leaves y.unit).map (Reg.offset .axisStatus))

/-- An admitted RESUME that passes R132 on every axis of its target starts each axis's profile toward the target that it kept, with the
stored set (R132). -/
def Obligations.ResumeContinuesToKeptTarget : Prop :=
  ∀ (s : State) (i : Fin 128) (slot : BitVec 16) (x y : Desc), y = withOpcode .resume x → s.dev.admits .resume i y →
    axisFails (s.dev.leaves y.unit) s.dev.resumeCheck = [] →
    ∃ d, exec (.resume i slot x) s = .next { s with dev := d } ∧ s.dev.slotTaken d i slot ∧
      (∀ n ∈ s.dev.leaves y.unit, (d.axis n).st = .moving ∧ (d.axis n).mot.mode = .profile ∧
        (d.axis n).mot.target = (s.dev.axis n).mot.target ∧ (d.axis n).set = (s.dev.axis n).set ∧
        (d.axis n).mot.act = some s.dev.acts.next ∧ (d.axis n).lat = (s.dev.axis n).lat) ∧
      (∀ n, n ∉ s.dev.leaves y.unit → d.axis n = s.dev.axis n) ∧
      d = { s.dev with hif := d.hif, acts := d.acts, hax := d.hax, signs := d.signs, regs := d.regs }

/-- An admitted SETPROFILE whose sets are valid writes the masked fields of every axis of its target, leaves the others, and completes
with OK, with result 0 where its target is an axis unit; nothing else of any axis changes; one with a reserved bit of its layout set is
refused with RESERVED_SET and changes no axis (R123). -/
def Obligations.SetprofileWritesMaskedFields : Prop :=
  (∀ (s : State) (i : Fin 128) (slot : BitVec 16) (x y : Desc), y = withOpcode .setprofile x → s.dev.admits .setprofile i y →
    (∀ n ∈ s.dev.leaves y.unit, setFault (Dev.profileSet (s.dev.axis n).set y) (Dev.profileWrites y) = none) →
    ∃ d, exec (.setprofile i slot x) s = .next { s with dev := d } ∧ s.dev.slotTaken d i slot ∧
      (∀ n ∈ s.dev.leaves y.unit, ∃ p, d.axis n = { s.dev.axis n with set := p } ∧
        p.vstart = (if bit y.w2 24 then BitVec.ofNat 20 (bits y.w1 12 20) else (s.dev.axis n).set.vstart) ∧
        p.v1 = (if bit y.w2 25 then BitVec.ofNat 24 (bits y.w2 0 24) else (s.dev.axis n).set.v1) ∧
        p.vstop = (if bit y.w2 26 then BitVec.ofNat 20 (bits y.w3 0 20) else (s.dev.axis n).set.vstop) ∧
        p.a1 = (if bit y.w2 27 then y.w4 else (s.dev.axis n).set.a1) ∧
        p.a2 = (if bit y.w2 28 then y.w5 else (s.dev.axis n).set.a2) ∧
        p.d2 = (if bit y.w2 29 then y.w6 else (s.dev.axis n).set.d2) ∧
        p.d1 = (if bit y.w2 30 then y.w7 else (s.dev.axis n).set.d1) ∧ p.vmax = (s.dev.axis n).set.vmax) ∧
      (∀ n, n ∉ s.dev.leaves y.unit → d.axis n = s.dev.axis n) ∧
      (s.dev.recorded i y → y.unit < 64 → s.dev.recordAdded d i y (s.dev.finalOf i slot y .ok y.unit 0)) ∧
      d = { s.dev with hif := d.hif, hax := d.hax, regs := d.regs } ∧
      s.dev.regsBut d [Reg.offset .cqDropped (s.dev.recordCq (s.dev.sq i) y)]) ∧
  (∀ (s : State) (i : Fin 128) (slot : BitVec 16) (x y : Desc), y = withOpcode .setprofile x → s.dev.canGive i y = true →
    bits y.w0 12 4 ≠ 0 ∨ bits y.w1 9 3 ≠ 0 ∨ bit y.w2 31 = true ∨ bits y.w3 20 12 ≠ 0 →
    ∃ d, exec (.setprofile i slot x) s = .next { s with dev := d } ∧ s.dev.slotTaken d i slot ∧
      (s.dev.recorded i y → ∃ w, s.dev.recordAdded d i y (s.dev.finalOf i slot y .reservedSet y.unit w)) ∧
      d = { s.dev with hif := d.hif, regs := d.regs } ∧ d.regs = { s.dev.regs with hw := d.regs.hw })

/-- An admitted SPEED that passes its checks: in profile, streaming, step or hand mode, and without a mode at run = 0, its magnitude
becomes vmax of the stored set; in velocity mode it becomes the commanded speed; without a mode at run = 1 the axis enters velocity
mode with it (R124). No other axis changes. -/
def Obligations.SpeedActsByMode : Prop :=
  ∀ (s : State) (i : Fin 128) (slot : BitVec 16) (x y : Desc), y = withOpcode .speed x → s.dev.admits .speed i y →
    axisFails (s.dev.leaves y.unit) (Dev.speedCheck y s.dev) = [] →
    ∃ d, exec (.speed i slot x) s = .next { s with dev := d } ∧ s.dev.slotTaken d i slot ∧
      (∀ n ∈ s.dev.leaves y.unit,
        (((s.dev.axis n).mot.mode ≠ .velocity ∧ ((s.dev.axis n).mot.mode ≠ .none ∨ y.opflag 0 = false)) →
          d.axis n = { s.dev.axis n with set := { (s.dev.axis n).set with vmax := BitVec.ofInt 24 y.w2.toInt } }) ∧
        ((s.dev.axis n).mot.mode = .velocity →
          (d.axis n).mot.mode = .velocity ∧ (d.axis n).mot.cmd = y.w2.toInt ∧ (d.axis n).set = (s.dev.axis n).set) ∧
        (((s.dev.axis n).mot.mode = .none ∧ y.opflag 0 = true) →
          (d.axis n).mot.mode = .velocity ∧ (d.axis n).st = .moving ∧ (d.axis n).mot.cmd = y.w2.toInt ∧
            (d.axis n).mot.v = (s.dev.axis n).set.vstart.toNat * 256 ∧ (d.axis n).set = (s.dev.axis n).set)) ∧
      (∀ n, n ∉ s.dev.leaves y.unit → d.axis n = s.dev.axis n) ∧
      d = { s.dev with hif := d.hif, hax := d.hax, signs := d.signs, regs := d.regs }

/-- An admitted SETPOINT that passes its checks puts its segment behind those queued on every axis of its target, which streams from
then on (R134, R135). -/
def Obligations.SetpointQueuesSegment : Prop :=
  ∀ (s : State) (i : Fin 128) (slot : BitVec 16) (x y : Desc), y = withOpcode .setpoint x → s.dev.admits .setpoint i y →
    axisFails (s.dev.leaves y.unit) (Dev.setpointCheck y s.dev) = [] →
    ∃ d, exec (.setpoint i slot x) s = .next { s with dev := d } ∧ s.dev.slotTaken d i slot ∧
      (∀ n ∈ s.dev.leaves y.unit, (d.axis n).mot.mode = .streaming ∧
        (d.axis n).mot.queue = (if (s.dev.axis n).mot.mode = .streaming then (s.dev.axis n).mot.queue else []) ++
          [{ pos := y.pos 2, ticks := bits y.w3 16 16, last := y.opflag 0 }]) ∧
      (∀ n, n ∉ s.dev.leaves y.unit → d.axis n = s.dev.axis n) ∧
      d = { s.dev with hif := d.hif, hax := d.hax, signs := d.signs, regs := d.regs }

/-- An admitted STOP: each moving axis of its target is under a stop that the STOP's action has joined, immediate where it asks for
that; it stays moving and discards its setpoint queue; an axis that does not move is as it was (R128 to R131), and so is one whose
action START_FAIL or ROTOR_LOSS has ended in this tick, where no pin drives an axis of the target (R234). That a stop is joined in place
of begun anew follows log entries 66 and 71. -/
def Obligations.StopBeginsOrJoins : Prop :=
  ∀ (s : State) (i : Fin 128) (slot : BitVec 16) (x y : Desc), y = withOpcode .stop x → s.dev.admits .stop i y →
    ∃ d, exec (.stop i slot x) s = .next { s with dev := d } ∧ s.dev.slotTaken d i slot ∧
      (∀ n ∈ s.dev.leaves y.unit, (s.dev.axis n).st = .moving → (s.dev.axis n).failedAt ≠ some s.dev.time.tick →
        (d.axis n).st = .moving ∧
        ∃ p, (d.axis n).stop = some p ∧ s.dev.acts.next ∈ p.joined ∧ (y.opflag 0 = true → p.immediate = true) ∧
          ((s.dev.axis n).stop = none → (d.axis n).mot.queue = [] ∧ p.cause = .stop ∧ p.disarm = false ∧
            p.keep = ((s.dev.axis n).mot.mode == .profile))) ∧
      (∀ n, (s.dev.axis n).st ≠ .moving → d.axis n = s.dev.axis n) ∧
      ((∀ k ∈ s.dev.leaves y.unit, (s.dev.axis k).mot.pin = none) → ∀ n ∈ s.dev.leaves y.unit,
        (s.dev.axis n).failedAt = some s.dev.time.tick → d.axis n = s.dev.axis n) ∧
      (∀ n, (d.axis n).armed = (s.dev.axis n).armed ∧ (d.axis n).set = (s.dev.axis n).set ∧ (d.axis n).lat = (s.dev.axis n).lat) ∧
      d = { s.dev with hif := d.hif, acts := d.acts, hax := d.hax, cmds := d.cmds, signs := d.signs, regs := d.regs }

/-- Standstill of a stop (R130): the stop and the mode end, the position setpoint becomes the latched position; a moving axis whose
stop keeps its target and whose remainder is outside the window is stopped with remainder, with the target as it was, any other moving
axis is idle, and an axis that a fault had stopped keeps its unit state and counts as still. No other axis changes. The remainder that
later commands see, and what stands of reversal braking, are the model's reading (log entries 66, 75, 80). -/
def Obligations.StandstillEndsStop : Prop :=
  ∀ (s : State) (ax : Fin 64) (p : Stop), s.dev.standstillDue ax = true → (s.dev.axis ax).stop = some p →
    ∃ d, exec (.standstill ax) s = .next { s with dev := d } ∧ (d.axis ax).stop = none ∧ (d.axis ax).mot.mode = .none ∧
      (d.axis ax).mot.v = 0 ∧ (d.axis ax).mot.p = fine (s.dev.axis ax).lat.pos ∧
      (d.axis ax).mot.target = (s.dev.axis ax).mot.target ∧
      ((s.dev.axis ax).st = .moving →
        (d.axis ax).st = if p.keep = true ∧ s.dev.inWindow ax (s.dev.toGo ax) = false then .stopped else .idle) ∧
      ((s.dev.axis ax).st ≠ .moving → (d.axis ax).st = (s.dev.axis ax).st ∧ (d.axis ax).still = true) ∧
      (p.disarm = true → (d.axis ax).armed = false) ∧ (p.disarm = false → (d.axis ax).armed = (s.dev.axis ax).armed) ∧
      (∀ n, n ≠ ax.val → d.axis n = s.dev.axis n) ∧
      d = { s.dev with hif := d.hif, acts := d.acts, hax := d.hax, signs := d.signs, regs := d.regs } ∧
      d.regs = { s.dev.regs with hw := d.regs.hw }

/-- The step of phase 5 in profile mode, its ends and the settling time. A set is valid by R115, and DMAX of 0 or all ones is no limit
(R114). A profile that runs takes the step of R116: the braking point, the lowered vmax, the acceleration that still fits, and the step
to zero at the target, where it ends at once in the window or waits for it; the setpoint of the tick is that position and speed, and
nothing but the axis changes before the end (the rounding is log entry 67's, a zero deceleration log entry 68's). The end of a MOVE or RESUME (R122): the axis is idle, without a mode or an action, armed as
before. The end of reversal braking (R196): with a latch below the threshold the drive returns to FIELD, or a sensorless axis begins
its start; the setpoint starts from the latched position and REV_BRAKING clears. SETTLE ticks outside the window raise FOLLOW_ERROR
(R122). No other axis changes its motion. -/
def Obligations.ProfileEventsEnd : Prop :=
  (∀ (x : ParamSet) (w : Writes), setFault x w = none ↔ x.vmax ≠ 0 ∧ x.vstart.toNat ≤ x.vmax.toNat ∧ x.vstop.toNat ≤ x.vmax.toNat ∧
    x.a1 ≠ 0 ∧ x.a2 ≠ 0 ∧ x.d2 ≠ 0 ∧ x.d1 ≠ 0) ∧
  (∀ (x : ParamSet), prm x 0 = prm x 0xFFFFFFFF ∧ ∀ v r : Int, 0 ≤ v → v < 2 ^ 32 → (prm x 0).need v r ≤ (prm x 0).dmax) ∧
  (∀ (d : Dev) (n : Nat), n < 64 → d.runsProfile n →
    let p := d.params n
    let m := (d.axis n).mot
    let r := m.dir * (fine m.target - m.p)
    let t := Dev.phase5Axis n d
    m.v < r →
      (p.vstop < m.v → r ≤ p.brake m.v + m.v → p.need m.v r ≤ p.dmax →
        (t.axis n).mot.v = max (m.v - max (p.need m.v r) (p.dec m.v)) p.vstop ∧ (t.axis n).mot.down = true) ∧
      (p.vstop < m.v → r ≤ p.brake m.v + m.v → p.dmax < p.need m.v r →
        (t.axis n).mot.v = max (m.v - p.dmax) 0 ∧ (t.axis n).mot.ovs = 1) ∧
      (¬ (p.vstop < m.v ∧ r ≤ p.brake m.v + m.v) → p.vmax < m.v → (t.axis n).mot.v = max (m.v - p.dec m.v) p.vmax) ∧
      (¬ (p.vstop < m.v ∧ r ≤ p.brake m.v + m.v) → m.v ≤ p.vmax →
        (t.axis n).mot.v = if m.down = false ∧ p.brake (min (m.v + p.acc m.v) p.vmax) + min (m.v + p.acc m.v) p.vmax < r
          then min (m.v + p.acc m.v) p.vmax else m.v) ∧
      (t.axis n).mot.raised = (m.raised || p.tooLate m r) ∧
      (t.axis n).mot.p = m.p + m.dir * (t.axis n).mot.v ∧ (t.axis n).mot.mode = .profile ∧ (t.axis n).mot.target = m.target ∧
      (t.axis n).spPos = coarse (t.axis n).mot.p ∧ (t.axis n).spSpeed = coarseV (m.dir * (t.axis n).mot.v) ∧
      (t.axis n).st = (d.axis n).st ∧ (t.axis n).armed = true ∧ (t.axis n).set = (d.axis n).set ∧
      (∀ k, k ≠ n → t.axis k = d.axis k) ∧ t = { d with hax := t.hax }) ∧
  (∀ (d : Dev) (n : Nat), n < 64 → d.runsProfile n →
    let m := (d.axis n).mot
    let t := Dev.phase5Axis n d
    m.dir * (fine m.target - m.p) ≤ m.v →
      (t.axis n).mot.p = fine m.target ∧ (t.axis n).mot.v = 0 ∧ (t.axis n).spPos = m.target ∧ (t.axis n).spSpeed = 0 ∧
      (if d.cfg Fl.motionInposWindow n = 0 ∨ d.inWindow n (d.toGo n) = true
        then (t.axis n).st = .idle ∧ (t.axis n).mot.mode = .none ∧ (t.axis n).mot.act = none
        else (t.axis n).st = (d.axis n).st ∧ (t.axis n).mot.mode = .profile ∧ (t.axis n).mot.reached = some 0 ∧
          (t.axis n).mot.act = m.act) ∧
      (t.axis n).armed = true ∧ (t.axis n).set = (d.axis n).set ∧ ∀ k, k ≠ n → t.axis k = d.axis k) ∧
  (∀ (s : State) (ax : Fin 64), s.dev.moveEndDue ax = true →
    ∃ d, exec (.moveEnd ax) s = .next { s with dev := d } ∧ (d.axis ax).st = .idle ∧ (d.axis ax).mot.mode = .none ∧
      (d.axis ax).mot.act = none ∧ (d.axis ax).armed = (s.dev.axis ax).armed ∧ (d.axis ax).set = (s.dev.axis ax).set ∧
      (∀ n, n ≠ ax.val → d.axis n = s.dev.axis n) ∧
      d = { s.dev with hif := d.hif, acts := d.acts, hax := d.hax, signs := d.signs, regs := d.regs }) ∧
  (∀ (s : State) (ax : Fin 64), (s.dev.axis ax).stop = none → s.dev.revDue ax = true →
    ∃ d, exec (.reversalBrakingEnd ax) s = .next { s with dev := d } ∧ (d.axis ax).mot.rev = false ∧
      (d.axis ax).mot.p = fine (s.dev.axis ax).lat.pos ∧ d.hw Fl.axisStatusRevBraking ax = 0 ∧
      (s.dev.sensorless ax = false → (d.axis ax).cmd = .field ∧ (d.axis ax).seq = (s.dev.axis ax).seq) ∧
      (s.dev.sensorless ax = true → (s.dev.axis ax).mot.mode ≠ .none →
        (d.axis ax).cmd = .openloop ∧ (d.axis ax).mot.wait = true ∧
          (d.axis ax).seq = some ⟨(d.axis ax).mot.dir, false, false, false, false⟩) ∧
      (d.axis ax).mot.mode = (s.dev.axis ax).mot.mode ∧ (d.axis ax).st = (s.dev.axis ax).st ∧
      (∀ n, n ≠ ax.val → d.axis n = s.dev.axis n) ∧
      d = { s.dev with hax := d.hax, regs := d.regs } ∧ s.dev.regsBut d [Reg.offset .axisStatus ax]) ∧
  (∀ (s : State) (ax : Fin 64), s.dev.settleDue ax = true →
    ∃ d, exec (.settleTimeout ax) s = .next { s with dev := d } ∧ s.dev.reacted d .followError ax 9 ∧
      (d.axis ax).st = (s.dev.axis ax).st ∧ (d.axis ax).mot.mode = (s.dev.axis ax).mot.mode ∧ d.settleDue ax = false ∧
      ∀ n, n ≠ ax.val → d.axis n = s.dev.axis n)

/-! ## Drive, sensorless start, currents, gates (chapters 6 to 10) -/

/-- An admitted ARM that passes R185 on every axis of its target arms each: an axis that was unarmed is armed with drive command
PRECHARGE, its setpoint at the latched position; one that was armed is as it was; no other axis changes (R186). -/
def Obligations.ArmArms : Prop :=
  ∀ (s : State) (i : Fin 128) (slot : BitVec 16) (x y : Desc), y = withOpcode .arm x → s.dev.admits .arm i y →
    axisFails (s.dev.leaves y.unit) (Dev.armCheck y s.dev) = [] →
    ∃ d, exec (.arm i slot x) s = .next { s with dev := d } ∧ s.dev.slotTaken d i slot ∧
      (∀ n ∈ s.dev.leaves y.unit, (d.axis n).armed = true ∧
        ((s.dev.axis n).armed = true → d.axis n = s.dev.axis n) ∧
        ((s.dev.axis n).armed = false → (d.axis n).cmd = .precharge ∧ (d.axis n).mot.p = fine (s.dev.axis n).lat.pos ∧
          (d.axis n).mot.v = 0 ∧ (d.axis n).st = (s.dev.axis n).st ∧ (d.axis n).set = (s.dev.axis n).set)) ∧
      (∀ n, n ∉ s.dev.leaves y.unit → d.axis n = s.dev.axis n) ∧
      d = { s.dev with hif := d.hif, hax := d.hax, regs := d.regs } ∧
      s.dev.regsBut d [Reg.offset .cqDropped (s.dev.recordCq (s.dev.sq i) y)]

/-- An admitted DISARM (R187): with ramp = 0 every armed axis of its target that is not safe is unarmed at once with drive command OFF,
and a moving one is left without a mode under an immediate stop that keeps the target of a profile; with ramp = 1 a moving one stays
armed under a stop that disarms it at standstill, and any other is unarmed; the stop keeps the target of an axis in profile mode, and a
stop that ran already keeps what it kept. A safe axis is as it was, and so is an unarmed one and one outside the target, where it does not
move or no pin drives the axes of the target. -/
def Obligations.DisarmUnarms : Prop :=
  ∀ (s : State) (i : Fin 128) (slot : BitVec 16) (x y : Desc), y = withOpcode .disarm x → s.dev.admits .disarm i y →
    ∃ d, exec (.disarm i slot x) s = .next { s with dev := d } ∧ s.dev.slotTaken d i slot ∧
      (∀ n ∈ s.dev.leaves y.unit, (s.dev.axis n).armed = true → (s.dev.axis n).st ≠ .safe →
        (d.axis n).st = (s.dev.axis n).st ∧ (d.axis n).mot.target = (s.dev.axis n).mot.target ∧
        ((y.opflag 0 = false ∨ (s.dev.axis n).st ≠ .moving) → (d.axis n).armed = false ∧ (d.axis n).cmd = .off) ∧
        (y.opflag 0 = false → (s.dev.axis n).st = .moving → (d.axis n).mot.mode = .none ∧ (d.axis n).mot.v = 0 ∧
          ∃ p, (d.axis n).stop = some p ∧ p.immediate = true) ∧
        (y.opflag 0 = true → (s.dev.axis n).st = .moving → (d.axis n).armed = true ∧
          ∃ p, (d.axis n).stop = some p ∧ p.disarm = true) ∧
        ((s.dev.axis n).st = .moving → ∃ p, (d.axis n).stop = some p ∧
          ((s.dev.axis n).stop = none → p.keep = ((s.dev.axis n).mot.mode == .profile) ∧ p.cause = .stop) ∧
          ∀ q, (s.dev.axis n).stop = some q → p.keep = q.keep ∧ p.cause = q.cause)) ∧
      (∀ n ∈ s.dev.leaves y.unit, (s.dev.axis n).st = .safe → d.axis n = s.dev.axis n) ∧
      (∀ n ∈ s.dev.leaves y.unit, (s.dev.axis n).armed = false →
        ((s.dev.axis n).st ≠ .moving ∨ ∀ k ∈ s.dev.leaves y.unit, (s.dev.axis k).mot.pin = none) → d.axis n = s.dev.axis n) ∧
      (∀ n, n ∉ s.dev.leaves y.unit → ((s.dev.axis n).st ≠ .moving ∨ ∀ k ∈ s.dev.leaves y.unit, (s.dev.axis k).mot.pin = none) →
        d.axis n = s.dev.axis n) ∧
      (∀ n, n ∉ s.dev.leaves y.unit → (d.axis n).armed = (s.dev.axis n).armed) ∧
      d = { s.dev with hif := d.hif, hax := d.hax, cmds := d.cmds, signs := d.signs, regs := d.regs }

/-- Admitted FLOAT and BRAKE (R189): every armed axis of the target that is not safe takes the drive command; a moving one is left
without a mode, with speed 0 and under a stop; a BRAKE with opt = 1 leaves an axis that stands in its hold. A safe axis, an unarmed
axis that does not move, and every axis outside the target that does not move, are as they were. -/
def Obligations.FloatAndBrakeTakeDrive : Prop :=
  ∀ (s : State) (i : Fin 128) (slot : BitVec 16) (x y : Desc) (o : Op) (c : Instr) (k : DriveCmd),
    (o, c, k) ∈ [(Op.float, Instr.float i slot x, DriveCmd.float (Desc.opflag y 0)), (.brake, .brake i slot x, .brake)] →
    y = withOpcode o x → s.dev.admits o i y →
    ∃ d, exec c s = .next { s with dev := d } ∧ s.dev.slotTaken d i slot ∧
      (∀ n ∈ s.dev.leaves y.unit, (s.dev.axis n).armed = true → (s.dev.axis n).st ≠ .safe →
        (d.axis n).armed = true ∧ (d.axis n).st = (s.dev.axis n).st ∧
        (((s.dev.axis n).st = .moving ∨ (s.dev.axis n).st = .faulted ∨ o = .float ∨ y.opflag 0 = false) → (d.axis n).cmd = k) ∧
        ((s.dev.axis n).st ≠ .moving → (s.dev.axis n).st ≠ .faulted → o = .brake → y.opflag 0 = true →
          (d.axis n).cmd = s.dev.holdCmd n) ∧
        ((s.dev.axis n).st = .moving → (d.axis n).mot.mode = .none ∧ (d.axis n).mot.v = 0 ∧ (d.axis n).stop.isSome = true)) ∧
      (∀ n, ((s.dev.axis n).st = .safe ∨ ((s.dev.axis n).st ≠ .moving ∧
          ((s.dev.axis n).armed = false ∨ n ∉ s.dev.leaves y.unit))) → d.axis n = s.dev.axis n) ∧
      d = { s.dev with hif := d.hif, hax := d.hax, cmds := d.cmds, signs := d.signs, regs := d.regs }

/-- An admitted START that passes R231: an axis with align_only = 0 enters velocity mode with the START's speed and waits for its start
sequence; one with align_only = 1 asks for an alignment, but ends at once in FIELD where its angle is known and no new alignment is
wanted (R230 to R232). -/
def Obligations.StartBeginsSequence : Prop :=
  ∀ (s : State) (i : Fin 128) (slot : BitVec 16) (x y : Desc), y = withOpcode .start x → s.dev.admits .start i y →
    axisFails (s.dev.leaves y.unit) (Dev.startCheck y s.dev) = [] →
    ∃ d, exec (.start i slot x) s = .next { s with dev := d } ∧ s.dev.slotTaken d i slot ∧
      (∀ n ∈ s.dev.leaves y.unit,
        (y.opflag 0 = false → (d.axis n).st = .moving ∧ (d.axis n).mot.mode = .velocity ∧ (d.axis n).mot.cmd = y.w2.toInt ∧
          (d.axis n).mot.wait = true ∧ (d.axis n).cmd = .openloop ∧ (d.axis n).mot.act = some s.dev.acts.next ∧
          (d.axis n).seq = some ⟨sgn y.w2.toInt, y.opflag 2, false, false, false⟩) ∧
        (y.opflag 0 = true → ((s.dev.axis n).lat.known = false ∨ y.opflag 2 = true) →
          (∀ k ∈ s.dev.leaves y.unit, (s.dev.axis k).mot.pin = none) →
          (d.axis n).st = .moving ∧ (d.axis n).mot.mode = .none ∧ (d.axis n).mot.act = some s.dev.acts.next ∧
          (d.axis n).seq = some ⟨0, y.opflag 2, true, false, false⟩) ∧
        (y.opflag 0 = true → (s.dev.axis n).lat.known = true → y.opflag 2 = false →
          (d.axis n).st = .idle ∧ (d.axis n).cmd = .field)) ∧
      (∀ n, n ∉ s.dev.leaves y.unit →
        ((s.dev.axis n).st ≠ .moving ∨ ∀ k ∈ s.dev.leaves y.unit, (s.dev.axis k).mot.pin = none) → d.axis n = s.dev.axis n) ∧
      d = { s.dev with hif := d.hif, acts := d.acts, hax := d.hax, cmds := d.cmds, signs := d.signs, regs := d.regs }

/-- An admitted CATCH that passes its checks leaves an axis in a FIELD hold as it was; any other axis of its target asks for a catch
and is moving until its outcome (R233). -/
def Obligations.CatchBeginsSequence : Prop :=
  ∀ (s : State) (i : Fin 128) (slot : BitVec 16) (x y : Desc), y = withOpcode .catchRotor x → s.dev.admits .catchRotor i y →
    axisFails (s.dev.leaves y.unit) s.dev.catchCheck = [] →
    ∃ d, exec (.catchRotor i slot x) s = .next { s with dev := d } ∧ s.dev.slotTaken d i slot ∧
      (∀ n ∈ s.dev.leaves y.unit,
        (s.dev.fieldHold n = true → d.axis n = s.dev.axis n) ∧
        (s.dev.fieldHold n = false → (d.axis n).st = .moving ∧ (d.axis n).mot.mode = .none ∧
          (d.axis n).mot.act = some s.dev.acts.next ∧ (d.axis n).seq = some ⟨0, false, false, true, y.opflag 0⟩)) ∧
      (∀ n, n ∉ s.dev.leaves y.unit → d.axis n = s.dev.axis n) ∧
      d = { s.dev with hif := d.hif, acts := d.acts, hax := d.hax, signs := d.signs, regs := d.regs }

/-- Admitted AUX_PWM, OFFTEST and CALIBRATE whose checks pass (R256 to R258, R282, R283, R317): AUX_PWM puts its change behind those
that wait for the next setpoint frame; OFFTEST asks for a test of each axis, and CALIBRATE for a calibration of each movement of its
target, at the coming tick boundary; what they do not ask for stays. -/
def Obligations.TestAndAuxDescriptors : Prop :=
  (∀ (s : State) (i : Fin 128) (slot : BitVec 16) (x y : Desc), y = withOpcode .auxPwm x → s.dev.admits .auxPwm i y →
    axisFails (s.dev.leaves y.unit) (Dev.auxCheck y s.dev) = [] →
    ∃ d, exec (.auxPwm i slot x) s = .next { s with dev := d } ∧ s.dev.slotTaken d i slot ∧
      (∀ n ∈ s.dev.leaves y.unit,
        (y.opflag 1 = false → ((d.axis n).xduty.bind (·.duty)) = some (BitVec.ofNat 16 (bits y.w2 0 16))) ∧
        (y.opflag 0 = true → ((d.axis n).xduty.bind (·.xk)) = some (BitVec.ofNat 4 (bits y.w2 16 4))) ∧
        d.axis n = { s.dev.axis n with xduty := (d.axis n).xduty }) ∧
      (∀ n, n ∉ s.dev.leaves y.unit → d.axis n = s.dev.axis n) ∧
      d = { s.dev with hif := d.hif, hax := d.hax, regs := d.regs }) ∧
  (∀ (s : State) (i : Fin 128) (slot : BitVec 16) (x y : Desc), y = withOpcode .offtest x → s.dev.admits .offtest i y →
    axisFails (s.dev.leaves y.unit) s.dev.offtCheck = [] →
    ∃ d, exec (.offtest i slot x) s = .next { s with dev := d } ∧ s.dev.slotTaken d i slot ∧
      (∀ n ∈ s.dev.leaves y.unit, (d.mva n).offt = some false ∧ (d.mva n).offtSkip = y.opflag 0 ∧
        (d.axis n).test = some s.dev.acts.next) ∧
      s.dev.axesBut d (s.dev.leaves y.unit) ∧
      d = { s.dev with hif := d.hif, acts := d.acts, hax := d.hax, mvax := d.mvax, regs := d.regs }) ∧
  (∀ (s : State) (i : Fin 128) (slot : BitVec 16) (x y : Desc), y = withOpcode .calibrate x → s.dev.admits .calibrate i y →
    axisFails (s.dev.leaves y.unit) s.dev.calCheck = [] →
    ∃ d, exec (.calibrate i slot x) s = .next { s with dev := d } ∧ s.dev.slotTaken d i slot ∧
      (∀ n ∈ s.dev.leaves y.unit, d.hw Fl.isenseCalStatusDone (n / 8) = 0 ∧
        (d.mv (n / 8)).cal = (s.dev.mv (n / 8)).cal.orElse fun _ => some false) ∧
      (∀ m, (∀ n ∈ s.dev.leaves y.unit, n / 8 ≠ m) → d.mv m = s.dev.mv m) ∧
      d = { s.dev with hif := d.hif, acts := d.acts, mvs := d.mvs, regs := d.regs })

/-- The end of a calibration that has run its 2.5 ms: with every factor within the limits, each axis of the movement has the factors
through its readings, CAL_STATUS reads DONE, and none is stored otherwise, where LIMIT and the failed axes stand; the tracked offsets
return to 0 (R255, R258, R259; how the factors come from the sums of the readings is the model's choice, log entry 187). One that has not
run so long, and one that does not run, does not end. -/
def Obligations.CalibrationEndStoresAllOrNone : Prop :=
  (∀ (s : State) (m : Fin 8) (fs : List CalData), fs.length = 8 → (s.dev.mv m).cal = some true →
    (s.dev.mv m).calAt + 1000000 ≤ (s.dev.mv m).start + Dev.hubClocks (s.dev.mv m).rate →
    ∃ d, exec (.calibrationEnd m fs) s = .next { s with dev := d } ∧ d.hw Fl.isenseCalStatusRunning m = 0 ∧
      (d.mv m).cal = none ∧
      ((∀ f ∈ fs, Dev.factorsOk f = true) → d.hw Fl.isenseCalStatusDone m = 1 ∧
        ∀ (j : Fin 8) (f : CalData), fs[j.val]? = some f →
          some (d.cfg Fl.isenseGainGainA (8 * m.val + j.val) : Int) = (Dev.calFit f.a).gain ∧
          some (d.cfg Fl.isenseGainGainB (8 * m.val + j.val) : Int) = (Dev.calFit f.b).gain ∧
          signed 16 (d.cfg Fl.isenseOfsOfs0A (8 * m.val + j.val)) = (Dev.calFit f.a).ofs0 ∧
          signed 16 (d.cfg Fl.isenseOfsOfs0B (8 * m.val + j.val)) = (Dev.calFit f.b).ofs0 ∧
          d.cfg Fl.isenseOfswOfs1A (8 * m.val + j.val) = (BitVec.ofInt 16 (Dev.calFit f.a).ofs1).toNat ∧
            d.cfg Fl.isenseOfswOfs1B (8 * m.val + j.val) = (BitVec.ofInt 16 (Dev.calFit f.b).ofs1).toNat) ∧
      ((∃ f ∈ fs, Dev.factorsOk f = false) → d.regs.force = s.dev.regs.force ∧ d.hw Fl.isenseCalStatusLimit m = 1 ∧
        ∀ (j : Fin 8) (f : CalData), fs[j.val]? = some f →
          ((d.hw Fl.isenseCalStatusFailAxes m).testBit j = true ↔ Dev.factorsOk f = false)) ∧
      (∀ j : Fin 8, d.hw Fl.isenseTrackTrkA (8 * m.val + j.val) = 0 ∧ d.hw Fl.isenseTrackTrkB (8 * m.val + j.val) = 0) ∧
      d = { s.dev with regs := d.regs, mvs := d.mvs } ∧ ∀ k, k ≠ m.val → d.mv k = s.dev.mv k) ∧
  (∀ (s : State) (m : Fin 8) (fs : List CalData), (s.dev.mv m).cal ≠ some true ∨
      (s.dev.mv m).start + Dev.hubClocks (s.dev.mv m).rate < (s.dev.mv m).calAt + 1000000 →
    exec (.calibrationEnd m fs) s = .next s)

/-- The end of an OFFTEST that has run its 2.0 ms (R317 to R320): its verdict, formed from the readings of its steps, stands in
OFFT_STATUS, without the findings on the X leg where the test skips it and with DISTURBED where an edge came; without a finding PASSED
is 1, with one OFFTEST_FAIL is raised; no other axis changes its test. A test that has not run so long does not end. PASSED after a
finding, the raise in the movement, and the order of the readings are the model's reading (log entries 109, 110, 161). -/
def Obligations.OfftestEndGivesVerdict : Prop :=
  (∀ (s : State) (ax : Fin 64) (steps : List TestStep), (s.dev.mva ax).offt = some true →
    (s.dev.mva ax).offtAt + 800000 ≤ (s.dev.mv (ax.val / 8)).start + Dev.hubClocks (s.dev.mv (ax.val / 8)).rate →
    ∃ d, exec (.offtestEnd ax steps) s = .next { s with dev := d } ∧ (d.mva ax).offt = none ∧ d.hw Fl.offtStatusRunning ax = 0 ∧
      d.hw Fl.offtStatusVerdict ax = findings steps (s.dev.mva ax).offtVb (s.dev.on Fl.pwmOvrInvx ax) (s.dev.mva ax).offtSkip
        (s.dev.mva ax).offtDist ∧
      ((s.dev.mva ax).offtSkip = true → (d.hw Fl.offtStatusVerdict ax).testBit 9 = false ∧
        (d.hw Fl.offtStatusVerdict ax).testBit 10 = false) ∧
      (d.hw Fl.offtStatusVerdict ax).testBit 11 = (s.dev.mva ax).offtDist ∧
      (d.hw Fl.offtStatusVerdict ax = 0 → d.hw Fl.offtStatusPassed ax = 1 ∧
        d = { s.dev with regs := d.regs, mvax := d.mvax } ∧ ∀ n, n ≠ ax.val → d.mva n = s.dev.mva n) ∧
      (d.hw Fl.offtStatusVerdict ax ≠ 0 → s.dev.reacted d .offtestFail ax (ax.val / 8)) ∧
      (∀ n, n ≠ ax.val → (d.mva n).offt = (s.dev.mva n).offt)) ∧
  (∀ (s : State) (ax : Fin 64) (steps : List TestStep),
    (s.dev.mv (ax.val / 8)).start + Dev.hubClocks (s.dev.mv (ax.val / 8)).rate < (s.dev.mva ax).offtAt + 800000 →
    exec (.offtestEnd ax steps) s = .next s)

/-- The ends of the start sequence's phases (R214, R218, R226, R228): an alignment that has run leaves the angle known, in RAMP, or in
a FIELD hold after align_only; a retry brake that is over, and a catch window that finds no rotation, lead into ALIGN or RAMP; the last
resynchronisation without one leaves the axis coasting. No other axis changes. A rotation without a row of its own, and the instant of an
outcome, are the model's reading (log entries 96 and 100). -/
def Obligations.StartPhasesEnd : Prop :=
  (∀ (s : State) (ax : Fin 64), s.dev.alignDue ax = true →
    ∃ d, exec (.alignEnd ax) s = .next { s with dev := d } ∧ (d.mva ax).sl.known = true ∧
      (if ((s.dev.mva ax).sl.req.map (·.alignOnly)).getD false = true
        then (d.mva ax).drive = .field ∧ (d.mva ax).sl.ending = some .aligned
        else (d.mva ax).drive = .openloop ∧ (d.mva ax).sl.phase = 4) ∧
      s.dev.axesBut d [ax.val] ∧ d = { s.dev with mvax := d.mvax, regs := d.regs }) ∧
  (∀ (s : State) (ax : Fin 64), s.dev.retryDue ax = true →
    ∃ d, exec (.retryBrakeEnd ax) s = .next { s with dev := d } ∧ (d.mva ax).drive = .openloop ∧ (d.mva ax).sl.phase = 3 ∧
      (d.mva ax).sl.left = max 1 (s.dev.cfg Fl.slAlignAlignTicks ax) ∧
      s.dev.axesBut d [ax.val] ∧ d = { s.dev with mvax := d.mvax, regs := d.regs }) ∧
  (∀ (s : State) (ax : Fin 64), s.dev.windowDue ax = true → (s.dev.mva ax).sl.phase = 8 →
    s.dev.cfg Fl.slLossCatchtries ax ≤ (s.dev.mva ax).sl.catchTry →
    ∃ d, exec (.catchWindowEnd ax) s = .next { s with dev := d } ∧ (d.mva ax).drive = .float ∧ (d.mva ax).sl.phase = 9 ∧
      s.dev.axesBut d [ax.val] ∧ d = { s.dev with mvax := d.mvax, regs := d.regs }) ∧
  (∀ (s : State) (ax : Fin 64) (r : SeqReq), s.dev.windowDue ax = true → (s.dev.mva ax).sl.phase ≠ 8 →
    (s.dev.mva ax).sl.req = some r → (s.dev.mva ax).sl.stopping = false → r.catchOnly = false →
    ∃ d, exec (.catchWindowEnd ax) s = .next { s with dev := d } ∧ (d.mva ax).drive = .openloop ∧
      (d.mva ax).sl.phase = (if (s.dev.mva ax).sl.known && !r.realign then 4 else 3) ∧
      s.dev.axesBut d [ax.val] ∧ d = { s.dev with mvax := d.mvax, regs := d.regs })

/-- Comparator events of a sensorless axis. In RAMP a crossing of the floating phase in the sector's polarity, at least 2.0 µs after
the commutation and within SYNCWIN of the sector's centre, makes a counted sector good that has had none, and synchronises at ZCCOUNT
of them; any other crossing changes nothing of the start (R216, R238). An axis without drive keeps its count and loses its verified
position with each crossing (R143, R212). In CATCH a crossing beyond the hysteresis that follows in the order of its sequence moves the
count to the next sixth of CPE from the catch's start, and the third one finds the rotation, which waits for the next PWM boundary; one
within the hysteresis changes nothing (R227, R228). The sample of an open float window between its thresholds ends the run of beyond
samples, one outside them adds to it and to BEYOND; a second sample of a window, or one without an open window, changes nothing (R224,
R225, R239). The second period of a brake probe ends it with the speed of its crossings, or without one where fewer than two came
(R193). No other axis changes. The instant of an outcome, the probe, and what the commands bring are the model's reading (log entries
100, 146, 150, 171, 172). -/
def Obligations.ComparatorEvents : Prop :=
  (∀ (s : State) (ax : Fin 64) (p : Fin 3) (half : Bool) (swing off t : Nat) (ph : Fin 3), s.dev.sensorless ax = true →
    s.dev.mvOn (ax.val / 8) = true → (s.dev.mva ax).drive = .openloop → (s.dev.mva ax).sl.phase = 4 →
    t = (s.dev.mv (ax.val / 8)).start + off → ph = Fin.ofNat 3 (s.dev.swapped ax p) →
    ∃ d, exec (.bemfCrossing ax p half ⟨swing, off⟩) s = .next { s with dev := d } ∧
      (if (s.dev.mva ax).sl.counts = true ∧ (s.dev.mva ax).sl.secGood = false ∧ Dev.crossPhase (Dev.rampCross (s.dev.mva ax).sl) = ph ∧
          decide (Dev.rampCross (s.dev.mva ax).sl % 2 = 1) = half ∧ (s.dev.mva ax).sl.comm + 800 ≤ t ∧ s.dev.inSyncwin ax t = true
        then (d.mva ax).sl = { (s.dev.mva ax).sl with
          good := (s.dev.mva ax).sl.good + 1, secGood := true, crossAt := t, crossA := Dev.crossAngle ph half,
          next := if s.dev.zccount ax ≤ (s.dev.mva ax).sl.good + 1 then some .sync else (s.dev.mva ax).sl.next }
        else (d.mva ax).sl = (s.dev.mva ax).sl) ∧
      s.dev.axesBut d [ax.val] ∧ d = { s.dev with mvax := d.mvax, regs := d.regs }) ∧
  (∀ (s : State) (ax : Fin 64) (p : Fin 3) (half : Bool) (swing off : Nat), s.dev.sensorless ax = true →
    s.dev.mvOn (ax.val / 8) = true → (s.dev.mva ax).drive = .off → (s.dev.mva ax).sl.phase = 0 →
    ∃ d, exec (.bemfCrossing ax p half ⟨swing, off⟩) s = .next { s with dev := d } ∧ (d.mva ax).sl.known = false ∧
      (d.mva ax).unver = true ∧ d.counter ax = s.dev.counter ax ∧ s.dev.axesBut d [ax.val] ∧
      d = { s.dev with mvax := d.mvax, regs := d.regs }) ∧
  (∀ (s : State) (ax : Fin 64) (p ph q : Fin 3) (half : Bool) (swing off : Nat) (n : Int), s.dev.sensorless ax = true →
    s.dev.mvOn (ax.val / 8) = true → (s.dev.mva ax).drive = .catching → (s.dev.mva ax).sl.phase = 1 →
    10 * s.dev.cfg Fl.slCatchHyst ax ≤ 2 * swing → ph = Fin.ofNat 3 (s.dev.swapped ax p) →
    (s.dev.mva ax).sl.last = some q → Dev.crossDir q ph ≠ 0 →
    ((s.dev.mva ax).sl.order = 0 ∨ (s.dev.mva ax).sl.order = Dev.crossDir q ph) → n = (s.dev.mva ax).sl.crossN →
    ∃ d, exec (.bemfCrossing ax p half ⟨swing, off⟩) s = .next { s with dev := d } ∧ (d.mva ax).sl.known = false ∧
      (d.mva ax).unver = true ∧ (d.mva ax).sl.last = some ph ∧ (d.mva ax).sl.order = Dev.crossDir q ph ∧
      (d.mva ax).sl.count = (s.dev.mva ax).sl.count + 1 ∧
      d.counter ax = BitVec.ofInt 40 (s.dev.posInt ax + (quot ((n + Dev.crossDir q ph) * (s.dev.cpe ax : Int) * 256) 6 -
        quot (n * (s.dev.cpe ax : Int) * 256) 6)) ∧
      (d.mva ax).sl.next = (if (s.dev.mva ax).sl.count = 2 then some .sync else (s.dev.mva ax).sl.next) ∧
      s.dev.axesBut d [ax.val] ∧ d = { s.dev with mvax := d.mvax, regs := d.regs }) ∧
  (∀ (s : State) (ax : Fin 64) (p : Fin 3) (half : Bool) (swing off : Nat),
    (s.dev.mva ax).sl.phase = 1 ∨ (s.dev.mva ax).sl.phase = 8 → 2 * swing < 10 * s.dev.cfg Fl.slCatchHyst ax →
    exec (.bemfCrossing ax p half ⟨swing, off⟩) s = .next s) ∧
  (∀ (s : State) (ax : Fin 64) (v : Int), s.dev.sensorless ax = true → (s.dev.mva ax).legs.wphase.isSome = true →
    (s.dev.mva ax).sl.wtaken = false →
    ∃ d, exec (.floatWindowSample ax v) s = .next { s with dev := d } ∧ (d.mva ax).sl.wtaken = true ∧
      (if s.dev.inBand ax v = true then (d.mva ax).sl.lossRun = 0 ∧ d.hw Fl.slStatusBeyond ax = s.dev.hw Fl.slStatusBeyond ax
        else (d.mva ax).sl.lossRun = (s.dev.mva ax).sl.lossRun + 1 ∧
          d.hw Fl.slStatusBeyond ax = min (2 ^ Fl.slStatusBeyond.width - 1) (s.dev.hw Fl.slStatusBeyond ax + 1)) ∧
      s.dev.axesBut d [ax.val] ∧ d = { s.dev with mvax := d.mvax, regs := d.regs }) ∧
  (∀ (s : State) (ax : Fin 64) (v : Int), (s.dev.mva ax).legs.wphase = none ∨ (s.dev.mva ax).sl.wtaken = true →
    exec (.floatWindowSample ax v) s = .next s) ∧
  (∀ (s : State) (m j : Fin 8) (ax : Fin 64), ax.val = 8 * m.val + j.val → s.dev.sensorless ax = true →
    (s.dev.mva ax).drive = .brake → (s.dev.mva ax).legs.probe = 1 →
    ∃ d, exec (.speedProbe m j) s = .next { s with dev := d } ∧
      (d.mva ax).sl.probe = (if (s.dev.mva ax).sl.count < 2 then none else some (s.dev.crossSpeed ax)) ∧
      (d.mva ax).legs.probe = 0 ∧ s.dev.axesBut d [ax.val] ∧ d = { s.dev with mvax := d.mvax })

/-- Shorts and stuck gates (R305 to R308, R311): the confirmed di/dt events of the senses of an axis flag their legs, a shunt reading
beyond OCTH for OCFILT and a gate that has not fallen for 2 µs set their flags; each turns an axis that is not in a soft turn-off off
softly, discards its commit in flight and raises its source. The end of a blank discards an event that it has remembered and adds to
DIDT_EARLY where neither the leg's condition nor that of the shunt is present; in any other case it changes nothing. -/
def Obligations.ShortsTurnOffSoftly : Prop :=
  (∀ (s : State) (ax : Fin 64) (v : Senses) (t : InPeriod) (since : Nat) (soft : List Nat), s.dev.senseOn ax = true →
    (span 0 4).filter (s.dev.didtConfirmed ax v t since) ≠ [] → s.dev.softOn ax = false →
    ∃ d, exec (.shortDidt ax ⟨v, t, since, soft⟩) s = .next { s with dev := d } ∧
      (∀ l : Fin 4, s.dev.didtConfirmed ax v t since l = true → d.hw Fl.gateStatusShort (4 * ax.val + l.val) = 1) ∧
      d.hw Fl.gateAxstatusSoftOff ax = 1 ∧ (d.mva ax).legs.buf = none ∧ s.dev.reacted d .shortDidt ax (ax.val / 8)) ∧
  (∀ (s : State) (ax : Fin 64) (shunt : Int) (t : InPeriod) (since : Nat) (soft : List Nat), s.dev.senseOn ax = true →
    s.dev.shuntOver ax shunt = true → 25 * s.dev.cfg Fl.gateScOcfilt ax ≤ since →
    ∃ d, exec (.shuntOc ⟨ax, shunt, t, since, soft⟩) s = .next { s with dev := d } ∧ d.hw Fl.gateAxstatusShuntOc ax = 1 ∧
      (s.dev.softOn ax = false → d.hw Fl.gateAxstatusSoftOff ax = 1) ∧ (d.mva ax).legs.buf = none ∧
      s.dev.reacted d .shuntOc ax (ax.val / 8)) ∧
  (∀ (s : State) (ax : Fin 64) (leg : Fin 4) (t : InPeriod) (since : Nat) (soft : List Nat), s.dev.gatesOn ax = true → 2000 ≤ since →
    ∃ d, exec (.interlockStuck ax ⟨leg, t, since, soft⟩) s = .next { s with dev := d } ∧
      d.hw Fl.gateStatusIlStuck (4 * ax.val + leg.val) = 1 ∧ d.hw Fl.gateAxstatusSoftOff ax = 1 ∧ (d.mva ax).legs.buf = none ∧
      s.dev.reacted d .interlockStuck ax (ax.val / 8)) ∧
  (∀ (s : State) (ax : Fin 64) (leg : Fin 4) (v : Senses) (t : InPeriod), s.dev.senseOn ax = true →
    (s.dev.mva ax).legs.didt.getLsbD leg = true → s.dev.blanked ax t leg = false → s.dev.didtOver ax v t leg = false →
    s.dev.shuntOver ax v.shunt = false →
    ∃ d, exec (.didtEarly ⟨ax, leg, v, t⟩) s = .next { s with dev := d } ∧
      d.hw Fl.gateAxstatusDidtEarly ax = min (2 ^ Fl.gateAxstatusDidtEarly.width - 1) (s.dev.hw Fl.gateAxstatusDidtEarly ax + 1) ∧
      d.mva ax = { s.dev.mva ax with legs := { (s.dev.mva ax).legs with
        didt := (d.mva ax).legs.didt } } ∧
      (∀ k : Fin 4, (d.mva ax).legs.didt.getLsbD k = ((s.dev.mva ax).legs.didt.getLsbD k && decide (k ≠ leg))) ∧
      s.dev.axesBut d [ax.val] ∧ d = { s.dev with mvax := d.mvax, regs := d.regs } ∧ s.dev.regsBut d [Reg.offset .gateAxstatus ax]) ∧
  (∀ (s : State) (ax : Fin 64) (leg : Fin 4) (v : Senses) (t : InPeriod), s.dev.senseOn ax = false ∨
      (s.dev.mva ax).legs.didt.getLsbD leg = false ∨ s.dev.blanked ax t leg = true ∨ s.dev.didtOver ax v t leg = true ∨
      s.dev.shuntOver ax v.shunt = true →
    exec (.didtEarly ⟨ax, leg, v, t⟩) s = .next s)

/-- Supply events of the gates (R191, R313, R316): a bootstrap below 5.0 V while its leg's high side is on keeps that high side off until
its low side has charged it and raises BST_UV; below the threshold BSTUV it ends the high-side interval of a winding short, whose low
sides follow at once for the rest of the period and n whole ones (the model's choice of where the n periods begin, log entry 185); at any
other time nothing changes. VDRV out of its window clears VDRV_OK and shows its
reading, and raises its source where an axis of the movement is armed; with every axis unarmed it raises nothing. Where the cut acts, and
that the command brings the reading, are the model's reading (log entries 166 and 173). -/
def Obligations.GateSupplyFaults : Prop :=
  (∀ (s : State) (ax : Fin 64) (leg : Fin 4) (bst ph : Nat) (t : InPeriod), s.dev.gatesOn ax = true → bst < 500 →
    ph = s.dev.swapped ax leg → s.dev.switchAt ax t ph = some true →
    ∃ d, exec (.bstUv ax ⟨leg, bst, t⟩) s = .next { s with dev := d } ∧ d.hw Fl.gateStatusBstUv (4 * ax.val + ph) = 1 ∧
      (d.mva ax).legs.bstOff.getLsbD ph = true ∧ s.dev.reacted d .bstUv ax (ax.val / 8)) ∧
  (∀ (s : State) (ax : Fin 64) (leg : Fin 4) (bst ph : Nat) (t : InPeriod), s.dev.gatesOn ax = true → 500 ≤ bst →
    ph = s.dev.swapped ax leg → ph < 3 → s.dev.switchAt ax t ph = some true → bst < s.dev.bstuv (ax.val / 8) →
    ((s.dev.mva ax).drive = .brake ∨ (s.dev.mva ax).drive = .orphanBrake) → Dev.probing (s.dev.mva ax) = false →
    (s.dev.mva ax).legs.high = true →
    ∃ d, exec (.bstUv ax ⟨leg, bst, t⟩) s = .next { s with dev := d } ∧
      (d.mva ax).legs.modes = { u := .low, v := .low, w := .low, x := (s.dev.mva ax).legs.modes.x } ∧
      (d.mva ax).legs.high = false ∧ (d.mva ax).legs.left = s.dev.altPeriods ax + 1 ∧
      d.mva ax = { s.dev.mva ax with legs := (d.mva ax).legs } ∧ s.dev.axesBut d [ax.val] ∧ d = { s.dev with mvax := d.mvax }) ∧
  (∀ (s : State) (ax : Fin 64) (leg : Fin 4) (bst : Nat) (t : InPeriod),
    (500 ≤ bst ∧ ((s.dev.mva ax).legs.high = false ∨ s.dev.bstuv (ax.val / 8) ≤ bst ∨
      ((s.dev.mva ax).drive ≠ .brake ∧ (s.dev.mva ax).drive ≠ .orphanBrake))) ∨ s.dev.gatesOn ax = false ∨
      s.dev.switchAt ax t (s.dev.swapped ax leg) ≠ some true →
    exec (.bstUv ax ⟨leg, bst, t⟩) s = .next s) ∧
  (∀ (s : State) (m : Fin 8) (ov : Bool) (v : BitVec 8), s.dev.mvOn m = true → (if ov then 160 < v.toNat else v.toNat < 90) →
    ∃ d, exec (.vdrvFault m ov v) s = .next { s with dev := d } ∧ d.hw Fl.gateMvstatusVdrv m = v.toNat ∧
      d.hw Fl.gateMvstatusVdrvOk m = 0 ∧
      (s.dev.mvUnarmed m = true → d = { s.dev with regs := d.regs } ∧ s.dev.regsBut d [Reg.offset .gateMvstatus m]) ∧
      (s.dev.mvUnarmed m = false → s.dev.reacted d (if ov then .vdrvOv else .vdrvUv) m m))

/-- Precharge, park and wake (R186, R513, R514): the end of a precharge turns its low sides off and is known from then on to the boundary
that looks back at it; a movement unarmed for PARKTIME parks; the end of a wake unparks it and begins the precharges that wait, with
their low sides. -/
def Obligations.PrechargeParkWake : Prop :=
  (∀ (s : State) (ax : Fin 64) (off : Nat), (s.dev.mva ax).drive = .precharge →
    ∃ d, exec (.prechargeEnd ⟨ax, off⟩) s = .next { s with dev := d } ∧
      d.mva ax = { s.dev.mva ax with
        pre := false, preAt := (s.dev.mv (ax.val / 8)).start + off, legs := (d.mva ax).legs } ∧
      (d.mva ax).legs.modes = allLegs .off ∧ s.dev.axesBut d [ax.val] ∧ d = { s.dev with mvax := d.mvax }) ∧
  (∀ (s : State) (m : Fin 8), s.dev.parkDue m = true →
    ∃ d, exec (.park m) s = .next { s with dev := d } ∧ d.parked m = true ∧ (∀ k : Fin 8, k ≠ m → d.parked k = s.dev.parked k) ∧
      d = { s.dev with regs := d.regs } ∧ s.dev.regsBut d [Reg.offset .pwrStatus 0]) ∧
  (∀ (s : State) (m : Fin 8), (s.dev.mv m).waking = true →
    ∃ d, exec (.wakeEnd m) s = .next { s with dev := d } ∧ d.parked m = false ∧ (d.mv m).waking = false ∧
      (∀ j : Fin 8, (s.dev.mva (8 * m.val + j.val)).drive = .precharge → (d.mva (8 * m.val + j.val)).pre = true ∧
        (d.mva (8 * m.val + j.val)).wakePre = true ∧ (d.mva (8 * m.val + j.val)).legs.modes =
          allLegs (if s.dev.kOk m = true ∧ s.dev.flag Fl.escStatusSelftestOk 0 = true then .low else .off)) ∧
      (∀ j : Fin 8, (s.dev.mva (8 * m.val + j.val)).drive ≠ .precharge →
        d.mva (8 * m.val + j.val) = s.dev.mva (8 * m.val + j.val)) ∧
      (∀ n, n / 8 ≠ m.val → d.mva n = s.dev.mva n) ∧ d = { s.dev with regs := d.regs, mvax := d.mvax, mvs := d.mvs })

/-- Clock, delay line and debug halts (R201, R287 to R289): a clock monitor trip raises MV_CLOCK and puts each axis of the movement in
HALT, with the level that AXIS_SAFE.HALT gives its legs, unless it is in a drive of higher precedence or MV_CLOCK's class turns it off;
its recovery returns those in HALT to OFF, unarmed, unless a debug halt goes on; the delay line's loss of lock and its return show in
PWM_MVSTATUS and change nothing but where the edges lie, and without a change of the lock nothing; a debug request acts only while
scope 3 is open, on a movement as a clock trip does, and on the hub it stops the hub's ticks; its end returns the axes in HALT unless
the clock is bad (the instants of the model's halts inside a period are log entry 186's, the axis that stays safe log entry 108's, and
the hub's halt log entry 113's). -/
def Obligations.HaltsAndClocks : Prop :=
  (∀ (s : State) (m : Fin 8), s.dev.mvOn m = true → (s.dev.mv m).clkBad = false →
    ∃ d, exec (.clockMonitorTrip m) s = .next { s with dev := d } ∧ (d.mv m).clkBad = true ∧ d.hw Fl.pwmMvstatusClkTrip m = 1 ∧
      s.dev.reacted d .mvClock m m ∧ (s.dev.classOf .mvClock < 3 → ∀ n, n / 8 = m.val → s.dev.haltEntered d n)) ∧
  (∀ (s : State) (m : Fin 8), s.dev.mvOn m = false ∨ (s.dev.mv m).clkBad = true → exec (.clockMonitorTrip m) s = .next s) ∧
  (∀ (s : State) (m : Fin 8), (s.dev.mv m).clkBad = true →
    ∃ d, exec (.clockRecovery m) s = .next { s with dev := d } ∧ (d.mv m).clkBad = false ∧
      ((s.dev.mv m).halted = false → ∀ n, n / 8 = m.val → s.dev.haltLeft d n) ∧
      ((s.dev.mv m).halted = true → ∀ n, d.mva n = s.dev.mva n ∧ d.axis n = s.dev.axis n)) ∧
  (∀ (s : State) (m : Fin 8), s.dev.mvOn m = true → s.dev.flag Fl.pwmMvstatusDllLock m = true →
    ∃ d, exec (.dllLost m) s = .next { s with dev := d } ∧ d.hw Fl.pwmMvstatusDllLock m = 0 ∧ d.hw Fl.pwmMvstatusDllLost m = 1 ∧
      (∀ n, d.mva n = { s.dev.mva n with legs := { (s.dev.mva n).legs with span := { (s.dev.mva n).legs.span with
        loose := (d.mva n).legs.span.loose } } }) ∧ (∀ n, n / 8 ≠ m.val → d.mva n = s.dev.mva n) ∧
      d = { s.dev with regs := d.regs, mvax := d.mvax } ∧ s.dev.regsBut d [Reg.offset .pwmMvstatus m]) ∧
  (∀ (s : State) (m : Fin 8), s.dev.mvOn m = true → s.dev.flag Fl.pwmMvstatusDllLock m = false →
    ∃ d, exec (.dllLock m) s = .next { s with dev := d } ∧ d.hw Fl.pwmMvstatusDllLock m = 1 ∧
      (∀ n, d.mva n = { s.dev.mva n with legs := { (s.dev.mva n).legs with span := { (s.dev.mva n).legs.span with
        loose := (d.mva n).legs.span.loose } } }) ∧ (∀ n, n / 8 ≠ m.val → d.mva n = s.dev.mva n) ∧
      d = { s.dev with regs := d.regs, mvax := d.mvax } ∧ s.dev.regsBut d [Reg.offset .pwmMvstatus m]) ∧
  (∀ (s : State) (m : Fin 8), s.dev.mvOn m = false →
    exec (.dllLost m) s = .next s ∧ exec (.dllLock m) s = .next s) ∧
  (∀ (s : State) (m : Fin 8), s.dev.scopeOpen 3 = true → s.dev.mvOn m = true → (s.dev.mv m).halted = false →
    ∃ d, exec (.debugHalt (m.castLE (by decide))) s = .next { s with dev := d } ∧ (d.mv m).halted = true ∧
      d.hw Fl.pwmMvstatusDbgHalt m = 1 ∧ ∀ n, n / 8 = m.val → s.dev.haltEntered d n) ∧
  (∀ (s : State), s.dev.scopeOpen 3 = true →
    ∃ d, exec (.debugHalt 8) s = .next { s with dev := d } ∧ d.sys.hubHalt = true ∧ d = { s.dev with sys := d.sys, lock := d.lock } ∧
      d.sys = { s.dev.sys with hubHalt := true }) ∧
  (∀ (s : State) (m : Fin 9), s.dev.scopeOpen 3 = false → exec (.debugHalt m) s = .next s) ∧
  (∀ (s : State) (m : Fin 8), (s.dev.mv m).halted = true →
    ∃ d, exec (.debugResume (m.castLE (by decide))) s = .next { s with dev := d } ∧ (d.mv m).halted = false ∧
      d.hw Fl.pwmMvstatusDbgHalt m = 0 ∧ ((s.dev.mv m).clkBad = false → ∀ n, n / 8 = m.val → s.dev.haltLeft d n) ∧
      ((s.dev.mv m).clkBad = true → d.mvax = s.dev.mvax ∧ d.hax = s.dev.hax)) ∧
  (∀ (s : State), exec (.debugResume 8) s = .next { s with dev :=
    { s.dev with sys := { s.dev.sys with hubHalt := false } } })

/-- A period start of a movement that runs (R268 to R271, R313, R487) counts the period, shows the fast readings of the bus and of the
gate supply, and changes no axis of another movement and no other movement; with its periods all run, a further one changes nothing. At
the centre, under MIDUPD with centre-aligned periods, an update that has arrived early enough (R272) comes into force, and only axes of
the movement with one that waits change; otherwise the centre changes nothing (R275). The command always has an outcome, and never
changes an axis in the hub. -/
def Obligations.PwmBoundaryCountsPeriods : Prop :=
  (∀ (s : State) (m : Fin 8) (mid : Bool) (meas : List Meas) (vbs : BitVec 12) (vdrv : BitVec 8),
    ∃ d, exec (.pwmBoundary m mid meas vbs vdrv) s = .next { s with dev := d } ∧ d.hax = s.dev.hax) ∧
  (∀ (s : State) (m : Fin 8) (meas : List Meas) (vbs : BitVec 12) (vdrv : BitVec 8), s.dev.mvRuns m = true →
    (s.dev.mv m).period < s.dev.kOf m →
    ∃ d, exec (.pwmBoundary m false meas vbs vdrv) s = .next { s with dev := d } ∧ (d.mv m).period = (s.dev.mv m).period + 1 ∧
      d.hw Fl.gateMvstatusVdrv m = vdrv.toNat ∧ d.hw Fl.vbusStatusVbs m = d.vbsOf m vbs ∧
      (∀ n, n / 8 ≠ m.val → d.mva n = s.dev.mva n) ∧ (∀ k, k ≠ m.val → d.mv k = s.dev.mv k)) ∧
  (∀ (s : State) (m : Fin 8) (meas : List Meas) (vbs : BitVec 12) (vdrv : BitVec 8), s.dev.flt.raised = [] →
    s.dev.mvRuns m = true → s.dev.kOf m ≤ (s.dev.mv m).period →
    exec (.pwmBoundary m false meas vbs vdrv) s = .next s) ∧
  (∀ (s : State) (m : Fin 8) (meas : List Meas) (vbs : BitVec 12) (vdrv : BitVec 8), s.dev.mvRuns m = true →
    (s.dev.mv m).period ≠ 0 → s.dev.on Fl.pwmMvcfgMidupd m = true → s.dev.edgeAligned m = false →
    ∃ d, exec (.pwmBoundary m true meas vbs vdrv) s = .next { s with dev := d } ∧
      (∀ n, n / 8 ≠ m.val → d.mva n = s.dev.mva n) ∧ d = { s.dev with mvax := d.mvax, regs := d.regs } ∧
      (∀ j : Fin 8, (s.dev.mva (8 * m.val + j.val)).legs.buf = none → d.mva (8 * m.val + j.val) = s.dev.mva (8 * m.val + j.val)) ∧
      ∀ (j : Fin 8) (b : Duty), (s.dev.mva (8 * m.val + j.val)).legs.buf = some b →
        305 + 200 * j.val ≤ periodLen (Dev.mvClocks (s.dev.mv m).rate) (s.dev.kOf m) ((s.dev.mv m).period - 1) / 2 →
        (d.mva (8 * m.val + j.val)).legs.force = b ∧ (d.mva (8 * m.val + j.val)).legs.buf = none) ∧
  (∀ (s : State) (m : Fin 8) (meas : List Meas) (vbs : BitVec 12) (vdrv : BitVec 8), s.dev.mvRuns m = false ∨
    (s.dev.mv m).period = 0 ∨ s.dev.on Fl.pwmMvcfgMidupd m = false ∨ s.dev.edgeAligned m = true →
    exec (.pwmBoundary m true meas vbs vdrv) s = .next s)

/-! ## The host side (chapters 2 and 18) -/

/-- A write of an enable bit (HIF_CFG.DB_EN, ENABLE of a ring or of a CAN controller, CMD_CFG.ENGAGE) is accepted at once and waits for
its boundary: until then the bit in force is as it was, and nothing but registers has changed (R10, R11, R78, R79, R82, R139, R386). The
instant from which a write counts, and the order of several that wait, are the model's reading (log entries 41 and 52). -/
def Obligations.EnableWritesWait : Prop :=
  ∀ (s : State) (c : Instr) (r : Reg) (i k off : Nat) (b : Bool), enableWrite c = some (r, i, k, b, off) →
    s.dev.barOpen = true → s.dev.serves r (r.offset i) = true →
    ∃ d, exec c s = .next { s with dev := d } ∧ bit (regWord d.regs.acc r i) k = b ∧
      bit (regWord d.regs.force r i) k = bit (regWord s.dev.regs.force r i) k ∧
      (∃ w ∈ d.regs.pend, w.off = r.offset i ∧ w.late = s.dev.late off ∧ bit w.mask k = true ∧ bit w.val k = b) ∧
      d = { s.dev with regs := d.regs, flt := d.flt }

/-- The tick boundary (R17, R22, R26): a running tick generator begins the next tick one tick length after the last one, or tick 0 with
its first boundary; at most 512 descriptors are dispatched in it; its detections have been dealt with. While the tick generator does
not run, the command changes nothing. The order of the tick's steps, and what arrives in its first 12 µs, are the model's reading (log
entries 3, 6, 9, 10). -/
def Obligations.TickBoundaryAdvances : Prop :=
  (∀ (s : State) (early : List Early) (room : Nat), s.dev.tickRuns = true →
    ∃ d, exec (.tickBoundary early room) s = .next { s with dev := d } ∧ d.sys.first = false ∧ d.hif.total ≤ 512 ∧ d.detects = [] ∧
      (s.dev.sys.first = false → d.time.tick = s.dev.time.tick + 1 ∧ d.time.start = s.dev.time.start + s.dev.tickLen) ∧
      (s.dev.sys.first = true → d.time.tick = s.dev.time.tick ∧ d.time.start = s.dev.time.start)) ∧
  (∀ (s : State) (early : List Early) (room : Nat), s.dev.tickRuns = false → exec (.tickBoundary early room) s = .next s)

/-- Host activity and messages: a write of HIF_KICK is activity and asks for a read of the host area, which goes out as the requests of
R43 where their tags are free, or waits for the one outstanding or for tags (R54, R57); enough silent ticks raise HOST_SILENT where no write
of 0 to DB_EN waits (R57);
the link returns (R507); a moderated message that is due goes out, or stays pending where its vector is masked (R74, R550). What the
host link shows, the reads that wait for a tag, and the vectors' masks at reset are the model's choices (log entries 5, 12, 129, 130). -/
def Obligations.HostActivityAndMessages : Prop :=
  (∀ (s : State) (v : Word) (off : Nat), s.dev.barOpen = true →
    ∃ d, exec (.hifKick v off) s = .next { s with dev := d } ∧ d.hif.activity = true ∧
      (s.dev.hif.dbActive = true → (s.dev.hif.dbRead = true ∨ s.dev.tagsFree s.dev.pageReads.length = false) →
        d.hif.dbAgain = true ∧ d.hif.dbRead = s.dev.hif.dbRead ∧ d.out = s.dev.out) ∧
      (s.dev.hif.dbActive = true → s.dev.hif.dbRead = false → s.dev.tagsFree s.dev.pageReads.length = true →
        d.hif.dbRead = true ∧ d.hif.dbTags = s.dev.pageReads.length ∧ d.out = s.dev.out ++ s.dev.pageReads) ∧
      (s.dev.hif.dbActive = false → d.hif = { s.dev.hif with activity := true } ∧ d.out = s.dev.out) ∧
      d = { s.dev with hif := d.hif, out := d.out, flt := d.flt }) ∧
  (∀ s : State, s.dev.cfg Fl.hifWdogTicks 0 ≠ 0 → s.dev.hif.dbActive = true → s.dev.accepted Fl.hifCfgDbEn 0 = 1 →
    s.dev.hif.silentRaised = false → s.dev.cfg Fl.hifWdogTicks 0 ≤ s.dev.hif.silent →
    ∃ d, exec .hostSilent s = .next { s with dev := d } ∧ d.hif = { s.dev.hif with silentRaised := true } ∧
      d.hw Fl.hifStatusHostSilent 0 = 1 ∧ s.dev.reacted d .hostSilent 0 11) ∧
  (∀ s : State, s.dev.cfg Fl.hifWdogTicks 0 = 0 ∨ s.dev.hif.dbActive = false ∨ s.dev.accepted Fl.hifCfgDbEn 0 ≠ 1 ∨
    s.dev.hif.silentRaised = true ∨ s.dev.hif.silent < s.dev.cfg Fl.hifWdogTicks 0 → exec .hostSilent s = .next s) ∧
  (∀ s : State, ∃ d, exec .hostLinkReturn s = .next { s with dev := d } ∧
    d = { s.dev with hif := { s.dev.hif with linkUp := true, d3hot := false } }) ∧
  (∀ (s : State) (v : Fin 68), s.dev.hif.linkUp = true → s.dev.hif.d3hot = false → s.dev.hif.outq = [] → v.val < 64 →
    s.dev.on Fl.cqCfgIrqEn v = true →
    ((s.dev.cq v).msgForce = true ∨ ((s.dev.cq v).msgDue = true ∧
      s.dev.modOk (s.dev.cq v).lastMsg (s.dev.cfg Fl.cqCfgModTicks v) = true)) →
    ∃ d, exec (.moderatedMessage v) s = .next { s with dev := d } ∧ (d.cq v).msgDue = false ∧ (d.cq v).msgForce = false ∧
      (d.cq v).lastMsg = some s.dev.time.tick ∧ d.hif.outq = [] ∧
      (if s.dev.masked v = true then d.hif.msixPend.getLsbD v = true ∧ d.out = s.dev.out else d.out = s.dev.out ++ [.msix v]) ∧
      d = { s.dev with hif := d.hif, out := d.out })

/-- The loss of the link, an entry into D3hot and a Function Level Reset (R46, R464, R517): every ring is inactive, the doorbell page
is out of use, records and messages not yet sent are gone, every scope of the lock is closed, HOST_LINK_LOST is raised; a Function
Level Reset also clears the pending messages and returns configuration space to its reset values. What configuration space holds at
reset, and that vector 69 is dropped as vector 68 is, are the model's reading (log entries 16 and 17). -/
def Obligations.LinkLossStopsRings : Prop :=
  ∀ (s : State) (c : Instr),
    (c = .hostLinkLost .down ∧ s.dev.hif.linkUp = true) ∨ (c = .hostLinkLost .d3hot ∧ s.dev.hif.d3hot = false) ∨
      c = .functionLevelReset →
    ∃ d, exec c s = .next { s with dev := d } ∧ (∀ i, (d.sq i).active = false ∧ (d.sq i).epoch = (s.dev.sq i).epoch) ∧
      d.hif.cqs = [] ∧ d.hif.bqs = [] ∧ d.hif.outq = [] ∧ d.hif.early = [] ∧ d.hif.dbActive = false ∧
      d.hw Fl.lockStatusScopes 0 = 0 ∧ d.hw Fl.hifStatusLinkLost 0 = 1 ∧ s.dev.reacted d .hostLinkLost 0 11 ∧
      (c = .functionLevelReset → d.hif.msixPend = 0 ∧ d.hif.extTags = false ∧ d.hif.msixOn = false ∧
        d.hif.msixMask = false ∧ d.sys.pci = [] ∧ d.sys.aer = [] ∧ d.sys.devCtl = 0x2810)

/-! ## Units, strikes, signatures, command pins (chapters 3, 5, 11, 4) -/

/-- An admitted BIND that passes R95: its unit and the axes it lists become members of the parent, whose leaves gain theirs; a parent
that was unbound is bound and takes the unit as reference. No other unit changes its parent (R91, R94, R95). An admitted UNBIND of a
unit whose parent keeps another member takes it out of that parent, whose leaves lose its own; one that dissolves a group without a
parent leaves the entry unbound, its members without a parent, and the strikes on it free (R96, R97). A write of UNIT_REF is accepted
and waits; one of an axis unit changes nothing (R109, R580). -/
def Obligations.UnitsBindAndUnbind : Prop :=
  (∀ (s : State) (i : Fin 128) (slot : BitVec 16) (x y : Desc) (p : Nat) (us : List Nat), y = withOpcode .bind x →
    p = Dev.bindParent y → us = y.unit :: Dev.bindAxes y →
    s.dev.admits .bind i y → s.dev.bindCheck (s.dev.sq i) y = none →
    ∃ d, exec (.bind i slot x) s = .next { s with dev := d } ∧ s.dev.slotTaken d i slot ∧ (d.unit p).bound = true ∧
      (∀ u ∈ us, (d.unit u).parent = some p ∧ u ∈ (d.unit p).members) ∧
      (d.unit p).leaf = us.foldl (fun l u => l ||| (s.dev.unit u).leaf) (if (s.dev.unit p).bound then (s.dev.unit p).leaf else 0) ∧
      ((s.dev.unit p).bound = false ∨ bit y.w2 9 = true → d.cfg Fl.unitRefRef p = y.unit) ∧
      (∀ u, u ∉ p :: us → (d.unit u).parent = (s.dev.unit u).parent ∧ (d.unit u).members = (s.dev.unit u).members) ∧
      d = { s.dev with hif := d.hif, units := d.units, regs := d.regs }) ∧
  (∀ (s : State) (i : Fin 128) (slot : BitVec 16) (x y : Desc) (p v : Nat), y = withOpcode .unbind x →
    s.dev.admits .unbind i y → bit y.w1 9 = false → (s.dev.unit y.unit).parent = some p → v ∈ (s.dev.unit p).members →
    v ≠ y.unit →
    ∃ d, exec (.unbind i slot x) s = .next { s with dev := d } ∧ s.dev.slotTaken d i slot ∧ (d.unit y.unit).parent = none ∧
      y.unit ∉ (d.unit p).members ∧ v ∈ (d.unit p).members ∧
      (d.unit p).leaf = (s.dev.unit p).leaf &&& ~~~ (s.dev.unit y.unit).leaf ∧
      d = { s.dev with hif := d.hif, units := d.units, regs := d.regs }) ∧
  (∀ (s : State) (i : Fin 128) (slot : BitVec 16) (x y : Desc), y = withOpcode .unbind x →
    s.dev.admits .unbind i y → bit y.w1 9 = true → 64 ≤ y.unit → (s.dev.unit y.unit).parent = none →
    ∃ d, exec (.unbind i slot x) s = .next { s with dev := d } ∧ s.dev.slotTaken d i slot ∧ (d.unit y.unit).bound = false ∧
      (∀ u ∈ (s.dev.unit y.unit).members, (d.unit u).parent = none) ∧
      (∀ j, (s.dev.strike j).unit.toNat = y.unit ∨ (s.dev.strike j).actUnit.toNat = y.unit → (d.strike j).st = .free) ∧
      d = { s.dev with hif := d.hif, units := d.units, strikes := d.strikes, regs := d.regs }) ∧
  (∀ (s : State) (u : Fin 512) (v : Word) (off : Nat), 64 ≤ u.val → s.dev.barOpen = true → s.dev.hubOn 0 = true →
    ∃ d, exec (.unitRefWrite u v off) s = .next { s with dev := d } ∧ d.accepted Fl.unitRefRef u = bits v 0 9 ∧
      d.accepted Fl.unitRefMode u = bits v 9 1 ∧ d.regs.force = s.dev.regs.force ∧
      d.regs.pend = s.dev.regs.pend ++ [⟨Reg.offset .unitRef u, 0x200, v, s.dev.late off, false⟩,
        ⟨Reg.offset .unitRef u, 0x1FF, v, s.dev.late off, false⟩] ∧
      d = { s.dev with regs := d.regs, flt := d.flt }) ∧
  (∀ (s : State) (u : Fin 512) (v : Word) (off : Nat), u.val < 64 → exec (.unitRefWrite u v off) s = .next s)

/-- Strikes and snapshots. An admitted STRIKE_ARM of an entry that is not live, or that it may replace, loads the entry with its key,
mode, action, hysteresis and flags, held where the descriptor asks for that and armed at this tick otherwise, where a relative key is
based; a strike that is behind is armed all the same, fires at its first evaluation where the descriptor asks for that, and completes
with ARMED_BEHIND (R154, R156, R157, R163, R164). STRIKE_DISARM frees the entry it names, or every live entry of its unit (R166); no other
entry changes. In phase 3 an entry that is neither armed nor recoiling, or whose base tick it is, is skipped; a position strike is
skipped on a stale key axis, and the coming crossing counts as a jump; else it fires where its position crosses the key in its direction
or fire_if_passed asks for it, and a recoiling one is armed again beyond the hysteresis; switch, mains and tick strikes fire with a new
latch and with their count (R155, R156, R158). A strike that fires acts on the leaves that its action takes, counts, takes the state of
R159, shows a leaf on which it does not act, and writes its event record unless it is quiet (R159, R160, R162, R165; the jump of a stale
base tick is log entry 197's, the sign of VMAX at speed 0 log entry 198's). An admitted SNAPSHOT puts its sixteen words behind the writes
that go before this tick's records (R70). -/
def Obligations.StrikesAndSnapshot : Prop :=
  (∀ (s : State) (i : Fin 128) (slot : BitVec 16) (x y : Desc) (k au : Nat), y = withOpcode .strikeArm x →
    k = Dev.strikeIndex y → au = bits y.w4 4 9 → s.dev.admits .strikeArm i y → Dev.strikeField y = none →
    (s.dev.unit au).bound = true → s.dev.inRing (s.dev.sq i) au = true →
    ((s.dev.strike k).live = false ∨ (y.opflag 0 = true ∧ s.dev.inRing (s.dev.sq i) (s.dev.strike k).unit.toNat = true)) →
    ∃ d, exec (.strikeArm i slot x) s = .next { s with dev := d } ∧ s.dev.slotTaken d i slot ∧
      (d.strike k).st = (if y.opflag 2 then .held else .armed) ∧ (d.strike k).unit.toNat = y.unit ∧
      (d.strike k).key.toNat = bits y.w1 19 2 ∧ (d.strike k).mode.toNat = bits y.w1 21 2 ∧
      (d.strike k).action.toNat = bits y.w4 0 3 ∧ (d.strike k).actUnit.toNat = au ∧ (d.strike k).param = y.w5 ∧
      (d.strike k).rep = bit y.w1 23 ∧ (d.strike k).fip = y.opflag 1 ∧ (d.strike k).quiet = y.opflag 3 ∧
      (d.strike k).hyst.toNat = bits y.w3 16 16 ∧
      (d.strike k).owner = some { s.dev.ownerOf i slot y with credit := false, silent := false } ∧
      (bits y.w1 19 2 = 0 → (d.strike k).value = y.pos 2) ∧ (bits y.w1 19 2 = 1 → (d.strike k).value = 0) ∧
      (2 ≤ bits y.w1 19 2 → (d.strike k).value = (y.w2 + (if y.opflag 2 = true ∨ bits y.w1 21 2 % 2 = 0 then 0
        else if bits y.w1 19 2 = 2 then s.dev.time.mainsLatch else s.dev.tick32)).setWidth 40) ∧
      (y.opflag 2 = false → (d.strike k).since = s.dev.time.tick ∧ (d.strike k).jump = false ∧
        (d.strike k).prevAx = s.dev.rep y.unit ∧ (d.strike k).prev = (s.dev.axis (s.dev.rep y.unit)).lat.pos ∧
        ((d.strike k).passed = true ↔ y.opflag 1 = true ∧ s.dev.strikeBehind (d.strike k))) ∧
      (s.dev.recorded i y → ∀ w, w = BitVec.ofNat 32 (k + (if (s.dev.strike k).live then 1024 else 0) + if y.opflag 2 then 2048 else 0) →
        (y.opflag 2 = false ∧ s.dev.strikeBehind (d.strike k) → s.dev.recordAdded d i y (s.dev.finalOf i slot y .armedBehind y.unit w)) ∧
        (¬ (y.opflag 2 = false ∧ s.dev.strikeBehind (d.strike k)) → s.dev.recordAdded d i y (s.dev.finalOf i slot y .ok y.unit w))) ∧
      (∀ j, j ≠ k → d.strike j = s.dev.strike j) ∧ d = { s.dev with hif := d.hif, strikes := d.strikes, regs := d.regs }) ∧
  (∀ (s : State) (i : Fin 128) (slot : BitVec 16) (x y : Desc), y = withOpcode .strikeDisarm x →
    s.dev.admits .strikeDisarm i y → bit y.w1 19 = false →
    ((s.dev.strike (Dev.strikeIndex y)).live = true → (s.dev.strike (Dev.strikeIndex y)).unit.toNat = y.unit) →
    ∃ d, exec (.strikeDisarm i slot x) s = .next { s with dev := d } ∧ s.dev.slotTaken d i slot ∧
      d.strike (Dev.strikeIndex y) = { s.dev.strike (Dev.strikeIndex y) with st := .free, owner := none } ∧
      (∀ j, j ≠ Dev.strikeIndex y → d.strike j = s.dev.strike j) ∧
      (s.dev.recorded i y → s.dev.recordAdded d i y (s.dev.finalOf i slot y
        (if (s.dev.strike (Dev.strikeIndex y)).st = .fired ∨ (s.dev.strike (Dev.strikeIndex y)).firedAt = some s.dev.time.tick
          then .alreadyFired else .ok) y.unit
        (BitVec.ofNat 32 (SState.code (s.dev.strike (Dev.strikeIndex y)).st + 8 * Dev.strikeIndex y +
          if (s.dev.strike (Dev.strikeIndex y)).firedAt = some s.dev.time.tick then 8192 else 0)))) ∧
      d = { s.dev with hif := d.hif, strikes := d.strikes, regs := d.regs }) ∧
  (∀ (s : State) (i : Fin 128) (slot : BitVec 16) (x y : Desc), y = withOpcode .strikeDisarm x →
    s.dev.admits .strikeDisarm i y → bit y.w1 19 = true →
    ∃ d, exec (.strikeDisarm i slot x) s = .next { s with dev := d } ∧ s.dev.slotTaken d i slot ∧
      (∀ j, if (s.dev.strike j).live = true ∧ (s.dev.strike j).unit.toNat = y.unit then (d.strike j).st = .free
        else d.strike j = s.dev.strike j) ∧
      d = { s.dev with hif := d.hif, strikes := d.strikes, regs := d.regs }) ∧
  (∀ (d : Dev) (i : Nat) (e : Strike), e = d.strike i → ((e.st ≠ .armed ∧ e.st ≠ .recoiling) ∨ e.since = d.time.tick) →
    Dev.evalStrike i d = d) ∧
  (∀ (d : Dev) (i : Nat) (e : Strike), e = d.strike i → e.st = .armed ∨ e.st = .recoiling → e.since ≠ d.time.tick → e.key = 0 →
    (d.axis (d.rep e.unit.toNat)).stale = true → d.strikeSet (Dev.evalStrike i d) i { e with jump := true }) ∧
  (∀ (d : Dev) (i ax : Nat) (e e' : Strike) (a b k : Int), e = d.strike i → e.st = .armed → e.since ≠ d.time.tick → e.key = 0 →
    ax = d.rep e.unit.toNat → (d.axis ax).stale = false → a = e.prev.toInt → b = (d.axis ax).lat.pos.toInt → k = e.value.toInt →
    e' = { e with prev := (d.axis ax).lat.pos, prevAx := ax, jump := false, passed := false } →
    (¬ (e.passed = true ∨ ((e.mode = 1 ∨ e.mode = 3) ∧ a < k ∧ k ≤ b) ∨ ((e.mode = 2 ∨ e.mode = 3) ∧ k < a ∧ b ≤ k)) →
      d.strikeSet (Dev.evalStrike i d) i e') ∧
    ((e.mode = 1 ∨ e.mode = 3) ∧ a < k ∧ k ≤ b ∨ (e.mode = 2 ∨ e.mode = 3) ∧ k < a ∧ b ≤ k →
      Dev.evalStrike i d = Dev.fire i e.passed (e.jump || decide (e.prevAx ≠ ax)) (d.setStrike i e')) ∧
    (e.passed = true → ¬ ((e.mode = 1 ∨ e.mode = 3) ∧ a < k ∧ k ≤ b) → ¬ ((e.mode = 2 ∨ e.mode = 3) ∧ k < a ∧ b ≤ k) →
      Dev.evalStrike i d = Dev.fire i true false (d.setStrike i e'))) ∧
  (∀ (d : Dev) (i ax : Nat) (e : Strike) (b k h : Int), e = d.strike i → e.st = .recoiling → e.since ≠ d.time.tick → e.key = 0 →
    ax = d.rep e.unit.toNat → (d.axis ax).stale = false → b = (d.axis ax).lat.pos.toInt → k = e.value.toInt →
    h = ((e.hyst.toNat * 256 : Nat) : Int) →
    d.strikeSet (Dev.evalStrike i d) i { e with
      prev := (d.axis ax).lat.pos, prevAx := ax, jump := false,
      st := if (e.mode = 1 ∧ b ≤ k - h) ∨ (e.mode = 2 ∧ k + h ≤ b) ∨ (e.mode = 3 ∧ h ≤ ((b - k).natAbs : Int)) then .armed
        else .recoiling }) ∧
  (∀ (d : Dev) (i : Nat) (e : Strike), e = d.strike i → e.st = .armed → e.since ≠ d.time.tick →
    (e.key = 1 → Dev.evalStrike i d =
      if ((e.mode = 1 ∨ e.mode = 3) ∧ (d.axis (d.rep e.unit.toNat)).lat.swaNew = true) ∨
        ((e.mode = 2 ∨ e.mode = 3) ∧ (d.axis (d.rep e.unit.toNat)).lat.swbNew = true) then Dev.fire i false false d else d) ∧
    (e.key = 2 → Dev.evalStrike i d =
      if 0 ≤ (d.time.mainsLatch - e.value.setWidth 32).toInt then Dev.fire i false false d else d) ∧
    (e.key = 3 → Dev.evalStrike i d = if 0 ≤ (d.tick32 - e.value.setWidth 32).toInt then Dev.fire i false false d else d)) ∧
  (∀ (d t : Dev) (i : Nat) (byPassed jump : Bool) (e : Strike), e = d.strike i → e.st = .armed → t = Dev.fire i byPassed jump d →
    t.hw Fl.strikeStatusFirings 0 = min (2 ^ Fl.strikeStatusFirings.width - 1) (d.hw Fl.strikeStatusFirings 0 + 1) ∧
    t.hw Fl.strikeStatusSuppressed 0 = (if d.strikeActs e = true then d.hw Fl.strikeStatusSuppressed 0 else 1) ∧
    t.strike i = { e with
      st := if e.rep = false then .fired else if e.key = 0 then .recoiling else .armed,
      value := if e.rep = true ∧ 2 ≤ e.key.toNat then (e.value.setWidth 32 + e.hyst.setWidth 32).setWidth 40 else e.value,
      last := d.tick32, firedAt := some d.time.tick, passed := false } ∧
    (∀ j, j ≠ i → ¬ (e.action = 5 ∧ j = bits e.param 0 10 ∧ (d.strike j).st = .held) → t.strike j = d.strike j) ∧
    (e.action = 5 → (d.strike (bits e.param 0 10)).st = .held →
      (t.strike (bits e.param 0 10)).st = .armed ∧ (t.strike (bits e.param 0 10)).since = d.time.tick) ∧
    (e.owner = none ∨ e.quiet = true → t.hif = d.hif) ∧
    (∀ o, e.owner = some o → e.quiet = false → t.hif = (d.produce o.cq (d.recOf o .event .strikeFired e.unit.toNat
      (BitVec.ofNat 32 (i + (if d.strikeActs e then 0 else 1024) + (if byPassed then 2048 else 0) + if jump then 4096 else 0)) false)).hif) ∧
    ((∀ k ∈ d.leaves e.actUnit.toNat, (d.axis k).mot.pin = none) →
      (∀ n, n ∉ d.leaves e.actUnit.toNat ∨ d.strikeTakes e n = false → t.axis n = d.axis n) ∧
      t = { d with hif := t.hif, hax := t.hax, strikes := t.strikes, regs := t.regs }) ∧
    (∀ n ∈ d.leaves e.actUnit.toNat, d.strikeTakes e n = true →
      (e.action = 1 ∨ e.action = 2 → (∀ k ∈ d.leaves e.actUnit.toNat, (d.axis k).mot.pin = none) →
        ((d.axis n).st ≠ .moving → t.axis n = d.axis n) ∧
        ((d.axis n).st = .moving → ∃ p, (t.axis n).stop = some p ∧ (e.action = 2 → p.immediate = true) ∧
          ((d.axis n).stop = none → p.cause = .strike ∧ p.joined = [] ∧ p.decel = (if e.action = 1 then e.param else 0) ∧
            p.immediate = decide (e.action = 2)))) ∧
      (e.action = 3 → (t.axis n).set = { (d.axis n).set with vmax := e.param.setWidth 24 } ∧
        ((d.axis n).mot.mode ≠ .velocity → (t.axis n).mot = (d.axis n).mot) ∧
        ((d.axis n).mot.mode = .velocity → (t.axis n).mot = { (d.axis n).mot with
          cmd := (if (d.axis n).mot.cmd < 0 then -1 else 1) * ((e.param.setWidth 24 : BitVec 24).toNat : Int) })) ∧
      (e.action = 4 → t.axis n = { d.axis n with xduty := (t.axis n).xduty } ∧
        (t.axis n).xduty.bind (·.duty) = some (e.param.setWidth 16)) ∧
      (e.action ∉ [1, 2, 3, 4] → t.axis n = d.axis n))) ∧
  (∀ (s : State) (i : Fin 128) (slot : BitVec 16) (x y : Desc), y = withOpcode .snapshot x → s.dev.admits .snapshot i y →
    ∃ d, exec (.snapshot i slot x) s = .next { s with dev := d } ∧ s.dev.slotTaken d i slot ∧
      d.hif.early = s.dev.hif.early ++ [.write (y.addr 2) (s.dev.snapshotWords y.unit)] ∧
      (s.dev.snapshotWords y.unit).length = 16 ∧ d = { s.dev with hif := d.hif, regs := d.regs })

/-- Signatures: an admitted SIGN_LOAD installs its table, or removes one, in its direction on every axis of its target (R349, R350); an
admitted LEARN with cycles starts on every axis (R351, R352); a starved axis raises SIGN_STARVED (R347); a leaf whose reopen is due
starts a profile over its distance against its last engine direction (R340); the blocks of a remontoire read that completes enter the
window, a failed one sets READ_ERR, and one of an earlier generation only frees its tag (R43, R346, R347); freed tags let waiting reads
go out (R43, R345; their order is the model's choice, log entry 130). A starved axis loses its LEARN, and one that is not starved raises
nothing (R354). -/
def Obligations.SignatureTablesAndEvents : Prop :=
  (∀ (s : State) (i : Fin 128) (slot : BitVec 16) (x y : Desc) (t : Option SignTbl), y = withOpcode .signLoad x →
    s.dev.admits .signLoad i y → axisFails (s.dev.leaves y.unit) (Dev.loadCheck y s.dev) = [] →
    t = (if y.opflag 1 then none else some (Dev.loadTbl y (y.addr 2) y.w4 (bits y.w5 0 17))) →
    ∃ d, exec (.signLoad i slot x) s = .next { s with dev := d } ∧ s.dev.slotTaken d i slot ∧
      (∀ n ∈ s.dev.leaves y.unit, (d.sign n).lastCell = none ∧
        (y.opflag 0 = false → (d.sign n).tbl0 = t ∧ (d.sign n).tbl1 = (s.dev.sign n).tbl1 ∧
          d.hw Fl.signTblNcells (2 * n) = (t.map (·.ncells)).getD 0) ∧
        (y.opflag 0 = true → (d.sign n).tbl1 = t ∧ (d.sign n).tbl0 = (s.dev.sign n).tbl0 ∧
          d.hw Fl.signTblNcells (2 * n + 1) = (t.map (·.ncells)).getD 0)) ∧
      (∀ n, n ∉ s.dev.leaves y.unit → d.sign n = s.dev.sign n) ∧
      d = { s.dev with hif := d.hif, signs := d.signs, regs := d.regs }) ∧
  (∀ (s : State) (i : Fin 128) (slot : BitVec 16) (x y : Desc), y = withOpcode .learn x →
    s.dev.admits .learn i y → axisFails (s.dev.leaves y.unit) (Dev.learnCheck y s.dev) = [] → Dev.learnCycles y ≠ 0 →
    ∃ d, exec (.learn i slot x) s = .next { s with dev := d } ∧ s.dev.slotTaken d i slot ∧
      (∀ n ∈ s.dev.leaves y.unit, (d.sign n).win = [] ∧ d.hw Fl.signTblLearning (2 * n) = (if y.opflag 0 then 1 else 0) ∧
        d.hw Fl.signTblLearning (2 * n + 1) = (if y.opflag 1 then 1 else 0) ∧
        ∃ l, (d.sign n).learn = some l ∧ l.cycles = Dev.learnCycles y ∧ l.act = s.dev.acts.next ∧ l.done = 0) ∧
      (∀ n, n ∉ s.dev.leaves y.unit → d.sign n = s.dev.sign n) ∧
      d = { s.dev with hif := d.hif, acts := d.acts, signs := d.signs, regs := d.regs }) ∧
  (∀ (s : State) (ax : Fin 64), (s.dev.sign ax).starved = true →
    ∃ d, exec (.signStarved ax) s = .next { s with dev := d } ∧ (d.sign ax).starved = false ∧ s.dev.reacted d .signStarved ax 10 ∧
      (∀ l, (s.dev.sign ax).learn = some l → (d.sign ax).learn = none) ∧ ∀ n, n ≠ ax.val → d.sign n = s.dev.sign n) ∧
  (∀ (s : State) (ax : Fin 64), (s.dev.sign ax).starved = false → exec (.signStarved ax) s = .next s) ∧
  (∀ (s : State) (ax : Fin 64) (r : Reopen), s.dev.reopenDue ax = true → (s.dev.sign ax).reopen = some r →
    (s.dev.axis ax).armed = true → s.dev.outOf ax = false →
    ∃ d, exec (.reopen ax) s = .next { s with dev := d } ∧ (d.axis ax).st = .moving ∧ (d.axis ax).mot.mode = .profile ∧
      (d.axis ax).mot.target = BitVec.ofInt 40 ((s.dev.axis ax).lat.pos.toInt + (if r.dir = 0 then -1 else 1) * (r.dist * 256)) ∧
      (d.sign ax).reopen = some { r with running := true } ∧ (∀ n, n ≠ ax.val → d.axis n = s.dev.axis n) ∧
      d = { s.dev with hax := d.hax, signs := d.signs, reopens := d.reopens }) ∧
  (∀ (s : State) (ax : Fin 64) (blk gen : Nat) (cells : Option (List Word)), gen = (s.dev.sign ax).gen →
    blk ∈ (s.dev.sign ax).asked → (blk, gen) ∉ (s.dev.sign ax).old → s.dev.queuedRead ax blk = false →
    ∃ d, exec (.remontoireRead ax blk gen cells) s = .next { s with dev := d } ∧ blk ∉ (d.sign ax).asked ∧
      (∀ l, cells = some l → (d.sign ax).win = (s.dev.sign ax).win ++ [{ num := blk, cells := l, dirty := false }]) ∧
      (cells = none → blk ∈ (d.sign ax).bad ∧ d.hw Fl.signStatusReadErr ax = 1 ∧ (d.sign ax).win = (s.dev.sign ax).win) ∧
      (∀ n, n ≠ ax.val → { d.sign n with asked := [] } = { s.dev.sign n with asked := [] }) ∧
      (∀ c, { d.can c with reads := [] } = { s.dev.can c with reads := [] }) ∧
      (∀ j, { d.sq j with asked := (s.dev.sq j).asked } = s.dev.sq j) ∧
      d = { s.dev with hif := d.hif, signs := d.signs, cans := d.cans, regs := d.regs, out := d.out }) ∧
  (∀ (s : State) (ax : Fin 64) (blk gen : Nat) (cells : Option (List Word)), (blk, gen) ∈ (s.dev.sign ax).old →
    ∃ d, exec (.remontoireRead ax blk gen cells) s = .next { s with dev := d } ∧
      (d.sign ax).old = (s.dev.sign ax).old.erase (blk, gen) ∧ (d.sign ax).win = (s.dev.sign ax).win ∧
      (d.sign ax).bad = (s.dev.sign ax).bad ∧
      (∀ n, n ≠ ax.val → { d.sign n with asked := [] } = { s.dev.sign n with asked := [] }) ∧
      (∀ c, { d.can c with reads := [] } = { s.dev.can c with reads := [] }) ∧
      (∀ j, { d.sq j with asked := (s.dev.sq j).asked } = s.dev.sq j) ∧
      d = { s.dev with hif := d.hif, signs := d.signs, cans := d.cans, out := d.out }) ∧
  (∀ (s : State) (ax : Fin 64) (blk gen : Nat) (cells : Option (List Word)), gen ≠ (s.dev.sign ax).gen →
    (blk, gen) ∉ (s.dev.sign ax).old → exec (.remontoireRead ax blk gen cells) s = .next s)

/-- Command pins: a pin in duty or frequency mode that loses its input shows LOST, drives no axis any more, and each moving axis it
drove is under a stop (R137, R139); a STEP edge whose levels have held for three samples of 50 MHz before and after it, and that no driven
axis refuses, ends the spreading of the step before and spreads its own over the interval since the last edge, at most 100 ms, and one
that a leaf without brake-then-reverse would take as a reversal only sets REV_DROP; a shorter level is no edge (R140, R567; the steps of
a pin with several leaves are log entry 85's, the ends of its engagement log entry 71's, the second bad conversion log entry 86's); a rebase stages its value for its boundary
(R142). -/
def Obligations.CommandPins : Prop :=
  (∀ (s : State) (c : Fin 8), s.dev.cmdMode c = 2 ∨ s.dev.cmdMode c = 3 →
    ∃ d, exec (.cmdLost c) s = .next { s with dev := d } ∧ d.hw Fl.cmdCfgLost c = 1 ∧ (d.cmd c).axes = [] ∧
      (d.cmd c).lostNow = false ∧
      (∀ n ∈ (s.dev.cmd c).axes, (s.dev.axis n).st = .moving → (d.axis n).st = .moving ∧ (d.axis n).stop.isSome = true) ∧
      (∀ n, n ∉ (s.dev.cmd c).axes ∨ (s.dev.axis n).st ≠ .moving → d.axis n = s.dev.axis n) ∧
      (∀ k, k ≠ c.val → d.cmd k = s.dev.cmd k) ∧ d = { s.dev with hax := d.hax, cmds := d.cmds, regs := d.regs }) ∧
  (∀ (s : State) (i : Fin 4) (dir : Bool) (e : StepHeld) (off : Nat), e.low < 3 ∨ e.high < 3 ∨ s.dev.cmdMode (2 * i.val) ≠ 4 →
    exec (.stepEdge i dir e off) s = .next s) ∧
  (∀ (s : State) (i : Fin 4) (dir : Bool) (e : StepHeld) (off : Nat) (g : Int), s.dev.cmdMode (2 * i.val) = 4 → 3 ≤ e.low → 3 ≤ e.high →
    g = (if dir then 1 else -1) * signed 32 (s.dev.cfg Fl.cmdGainGain (2 * i.val)) →
    (∀ n ∈ s.dev.pinAxes (2 * i.val), (s.dev.axis n).mot.rev = false ∧ s.dev.reversal n (sgn g) = false) →
    ∃ d, exec (.stepEdge i dir e off) s = .next { s with dev := d } ∧
      d.cmd (2 * i.val) = { s.dev.cmd (2 * i.val) with
        lastDir := (if dir then 1 else -1), stepPos := (s.dev.cmd (2 * i.val)).stepPos + (s.dev.cmd (2 * i.val)).step, step := g,
        interval := min (20 * e.gap) 100000000, edgeAt := (s.dev.time.start + off) / 8 * 8 } ∧
      (∀ k, k ≠ 2 * i.val → d.cmd k = s.dev.cmd k) ∧ d = { s.dev with cmds := d.cmds }) ∧
  (∀ (s : State) (i : Fin 4) (dir : Bool) (e : StepHeld) (off : Nat) (g : Int) (n : Nat), s.dev.cmdMode (2 * i.val) = 4 → 3 ≤ e.low →
    3 ≤ e.high →
    g = (if dir then 1 else -1) * signed 32 (s.dev.cfg Fl.cmdGainGain (2 * i.val)) →
    (∀ k ∈ s.dev.pinAxes (2 * i.val), (s.dev.axis k).mot.rev = false) → n ∈ s.dev.pinAxes (2 * i.val) →
    s.dev.reversal n (sgn g) = true → s.dev.brakeReverse n = false →
    ∃ d, exec (.stepEdge i dir e off) s = .next { s with dev := d } ∧ d.hw Fl.cmdCfgRevDrop (2 * i.val) = 1 ∧
      d = { s.dev with regs := d.regs } ∧ s.dev.regsBut d [Reg.offset .cmdCfg (2 * i.val)]) ∧
  (∀ (s : State) (ax : Fin 64) (v : Word) (off : Nat), s.dev.barOpen = true → s.dev.hubOn 1 = true →
    ∃ d, exec (.rebase ax v off) s = .next { s with dev := d } ∧ d.accepted Fl.motionRebaseHiPosHi ax = bits v 0 8 ∧
      d.accepted Fl.motionRebaseHiRel ax = bits v 8 1 ∧ d.regs.force = s.dev.regs.force ∧ d.hax = s.dev.hax ∧
      d.regs.pend = s.dev.regs.pend ++
        [⟨Reg.offset .motionRebaseLo ax, 0xFFFFFFFF, regWord s.dev.regs.acc .motionRebaseLo ax, s.dev.late off, false⟩,
         ⟨Reg.offset .motionRebaseHi ax, 0x1FF, regWord d.regs.acc .motionRebaseHi ax, s.dev.late off, false⟩] ∧
      d = { s.dev with regs := d.regs, flt := d.flt })

/-! ## Links, frames and the movement's tick (chapters 1 and 15) -/

/-- Frames and the movement's clock. The movement's tick boundary (R16, R18) starts its periods anew, uses up the setpoint frame and
sends a latch frame, and touches no other movement and no axis in the hub; a tick mark shows the link's skew and raises LINK_SKEW in
the movement beyond 2 clocks, in the hub beyond 16 steps (R16); a setpoint frame is kept for the boundary, with the acknowledged
requests dropped, but ignored by an orphan (R412, R447); a missing one sets SETPOINT_MISSED (R35); a missing latch frame is counted,
and the second in a row raises LINK_LATCH_LOST (R34). How a movement in a halt takes its frames, and what the first boundary after training
counts, are the model's reading (log entries 113, 114, 152). -/
def Obligations.MovementFrames : Prop :=
  (∀ (s : State) (m : Fin 8), s.dev.sys.ticking = true → s.dev.flag Fl.clkStatusPllLock 0 = true → s.dev.mvRuns m = true →
    s.dev.trained m = true →
    ∃ d, exec (.movementTickBoundary m) s = .next { s with dev := d } ∧ (d.mv m).period = 0 ∧ (d.mv m).spTaken = none ∧
      (d.mv m).latWay.isSome = true ∧ (d.mv m).load = false ∧ (∀ k, k ≠ m.val → d.mv k = s.dev.mv k) ∧
      (∀ n, n / 8 ≠ m.val → d.mva n = s.dev.mva n) ∧ d.hax = s.dev.hax ∧ d.time = s.dev.time) ∧
  (∀ (s : State) (m : Fin 8) (diff : Int) (skew : BitVec 8), s.dev.mvRuns m = true → s.dev.trained m = true →
    ∃ d, exec (.tickMark m diff skew) s = .next { s with dev := d } ∧ d.hw Fl.linkStatusSkew m = skew.toNat ∧
      (diff.natAbs ≤ 2 → skew.toInt.natAbs ≤ 16 → d = { s.dev with regs := d.regs, flt := d.flt } ∧
        s.dev.regsBut d [Reg.offset .linkStatus m]) ∧
      (2 < diff.natAbs → s.dev.reacted d .linkSkew m m) ∧ (16 < skew.toInt.natAbs → s.dev.reacted d .linkSkew m 8)) ∧
  (∀ (s : State) (m : Fin 8) (f : SpFrame), s.dev.mvOn m = true → s.dev.trained m = true → (s.dev.mv m).spWay = some f →
    ∃ d, exec (.setpointFrame m) s = .next { s with dev := d } ∧ (d.mv m).spWay = none ∧
      (s.dev.orphan m = false → (d.mv m).spTaken = some f ∧
        (d.mv m).reqs = (s.dev.mv m).reqs.filter fun r => decide (f.ack < r.serial)) ∧
      (s.dev.orphan m = true → d.mv m = { s.dev.mv m with spWay := none } ∧ d.mvax = s.dev.mvax ∧ d.regs = s.dev.regs) ∧
      (∀ k, k ≠ m.val → d.mv k = s.dev.mv k) ∧ (∀ n, n / 8 ≠ m.val → d.mva n = s.dev.mva n) ∧
      d = { s.dev with mvs := d.mvs, mvax := d.mvax, regs := d.regs }) ∧
  (∀ (s : State) (m : Fin 8) (crc : Bool), s.dev.mvOn m = true → s.dev.trained m = true → s.dev.spNow m = none →
    ∃ d, exec (.setpointFrameMiss m crc) s = .next { s with dev := d } ∧ d.hw Fl.linkStatusSetpointMissed m = 1 ∧
      d.mv m = { s.dev.mv m with spWay := none, spTaken := none } ∧ (∀ k, k ≠ m.val → d.mv k = s.dev.mv k) ∧
      d = { s.dev with mvs := d.mvs, regs := d.regs } ∧ s.dev.regsBut d [Reg.offset .linkStatus m]) ∧
  (∀ (s : State) (m : Fin 8) (crc : Bool), s.dev.mvOn m = true → s.dev.trained m = true → (s.dev.mv m).missed = false →
    ∃ d, exec (.latchFrameMiss m crc) s = .next { s with dev := d } ∧ (d.mv m).missed = true ∧ (d.mv m).latWay = none ∧
      (d.mv m).latMiss = (s.dev.mv m).latMiss + 1 ∧ d.hw Fl.linkStatusLatchMiss m = 1 ∧
      ((s.dev.mv m).latMiss = 1 → s.dev.reacted d .linkLatchLost m 8) ∧ d.hax = s.dev.hax)

/-- Orphans and training: the orphan monitor puts every axis of its movement in the drive of R200 and sets its sticky flag ORPHAN
(R200, R446); a link that has trained is trained, shows its skew, and takes the tick rate in force (R37, R519); one that has not
trained in time sets its TRAIN_FAIL bit (R519). -/
def Obligations.LinksAndOrphans : Prop :=
  (∀ (s : State) (m : Fin 8), s.dev.mvOn m = true → s.dev.orphan m = false →
    ∃ d, exec (.orphanEntry m true) s = .next { s with dev := d } ∧ d.hw Fl.escMvstatusOrphan m = 1 ∧
      d.hw Fl.escMvstatusByMonitor m = 1 ∧ (d.mv m).spTaken = none ∧
      (∀ j : Fin 8, (d.mva (8 * m.val + j.val)).drive = s.dev.orphanDrive (8 * m.val + j.val) ∧
        (d.flagsAt m (8 * m.val + j.val)).getLsbD 18 = true) ∧
      d.hax = s.dev.hax) ∧
  (∀ (s : State) (m : Fin 8) (skew : BitVec 8), s.dev.mvOn m = true → s.dev.trained m = false →
    ∃ d, exec (.linkTrainingDone m skew) s = .next { s with dev := d } ∧ d.hw Fl.linkStatusTrained m = 1 ∧
      d.hw Fl.linkStatusSkew m = skew.toNat ∧
      d.mv m = { s.dev.mv m with
        rate := s.dev.time.rate, period := 10, start := s.dev.time.start, beatGap := 0, latMiss := 0, lost := false } ∧
      (∀ k, k ≠ m.val → d.mv k = s.dev.mv k) ∧
      (skew.toInt.natAbs ≤ 16 → d = { s.dev with mvs := d.mvs, regs := d.regs, flt := d.flt }) ∧
      (16 < skew.toInt.natAbs → s.dev.reacted d .linkSkew m 8)) ∧
  (∀ (s : State) (m : Fin 8), s.dev.mvOn m = true → s.dev.trained m = false →
    ∃ d, exec (.trainFail m) s = .next { s with dev := d } ∧ (d.hw Fl.pwrEvtTrainFail 0).testBit m = true ∧
      (∀ k : Fin 8, k ≠ m → (d.hw Fl.pwrEvtTrainFail 0).testBit k = (s.dev.hw Fl.pwrEvtTrainFail 0).testBit k) ∧
      d = { s.dev with regs := d.regs } ∧ s.dev.regsBut d [Reg.offset .pwrEvt 0])

/-! ## Feedback (chapter 12) -/

/-- Encoder and Hall edges: a change of one encoder channel moves the counter by one count in its direction (R365); a change of both
counts nothing, sets QERR and raises ENC_QERR (R366); a Hall state of the next sector moves by one step (R368); before the levels are
known, an edge only tells them (R374); a level that its filter does not pass changes nothing (R362). Index and switches: the first
index latch is the reference (R369); a selected switch edge latches the counter (R141, R371). Enough ticks without an edge end the
speed (R373). No other axis changes. The first levels, the filter's grid and a new mode are the model's reading (log entries 38, 157,
158). -/
def Obligations.FeedbackCounts : Prop :=
  (∀ (s : State) (ax : Fin 64) (a b z : Bool) (held off t : Nat), s.dev.mvOn (ax.val / 8) = true → s.dev.fbMode ax = 0 →
    s.dev.qualFb ax held off = some t →
    (s.dev.mva ax).fb.init = true → z = (s.dev.mva ax).fb.fz →
    ∃ d, exec (.feedbackEdge ax a b z ⟨held, off⟩) s = .next { s with dev := d } ∧
      (d.mva ax).fb.fa = a ∧ (d.mva ax).fb.fb = b ∧
      ((a = (s.dev.mva ax).fb.fa ∨ b = (s.dev.mva ax).fb.fb) →
        d.counter ax = s.dev.counter ax + BitVec.ofInt 40
          (256 * s.dev.invDir ax (Dev.quadDir (s.dev.mva ax).fb.fa (s.dev.mva ax).fb.fb a b)) ∧
        s.dev.axesBut d [ax.val] ∧ d = { s.dev with mvax := d.mvax, regs := d.regs }) ∧
      ((a ≠ (s.dev.mva ax).fb.fa ∧ b ≠ (s.dev.mva ax).fb.fb) →
        d.counter ax = s.dev.counter ax ∧ (d.mva ax).unver = true ∧ d.hw Fl.fbStatusQerr ax = 1 ∧
        d.hw Fl.fbStatusQerrCnt ax = min (2 ^ Fl.fbStatusQerrCnt.width - 1) (s.dev.hw Fl.fbStatusQerrCnt ax + 1) ∧
        s.dev.reacted d .encQerr ax (ax.val / 8))) ∧
  (∀ (s : State) (ax : Fin 64) (a b z : Bool) (held off t o c : Nat), s.dev.mvOn (ax.val / 8) = true → s.dev.fbMode ax = 1 →
    s.dev.qualFb ax held off = some t →
    (s.dev.mva ax).fb.init = true → (s.dev.mva ax).fb.sector = some o →
    s.dev.hallSector ax ((if a then 1 else 0) + (if b then 2 else 0) + (if z then 4 else 0)) = some c → c = (o + 1) % 6 →
    ¬ (a = (s.dev.mva ax).fb.fa ∧ b = (s.dev.mva ax).fb.fb ∧ z = (s.dev.mva ax).fb.fz) →
    ∃ d, exec (.feedbackEdge ax a b z ⟨held, off⟩) s = .next { s with dev := d } ∧ (d.mva ax).fb.sector = some c ∧
      (d.mva ax).fb.steps = (s.dev.mva ax).fb.steps + s.dev.invDir ax 1 ∧ s.dev.axesBut d [ax.val] ∧
      d = { s.dev with mvax := d.mvax, regs := d.regs }) ∧
  (∀ (s : State) (ax : Fin 64) (a b z : Bool) (held off t : Nat), s.dev.mvOn (ax.val / 8) = true → (s.dev.mva ax).fb.init = false →
    s.dev.qualFb ax held off = some t →
    ∃ d, exec (.feedbackEdge ax a b z ⟨held, off⟩) s = .next { s with dev := d } ∧ (d.mva ax).fb.init = true ∧ (d.mva ax).fb.fa = a ∧
      (d.mva ax).fb.fb = b ∧ (d.mva ax).fb.fz = z ∧ (d.mva ax).fb.steps = (s.dev.mva ax).fb.steps ∧
      (d.mva ax).fb.zref = (s.dev.mva ax).fb.zref ∧ s.dev.axesBut d [ax.val] ∧ d = { s.dev with mvax := d.mvax, regs := d.regs }) ∧
  (∀ (s : State) (ax : Fin 64) (a b z : Bool) (held off : Nat), s.dev.mvOn (ax.val / 8) = true →
    s.dev.qualFb ax held off = none → exec (.feedbackEdge ax a b z ⟨held, off⟩) s = .next s) ∧
  (∀ (s : State) (ax : Fin 64) (held off t : Nat), s.dev.mvOn (ax.val / 8) = true → s.dev.fbMode ax = 0 →
    s.dev.qualFb ax held off = some t → s.dev.on Fl.fbCfgZen ax = true → (s.dev.mva ax).fb.init = true →
    (s.dev.mva ax).fb.fz = false → (s.dev.mva ax).fb.zref = none →
    ∃ d, exec (.indexLatch ⟨ax, held, off⟩) s = .next { s with dev := d } ∧ (d.mva ax).fb.zref = some (s.dev.wholeCount ax) ∧
      d.hw Fl.fbZlatchZpos ax = (BitVec.ofInt 32 (s.dev.wholeCount ax)).toNat ∧ d.hw Fl.fbStatusZseen ax = 1 ∧
      s.dev.axesBut d [ax.val] ∧ d = { s.dev with mvax := d.mvax, regs := d.regs }) ∧
  (∀ (s : State) (ax : Fin 64) (level : Bool) (held off : Nat), (s.dev.qualSw ax held off).isSome = true →
    s.dev.mvOn (ax.val / 8) = true → (s.dev.mva ax).fb.swaIn = true →
    level ≠ (s.dev.mva ax).fb.swa → s.dev.on Fl.swCfgOnceA ax = false →
    ∃ d, exec (.switchLatch ax false ⟨level, held, off⟩) s = .next { s with dev := d } ∧ (d.mva ax).fb.swa = level ∧
      (d.mva ax).fb.swaPos = (if Dev.edgeOn (s.dev.cfg Fl.swCfgEdgeA ax) level then s.dev.counter ax else (s.dev.mva ax).fb.swaPos) ∧
      (d.mva ax).fb.swaCnt = (if Dev.edgeOn (s.dev.cfg Fl.swCfgEdgeA ax) level then (s.dev.mva ax).fb.swaCnt + 1
        else (s.dev.mva ax).fb.swaCnt) ∧
      s.dev.axesBut d [ax.val] ∧ d = { s.dev with mvax := d.mvax, regs := d.regs }) ∧
  (∀ (s : State) (ax : Fin 64), s.dev.stillDue ax = true →
    ∃ d, exec (.speedTimeout ax) s = .next { s with dev := d } ∧ (d.mva ax).fb.stamps = [] ∧ (d.mva ax).fb.valid = false ∧
      (d.mva ax).fb.dir = 0 ∧ (d.mva ax).fb.steps = (s.dev.mva ax).fb.steps ∧ s.dev.axesBut d [ax.val] ∧
      d = { s.dev with mvax := d.mvax })

/-! ## Faults (chapter 14) -/

/-- The collector: arrivals start a reaction sequence of their winner where none runs and no capture is valid, count as overflow where
one is, and are lost to a running sequence (R415, R416); the end of a sequence leaves the capture of its winner, asks for its message
and starts the ALERT pulse, before which a pin that is low goes high (R417, R420, R421); a pulse ends, and a presenter returns its pair
(R415, R420). The instants of a sequence's end, the weight of a lost presentation with MULTI and the width of the high level are the
model's reading (log entries 39, 69, 182). -/
def Obligations.CollectorCaptures : Prop :=
  (∀ (s : State) (l : List (Fin 18)) (a : Nat × Present) (r : List (Nat × Present)), s.dev.arrivals l = a :: r →
    ∃ d, exec (.faultArrival l) s = .next { s with dev := d } ∧ d.arrivals l = [] ∧
      (s.dev.flt.seq = none → s.dev.flag Fl.fltCapValid 0 = false →
        (∃ q, d.flt.seq = some q ∧ q.from_ = (Dev.winnerOf a r).1 ∧ q.what = (Dev.winnerOf a r).2 ∧ q.tick = s.dev.time.tick) ∧
        d = { s.dev with flt := d.flt }) ∧
      (s.dev.flt.seq = none → s.dev.flag Fl.fltCapValid 0 = true → d.flt.seq = none ∧ d.hw Fl.fltCapOvfOvf 0 = 1 ∧
        d.hw Fl.fltCapOvfCount 0 = min (2 ^ Fl.fltCapOvfCount.width - 1) (s.dev.hw Fl.fltCapOvfCount 0 +
          ((a :: r).map fun e => 1 + Dev.multiOf e.2).sum) ∧
        d = { s.dev with flt := d.flt, regs := d.regs } ∧ s.dev.regsBut d [Reg.offset .fltCapOvf 0]) ∧
      (s.dev.flt.seq.isSome = true → d.flt.seq = s.dev.flt.seq ∧ d = { s.dev with flt := d.flt })) ∧
  (∀ (s : State) (q : FltSeq), s.dev.flt.seq = some q → s.dev.flt.acks = [] →
    ∃ d, exec (.reactionSequenceEnd none) s = .next { s with dev := d } ∧ d.flt.seq = none ∧ d.flt.irqDue = s.dev.flt.irqDue + 1 ∧
      d.flt.alert = s.dev.flt.alert ||| s.dev.alertPins q.what ∧
      (∀ k : Fin 8, (s.dev.alertPins q.what).getLsbD k = true → (d.flt.alertHi.getLsbD k = true ↔
        s.dev.flt.alert.getLsbD k = true ∨ (s.dev.cfg Fl.fltAlertLevel 0).testBit k = true)) ∧ d.hw Fl.fltCapValid 0 = 1 ∧
      d.hw Fl.fltCapId 0 = q.what.id.toNat ∧ d.hw Fl.fltCapLevel 0 = q.what.level.toNat ∧
      d.hw Fl.fltCapUnit 0 = q.what.unit.toNat ∧ d.hw Fl.fltCapClass 0 = q.what.cls.toNat ∧ d.hw Fl.fltCapReread 0 = 0 ∧
      d.hw Fl.fltCapTickLoTickLo 0 + 2 ^ 32 * d.hw Fl.fltCapTickHiTickHi 0 = q.tick.toNat ∧
      d = { s.dev with flt := d.flt, regs := d.regs }) ∧
  (∀ (s : State) (m : Fin 8), ∃ d, exec (.alertPulseEnd m) s = .next { s with dev := d } ∧ d.flt.alert.getLsbD m = false ∧
    (∀ k, k ≠ m.val → d.flt.alert.getLsbD k = s.dev.flt.alert.getLsbD k) ∧
    d = { s.dev with flt := { s.dev.flt with alert := d.flt.alert, alertHi := d.flt.alertHi } }) ∧
  (∀ (s : State) (p : Fin 17), ∃ d, exec (.gathererPresentationEnd p) s = .next { s with dev := d } ∧
    SMap.find d.flt.pres p = none ∧ (∀ k, k ≠ p.val → SMap.find d.flt.pres k = SMap.find s.dev.flt.pres k) ∧
    d = { s.dev with flt := { s.dev.flt with pres := d.flt.pres } })

/-- Acknowledge, clear and broken pairs: an acknowledge with the right count ends the capture, another sets ACK_STALE, and one during a
sequence waits for its end (R418, R426); a clear request waits for its boundary (R422, R428); a pair that breaks shows in FLT_LATCH and
takes the torque of its movement, a broken DSTO_REQ that of the device and with class 5, and a pair of a hub presenter shows as BROKEN_HUB
with class 2 on every axis; the collector's own finds are arrivals of their own (R409, R410, R430, R431, R581); a pair that is broken
already, and one that the place does not have, changes nothing; one that returns no longer forces anything (R410). -/
def Obligations.FaultWritesAndPairs : Prop :=
  (∀ (s : State) (v : Word) (off : Nat), s.dev.barOpen = true →
    ∃ d, exec (.fltAck v off) s = .next { s with dev := d } ∧ d = { s.dev with flt := d.flt, regs := d.regs } ∧
      (s.dev.flt.seq.isSome = true → d.flt.acks = s.dev.flt.acks ++ [v.setWidth 8] ∧ d.regs = s.dev.regs) ∧
      (s.dev.flt.seq = none → bits v 0 8 = s.dev.hw Fl.fltCapOvfCount 0 →
        d.hw Fl.fltCapValid 0 = 0 ∧ d.hw Fl.fltCapOvfCount 0 = 0 ∧ d.hw Fl.fltCapOvfOvf 0 = 0) ∧
      (s.dev.flt.seq = none → bits v 0 8 ≠ s.dev.hw Fl.fltCapOvfCount 0 →
        d.hw Fl.fltStatusAckStale 0 = 1 ∧ s.dev.regsBut d [Reg.offset .fltStatus 0])) ∧
  (∀ (s : State) (v : Word) (off : Nat), s.dev.barOpen = true →
    ∃ d, exec (.fltClear v off) s = .next { s with dev := d } ∧ d = { s.dev with flt := d.flt } ∧
      (s.dev.late off = true → d.flt.clrLate = some (v.setWidth 9) ∧ d.flt.clr = s.dev.flt.clr) ∧
      (s.dev.late off = false → d.flt.clr = some (v.setWidth 9) ∧ d.flt.clrLate = s.dev.flt.clrLate)) ∧
  (∀ (s : State) (m : Fin 9) (p : Pair), (m.val, p) ∈ s.dev.flt.broken ∨ (m.val = 8 ↔ Dev.ofHub p = false) →
    exec (.railBroken m p) s = .next s) ∧
  (∀ (s : State) (p : Pair), (8, p) ∉ s.dev.flt.broken → Dev.ofHub p = true →
    ∃ d, exec (.railBroken 8 p) s = .next { s with dev := d } ∧ d.flt.broken = s.dev.flt.broken ++ [(8, p)] ∧
      d.hw Fl.fltLatchBrokenHub 0 = 1 ∧ d.hw Fl.fltLatchDsto 0 = s.dev.hw Fl.fltLatchDsto 0 ∧
      (∃ r ∈ d.flt.reacts, r.cls = 2 ∧ r.axes = span 0 64) ∧
      (∃ a ∈ d.flt.own, a.id.toNat = 16 * Src.railBroken.row.code + 8 ∧ a.level = 3 ∧ a.cls = 2) ∧
      d.mvax = s.dev.mvax ∧ d.hax = s.dev.hax) ∧
  (∀ (s : State) (m : Fin 9) (p : Pair), m.val < 8 → (m.val, p) ∉ s.dev.flt.broken → Dev.ofHub p = false →
    ∃ d, exec (.railBroken m p) s = .next { s with dev := d } ∧ d.flt.broken = s.dev.flt.broken ++ [(m.val, p)] ∧
      (Dev.atCollector p = true → ∃ a ∈ d.flt.own, a.id.toNat = 16 * Src.railBroken.row.code + m.val ∧ a.level = 2 ∧ a.cls = 4) ∧
      (d.hw Fl.fltLatchBroken 0).testBit m = true ∧ (d.hw Fl.fltLatchMsto 0).testBit m = true ∧
      (∀ n < 64, n / 8 = m.val ∨ p = .dstoReq → (d.mva n).drive = .sto ∨ (d.mva n).drive = .orphanSto) ∧
      (p = .dstoReq → d.hw Fl.fltLatchDsto 0 = 1) ∧ d.hax = s.dev.hax) ∧
  (∀ (s : State) (m : Fin 9) (p : Pair),
    ∃ d, exec (.railRestored m p) s = .next { s with dev := d } ∧ (m.val, p) ∉ d.flt.broken ∧
      (∀ e, e ≠ (m.val, p) → (e ∈ d.flt.broken ↔ e ∈ s.dev.flt.broken)) ∧
      (∀ k : Fin 8, ((d.hw Fl.fltLatchBroken 0).testBit k = true ↔ ∃ q, (k.val, q) ∈ d.flt.broken)) ∧
      d.mvax = s.dev.mvax ∧ d = { s.dev with flt := d.flt, regs := d.regs, sys := d.sys })

/-! ## The escapement (chapter 15) -/

/-- STO and SAFE pins: a pin that becomes active shows with its path and raises STO_ACTIVE (R438); one that becomes inactive no longer
acts, and torque does not return (R435), but with VCL below 1.08 V it stays active (R571); pins that have differed for DISC raise STO_DISCREPANCY, and not before (R439); a condition of
R440 drives both SAFE pins low, and their release lets them rise only where no condition holds. That the command has qualified the
pins, and from when DISC counts, are the model's choice (log entries 123 and 151). -/
def Obligations.SafetyPins : Prop :=
  (∀ (s : State) (m : Fin 8) (b : Bool), (s.dev.hw (Dev.pinFields b).1 0).testBit m = false →
    ∃ d, exec (.stoActive m b) s = .next { s with dev := d } ∧ (d.hw (Dev.pinFields b).1 0).testBit m = true ∧
      (d.hw (Dev.pinFields b).2 0).testBit m = true ∧ s.dev.reacted d .stoActive m m ∧ d.hax = s.dev.hax) ∧
  (∀ (s : State) (m : Fin 8) (b : Bool), (s.dev.hw (Dev.pinFields b).1 0).testBit m = false ∨
    (s.dev.hw Fl.pwrStatusVclOk 0).testBit m = false → exec (.stoPinRelease m b) s = .next s) ∧
  (∀ (s : State) (m : Fin 8) (b : Bool), (s.dev.hw (Dev.pinFields b).1 0).testBit m = true →
    (s.dev.hw Fl.pwrStatusVclOk 0).testBit m = true →
    ∃ d, exec (.stoPinRelease m b) s = .next { s with dev := d } ∧ (d.hw (Dev.pinFields b).1 0).testBit m = false ∧
      (d.hw (Dev.pinFields b).2 0).testBit m = false ∧
      (∀ k : Fin 8, k ≠ m → (d.hw (Dev.pinFields b).1 0).testBit k = (s.dev.hw (Dev.pinFields b).1 0).testBit k) ∧
      d = { s.dev with regs := d.regs, sys := d.sys } ∧ s.dev.regsBut d [Reg.offset .stoStatus 0]) ∧
  (∀ (s : State) (m : Fin 8), (s.dev.hw Fl.stoStatusPinA 0).testBit m ≠ (s.dev.hw Fl.stoStatusPinB 0).testBit m →
    s.dev.discGone m = true →
    ∃ d, exec (.stoDiscrepancy m) s = .next { s with dev := d } ∧ s.dev.reacted d .stoDiscrepancy m m ∧ d.hax = s.dev.hax) ∧
  (∀ (s : State) (m : Fin 8), s.dev.discGone m = false ∨
      (s.dev.hw Fl.stoStatusPinA 0).testBit m = (s.dev.hw Fl.stoStatusPinB 0).testBit m →
    exec (.stoDiscrepancy m) s = .next s) ∧
  (∀ s : State, s.dev.safeCond = true →
    ∃ d, exec .safeCondition s = .next { s with dev := d } ∧ d.hw Fl.escStatusSafeA 0 = 1 ∧ d.hw Fl.escStatusSafeB 0 = 1 ∧
      d = { s.dev with regs := d.regs, sys := d.sys } ∧ s.dev.regsBut d [Reg.offset .escStatus 0]) ∧
  (∀ s : State, s.dev.safeCond = false → s.dev.sys.safeDue = false →
    ∃ d, exec .safePinRelease s = .next { s with dev := d } ∧ d.hw Fl.escStatusSafeA 0 = 0 ∧ d.hw Fl.escStatusSafeB 0 = 0 ∧
      d = { s.dev with regs := d.regs, sys := d.sys } ∧ s.dev.regsBut d [Reg.offset .escStatus 0]) ∧
  (∀ s : State, s.dev.safeCond = true → exec .safePinRelease s = .next s)

/-- Safety functions and the escapement's own checks: SS1 that has one of its three events takes the torque of its axis and asks the
hub for class 3 (R449); SLS, with N short intervals on a channel or with channels that disagree, and SLC, with N samples above its
threshold, take the safety hold and raise their sources where they are active (R441, R450, R453 to R455); a failed check of the
escapement holds ESC_FAULT and raises its source (R443); the self-test passes, where only legs that wait for no period start change, or
fails as one of them, also after another ESC_FAULT (R444). That its crossings count from the last one with a reading, and which samples
of SLC count, are the model's reading (log entries 148, 149). -/
def Obligations.SafetyFunctions : Prop :=
  (∀ (s : State) (ax : Fin 64) (c : Ss1Cause), s.dev.flag Fl.escAxstatusSs1 ax = true →
    s.dev.ss1Due ax c = true →
    ∃ d, exec (.ss1Trip ax c) s = .next { s with dev := d } ∧ d.hw Fl.escAxstatusSs1 ax = 0 ∧ d.hw Fl.escAxstatusHold ax = 1 ∧
      ((d.mva ax).drive = .sto ∨ (d.mva ax).drive = .orphanSto) ∧
      (∃ q ∈ (d.mv (ax.val / 8)).reqs, q.react.cls = 3 ∧ q.react.axes = [ax.val]) ∧ s.dev.axesBut d [ax.val] ∧
      3 ≤ bits (d.flagsAt (ax.val / 8) ax) 29 3 ∧ (∀ n, n ≠ ax.val → d.flagsAt (ax.val / 8) n = s.dev.flagsAt (ax.val / 8) n) ∧
      d = { s.dev with regs := d.regs, mvax := d.mvax, mvs := d.mvs, flt := d.flt }) ∧
  (∀ (s : State) (ax : Fin 64) (b : Bool), s.dev.slsOn ax = true → max 1 (s.dev.cfg Fl.escSlsCfgN ax) ≤
      (if b then (s.dev.mva ax).watch.run2 else (s.dev.mva ax).watch.run1) →
    ∃ d, exec (.slsExceeded ax b) s = .next { s with dev := d } ∧ d.hw Fl.escAxstatusHold ax = 1 ∧
      s.dev.reacted d .slsExceeded ax (ax.val / 8) ∧ d.hax = s.dev.hax) ∧
  (∀ (s : State) (m j : Fin 8) (ax : Fin 64), ax.val = 8 * m.val + j.val → s.dev.slsOn ax = true → s.dev.slsBlind ax = false →
    s.dev.slsDisagree ax = true →
    ∃ d, exec (.slsDiscrepancy m j) s = .next { s with dev := d } ∧ d.hw Fl.escAxstatusHold ax = 1 ∧
      s.dev.reacted d .slsDiscrepancy ax (ax.val / 8) ∧ d.hax = s.dev.hax) ∧
  (∀ (s : State) (ax : Fin 64) (l : List (Nat × Int)), s.dev.mvOn (ax.val / 8) = true → s.dev.on Fl.escSlcEn ax = true →
    s.dev.slcHigh ax l = true →
    ∃ d, exec (.slcExceeded ⟨ax, l⟩) s = .next { s with dev := d } ∧ d.hw Fl.escAxstatusHold ax = 1 ∧
      s.dev.reacted d .slcExceeded ax (ax.val / 8) ∧ d.hax = s.dev.hax) ∧
  (∀ (s : State) (c : EscCause),
    ∃ d, exec (.escFault c) s = .next { s with dev := d } ∧ d.sys.escFault = true ∧ s.dev.reacted d .escFault 0 16 ∧
      (c = .clock → d.hw Fl.escStatusOscFail 0 = 1) ∧ (c = .tick → d.hw Fl.escStatusTickFail 0 = 1) ∧
      (c = .readback → d.hw Fl.escStatusReadbackFail 0 = 1) ∧ d.hax = s.dev.hax) ∧
  (∀ s : State, s.dev.sys.released = true → s.dev.hw Fl.escStatusSelftestOk 0 = 0 →
    (∃ d, exec (.selftestEnd true) s = .next { s with dev := d } ∧ d.hw Fl.escStatusSelftestOk 0 = 1 ∧
      (∀ n, d.mva n = { s.dev.mva n with legs := (d.mva n).legs }) ∧ (∀ n, s.dev.gatesWait n = false → d.mva n = s.dev.mva n) ∧
      d = { s.dev with regs := d.regs, mvax := d.mvax } ∧ s.dev.regsBut d [Reg.offset .escStatus 0]) ∧
    (∃ d, exec (.selftestEnd false) s = .next { s with dev := d } ∧ d.hw Fl.escStatusSelftestOk 0 = 0 ∧ d.sys.escFault = true ∧
      s.dev.reacted d .escFault 0 16))

/-- R456: 64 periods in a row without a sample report SLC blind and start the count anew; that raises no fault source. With fewer,
nothing changes. -/
def Obligations.SlcBlindRaisesNoSource : Prop :=
  (∀ (s : State) (ax : Fin 64), 64 ≤ (s.dev.mva ax).watch.blind →
    ∃ d, exec (.slcBlind ax) s = .next { s with dev := d } ∧ d.hw Fl.escAxstatusSlcBlind ax = 1 ∧
      d.mva ax = { s.dev.mva ax with watch := { (s.dev.mva ax).watch with blind := 0 } } ∧ s.dev.axesBut d [ax.val] ∧
      d = { s.dev with mvax := d.mvax, regs := d.regs } ∧ s.dev.regsBut d [Reg.offset .escAxstatus ax]) ∧
  (∀ (s : State) (ax : Fin 64), (s.dev.mva ax).watch.blind < 64 → exec (.slcBlind ax) s = .next s)

/-! ## Clocks, mains, temperatures, supplies, monitor (chapters 1, 16, 17) -/

/-- Clocks and mains: the loss of PLL lock stops the ticks (R506); its lock starts them, the first time together with the movements
whose domain is on and whose VCL is valid (R506, R518). The mains time base (R21): the first edge is the reference; an edge 14.3 ms to
25.0 ms behind the reference counts, gives the period and makes it valid; an earlier one is ignored and a later one is only the new
reference; 30 ms without a counted edge end the validity, so that an edge from then on is only the reference; a level that has not held
for the 10 µs of the glitch filter before or behind the edge makes none (R566). Distances are in hub clocks of 2.5 ns (log entry 87);
that ticks go on where they stood when lock returns is the model's choice (log entry 62). -/
def Obligations.ClocksAndMains : Prop :=
  (∀ s : State, s.dev.flag Fl.clkStatusPllLock 0 = true →
    ∃ d, exec .pllLoss s = .next { s with dev := d } ∧ d.hw Fl.clkStatusPllLock 0 = 0 ∧ d.hw Fl.clkStatusPllLost 0 = 1 ∧
      d.tickRuns = false ∧ d.lock = { s.dev.lock with blind := d.lock.blind } ∧
      d = { s.dev with regs := d.regs, lock := d.lock } ∧ s.dev.regsBut d [Reg.offset .clkStatus 0]) ∧
  (∀ s : State, s.dev.sys.released = true → s.dev.flag Fl.clkStatusPllLock 0 = false →
    ∃ d, exec .pllLock s = .next { s with dev := d } ∧ d.hw Fl.clkStatusPllLock 0 = 1 ∧ d.sys.ticking = true ∧
      (s.dev.sys.ticking = true → d = { s.dev with regs := d.regs } ∧ s.dev.regsBut d [Reg.offset .clkStatus 0]) ∧
      (s.dev.sys.ticking = false → d.sys.first = true ∧
        ∀ m : Fin 8, d.mvOn m = (s.dev.mvOn m || (s.dev.sys.mvSw.getLsbD m && (s.dev.hw Fl.pwrStatusVclOk 0).testBit m)))) ∧
  (∀ (s : State) (off low high : Nat), low < 10000 ∨ high < 10000 →
    ((s.dev.time.mainsValid = false ∨ s.dev.time.start + off < s.dev.time.mainsLast + 12000000) →
      exec (.mainsEdge ⟨low, high, off⟩) s = .next s) ∧
    (s.dev.time.mainsValid = true → s.dev.time.mainsLast + 12000000 ≤ s.dev.time.start + off →
      exec (.mainsEdge ⟨low, high, off⟩) s = .next { s with dev := { s.dev with time := { s.dev.time with
        mainsValid := false, mainsRef := none } } })) ∧
  (∀ (s : State) (off low high : Nat), 10000 ≤ low → 10000 ≤ high →
    (s.dev.time.mainsValid = false ∨ s.dev.time.start + off < s.dev.time.mainsLast + 12000000) → s.dev.time.mainsRef = none →
    exec (.mainsEdge ⟨low, high, off⟩) s = .next { s with dev := { s.dev with time := { s.dev.time with
      mainsRef := some (s.dev.time.start + off) } } }) ∧
  (∀ (s : State) (off low high r : Nat), 10000 ≤ low → 10000 ≤ high →
    (s.dev.time.mainsValid = false ∨ s.dev.time.start + off < s.dev.time.mainsLast + 12000000) →
    s.dev.time.mainsRef = some r → s.dev.time.start + off - r < 5720000 →
    exec (.mainsEdge ⟨low, high, off⟩) s = .next s) ∧
  (∀ (s : State) (off low high r : Nat), 10000 ≤ low → 10000 ≤ high →
    (s.dev.time.mainsValid = false ∨ s.dev.time.start + off < s.dev.time.mainsLast + 12000000) →
    s.dev.time.mainsRef = some r → 5720000 ≤ s.dev.time.start + off - r →
    s.dev.time.start + off - r ≤ 10000000 →
    exec (.mainsEdge ⟨low, high, off⟩) s = .next { s with dev := { s.dev with time := { s.dev.time with
      mainsRef := some (s.dev.time.start + off), mainsLast := s.dev.time.start + off, mainsCount := s.dev.time.mainsCount + 1,
      mainsPeriod := BitVec.ofNat 31 (s.dev.time.start + off - r), mainsValid := true } } }) ∧
  (∀ (s : State) (off low high r : Nat), 10000 ≤ low → 10000 ≤ high →
    (s.dev.time.mainsValid = false ∨ s.dev.time.start + off < s.dev.time.mainsLast + 12000000) →
    s.dev.time.mainsRef = some r → 10000000 < s.dev.time.start + off - r →
    exec (.mainsEdge ⟨low, high, off⟩) s = .next { s with dev := { s.dev with time := { s.dev.time with
      mainsRef := some (s.dev.time.start + off) } } }) ∧
  (∀ (s : State) (off low high : Nat), 10000 ≤ low → 10000 ≤ high → s.dev.time.mainsValid = true →
    s.dev.time.mainsLast + 12000000 ≤ s.dev.time.start + off →
    exec (.mainsEdge ⟨low, high, off⟩) s = .next { s with dev := { s.dev with time := { s.dev.time with
      mainsValid := false, mainsRef := some (s.dev.time.start + off) } } }) ∧
  (∀ s : State, s.dev.time.mainsValid = true → s.dev.time.mainsLast + 12000000 ≤ s.dev.time.start + s.dev.tickLen →
    exec .mainsTimeout s = .next { s with dev := { s.dev with time := { s.dev.time with mainsValid := false, mainsRef := none } } })

/-- Temperatures and supplies: a movement's measurement reports the largest reading of its selected usable sensors, or 0x7FFF without
one (R477, R478), hands its readings to the latch frame, and raises MV_OVERTEMP at the second measurement in a row at or above the trip
limit (R479, R480); the bus comparators raise VBUS_OV, and VBUS_UV while an axis is armed, once more after an ARM that meets a low bus
(R488); a rail outside its window raises SUPPLY_FAULT (R489), and one below half of its nominal voltage puts the device back into power-on
reset (R505). How long a condition has held comes with the command, a rail's return is open, a sensor's mark acts at once, a measurement
without VALID counts as high, and the commands bring the readings: the model's choices (log entries 31, 58, 60, 173, 174). -/
def Obligations.ThermalAndSupplies : Prop :=
  (∀ (s : State) (m : Fin 9) (rs : List TempSample) (rep : Option Int), m.val < 8 → s.dev.mvRuns m = true →
    rep = Dev.maxInt (((s.dev.usableReadings m (s.dev.tempsOf m rs)).filter fun e => (s.dev.cfg Fl.thermCfgSel m).testBit (e.1 % 6)).map (·.2)) →
    ∃ d, exec (.tempMeasurement m rs) s = .next { s with dev := d } ∧
      d.hw Fl.thermStatusValid m = (if rep.isSome then 1 else 0) ∧
      d.hw Fl.thermStatusTemp m = (BitVec.ofInt 16 (rep.getD 0x7FFF)).toNat ∧
      (∃ l, (d.mv m).temps = (s.dev.mv m).temps ++ l ∧
        ∀ e ∈ l, e.1 ∈ Dev.sensorsOf m ∧ s.dev.sensorEnabled e.1 = true) ∧
      (s.dev.flag Fl.thermStatusTrip m = false → 1 ≤ (s.dev.mv m).trip →
        16 * (min 165 (s.dev.cfg Fl.thermCfgTrip m) : Int) ≤ rep.getD 0x7FFF →
        d.hw Fl.thermStatusTrip m = 1 ∧ s.dev.reacted d .mvOvertemp m m) ∧
      d.hax = s.dev.hax) ∧
  (∀ (s : State) (m : Fin 8) (v : BitVec 12), s.dev.mvOn m = true → min 1800 (s.dev.cfg Fl.vbusLimOv m) < s.dev.vbsOf m v →
    s.dev.flag Fl.vbusStatusOvNow m = false →
    ∃ d, exec (.vbusOv m v) s = .next { s with dev := d } ∧ d.hw Fl.vbusStatusOvNow m = 1 ∧ d.hw Fl.vbusStatusVbs m = s.dev.vbsOf m v ∧
      s.dev.reacted d .vbusOv m m ∧ d.hax = s.dev.hax) ∧
  (∀ (s : State) (m : Fin 8) (v : BitVec 12), s.dev.mvOn m = true → s.dev.mvUnarmed m = false →
    s.dev.vbsOf m v < s.dev.cfg Fl.vbusLimUv m → s.dev.flag Fl.vbusStatusUvNow m = false ∨ (s.dev.mv m).uvNew = true →
    ∃ d, exec (.vbusUv m v) s = .next { s with dev := d } ∧ (d.mv m).uvNew = false ∧ d.hw Fl.vbusStatusUvNow m = 1 ∧ d.hw Fl.vbusStatusVbs m = s.dev.vbsOf m v ∧
      s.dev.reacted d .vbusUv m m ∧ d.hax = s.dev.hax) ∧
  (∀ (s : State) (m : Fin 8) (v : BitVec 12), s.dev.mvUnarmed m = true → exec (.vbusUv m v) s = .next s) ∧
  (∀ (s : State) (r : Fin 4) (mv : Nat), 2 * mv < Dev.railNominal r →
    ∃ d st, exec (.supplyFault ⟨r, mv⟩) s = .next { s with dev := d, store := st } ∧ d.sys.released = false ∧ d.hax = [] ∧ d.mvax = [] ∧
      d.mvs = [] ∧ d.strikes = [] ∧ d.units = [] ∧ d.hif = {} ∧ d.cans = [] ∧ d.regs = {} ∧ d.tickRuns = false ∧
      d.lock.verifier = s.dev.lock.verifier ∧ (s.dev.nvs = none → st = s.store)) ∧
  (∀ (s : State) (r : Fin 4) (mv : Nat), Dev.railNominal r ≤ 2 * mv →
    ¬ (90 * Dev.railNominal r ≤ 100 * mv ∧ 100 * mv ≤ 112 * Dev.railNominal r) →
    ∃ d, exec (.supplyFault ⟨r, mv⟩) s = .next { s with dev := d } ∧
    (d.hw Fl.supplyStatusNow 0).testBit r = true ∧ (d.hw Fl.supplyStatusSeen 0).testBit r = true ∧
    s.dev.reacted d .supplyFault 0 14 ∧ d.hax = s.dev.hax)

/-- The monitor bank: the end of an integration writes its result with the next sequence number (R493, R502), a write of MON_URGENT
takes a converter that is not busy, where a rest waits, and counts as dropped otherwise, also where the rest's end has come (R492), and the
end of a rest begins the scan (R491). When integrations end is computed from the mains period (log entry 126). -/
def Obligations.MonitorBank : Prop :=
  (∀ (s : State) (c : Fin 8) (v : BitVec 20) (clip : Bool) (i : Nat) (u ns : Bool), (s.dev.mon c).run = some (i, u, ns) → i < 32 →
    s.dev.monDue c = true →
    ∃ d, exec (.monitorConversionDone c v clip) s = .next { s with dev := d } ∧
      d.hw Fl.monResValue i = (if clip then 0xFFFFF else v.toNat) ∧
      d.hw Fl.monResSeq i = (s.dev.hw Fl.monResSeq i + 1) % 256 ∧ d.hw Fl.monResClip i = (if clip then 1 else 0) ∧
      d.hw Fl.monResUrgent i = (if u then 1 else 0) ∧ d.hw Fl.monResNosync i = (if ns then 1 else 0) ∧
      (u = true → (d.mon c).run = none) ∧ (∀ k, k ≠ c.val → d.mon k = s.dev.mon k) ∧
      d = { s.dev with regs := d.regs, mons := d.mons, cmds := d.cmds } ∧ s.dev.regsBut d [Reg.offset .monRes i]) ∧
  (∀ (s : State) (v : Word) (off : Nat), s.dev.barOpen = true → s.dev.hubOn 4 = true →
    ∃ d, exec (.monUrgent v off) s = .next { s with dev := d } ∧ d = { s.dev with regs := d.regs, mons := d.mons, flt := d.flt } ∧
      (∀ x, x = s.dev.mon (bits v 0 5 % 8) → x.run = none → (x.resting = false ∨ s.dev.time.start + off < x.ends) →
        d.mon (bits v 0 5 % 8) = { x with
          run := some (bits v 0 5, true, !s.dev.time.mainsValid), ends := s.dev.time.start + off + s.dev.monLen,
          held := if x.resting then x.ends - (s.dev.time.start + off) else 0 } ∧ d.regs = s.dev.regs) ∧
      (∀ x, x = s.dev.mon (bits v 0 5 % 8) → x.run.isSome = true ∨ (x.resting = true ∧ x.ends ≤ s.dev.time.start + off) → d.mons = s.dev.mons ∧
        d.hw Fl.monStatusUrgDrop 0 = min (2 ^ Fl.monStatusUrgDrop.width - 1) (s.dev.hw Fl.monStatusUrgDrop 0 + 1))) ∧
  (∀ (s : State) (c : Fin 8), s.dev.hubOn 4 = true → (s.dev.mon c).resting = true → (s.dev.mon c).run = none →
    s.dev.monDue c = true →
    ∃ d, exec (.monitorRestEnd c) s = .next { s with dev := d } ∧ (d.mon c).resting = false ∧
      (d.mon c).run = (s.dev.monInputs c 0).head?.map (fun i => (i, false, !s.dev.time.mainsValid)) ∧
      (∀ k, k ≠ c.val → d.mon k = s.dev.mon k) ∧ d = { s.dev with mons := d.mons })

/-! ## The message bus (chapter 13) -/

/-- Frames on a bus: an admitted CAN_TX that passes its checks puts its frame behind those queued (R394, R395); integration ends
(R386); a frame received is held for phase 1 where its route takes it, as long as fewer than 16 are held (R390, R391); an attempt sends
the frame that wins arbitration (R396); a frame sent leaves the queue and ends its descriptor in the next phase 1 (R397); the data of
an indirect frame is read where a tag is free, and makes it eligible, or its failure withdraws it (R43, R395). A controller that is on the
bus and not restricted lowers REC for a good frame; above 127 its new value is open between 119 and 127 (R388). The tick of a record, what
takes no place, and what waits for a tag are the model's reading (log entries 30, 54, 56, 130). -/
def Obligations.CanTraffic : Prop :=
  (∀ (s : State) (i : Fin 128) (slot : BitVec 16) (x y : Desc) (c : Nat), y = withOpcode .canTx x → c = bits y.w1 9 2 →
    s.dev.admits .canTx i y → Dev.txCheck y = none → s.dev.on Fl.canCfgEnable c = true → (s.dev.can c).queue.length < 32 →
    ∃ d, exec (.canTx i slot x) s = .next { s with dev := d } ∧ s.dev.slotTaken d i slot ∧
      (∃ t, (d.can c).queue = (s.dev.can c).queue ++ [t] ∧ t.frame = Dev.txFrame y ∧ t.key = (s.dev.can c).nextKey ∧
        t.maxtx = bits y.w3 8 8 ∧ t.tries = 0 ∧ t.eligible = !y.opflag 0) ∧
      (y.opflag 0 = true → s.dev.busFree = true → (d.can c).reads = (s.dev.can c).reads ++ [(s.dev.can c).nextKey] ∧
        d.hif.early = s.dev.hif.early ++ [.readData c (s.dev.can c).nextKey (y.addr 4)]) ∧
      (y.opflag 0 = false ∨ s.dev.busFree = false → (d.can c).reads = (s.dev.can c).reads ∧ d.hif.early = s.dev.hif.early) ∧
      (∀ k, k ≠ c → d.can k = s.dev.can k) ∧ d = { s.dev with hif := d.hif, cans := d.cans, regs := d.regs }) ∧
  (∀ (s : State) (c : Fin 4), ∃ d, exec (.integrationDone c) s = .next { s with dev := d } ∧
    d.can c = { s.dev.can c with integrating := false } ∧ (∀ k, k ≠ c.val → d.can k = s.dev.can k) ∧
      d = { s.dev with cans := d.cans }) ∧
  (∀ (s : State) (c : Fin 4) (f : Frame), Dev.onBus (s.dev.can c) = true → (s.dev.can c).active = none →
    (s.dev.can c).leaving = false → (s.dev.can c).held.length < 16 →
    ∃ d, exec (.canFrameReceived c f) s = .next { s with dev := d } ∧
      (d.can c).held = (s.dev.can c).held ++
        (if (s.dev.routes c f).1 || (s.dev.routes c f).2 then [(f, s.dev.routes c f)] else []) ∧
      (d.can c).queue = (s.dev.can c).queue ∧ (d.can c).tec = (s.dev.can c).tec ∧
      (s.dev.restricted c = true → (d.can c).recv = (s.dev.can c).recv) ∧
      (s.dev.restricted c = false → (s.dev.can c).recv ≤ 127 → (d.can c).recv = (s.dev.can c).recv - 1) ∧
      (s.dev.restricted c = false → 127 < (s.dev.can c).recv → 119 ≤ (d.can c).recv ∧ (d.can c).recv ≤ 127) ∧
      (∀ k, k ≠ c.val → d.can k = s.dev.can k) ∧ d = { s.dev with cans := d.cans, fresh := d.fresh }) ∧
  (∀ (s : State) (c : Fin 4) (n : Option Nat) (t : TxFrame), Dev.onBus (s.dev.can c) = true → (s.dev.can c).active = none →
    s.dev.restricted c = false → Dev.bestTx ((s.dev.can c).queue.filter (·.eligible)) = some t →
    ∃ d, exec (.canTxAttempt c n) s = .next { s with dev := d } ∧ (d.can c).active = some t.key ∧
      d.out = s.dev.out ++ [.canFrame c { t.frame with esi := t.frame.fdf && Dev.passive (s.dev.can c) }] ∧
      (d.can c).queue = ((s.dev.can c).queue.map fun u => if u.key = t.key then
        { u with frame := { t.frame with esi := t.frame.fdf && Dev.passive (s.dev.can c) } } else u) ∧
      (∀ k, k ≠ c.val → d.can k = s.dev.can k) ∧ d = { s.dev with cans := d.cans, out := d.out, regs := d.regs }) ∧
  (∀ (s : State) (c : Fin 4) (t : TxFrame), Dev.inFlight (s.dev.can c) = some t → t.gone = 0 → (s.dev.can c).leaving = false →
    s.dev.on Fl.canCfgSelfrx c = false →
    ∃ d, exec (.canTxSuccess c) s = .next { s with dev := d } ∧ (d.can c).active = none ∧
      (∀ u, u ∈ (d.can c).queue ↔ u ∈ (s.dev.can c).queue ∧ u.key ≠ t.key) ∧
      (d.can c).ends = (s.dev.can c).ends ++ [(t.act, .ok, Dev.txWord t (t.tries + 1) (Dev.passive (s.dev.can c)))] ∧
      (s.dev.restricted c = false → (d.can c).tec = (s.dev.can c).tec - 1) ∧
      (∀ k, k ≠ c.val → d.can k = s.dev.can k) ∧ d = { s.dev with cans := d.cans }) ∧
  (∀ (s : State) (c : Fin 4) (key : Nat) (data : Option (List Byte)) (t : TxFrame),
    (s.dev.can c).queue.find? (fun t => t.key == key && !t.eligible) = some t → key ∈ (s.dev.can c).reads → s.dev.readOut c key = true →
    ∃ d, exec (.canDataRead c key data) s = .next { s with dev := d } ∧
      (data = none → (∀ u ∈ (d.can c).queue, u.key ≠ key) ∧
        (d.can c).ends = (s.dev.can c).ends ++ [(t.act, .aborted, Dev.abortWord t 5)]) ∧
      (∀ b, data = some b → (d.can c).ends = (s.dev.can c).ends ∧ ∀ u ∈ (d.can c).queue, u.key = key → u.eligible = true) ∧
      (∀ k, k ≠ c.val → { d.can k with reads := [] } = { s.dev.can k with reads := [] }) ∧
      (∀ j, { d.sq j with asked := (s.dev.sq j).asked } = s.dev.sq j) ∧
      (∀ n, { d.sign n with asked := [] } = { s.dev.sign n with asked := [] }) ∧
      d = { s.dev with cans := d.cans, hif := d.hif, signs := d.signs, out := d.out }) ∧
  (∀ (s : State) (c : Fin 4) (key : Nat) (data : Option (List Byte)), key ∉ (s.dev.can c).reads ∨ s.dev.readOut c key = false →
    exec (.canDataRead c key data) s = .next s)

/-- Errors on a bus: an error while transmitting shows in the last error code of its phase, counts an attempt and raises TEC by 8 but for
the two exceptions of the standard; one while receiving raises REC; both count the active error flag that follows, and a further error of
a flag raises the counter by 8 alone (R388, R397, R402, R403; the counters follow ISO 11898-1, log entries 30 and 57); a TEC
above 255 is bus-off, which is counted and raises CAN_BUS_OFF (R389); RECOVER starts the recovery that waits, its end clears both
counters, and FLUSH leaves no frame but the one in transmission (R389, R398). -/
def Obligations.CanErrors : Prop :=
  (∀ (s : State) (c : Fin 4) (code : BitVec 3) (dp mild : Bool) (t : TxFrame), Dev.onBus (s.dev.can c) = true →
    Dev.inFlight (s.dev.can c) = some t → s.dev.restricted c = false → t.gone = 0 → t.maxtx = 0 → (s.dev.can c).leaving = false →
    ∃ d, exec (.canError c (.tx code dp mild)) s = .next { s with dev := d } ∧ (d.can c).active = none ∧
      d.hw (if dp then Fl.canStatusDlec else Fl.canStatusLec) c = code.toNat ∧
      d.hw (if dp then Fl.canStatusLec else Fl.canStatusDlec) c = s.dev.hw (if dp then Fl.canStatusLec else Fl.canStatusDlec) c ∧
      d.hw Fl.canErrlogErrframes c = (if Dev.passive (s.dev.can c) then s.dev.hw Fl.canErrlogErrframes c
        else min (2 ^ Fl.canErrlogErrframes.width - 1) (s.dev.hw Fl.canErrlogErrframes c + 1)) ∧
      (d.can c).tec = (s.dev.can c).tec +
        (if mild && ((Dev.passive (s.dev.can c) && code == 3) || (code == 1 && !dp)) then 0 else 8) ∧
      (∃ u ∈ (d.can c).queue, u = { t with tries := t.tries + 1 }) ∧
      (∀ k, k ≠ c.val → d.can k = s.dev.can k) ∧ d = { s.dev with cans := d.cans, regs := d.regs }) ∧
  (∀ (s : State) (c : Fin 4) (sending : Bool), Dev.onBus (s.dev.can c) = true → s.dev.restricted c = false →
    ∃ d, exec (.canError c (.flag sending)) s = .next { s with dev := d } ∧
      d.can c = (if sending then { s.dev.can c with tec := (s.dev.can c).tec + 8 }
        else { s.dev.can c with recv := min 255 ((s.dev.can c).recv + 8) }) ∧
      (∀ k, k ≠ c.val → d.can k = s.dev.can k) ∧ d = { s.dev with cans := d.cans }) ∧
  (∀ (s : State) (c : Fin 4) (code : BitVec 3) (dp after : Bool), Dev.onBus (s.dev.can c) = true → (s.dev.can c).active = none →
    s.dev.restricted c = false → (s.dev.can c).leaving = false →
    ∃ d, exec (.canError c (.rx code dp after)) s = .next { s with dev := d } ∧
      d.can c = { s.dev.can c with recv := min 255 ((s.dev.can c).recv + 1 + if after then 8 else 0) } ∧
      d.hw (if dp then Fl.canStatusDlec else Fl.canStatusLec) c = code.toNat ∧
      d.hw Fl.canErrlogErrframes c = (if Dev.passive (s.dev.can c) then s.dev.hw Fl.canErrlogErrframes c
        else min (2 ^ Fl.canErrlogErrframes.width - 1) (s.dev.hw Fl.canErrlogErrframes c + 1)) ∧
      (∀ k, k ≠ c.val → d.can k = s.dev.can k) ∧ d = { s.dev with cans := d.cans, regs := d.regs }) ∧
  (∀ (s : State) (c : Fin 4), (s.dev.can c).on = true → (s.dev.can c).integrating = false → (s.dev.can c).busOff = false →
    255 < (s.dev.can c).tec →
    ∃ d, exec (.busOff c) s = .next { s with dev := d } ∧ (d.can c).busOff = true ∧
      d.hw Fl.canErrlogBoffCnt c = min 255 (s.dev.hw Fl.canErrlogBoffCnt c + 1) ∧ s.dev.reacted d .canBusOff 0 12 ∧
      (if s.dev.on Fl.canCfgBoffAuto c then d.hw Fl.canStatusRecovering c = 1 else d.hw Fl.canStatusBoffWait c = 1) ∧
      ∀ k, k ≠ c.val → d.can k = s.dev.can k) ∧
  (∀ (s : State) (c : Fin 4) (v : Word) (off : Nat), s.dev.barOpen = true → s.dev.hubOn 3 = true → bit v 1 = false →
    s.dev.flag Fl.canStatusBoffWait c = true →
    ∃ d, exec (.recover c v off) s = .next { s with dev := d } ∧ d.hw Fl.canStatusBoffWait c = 0 ∧
      d.hw Fl.canStatusRecovering c = 1 ∧ d = { s.dev with regs := d.regs, flt := d.flt } ∧
      s.dev.regsBut d [Reg.offset .canStatus c]) ∧
  (∀ (s : State) (c : Fin 4), s.dev.flag Fl.canStatusRecovering c = true →
    ∃ d, exec (.busOffRecoveryDone c) s = .next { s with dev := d } ∧
      d.can c = { s.dev.can c with tec := 0, recv := 0, busOff := false } ∧ d.hw Fl.canStatusRecovering c = 0 ∧
      (∀ k, k ≠ c.val → d.can k = s.dev.can k) ∧ d = { s.dev with cans := d.cans, regs := d.regs } ∧
      s.dev.regsBut d [Reg.offset .canStatus c]) ∧
  (∀ (s : State) (c : Fin 4) (v : Word) (off : Nat), s.dev.barOpen = true → s.dev.hubOn 3 = true →
    ∃ d, exec (.flush c v off) s = .next { s with dev := d } ∧ (d.can c).active = (s.dev.can c).active ∧
      (∀ t ∈ (d.can c).queue, some t.key = (s.dev.can c).active ∧ t.gone ≠ 0) ∧
      (∀ t ∈ (s.dev.can c).queue, some t.key = (s.dev.can c).active → ∃ u ∈ (d.can c).queue, u.key = t.key ∧ u.frame = t.frame) ∧
      (∀ k, k ≠ c.val → d.can k = s.dev.can k) ∧ d = { s.dev with cans := d.cans, regs := d.regs, flt := d.flt })

/-! ## The access lock and the store (chapters 15 and 17) -/

/-- The access lock. A write of LOCK_CMD starts its command: BUSY stands, any nonce goes, and RELOCK closes the scopes of its mask at
once (R461, R462, R464); while one runs, another is ignored (the model's choice, log entry 33). The right password opens the scopes of
its mask and clears FAILS; a wrong one counts, and from the eighth on starts a lockout (R461, R463); SETPW writes the verifier only
with all scopes open and a blank verifier, and is refused otherwise (R465); the nonce and the lockout expire (R462, R463). -/
def Obligations.LockCommands : Prop :=
  (∀ (s : State) (v : Word) (off op : Nat) (c : Instr),
    (c, op) ∈ [(Instr.password v off, 0), (.challenge v off, 1), (.response v off, 2), (.relock v off, 3), (.setpw v off, 4)] →
    s.dev.barOpen = true → s.dev.lock.run = none →
    ∃ d, exec c s = .next { s with dev := d } ∧ d.lock.run.isSome = true ∧ d.hw Fl.lockStatusBusy 0 = 1 ∧
      d.hw Fl.lockStatusNonceValid 0 = 0 ∧
      (∀ k < 3, (d.hw Fl.lockStatusScopes 0).testBit k = ((s.dev.hw Fl.lockStatusScopes 0).testBit k && !(decide (op = 3) && bit v (4 + k)))) ∧
      (op ≠ 3 → d = { s.dev with lock := d.lock, regs := d.regs, flt := d.flt } ∧
        s.dev.regsBut d [Reg.offset .lockStatus 0])) ∧
  (∀ (s : State) (v : Word) (off : Nat) (c : Instr),
    c ∈ [Instr.password v off, .challenge v off, .response v off, .relock v off, .setpw v off] →
    s.dev.barOpen = true → s.dev.lock.run.isSome = true →
    ∃ d, exec c s = .next { s with dev := d } ∧ d = { s.dev with flt := d.flt }) ∧
  (∀ (s : State) (mask : BitVec 3) (v : BitVec 256), s.dev.lock.run = some (.password mask) → s.dev.lock.verifier = some v →
    s.dev.flag Fl.lockStatusLockout 0 = false →
    ∃ d, exec .lockCommandDone s = .next { s with dev := d } ∧ d.lock.run = none ∧ d.hw Fl.lockStatusBusy 0 = 0 ∧
      (s.dev.pwHash = v → d.hw Fl.lockStatusScopes 0 = s.dev.hw Fl.lockStatusScopes 0 ||| mask.toNat ∧
        d.hw Fl.lockStatusFails 0 = 0 ∧ d.hw Fl.lockStatusLast 0 = 1) ∧
      (s.dev.pwHash ≠ v → d.hw Fl.lockStatusScopes 0 = s.dev.hw Fl.lockStatusScopes 0 ∧
        d.hw Fl.lockStatusFails 0 = min 255 (s.dev.hw Fl.lockStatusFails 0 + 1) ∧ d.hw Fl.lockStatusLast 0 = 2 ∧
        (d.hw Fl.lockStatusLockout 0 = 1 ↔ 8 ≤ d.hw Fl.lockStatusFails 0)) ∧
      d = { s.dev with lock := d.lock, regs := d.regs }) ∧
  (∀ s : State, s.dev.lock.run = some .setpw →
    ∃ d, exec .lockCommandDone s = .next { s with dev := d } ∧ d.lock.run = none ∧
      (s.dev.hw Fl.lockStatusScopes 0 = 7 → s.dev.lock.verifier = none →
        d.lock.verifier = some s.dev.pwHash ∧ d.hw Fl.lockStatusPwSet 0 = 1) ∧
      ((s.dev.hw Fl.lockStatusScopes 0 ≠ 7 ∨ s.dev.lock.verifier ≠ none) →
        d.lock.verifier = s.dev.lock.verifier ∧ d.hw Fl.lockStatusRefused 0 = 1) ∧
      d.hw Fl.lockStatusScopes 0 = s.dev.hw Fl.lockStatusScopes 0 ∧ d = { s.dev with lock := d.lock, regs := d.regs }) ∧
  (∀ s : State, ∃ d, exec .nonceExpiry s = .next { s with dev := d } ∧ d.hw Fl.lockStatusNonceValid 0 = 0 ∧
    d = { s.dev with regs := d.regs } ∧ s.dev.regsBut d [Reg.offset .lockStatus 0]) ∧
  (∀ s : State, ∃ d, exec .lockoutExpiry s = .next { s with dev := d } ∧ d.hw Fl.lockStatusLockout 0 = 0 ∧
    d.hw Fl.lockStatusFails 0 = s.dev.hw Fl.lockStatusFails 0 ∧
    d = { s.dev with regs := d.regs } ∧ s.dev.regsBut d [Reg.offset .lockStatus 0, Reg.offset .lockWait 0])

/-- The store: a command of NVS_CMD starts where no reason of R528 holds, and is refused with the first reason otherwise (R527, R528);
a program that has ended leaves its page in the store and every other byte as it was, an erase leaves its slot erased, a read leaves
the store and brings the page into the buffer (R527). What an unwritten byte reads as, which reason stands where several hold, when the
buffer is read, and the bytes behind a failed or cut program are the model's choices (log entries 14, 35, 36, 45, 46). -/
def Obligations.StoreCommands : Prop :=
  (∀ (s : State) (v : Word) (off op : Nat) (c : Instr),
    (c, op) ∈ [(Instr.nvsRead v off, 0), (.nvsProgram v off, 1), (.nvsErase v off, 2)] →
    s.dev.barOpen = true → s.dev.hubOn 5 = true →
    ∃ d, exec c s = .next { s with dev := d } ∧
      (s.dev.nvsReason s.store op (bits v 2 1) = 0 → d.hw Fl.nvsStatusBusy 0 = 1 ∧
        d.nvs = some (if op = 0 then .read (s.dev.accepted Fl.nvsAddrPage 0)
          else if op = 1 then .program (s.dev.accepted Fl.nvsAddrPage 0) else .erase (bits v 2 1))) ∧
      (s.dev.nvsReason s.store op (bits v 2 1) ≠ 0 → d.nvs = s.dev.nvs ∧ d.hw Fl.nvsStatusRefused 0 = 1 ∧
        d.hw Fl.nvsStatusReason 0 = s.dev.nvsReason s.store op (bits v 2 1)) ∧
      d = { s.dev with nvs := d.nvs, regs := d.regs, flt := d.flt } ∧ s.dev.regsBut d [Reg.offset .nvsStatus 0]) ∧
  (∀ (s : State) (page : Nat), s.dev.nvs = some (.program page) → s.dev.hubOn 5 = true → s.storeOk →
    ∃ t, exec (.nvsCommandDone true) s = .next t ∧ t.dev.nvs = none ∧ t.dev.hw Fl.nvsStatusBusy 0 = 0 ∧
      t.dev.hw Fl.nvsStatusDone 0 = 1 ∧ t.dev.hw Fl.nvsStatusVerifyFail 0 = s.dev.hw Fl.nvsStatusVerifyFail 0 ∧
      (∀ k < 256, Mem.read t.store (page * 256 + k) = s.dev.pageBytes.getD k 0) ∧
      (∀ a, a < page * 256 ∨ page * 256 + 256 ≤ a → Mem.read t.store a = Mem.read s.store a)) ∧
  (∀ (s : State) (page : Nat), s.dev.nvs = some (.program page) → s.dev.hubOn 5 = true → s.storeOk →
    ∃ t, exec (.nvsCommandDone false) s = .next t ∧ t.dev.nvs = none ∧ t.dev.hw Fl.nvsStatusVerifyFail 0 = 1 ∧
      (∀ a, a < page * 256 ∨ page * 256 + 256 ≤ a → Mem.read t.store a = Mem.read s.store a)) ∧
  (∀ (s : State) (slot : Nat) (v : Bool), s.dev.nvs = some (.erase slot) → s.dev.hubOn 5 = true →
    ∃ t, exec (.nvsCommandDone v) s = .next t ∧ t.dev.nvs = none ∧ t.dev.hw Fl.nvsStatusDone 0 = 1 ∧
      ∀ a, Mem.read t.store a = if a / 0x40000 = slot then 0xFF else Mem.read s.store a) ∧
  (∀ (s : State) (page : Nat) (v : Bool), s.dev.nvs = some (.read page) → s.dev.hubOn 5 = true →
    ∃ t, exec (.nvsCommandDone v) s = .next t ∧ t.dev.nvs = none ∧ t.dev.hw Fl.nvsStatusDone 0 = 1 ∧ t.store = s.store ∧
      ∀ k < 64, t.dev.accepted Fl.nvsDataData k = Dev.storeWordAt s.store (page * 256 + 4 * k))

/-! ## Resets and domains (chapter 17) -/

/-- Resets of the device: power-on reset releases the block with every axis, ring and strike at its reset value (R517, R518); a device
reset keeps the latched positions and FAILS, shows its cause, and closes every scope (R463, R464, R517, R532); one that cannot come
changes nothing; the image load ends with DONE once every movement that is on has trained or shows TRAIN_FAIL, not before, and without a
valid slot leaves every register at its reset value (R522, R526, R555). -/
def Obligations.DeviceResets : Prop :=
  (∀ (s : State) (vcl : BitVec 8), ∃ d st, exec (.powerOnReset vcl) s = .next { s with dev := d, store := st } ∧
    d.sys.released = true ∧ d.hax = [] ∧ d.mvax = [] ∧ d.mvs = [] ∧ d.strikes = [] ∧ d.units = [] ∧ d.hif = {} ∧ d.cans = [] ∧
    d.hw Fl.pwrStatusVclOk 0 = vcl.toNat ∧ d.hw Fl.lockStatusScopes 0 = 0 ∧ d.tickRuns = false ∧
    d.lock.verifier = s.dev.lock.verifier ∧ (s.dev.nvs = none → st = s.store)) ∧
  (∀ (s : State) (cause : ResetCause) (vcl : BitVec 8), s.dev.canReset cause = true →
    ∃ d st, exec (.deviceReset cause vcl) s = .next { s with dev := d, store := st } ∧
      d.hw Fl.rstStatusCause 0 = Dev.causeCode cause ∧ d.hw Fl.lockStatusScopes 0 = 0 ∧
      d.hw Fl.lockStatusFails 0 = s.dev.hw Fl.lockStatusFails 0 ∧ d.lock.verifier = s.dev.lock.verifier ∧
      (∀ n < 64, d.axis n = { lat := { pos := (s.dev.axis n).lat.pos } }) ∧ d.strikes = [] ∧ d.hif.sqs = [] ∧ d.units = [] ∧
      (s.dev.nvs = none → st = s.store)) ∧
  (∀ (s : State) (cause : ResetCause) (vcl : BitVec 8), s.dev.canReset cause = false →
    exec (.deviceReset cause vcl) s = .next s) ∧
  (∀ s : State, s.dev.sys.released = true → s.dev.flag Fl.clkStatusPllLock 0 = true → s.dev.flag Fl.imgStatusDone 0 = false →
    (∀ m : Fin 8, s.dev.mvOn m = true → s.dev.trained m = true ∨ (s.dev.hw Fl.pwrEvtTrainFail 0).testBit m = true) →
    ∃ d, exec .imageLoadDone s = .next { s with dev := d } ∧ d.hw Fl.imgStatusDone 0 = 1 ∧ d.sys.rstCmd = false ∧
      (pickSlot s.store s.dev.sys.badSlots = none → d.hw Fl.imgStatusSlot 0 = 2 ∧ d.regs.acc = s.dev.regs.acc ∧
        d.regs.force = s.dev.regs.force ∧ d.hax = s.dev.hax)) ∧
  (∀ (s : State) (m : Fin 8), s.dev.mvOn m = true → s.dev.trained m = false → (s.dev.hw Fl.pwrEvtTrainFail 0).testBit m = false →
    exec .imageLoadDone s = .next s)

/-- Movements that go and come: below 1.08 V a movement is off, its axes' drives are OFF, its STO pins start active and its link is not
trained (R435, R511, R516); the release brings it out of reset with the tick rate in force and its axes unarmed, where it is switched on
and the ticks run, and shows VCL valid in any case (R37, R511, R530). No other movement changes. -/
def Obligations.MovementResets : Prop :=
  (∀ (s : State) (m : Fin 8), s.dev.mvOn m = true →
    ∃ d, exec (.movementReset m) s = .next { s with dev := d } ∧ d.mvOn m = false ∧
      (d.hw Fl.pwrStatusVclOk 0).testBit m = false ∧ d.hw Fl.linkStatusTrained m = 0 ∧
      (d.hw Fl.stoStatusPinA 0).testBit m = true ∧ (d.hw Fl.stoStatusPinB 0).testBit m = true ∧
      (∀ j : Fin 8, (d.mva (8 * m.val + j.val)).drive = .off ∧ (d.axis (8 * m.val + j.val)).lat.drive = .off ∧
        (d.axis (8 * m.val + j.val)).lat.pos = (s.dev.axis (8 * m.val + j.val)).lat.pos ∧
        d.hw Fl.motionStatusPosUnverified (8 * m.val + j.val) = 1) ∧
      (∀ n, n / 8 ≠ m.val → d.mva n = s.dev.mva n ∧ d.axis n = s.dev.axis n) ∧
      (∀ k : Fin 8, k ≠ m → d.mvOn k = s.dev.mvOn k ∧ d.mv k = s.dev.mv k)) ∧
  (∀ (s : State) (m : Fin 8), s.dev.sys.released = true → s.dev.mvOn m = false →
    s.dev.sys.ticking = false ∨ s.dev.sys.mvSw.getLsbD m = false →
    ∃ d, exec (.movementResetRelease m) s = .next { s with dev := d } ∧ (d.hw Fl.pwrStatusVclOk 0).testBit m = true ∧
      (∀ k : Fin 8, k ≠ m → (d.hw Fl.pwrStatusVclOk 0).testBit k = (s.dev.hw Fl.pwrStatusVclOk 0).testBit k) ∧
      (∀ k : Fin 8, d.mvOn k = s.dev.mvOn k) ∧ d = { s.dev with regs := d.regs } ∧ s.dev.regsBut d [Reg.offset .pwrStatus 0]) ∧
  (∀ (s : State) (m : Fin 8), s.dev.sys.released = true → s.dev.sys.ticking = true → s.dev.mvOn m = false →
    s.dev.sys.mvSw.getLsbD m = true →
    ∃ d, exec (.movementResetRelease m) s = .next { s with dev := d } ∧ d.mvOn m = true ∧
      (d.hw Fl.pwrStatusVclOk 0).testBit m = true ∧ (d.mv m).load = true ∧ (d.mv m).rate = s.dev.time.rate ∧
      (∀ j : Fin 8, (d.axis (8 * m.val + j.val)).armed = false ∨ (s.dev.axis (8 * m.val + j.val)).st = .safe) ∧
      (∀ n, n / 8 ≠ m.val → (s.dev.axis n).st ≠ .moving → d.axis n = s.dev.axis n) ∧
      (∀ k : Fin 8, k ≠ m → d.mvOn k = s.dev.mvOn k ∧ d.mv k = s.dev.mv k))

/-- Switching by set-up registers (R12, R36, R508, R510, R511, R529): PWR_CTRL.MV of a movement that is no orphan and has no armed axis
takes its new bit at once, while the movement itself follows at the tick boundary; with an armed axis the change is rejected; a hub
domain bit that falls while every axis is unarmed switches its domain off; a tick rate is accepted with every axis unarmed and waits
for the tick boundary, and is rejected otherwise. That bits are judged one by one, how movements follow the rate, and how domains switch
are the model's reading (log entries 42, 49, 63, 64). -/
def Obligations.PowerAndRateWrites : Prop :=
  (∀ (s : State) (m : Fin 8) (v : Word) (off : Nat) (c : Instr) (b : Bool),
    (c, b) ∈ [(Instr.movementSwitchOff m v off, false), (.movementSwitchOn m v off, true)] →
    s.dev.barOpen = true → s.dev.orphan m = false → s.dev.mvUnarmed m = true →
    ∃ d, exec c s = .next { s with dev := d } ∧ (d.cfg Fl.pwrCtrlMv 0).testBit m = b ∧ (d.accepted Fl.pwrCtrlMv 0).testBit m = b ∧
      (∀ k : Fin 8, d.mvOn k = s.dev.mvOn k) ∧ d.hax = s.dev.hax ∧ d.mvax = s.dev.mvax) ∧
  (∀ (s : State) (m : Fin 8) (v : Word) (off : Nat) (c : Instr) (b : Bool),
    (c, b) ∈ [(Instr.movementSwitchOff m v off, false), (.movementSwitchOn m v off, true)] →
    s.dev.barOpen = true → (s.dev.accepted Fl.pwrCtrlMv 0).testBit m ≠ b → s.dev.mvUnarmed m = false →
    ∃ d, exec c s = .next { s with dev := d } ∧ (d.accepted Fl.pwrCtrlMv 0).testBit m = (s.dev.accepted Fl.pwrCtrlMv 0).testBit m ∧
      (d.cfg Fl.pwrCtrlMv 0).testBit m = (s.dev.cfg Fl.pwrCtrlMv 0).testBit m ∧ d.hw Fl.pwrStatusWriteRejected 0 = 1) ∧
  (∀ (s : State) (v : Word) (off : Nat) (k : Fin 3), s.dev.barOpen = true → (∀ n < 64, (s.dev.axis n).armed = false) →
    ∃ d, exec (.hubDomainSwitch v off) s = .next { s with dev := d } ∧
      bit (regWord d.regs.force .pwrCtrl 0) (8 + k.val) = bit v (8 + k.val) ∧
      (bit v (8 + k.val) = false → d.hubOn k = false) ∧ (bit v (8 + k.val) = true → d.hubOn k = s.dev.hubOn k) ∧ d.hax = s.dev.hax) ∧
  (∀ (s : State) (v : Word) (off : Nat), s.dev.barOpen = true → (∀ n < 64, (s.dev.axis n).armed = false) → bits v 0 2 ≠ 3 →
    ∃ d, exec (.tickRateChange v off) s = .next { s with dev := d } ∧ d.accepted Fl.tickCfgRate 0 = bits v 0 2 ∧
      d.regs.force = s.dev.regs.force ∧
      d.regs.pend = s.dev.regs.pend ++ [⟨Reg.offset .tickCfg 0, 3, v, false, true⟩] ∧
      d = { s.dev with regs := d.regs, flt := d.flt }) ∧
  (∀ (s : State) (v : Word) (off n : Nat), s.dev.barOpen = true → n < 64 → (s.dev.axis n).armed = true →
    bits v 0 2 ≠ s.dev.accepted Fl.tickCfgRate 0 →
    ∃ d, exec (.tickRateChange v off) s = .next { s with dev := d } ∧ d.regs.acc = s.dev.regs.acc ∧ d.regs.pend = s.dev.regs.pend ∧
      d.hw Fl.regStatusWriteRejected 0 = 1 ∧ d = { s.dev with regs := d.regs, flt := d.flt })

/-! ## Set-up registers (chapter 18) -/

/-- Accesses of BAR0. A register write always has an outcome. While BAR0 is not decoded it changes nothing; one of another size or
alignment is discarded and sets BAD_ACCESS (R42); an aligned one outside the map sets UNMAPPED, one to an absent entry changes nothing,
one to a domain that is off sets OFF_DOMAIN, one to a movement's register while that movement is an orphan sets ORPHAN_WRITE, each with
the offset in ADDR (R537, R538, R548); and a Live field of FLT_ALERT, FLT_CFG, ESC_CFG, NVS_ADDR, NVS_DATA, MOTION_DMAX, MOTION_STILL,
MOTION_INPOS or SW_CFG is accepted and in force at once (R540, R544). A read of another size or alignment answers 0xFFFF_FFFF and sets
BAD_ACCESS (R42). A 64-bit value is read as two halves: the low one answers its bits and keeps the high ones in the snapshot of its
block, which the high one answers; a high one without such a low one shows as stale (R545). While a reset by RST_CMD runs, the halves
and the bad reads answer 0xFFFF_FFFF (R521); without the link nothing answers. At which instant a die has registered a write is the model's
reading (log entry 41). -/
def Obligations.AccessesAndHalves : Prop :=
  (∀ (s : State) (a : BitVec 20) (v : Word) (off : Nat), ∃ d, exec (.registerWrite a v off) s = .next { s with dev := d } ∧
    (s.dev.barOpen = false → d = s.dev)) ∧
  (∀ (s : State) (a : BitVec 20) (v : Word) (off : Nat), s.dev.barOpen = true → a.toNat % 4 ≠ 0 →
    ∃ d, exec (.registerWrite a v off) s = .next { s with dev := d } ∧ d.hw Fl.hifStatusBadAccess 0 = 1 ∧
      d = { s.dev with regs := d.regs } ∧ s.dev.regsBut d [Reg.offset .hifStatus 0]) ∧
  (∀ (s : State) (a : BitVec 20) (v : Word) (off : Nat), s.dev.barOpen = true → a.toNat % 4 = 0 → decodeOffset a.toNat = none →
    ∃ d, exec (.registerWrite a v off) s = .next { s with dev := d } ∧ d.hw Fl.regStatusUnmapped 0 = 1 ∧
      d.hw Fl.regStatusAddr 0 = a.toNat ∧ d = { s.dev with regs := d.regs } ∧ s.dev.regsBut d [Reg.offset .regStatus 0]) ∧
  (∀ (s : State) (a : BitVec 20) (v : Word) (off i : Nat) (r : Reg), s.dev.barOpen = true → a.toNat % 4 = 0 →
    decodeOffset a.toNat = some (r, i) → Dev.absent r i = true → exec (.registerWrite a v off) s = .next s) ∧
  (∀ (s : State) (a : BitVec 20) (v : Word) (off i : Nat) (r : Reg), s.dev.barOpen = true → a.toNat % 4 = 0 →
    decodeOffset a.toNat = some (r, i) → Dev.absent r i = false → s.dev.serves r a.toNat = false →
    ∃ d, exec (.registerWrite a v off) s = .next { s with dev := d } ∧ d.hw Fl.regStatusOffDomain 0 = 1 ∧
      d.hw Fl.regStatusAddr 0 = a.toNat ∧ d = { s.dev with regs := d.regs } ∧
      s.dev.regsBut d [Reg.offset .regStatus 0, Reg.offset .nvsStatus 0]) ∧
  (∀ (s : State) (a : BitVec 20) (v : Word) (off i m : Nat) (r : Reg), s.dev.barOpen = true → a.toNat % 4 = 0 →
    decodeOffset a.toNat = some (r, i) → r.place.dom = .mv → Dev.pageMv a.toNat = some m → s.dev.serves r a.toNat = true →
    s.dev.orphan m = true →
    ∃ d, exec (.registerWrite a v off) s = .next { s with dev := d } ∧ d.hw Fl.regStatusOrphanWrite 0 = 1 ∧
      d.hw Fl.regStatusAddr 0 = a.toNat ∧ d = { s.dev with regs := d.regs } ∧ s.dev.regsBut d [Reg.offset .regStatus 0]) ∧
  (∀ (s : State) (a : BitVec 20) (v : Word) (off i : Nat) (f : Fld), f ∈ [Fl.fltAlertLevel, Fl.fltCfgIrqEn, Fl.fltCfgPulse,
      Fl.fltCfgHubmap, Fl.escCfgIrqEn, Fl.nvsAddrPage, Fl.nvsDataData, Fl.motionDmaxDmax, Fl.motionStillSpeed, Fl.motionStillTicks,
      Fl.motionInposWindow, Fl.motionInposSettle, Fl.motionInposFollow, Fl.swCfgEdgeA, Fl.swCfgOnceA, Fl.swCfgEdgeB, Fl.swCfgOnceB] →
    s.dev.barOpen = true → a.toNat % 4 = 0 → decodeOffset a.toNat = some (f.reg, i) → s.dev.serves f.reg a.toNat = true →
    ∃ d, exec (.registerWrite a v off) s = .next { s with dev := d } ∧ d.accepted f i = bits v f.lo f.width ∧
      d.cfg f i = bits v f.lo f.width ∧ d.regs.hw = s.dev.regs.hw ∧ d.regs.pend = s.dev.regs.pend ∧
      (∀ o, o ≠ a.toNat → SMap.find d.regs.acc o = SMap.find s.dev.regs.acc o ∧
        SMap.find d.regs.force o = SMap.find s.dev.regs.force o) ∧ d = { s.dev with regs := d.regs, flt := d.flt }) ∧
  (∀ (s : State) (w : Bool), s.dev.barOpen = true →
    ∃ d, exec (.badAccess w) s = .next { s with dev := d } ∧ d.hw Fl.hifStatusBadAccess 0 = 1 ∧
      d.regs.rdata = (if w then s.dev.regs.rdata else 0xFFFFFFFF) ∧
      d = { s.dev with regs := { s.dev.regs with hw := d.regs.hw, rdata := d.regs.rdata } } ∧
      ∀ o, o ≠ Reg.offset .hifStatus 0 → SMap.find d.regs.hw o = SMap.find s.dev.regs.hw o) ∧
  (∀ (s : State) (c : Instr), (∃ p, c = .lowHalfRead p ∨ c = .highHalfRead p) ∨ c = .badAccess false →
    s.dev.hif.linkUp = true → s.dev.hif.d3hot = false → s.dev.sys.rstCmd = true →
    exec c s = .next { s with dev := { s.dev with regs := { s.dev.regs with rdata := 0xFFFFFFFF } } }) ∧
  (∀ (s : State) (c : Instr), ((∃ p, c = .lowHalfRead p ∨ c = .highHalfRead p) ∨ ∃ w, c = .badAccess w) → s.dev.barOpen = false →
    s.dev.hif.linkUp = false ∨ s.dev.hif.d3hot = true ∨ s.dev.sys.rstCmd = false ∨ c = .badAccess true → exec c s = .next s) ∧
  (∀ (s : State) (p : Wide) (b i hi o : Nat) (lo hir r : Reg) (c : Instr), s.dev.wideOf p = (b, i, lo, hir, hi) →
    (c, r) ∈ [(Instr.lowHalfRead p, lo), (.highHalfRead p, hir)] → o = r.offset i → s.dev.barOpen = true → s.dev.serves r o = false →
    ∃ d, exec c s = .next { s with dev := d } ∧ d.regs.rdata = 0 ∧ d.hw Fl.regStatusOffDomain 0 = 1 ∧
      d.hw Fl.regStatusAddr 0 = o ∧ d = { s.dev with regs := { s.dev.regs with hw := d.regs.hw, rdata := 0 } }) ∧
  (∀ (s : State) (p : Wide) (b i hi : Nat) (lo hir : Reg), s.dev.wideOf p = (b, i, lo, hir, hi) → s.dev.barOpen = true →
    s.dev.serves lo (lo.offset i) = true →
    ∃ d, exec (.lowHalfRead p) s = .next { s with dev := d } ∧ d.regs.rdata = s.dev.regValue lo i ∧
      SMap.get d.regs.snap b (0, 0, false) = (BitVec.ofNat 32 hi, i, true) ∧
      d = { s.dev with regs := { s.dev.regs with snap := d.regs.snap, rdata := d.regs.rdata } }) ∧
  (∀ (s : State) (p : Wide) (b i hi : Nat) (lo hir : Reg) (w : Word), s.dev.wideOf p = (b, i, lo, hir, hi) →
    s.dev.barOpen = true → s.dev.serves hir (hir.offset i) = true → SMap.get s.dev.regs.snap b (0, 0, false) = (w, i, true) →
    ∃ d, exec (.highHalfRead p) s = .next { s with dev := d } ∧ d.regs.rdata = w ∧
      SMap.get d.regs.snap b (0, 0, false) = (w, i, false) ∧
      d = { s.dev with regs := { s.dev.regs with snap := d.regs.snap, rdata := d.regs.rdata } }) ∧
  (∀ (s : State) (p : Wide) (b i hi j : Nat) (lo hir : Reg) (w : Word) (ok : Bool), s.dev.wideOf p = (b, i, lo, hir, hi) →
    s.dev.barOpen = true → s.dev.serves hir (hir.offset i) = true → SMap.get s.dev.regs.snap b (0, 0, false) = (w, j, ok) →
    ok = false ∨ j ≠ i →
    ∃ d, exec (.highHalfRead p) s = .next { s with dev := d } ∧
      d.regs.rdata = (if p = .tickCount then w ||| 0x10000 else w) ∧ SMap.get d.regs.snap b (0, 0, false) = (w, j, false) ∧
      (∀ u, p = .unitLeaf u → d.hw Fl.unitStatusSnapStale 0 = 1) ∧ (∀ k, p = .strikeKey k → d.hw Fl.strikeStatusSnapStale 0 = 1) ∧
      (p = .capTick → d.hw Fl.fltStatusSnapStale 0 = 1) ∧
      d = { s.dev with regs := { s.dev.regs with hw := d.regs.hw, snap := d.regs.snap, rdata := d.regs.rdata } })

/-- Accesses outside the map and configuration requests: an aligned access to an offset that no register holds sets UNMAPPED with its
offset, and a read of it returns 0 (R537, R548); a configuration request is retried until the image load has ended, and afterwards
register 0 reads the identifiers (R520, R554). The layout of configuration space, and a command whose offset a register serves, are the
model's choices (log entries 16 and 37). -/
def Obligations.UnmappedAndConfiguration : Prop :=
  (∀ (s : State) (w : Bool) (a : BitVec 20), s.dev.barOpen = true → a.toNat % 4 = 0 → decodeOffset a.toNat = none →
    ∃ d, exec (.unmappedAccess w a) s = .next { s with dev := d } ∧ d.hw Fl.regStatusUnmapped 0 = 1 ∧
      d.hw Fl.regStatusAddr 0 = a.toNat ∧ (w = false → d.regs.rdata = 0) ∧ d = { s.dev with regs := d.regs }) ∧
  (∀ (s : State) (w : Bool) (r : BitVec 12) (v : Word), s.dev.hif.linkUp = true → s.dev.crsNow = true →
    exec (.configurationRequest w r v) s = .next { s with dev := { s.dev with regs := { s.dev.regs with crs := true } } }) ∧
  (∀ (s : State) (v : Word), s.dev.hif.linkUp = true → s.dev.crsNow = false →
    exec (.configurationRequest false 0 v) s =
      .next { s with dev := { s.dev with regs := { s.dev.regs with crs := false, rdata := 0x64251F4D } } })
end

