-- ==== Sys2Proof/Laws/Maps.lean ====
section
/-! SUPPORT. Laws/Maps.lean: what sparse arrays, loops over indices, the store's memory and bit fields do: each fact once. -/

namespace Sys2Proof.Machine

/-! ## Sparse arrays -/

@[simp] theorem SMap.find_nil {α : Type} (k : Nat) : SMap.find ([] : SMap α) k = none := rfl

theorem SMap.find_cons {α : Type} (k k' : Nat) (v : α) (r : SMap α) :
    SMap.find ((k', v) :: r) k = if k' = k then some v else SMap.find r k := rfl

/-- An entry that was set is found. -/
@[simp] theorem SMap.find_set_same {α : Type} (m : SMap α) (k : Nat) (v : α) : SMap.find (SMap.set m k v) k = some v := by
  induction m with
  | nil => simp [SMap.set, SMap.find]
  | cons e r ih =>
    obtain ⟨k', v'⟩ := e
    simp only [SMap.set]
    split
    · simp [SMap.find]
    · split
      · simp [SMap.find]
      · rename_i h1 h2
        simp only [SMap.find]
        rw [if_neg (fun h => h2 h.symm)]
        exact ih

/-- Other entries stay. -/
theorem SMap.find_set_other {α : Type} (m : SMap α) {k j : Nat} (v : α) (h : j ≠ k) :
    SMap.find (SMap.set m k v) j = SMap.find m j := by
  induction m with
  | nil => simp [SMap.set, SMap.find, Ne.symm h]
  | cons e r ih =>
    obtain ⟨k', v'⟩ := e
    simp only [SMap.set]
    split
    · rw [SMap.find_cons, if_neg (Ne.symm h)]
    · split
      · rename_i _ h2
        subst h2
        simp [SMap.find, Ne.symm h]
      · simp only [SMap.find]
        split
        · rfl
        · exact ih

theorem SMap.find_set {α : Type} (m : SMap α) (k j : Nat) (v : α) :
    SMap.find (SMap.set m k v) j = if j = k then some v else SMap.find m j := by
  by_cases h : j = k
  · subst h; simp
  · simp [h, SMap.find_set_other m v h]

@[simp] theorem SMap.get_set_same {α : Type} (m : SMap α) (k : Nat) (v dflt : α) : SMap.get (SMap.set m k v) k dflt = v := by
  simp [SMap.get]

theorem SMap.get_set_other {α : Type} (m : SMap α) {k j : Nat} (v dflt : α) (h : j ≠ k) :
    SMap.get (SMap.set m k v) j dflt = SMap.get m j dflt := by
  simp [SMap.get, SMap.find_set_other m v h]

/-- A dropped entry is gone. -/
@[simp] theorem SMap.find_drop_same {α : Type} (m : SMap α) (k : Nat) : SMap.find (SMap.drop m k) k = none := by
  induction m with
  | nil => rfl
  | cons e r ih =>
    obtain ⟨k', v'⟩ := e
    by_cases h : k' = k
    · simpa [SMap.drop, h] using ih
    · simp only [SMap.drop, List.filter_cons, ne_eq, h, not_false_eq_true, decide_true, if_true]
      rw [SMap.find_cons, if_neg h]
      exact ih

theorem SMap.find_drop_other {α : Type} (m : SMap α) {k j : Nat} (h : j ≠ k) :
    SMap.find (SMap.drop m k) j = SMap.find m j := by
  induction m with
  | nil => rfl
  | cons e r ih =>
    obtain ⟨k', v'⟩ := e
    by_cases hk : k' = k
    · rw [SMap.find_cons, if_neg (by rw [hk]; exact Ne.symm h)]
      simpa [SMap.drop, hk] using ih
    · have hd : SMap.drop ((k', v') :: r) k = (k', v') :: SMap.drop r k := by simp [SMap.drop, hk]
      rw [hd, SMap.find_cons, SMap.find_cons, ih]

/-- Keys that rise from a bound rise from a lower one. -/
theorem risingFrom_mono {α : Type} {lo lo' : Nat} (m : SMap α) (h : lo' ≤ lo) (hm : risingFrom lo m = true) :
    risingFrom lo' m = true := by
  cases m with
  | nil => rfl
  | cons e r =>
    simp only [risingFrom, Bool.and_eq_true, decide_eq_true_eq] at *
    exact ⟨by omega, hm.2⟩

/-- Setting an entry keeps the keys rising. -/
theorem risingFrom_set {α : Type} (m : SMap α) (k : Nat) (v : α) :
    ∀ lo, lo ≤ k → risingFrom lo m = true → risingFrom lo (SMap.set m k v) = true := by
  induction m with
  | nil => intro lo h _; simp [SMap.set, risingFrom, h]
  | cons e r ih =>
    obtain ⟨k', v'⟩ := e
    intro lo hlo hm
    simp only [risingFrom, Bool.and_eq_true, decide_eq_true_eq] at hm
    simp only [SMap.set]
    split
    · rename_i h
      simp [risingFrom, hlo, hm.2]; omega
    · split
      · rename_i _ h2
        subst h2
        simp [risingFrom, hlo, hm.2]
      · simp only [risingFrom, Bool.and_eq_true, decide_eq_true_eq]
        exact ⟨hm.1, ih (k' + 1) (by omega) hm.2⟩

/-- Dropping an entry keeps the keys rising. -/
theorem risingFrom_drop {α : Type} (m : SMap α) (k : Nat) :
    ∀ lo, risingFrom lo m = true → risingFrom lo (SMap.drop m k) = true := by
  induction m with
  | nil => intro lo _; rfl
  | cons e r ih =>
    obtain ⟨k', v'⟩ := e
    intro lo hm
    simp only [risingFrom, Bool.and_eq_true, decide_eq_true_eq] at hm
    by_cases hk : k' = k
    · have hd : SMap.drop ((k', v') :: r) k = SMap.drop r k := by simp [SMap.drop, hk]
      rw [hd]
      exact risingFrom_mono _ (by omega) (ih (k' + 1) hm.2)
    · have hd : SMap.drop ((k', v') :: r) k = (k', v') :: SMap.drop r k := by simp [SMap.drop, hk]
      rw [hd]
      simp only [risingFrom, Bool.and_eq_true, decide_eq_true_eq]
      exact ⟨hm.1, ih (k' + 1) hm.2⟩

/-! ## Loops over indices -/

@[simp] theorem each_nil {σ : Type} (f : Nat → σ → σ) (s : σ) : each [] f s = s := rfl
@[simp] theorem each_cons {σ : Type} (n : Nat) (l : List Nat) (f : Nat → σ → σ) (s : σ) :
    each (n :: l) f s = each l f (f n s) := rfl

/-- What every round keeps, the loop keeps. -/
theorem each_keeps {σ : Type} (P : σ → Prop) (f : Nat → σ → σ) (l : List Nat) (s : σ)
    (h : ∀ n ∈ l, ∀ t, P t → P (f n t)) (hs : P s) : P (each l f s) := by
  induction l generalizing s with
  | nil => exact hs
  | cons n l ih =>
    rw [each_cons]
    exact ih (f n s) (fun m hm => h m (List.mem_cons_of_mem n hm)) (h n (by simp) s hs)

/-- A part that every round leaves alone is as it was. -/
theorem each_same {σ β : Type} (g : σ → β) (f : Nat → σ → σ) (l : List Nat) (s : σ)
    (h : ∀ n ∈ l, ∀ t, g (f n t) = g t) : g (each l f s) = g s :=
  each_keeps (fun t => g t = g s) f l s (fun n hn t ht => (h n hn t).trans ht) rfl

/-- What round n establishes and the other rounds keep holds at the end. -/
theorem each_does {σ : Type} (Q : σ → Prop) (f : Nat → σ → σ) (l : List Nat) (s : σ) (n : Nat) (hn : n ∈ l)
    (hdo : ∀ t, Q (f n t)) (hkeep : ∀ m ∈ l, m ≠ n → ∀ t, Q t → Q (f m t)) : Q (each l f s) := by
  induction l generalizing s with
  | nil => cases hn
  | cons k l ih =>
    rw [each_cons]
    by_cases hk : k = n
    · subst hk
      refine each_keeps Q f l _ (fun m hm t ht => ?_) (hdo s)
      by_cases h : m = k
      · subst h; exact hdo t
      · exact hkeep m (List.mem_cons_of_mem k hm) h t ht
    · exact ih (f k s) (by simpa [Ne.symm hk] using hn) fun m hm => hkeep m (List.mem_cons_of_mem k hm)

/-- The numbers from lo on. -/
@[simp] theorem mem_span (lo n x : Nat) : x ∈ span lo n ↔ lo ≤ x ∧ x < lo + n := by
  induction n generalizing lo with
  | zero => simp [span]
  | succ n ih => simp only [span, List.mem_cons, ih]; omega

/-- The set bits of a mask. -/
@[simp] theorem mem_bitsSet (n w i : Nat) : i ∈ bitsSet n w ↔ i < n ∧ w.testBit i = true := by
  simp [bitsSet]

/-! ## The store's memory (R522) -/

theorem Mem.above_mono {lo lo' : Nat} (m : List Host.Cell) (h : lo' ≤ lo) (hm : Mem.above lo m = true) :
    Mem.above lo' m = true := by
  cases m with
  | nil => rfl
  | cons e r =>
    obtain ⟨a, b⟩ := e
    simp only [Mem.above, Bool.and_eq_true, decide_eq_true_eq] at *
    exact ⟨⟨by omega, hm.1.2⟩, hm.2⟩

/-- A byte written keeps the canonical form above a bound. -/
theorem Mem.above_write (m : List Host.Cell) (a : Nat) (b : Byte) :
    ∀ lo, lo ≤ a → Mem.above lo m = true → Mem.above lo (Mem.write m a b) = true := by
  induction m with
  | nil =>
    intro lo h _
    by_cases hb : b = 0xFF <;> simp_all [Mem.write, Mem.above]
  | cons e r ih =>
    obtain ⟨a', b'⟩ := e
    intro lo hlo hm
    have hm0 := hm
    simp only [Mem.above, Bool.and_eq_true, decide_eq_true_eq] at hm
    simp only [Mem.write]
    split
    · rename_i h
      by_cases hb : b = 0xFF
      · rw [if_pos hb]; exact hm0
      · rw [if_neg hb]
        simp only [Mem.above, Bool.and_eq_true, decide_eq_true_eq]
        exact ⟨⟨hlo, hb⟩, ⟨by omega, hm.1.2⟩, hm.2⟩
    · split
      · rename_i _ h2
        subst h2
        by_cases hb : b = 0xFF
        · rw [if_pos hb]; exact Mem.above_mono r (by omega) hm.2
        · rw [if_neg hb]
          simp only [Mem.above, Bool.and_eq_true, decide_eq_true_eq]
          exact ⟨⟨hlo, hb⟩, hm.2⟩
      · simp only [Mem.above, Bool.and_eq_true, decide_eq_true_eq]
        exact ⟨hm.1, ih (a' + 1) (by omega) hm.2⟩

/-- A write of one byte keeps the canonical form. -/
theorem Mem.wf_write (m : List Host.Cell) (a : Nat) (b : Byte) (h : Mem.wf m = true) : Mem.wf (Mem.write m a b) = true :=
  Mem.above_write m a b 0 (Nat.zero_le a) h

/-- A write of several bytes keeps the canonical form. -/
theorem Mem.wf_writes (bs : List Byte) (m : List Host.Cell) (a : Nat) (h : Mem.wf m = true) :
    Mem.wf (Mem.writes m a bs) = true := by
  induction bs generalizing m a with
  | nil => exact h
  | cons b bs ih => exact ih (Mem.write m a b) (a + 1) (Mem.wf_write m a b h)

/-- Taking entries out keeps the canonical form. -/
theorem Mem.above_filter (p : Host.Cell → Bool) (m : List Host.Cell) :
    ∀ lo, Mem.above lo m = true → Mem.above lo (m.filter p) = true := by
  induction m with
  | nil => intro lo _; rfl
  | cons e r ih =>
    obtain ⟨a, b⟩ := e
    intro lo hm
    simp only [Mem.above, Bool.and_eq_true, decide_eq_true_eq] at hm
    by_cases hp : p (a, b) = true
    · simp only [List.filter_cons, hp, if_true, Mem.above, Bool.and_eq_true, decide_eq_true_eq]
      exact ⟨hm.1, ih (a + 1) hm.2⟩
    · simp only [List.filter_cons, hp]
      exact Mem.above_mono _ (by omega) (ih (a + 1) hm.2)

theorem Mem.wf_filter (p : Host.Cell → Bool) (m : List Host.Cell) (h : Mem.wf m = true) : Mem.wf (m.filter p) = true :=
  Mem.above_filter p m 0 h

/-- A byte below the bound is not listed. -/
theorem Mem.read_below (m : List Host.Cell) (x : Nat) : ∀ lo, x < lo → Mem.above lo m = true → Mem.read m x = 0xFF := by
  induction m with
  | nil => intro lo _ _; rfl
  | cons e r ih =>
    obtain ⟨a, b⟩ := e
    intro lo hx hm
    simp only [Mem.above, Bool.and_eq_true, decide_eq_true_eq] at hm
    have hne : ¬ a = x := by omega
    have := ih (a + 1) (by omega) hm.2
    simpa [Mem.read, List.find?_cons, hne] using this

/-- A byte that was written reads back, on a memory in canonical form. -/
theorem Mem.read_write_same (m : List Host.Cell) (a : Nat) (b : Byte) :
    ∀ lo, Mem.above lo m = true → Mem.read (Mem.write m a b) a = b := by
  induction m with
  | nil => intro lo _; by_cases hb : b = 0xFF <;> simp_all [Mem.write, Mem.read]
  | cons e r ih =>
    obtain ⟨a', b'⟩ := e
    intro lo hm
    have hm0 := hm
    simp only [Mem.above, Bool.and_eq_true, decide_eq_true_eq] at hm
    simp only [Mem.write]
    split
    · rename_i h
      by_cases hb : b = 0xFF
      · rw [if_pos hb, hb]
        exact Mem.read_below _ a a' h (by simpa [Mem.above] using ⟨hm.1.2, hm.2⟩)
      · rw [if_neg hb]; simp [Mem.read]
    · split
      · rename_i _ h2
        subst h2
        by_cases hb : b = 0xFF
        · rw [if_pos hb, hb]; exact Mem.read_below r a (a + 1) (by omega) hm.2
        · rw [if_neg hb]; simp [Mem.read]
      · rename_i _ h2
        have hne : ¬ a' = a := fun h => h2 h.symm
        have := ih (a' + 1) hm.2
        simpa [Mem.read, List.find?_cons, hne] using this

/-- Other bytes stay. -/
theorem Mem.read_write_other (m : List Host.Cell) {a x : Nat} (b : Byte) (h : x ≠ a) :
    Mem.read (Mem.write m a b) x = Mem.read m x := by
  induction m with
  | nil =>
    by_cases hb : b = 0xFF
    · simp [Mem.write, hb]
    · rw [Mem.write, if_neg hb]; simp [Mem.read, Ne.symm h]
  | cons e r ih =>
    obtain ⟨a', b'⟩ := e
    simp only [Mem.write]
    split
    · by_cases hb : b = 0xFF
      · rw [if_pos hb]
      · rw [if_neg hb]; simp [Mem.read, List.find?_cons, Ne.symm h]
    · split
      · rename_i _ h2
        subst h2
        by_cases hb : b = 0xFF
        · rw [if_pos hb]; simp [Mem.read, Ne.symm h]
        · rw [if_neg hb]; simp [Mem.read, Ne.symm h]
      · by_cases hx : a' = x
        · simp [Mem.read, hx]
        · simpa [Mem.read, List.find?_cons, hx] using ih

/-! ## Bit fields -/

/-- Bit i of a field mask. -/
theorem fieldMask_testBit (lo n i : Nat) (h : lo + n ≤ 32) :
    (fieldMask lo n).getLsbD i = (decide (lo ≤ i) && decide (i < lo + n)) := by
  unfold fieldMask
  rw [BitVec.getLsbD_ofNat, Nat.testBit_shiftLeft, Nat.testBit_two_pow_sub_one]
  by_cases h1 : lo ≤ i <;> by_cases h2 : i < lo + n <;> simp [h1, h2] <;> omega

/-- Bit i of a word with a field put. -/
theorem putBits_testBit (w : Word) (lo n v i : Nat) (h : lo + n ≤ 32) :
    (putBits w lo n v).getLsbD i =
      if lo ≤ i ∧ i < lo + n then v.testBit (i - lo) else w.getLsbD i := by
  unfold putBits
  rw [BitVec.getLsbD_or, BitVec.getLsbD_and, BitVec.getLsbD_not, fieldMask_testBit lo n i h, BitVec.getLsbD_ofNat,
    Nat.testBit_shiftLeft, Nat.testBit_mod_two_pow]
  by_cases hi : i < 32
  · by_cases h1 : lo ≤ i <;> by_cases h2 : i < lo + n
    · have : i - lo < n := by omega
      simp [hi, h1, h2, this]
    · have : ¬ i - lo < n := by omega
      simp [hi, h1, h2, this]
    · simp [hi, h1]
    · simp [hi, h1]
  · have hw : w.getLsbD i = false := BitVec.getLsbD_of_ge w i (by omega)
    have : ¬ (lo ≤ i ∧ i < lo + n) := by omega
    simp [hi, hw, this]

theorem bits_testBit (w : Word) (lo n i : Nat) :
    (bits w lo n).testBit i = (decide (i < n) && w.getLsbD (lo + i)) := by
  unfold bits
  rw [Nat.testBit_mod_two_pow, Nat.testBit_shiftRight, BitVec.testBit_toNat]

/-- The field put reads back. -/
@[simp] theorem bits_putBits_same (w : Word) (lo n v : Nat) (h : lo + n ≤ 32) : bits (putBits w lo n v) lo n = v % 2 ^ n := by
  apply Nat.eq_of_testBit_eq
  intro i
  rw [bits_testBit, putBits_testBit w lo n v _ h, Nat.testBit_mod_two_pow]
  by_cases hi : i < n
  · have : lo ≤ lo + i ∧ lo + i < lo + n := by omega
    rw [if_pos this]; simp [hi]
  · simp [hi]

/-- A field beside the one put stays. -/
theorem bits_putBits_other (w : Word) (lo n v lo' n' : Nat) (h : lo + n ≤ 32) (hd : lo' + n' ≤ lo ∨ lo + n ≤ lo') :
    bits (putBits w lo n v) lo' n' = bits w lo' n' := by
  apply Nat.eq_of_testBit_eq
  intro i
  rw [bits_testBit, bits_testBit, putBits_testBit w lo n v _ h]
  by_cases hi : i < n'
  · have : ¬ (lo ≤ lo' + i ∧ lo' + i < lo + n) := by omega
    rw [if_neg this]
  · simp [hi]

/-- A field is below its width. -/
theorem bits_lt (w : Word) (lo n : Nat) : bits w lo n < 2 ^ n := Nat.mod_lt _ (by positivity)

/-! ## Register fields -/

/-- A field set reads back. -/
@[simp] theorem fldOf_fldSet_same (m : SMap Word) (f : Fld) (i v : Nat) (h : f.lo + f.width ≤ 32) :
    fldOf (fldSet m f i v) f i = v % 2 ^ f.width := by
  simp [fldOf, fldSet, regWord, bits_putBits_same _ _ _ _ h]

/-- A field of another register, or of another instance, stays. -/
theorem fldOf_fldSet_reg (m : SMap Word) (f g : Fld) (i j v : Nat) (h : g.reg.offset j ≠ f.reg.offset i) :
    fldOf (fldSet m f i v) g j = fldOf m g j := by
  simp [fldOf, fldSet, regWord, SMap.find_set_other _ _ h]

/-- A field beside it in the same register stays. -/
theorem fldOf_fldSet_beside (m : SMap Word) (f g : Fld) (i v : Nat) (hr : g.reg = f.reg) (h : f.lo + f.width ≤ 32)
    (hd : g.lo + g.width ≤ f.lo ∨ f.lo + f.width ≤ g.lo) : fldOf (fldSet m f i v) g i = fldOf m g i := by
  simp only [fldOf, fldSet, regWord, hr, SMap.find_set_same, Option.getD_some]
  exact bits_putBits_other _ _ _ _ _ _ h hd

end Sys2Proof.Machine
end

