-- ==== Sys2Proof/Laws/State.lean ====
section
/-! SUPPORT. Laws/State.lean: what each named update of the block leaves as it was, one lemma per field, true by unfolding; and
what it sets. -/

namespace Sys2Proof.Machine.Dev

/-! ### setHw -/

@[simp] theorem setHw_time (d : Dev) (f : Fld) (i v : Nat) : (d.setHw f i v).time = d.time := rfl
@[simp] theorem setHw_hif (d : Dev) (f : Fld) (i v : Nat) : (d.setHw f i v).hif = d.hif := rfl
@[simp] theorem setHw_units (d : Dev) (f : Fld) (i v : Nat) : (d.setHw f i v).units = d.units := rfl
@[simp] theorem setHw_acts (d : Dev) (f : Fld) (i v : Nat) : (d.setHw f i v).acts = d.acts := rfl
@[simp] theorem setHw_hax (d : Dev) (f : Fld) (i v : Nat) : (d.setHw f i v).hax = d.hax := rfl
@[simp] theorem setHw_mvax (d : Dev) (f : Fld) (i v : Nat) : (d.setHw f i v).mvax = d.mvax := rfl
@[simp] theorem setHw_mvs (d : Dev) (f : Fld) (i v : Nat) : (d.setHw f i v).mvs = d.mvs := rfl
@[simp] theorem setHw_strikes (d : Dev) (f : Fld) (i v : Nat) : (d.setHw f i v).strikes = d.strikes := rfl
@[simp] theorem setHw_cmds (d : Dev) (f : Fld) (i v : Nat) : (d.setHw f i v).cmds = d.cmds := rfl
@[simp] theorem setHw_flt (d : Dev) (f : Fld) (i v : Nat) : (d.setHw f i v).flt = d.flt := rfl
@[simp] theorem setHw_signs (d : Dev) (f : Fld) (i v : Nat) : (d.setHw f i v).signs = d.signs := rfl
@[simp] theorem setHw_detects (d : Dev) (f : Fld) (i v : Nat) : (d.setHw f i v).detects = d.detects := rfl
@[simp] theorem setHw_reopens (d : Dev) (f : Fld) (i v : Nat) : (d.setHw f i v).reopens = d.reopens := rfl
@[simp] theorem setHw_signSerial (d : Dev) (f : Fld) (i v : Nat) : (d.setHw f i v).signSerial = d.signSerial := rfl
@[simp] theorem setHw_cans (d : Dev) (f : Fld) (i v : Nat) : (d.setHw f i v).cans = d.cans := rfl
@[simp] theorem setHw_objs (d : Dev) (f : Fld) (i v : Nat) : (d.setHw f i v).objs = d.objs := rfl
@[simp] theorem setHw_lock (d : Dev) (f : Fld) (i v : Nat) : (d.setHw f i v).lock = d.lock := rfl
@[simp] theorem setHw_nvs (d : Dev) (f : Fld) (i v : Nat) : (d.setHw f i v).nvs = d.nvs := rfl
@[simp] theorem setHw_therm (d : Dev) (f : Fld) (i v : Nat) : (d.setHw f i v).therm = d.therm := rfl
@[simp] theorem setHw_mons (d : Dev) (f : Fld) (i v : Nat) : (d.setHw f i v).mons = d.mons := rfl
@[simp] theorem setHw_sys (d : Dev) (f : Fld) (i v : Nat) : (d.setHw f i v).sys = d.sys := rfl
@[simp] theorem setHw_out (d : Dev) (f : Fld) (i v : Nat) : (d.setHw f i v).out = d.out := rfl
@[simp] theorem setHw_fresh (d : Dev) (f : Fld) (i v : Nat) : (d.setHw f i v).fresh = d.fresh := rfl

/-! ### setCfg -/

@[simp] theorem setCfg_time (d : Dev) (f : Fld) (i v : Nat) : (d.setCfg f i v).time = d.time := rfl
@[simp] theorem setCfg_hif (d : Dev) (f : Fld) (i v : Nat) : (d.setCfg f i v).hif = d.hif := rfl
@[simp] theorem setCfg_units (d : Dev) (f : Fld) (i v : Nat) : (d.setCfg f i v).units = d.units := rfl
@[simp] theorem setCfg_acts (d : Dev) (f : Fld) (i v : Nat) : (d.setCfg f i v).acts = d.acts := rfl
@[simp] theorem setCfg_hax (d : Dev) (f : Fld) (i v : Nat) : (d.setCfg f i v).hax = d.hax := rfl
@[simp] theorem setCfg_mvax (d : Dev) (f : Fld) (i v : Nat) : (d.setCfg f i v).mvax = d.mvax := rfl
@[simp] theorem setCfg_mvs (d : Dev) (f : Fld) (i v : Nat) : (d.setCfg f i v).mvs = d.mvs := rfl
@[simp] theorem setCfg_strikes (d : Dev) (f : Fld) (i v : Nat) : (d.setCfg f i v).strikes = d.strikes := rfl
@[simp] theorem setCfg_cmds (d : Dev) (f : Fld) (i v : Nat) : (d.setCfg f i v).cmds = d.cmds := rfl
@[simp] theorem setCfg_flt (d : Dev) (f : Fld) (i v : Nat) : (d.setCfg f i v).flt = d.flt := rfl
@[simp] theorem setCfg_signs (d : Dev) (f : Fld) (i v : Nat) : (d.setCfg f i v).signs = d.signs := rfl
@[simp] theorem setCfg_detects (d : Dev) (f : Fld) (i v : Nat) : (d.setCfg f i v).detects = d.detects := rfl
@[simp] theorem setCfg_reopens (d : Dev) (f : Fld) (i v : Nat) : (d.setCfg f i v).reopens = d.reopens := rfl
@[simp] theorem setCfg_signSerial (d : Dev) (f : Fld) (i v : Nat) : (d.setCfg f i v).signSerial = d.signSerial := rfl
@[simp] theorem setCfg_cans (d : Dev) (f : Fld) (i v : Nat) : (d.setCfg f i v).cans = d.cans := rfl
@[simp] theorem setCfg_objs (d : Dev) (f : Fld) (i v : Nat) : (d.setCfg f i v).objs = d.objs := rfl
@[simp] theorem setCfg_lock (d : Dev) (f : Fld) (i v : Nat) : (d.setCfg f i v).lock = d.lock := rfl
@[simp] theorem setCfg_nvs (d : Dev) (f : Fld) (i v : Nat) : (d.setCfg f i v).nvs = d.nvs := rfl
@[simp] theorem setCfg_therm (d : Dev) (f : Fld) (i v : Nat) : (d.setCfg f i v).therm = d.therm := rfl
@[simp] theorem setCfg_mons (d : Dev) (f : Fld) (i v : Nat) : (d.setCfg f i v).mons = d.mons := rfl
@[simp] theorem setCfg_sys (d : Dev) (f : Fld) (i v : Nat) : (d.setCfg f i v).sys = d.sys := rfl
@[simp] theorem setCfg_out (d : Dev) (f : Fld) (i v : Nat) : (d.setCfg f i v).out = d.out := rfl
@[simp] theorem setCfg_fresh (d : Dev) (f : Fld) (i v : Nat) : (d.setCfg f i v).fresh = d.fresh := rfl

/-! ### setAxis -/

@[simp] theorem setAxis_time (d : Dev) (n : Nat) (x : HubAxis) : (d.setAxis n x).time = d.time := rfl
@[simp] theorem setAxis_regs (d : Dev) (n : Nat) (x : HubAxis) : (d.setAxis n x).regs = d.regs := rfl
@[simp] theorem setAxis_hif (d : Dev) (n : Nat) (x : HubAxis) : (d.setAxis n x).hif = d.hif := rfl
@[simp] theorem setAxis_units (d : Dev) (n : Nat) (x : HubAxis) : (d.setAxis n x).units = d.units := rfl
@[simp] theorem setAxis_acts (d : Dev) (n : Nat) (x : HubAxis) : (d.setAxis n x).acts = d.acts := rfl
@[simp] theorem setAxis_mvax (d : Dev) (n : Nat) (x : HubAxis) : (d.setAxis n x).mvax = d.mvax := rfl
@[simp] theorem setAxis_mvs (d : Dev) (n : Nat) (x : HubAxis) : (d.setAxis n x).mvs = d.mvs := rfl
@[simp] theorem setAxis_strikes (d : Dev) (n : Nat) (x : HubAxis) : (d.setAxis n x).strikes = d.strikes := rfl
@[simp] theorem setAxis_cmds (d : Dev) (n : Nat) (x : HubAxis) : (d.setAxis n x).cmds = d.cmds := rfl
@[simp] theorem setAxis_flt (d : Dev) (n : Nat) (x : HubAxis) : (d.setAxis n x).flt = d.flt := rfl
@[simp] theorem setAxis_signs (d : Dev) (n : Nat) (x : HubAxis) : (d.setAxis n x).signs = d.signs := rfl
@[simp] theorem setAxis_detects (d : Dev) (n : Nat) (x : HubAxis) : (d.setAxis n x).detects = d.detects := rfl
@[simp] theorem setAxis_reopens (d : Dev) (n : Nat) (x : HubAxis) : (d.setAxis n x).reopens = d.reopens := rfl
@[simp] theorem setAxis_signSerial (d : Dev) (n : Nat) (x : HubAxis) : (d.setAxis n x).signSerial = d.signSerial := rfl
@[simp] theorem setAxis_cans (d : Dev) (n : Nat) (x : HubAxis) : (d.setAxis n x).cans = d.cans := rfl
@[simp] theorem setAxis_objs (d : Dev) (n : Nat) (x : HubAxis) : (d.setAxis n x).objs = d.objs := rfl
@[simp] theorem setAxis_lock (d : Dev) (n : Nat) (x : HubAxis) : (d.setAxis n x).lock = d.lock := rfl
@[simp] theorem setAxis_nvs (d : Dev) (n : Nat) (x : HubAxis) : (d.setAxis n x).nvs = d.nvs := rfl
@[simp] theorem setAxis_therm (d : Dev) (n : Nat) (x : HubAxis) : (d.setAxis n x).therm = d.therm := rfl
@[simp] theorem setAxis_mons (d : Dev) (n : Nat) (x : HubAxis) : (d.setAxis n x).mons = d.mons := rfl
@[simp] theorem setAxis_sys (d : Dev) (n : Nat) (x : HubAxis) : (d.setAxis n x).sys = d.sys := rfl
@[simp] theorem setAxis_out (d : Dev) (n : Nat) (x : HubAxis) : (d.setAxis n x).out = d.out := rfl
@[simp] theorem setAxis_fresh (d : Dev) (n : Nat) (x : HubAxis) : (d.setAxis n x).fresh = d.fresh := rfl

/-! ### setMva -/

@[simp] theorem setMva_time (d : Dev) (n : Nat) (x : MvAxis) : (d.setMva n x).time = d.time := rfl
@[simp] theorem setMva_regs (d : Dev) (n : Nat) (x : MvAxis) : (d.setMva n x).regs = d.regs := rfl
@[simp] theorem setMva_hif (d : Dev) (n : Nat) (x : MvAxis) : (d.setMva n x).hif = d.hif := rfl
@[simp] theorem setMva_units (d : Dev) (n : Nat) (x : MvAxis) : (d.setMva n x).units = d.units := rfl
@[simp] theorem setMva_acts (d : Dev) (n : Nat) (x : MvAxis) : (d.setMva n x).acts = d.acts := rfl
@[simp] theorem setMva_hax (d : Dev) (n : Nat) (x : MvAxis) : (d.setMva n x).hax = d.hax := rfl
@[simp] theorem setMva_mvs (d : Dev) (n : Nat) (x : MvAxis) : (d.setMva n x).mvs = d.mvs := rfl
@[simp] theorem setMva_strikes (d : Dev) (n : Nat) (x : MvAxis) : (d.setMva n x).strikes = d.strikes := rfl
@[simp] theorem setMva_cmds (d : Dev) (n : Nat) (x : MvAxis) : (d.setMva n x).cmds = d.cmds := rfl
@[simp] theorem setMva_flt (d : Dev) (n : Nat) (x : MvAxis) : (d.setMva n x).flt = d.flt := rfl
@[simp] theorem setMva_signs (d : Dev) (n : Nat) (x : MvAxis) : (d.setMva n x).signs = d.signs := rfl
@[simp] theorem setMva_detects (d : Dev) (n : Nat) (x : MvAxis) : (d.setMva n x).detects = d.detects := rfl
@[simp] theorem setMva_reopens (d : Dev) (n : Nat) (x : MvAxis) : (d.setMva n x).reopens = d.reopens := rfl
@[simp] theorem setMva_signSerial (d : Dev) (n : Nat) (x : MvAxis) : (d.setMva n x).signSerial = d.signSerial := rfl
@[simp] theorem setMva_cans (d : Dev) (n : Nat) (x : MvAxis) : (d.setMva n x).cans = d.cans := rfl
@[simp] theorem setMva_objs (d : Dev) (n : Nat) (x : MvAxis) : (d.setMva n x).objs = d.objs := rfl
@[simp] theorem setMva_lock (d : Dev) (n : Nat) (x : MvAxis) : (d.setMva n x).lock = d.lock := rfl
@[simp] theorem setMva_nvs (d : Dev) (n : Nat) (x : MvAxis) : (d.setMva n x).nvs = d.nvs := rfl
@[simp] theorem setMva_therm (d : Dev) (n : Nat) (x : MvAxis) : (d.setMva n x).therm = d.therm := rfl
@[simp] theorem setMva_mons (d : Dev) (n : Nat) (x : MvAxis) : (d.setMva n x).mons = d.mons := rfl
@[simp] theorem setMva_sys (d : Dev) (n : Nat) (x : MvAxis) : (d.setMva n x).sys = d.sys := rfl
@[simp] theorem setMva_out (d : Dev) (n : Nat) (x : MvAxis) : (d.setMva n x).out = d.out := rfl
@[simp] theorem setMva_fresh (d : Dev) (n : Nat) (x : MvAxis) : (d.setMva n x).fresh = d.fresh := rfl

/-! ### setMv -/

@[simp] theorem setMv_time (d : Dev) (m : Nat) (x : Mv) : (d.setMv m x).time = d.time := rfl
@[simp] theorem setMv_regs (d : Dev) (m : Nat) (x : Mv) : (d.setMv m x).regs = d.regs := rfl
@[simp] theorem setMv_hif (d : Dev) (m : Nat) (x : Mv) : (d.setMv m x).hif = d.hif := rfl
@[simp] theorem setMv_units (d : Dev) (m : Nat) (x : Mv) : (d.setMv m x).units = d.units := rfl
@[simp] theorem setMv_acts (d : Dev) (m : Nat) (x : Mv) : (d.setMv m x).acts = d.acts := rfl
@[simp] theorem setMv_hax (d : Dev) (m : Nat) (x : Mv) : (d.setMv m x).hax = d.hax := rfl
@[simp] theorem setMv_mvax (d : Dev) (m : Nat) (x : Mv) : (d.setMv m x).mvax = d.mvax := rfl
@[simp] theorem setMv_strikes (d : Dev) (m : Nat) (x : Mv) : (d.setMv m x).strikes = d.strikes := rfl
@[simp] theorem setMv_cmds (d : Dev) (m : Nat) (x : Mv) : (d.setMv m x).cmds = d.cmds := rfl
@[simp] theorem setMv_flt (d : Dev) (m : Nat) (x : Mv) : (d.setMv m x).flt = d.flt := rfl
@[simp] theorem setMv_signs (d : Dev) (m : Nat) (x : Mv) : (d.setMv m x).signs = d.signs := rfl
@[simp] theorem setMv_detects (d : Dev) (m : Nat) (x : Mv) : (d.setMv m x).detects = d.detects := rfl
@[simp] theorem setMv_reopens (d : Dev) (m : Nat) (x : Mv) : (d.setMv m x).reopens = d.reopens := rfl
@[simp] theorem setMv_signSerial (d : Dev) (m : Nat) (x : Mv) : (d.setMv m x).signSerial = d.signSerial := rfl
@[simp] theorem setMv_cans (d : Dev) (m : Nat) (x : Mv) : (d.setMv m x).cans = d.cans := rfl
@[simp] theorem setMv_objs (d : Dev) (m : Nat) (x : Mv) : (d.setMv m x).objs = d.objs := rfl
@[simp] theorem setMv_lock (d : Dev) (m : Nat) (x : Mv) : (d.setMv m x).lock = d.lock := rfl
@[simp] theorem setMv_nvs (d : Dev) (m : Nat) (x : Mv) : (d.setMv m x).nvs = d.nvs := rfl
@[simp] theorem setMv_therm (d : Dev) (m : Nat) (x : Mv) : (d.setMv m x).therm = d.therm := rfl
@[simp] theorem setMv_mons (d : Dev) (m : Nat) (x : Mv) : (d.setMv m x).mons = d.mons := rfl
@[simp] theorem setMv_sys (d : Dev) (m : Nat) (x : Mv) : (d.setMv m x).sys = d.sys := rfl
@[simp] theorem setMv_out (d : Dev) (m : Nat) (x : Mv) : (d.setMv m x).out = d.out := rfl
@[simp] theorem setMv_fresh (d : Dev) (m : Nat) (x : Mv) : (d.setMv m x).fresh = d.fresh := rfl

/-! ### setSq -/

@[simp] theorem setSq_time (d : Dev) (i : Nat) (x : Sq) : (d.setSq i x).time = d.time := rfl
@[simp] theorem setSq_regs (d : Dev) (i : Nat) (x : Sq) : (d.setSq i x).regs = d.regs := rfl
@[simp] theorem setSq_units (d : Dev) (i : Nat) (x : Sq) : (d.setSq i x).units = d.units := rfl
@[simp] theorem setSq_acts (d : Dev) (i : Nat) (x : Sq) : (d.setSq i x).acts = d.acts := rfl
@[simp] theorem setSq_hax (d : Dev) (i : Nat) (x : Sq) : (d.setSq i x).hax = d.hax := rfl
@[simp] theorem setSq_mvax (d : Dev) (i : Nat) (x : Sq) : (d.setSq i x).mvax = d.mvax := rfl
@[simp] theorem setSq_mvs (d : Dev) (i : Nat) (x : Sq) : (d.setSq i x).mvs = d.mvs := rfl
@[simp] theorem setSq_strikes (d : Dev) (i : Nat) (x : Sq) : (d.setSq i x).strikes = d.strikes := rfl
@[simp] theorem setSq_cmds (d : Dev) (i : Nat) (x : Sq) : (d.setSq i x).cmds = d.cmds := rfl
@[simp] theorem setSq_flt (d : Dev) (i : Nat) (x : Sq) : (d.setSq i x).flt = d.flt := rfl
@[simp] theorem setSq_signs (d : Dev) (i : Nat) (x : Sq) : (d.setSq i x).signs = d.signs := rfl
@[simp] theorem setSq_detects (d : Dev) (i : Nat) (x : Sq) : (d.setSq i x).detects = d.detects := rfl
@[simp] theorem setSq_reopens (d : Dev) (i : Nat) (x : Sq) : (d.setSq i x).reopens = d.reopens := rfl
@[simp] theorem setSq_signSerial (d : Dev) (i : Nat) (x : Sq) : (d.setSq i x).signSerial = d.signSerial := rfl
@[simp] theorem setSq_cans (d : Dev) (i : Nat) (x : Sq) : (d.setSq i x).cans = d.cans := rfl
@[simp] theorem setSq_objs (d : Dev) (i : Nat) (x : Sq) : (d.setSq i x).objs = d.objs := rfl
@[simp] theorem setSq_lock (d : Dev) (i : Nat) (x : Sq) : (d.setSq i x).lock = d.lock := rfl
@[simp] theorem setSq_nvs (d : Dev) (i : Nat) (x : Sq) : (d.setSq i x).nvs = d.nvs := rfl
@[simp] theorem setSq_therm (d : Dev) (i : Nat) (x : Sq) : (d.setSq i x).therm = d.therm := rfl
@[simp] theorem setSq_mons (d : Dev) (i : Nat) (x : Sq) : (d.setSq i x).mons = d.mons := rfl
@[simp] theorem setSq_sys (d : Dev) (i : Nat) (x : Sq) : (d.setSq i x).sys = d.sys := rfl
@[simp] theorem setSq_out (d : Dev) (i : Nat) (x : Sq) : (d.setSq i x).out = d.out := rfl
@[simp] theorem setSq_fresh (d : Dev) (i : Nat) (x : Sq) : (d.setSq i x).fresh = d.fresh := rfl

/-! ### setCq -/

@[simp] theorem setCq_time (d : Dev) (i : Nat) (x : Cq) : (d.setCq i x).time = d.time := rfl
@[simp] theorem setCq_regs (d : Dev) (i : Nat) (x : Cq) : (d.setCq i x).regs = d.regs := rfl
@[simp] theorem setCq_units (d : Dev) (i : Nat) (x : Cq) : (d.setCq i x).units = d.units := rfl
@[simp] theorem setCq_acts (d : Dev) (i : Nat) (x : Cq) : (d.setCq i x).acts = d.acts := rfl
@[simp] theorem setCq_hax (d : Dev) (i : Nat) (x : Cq) : (d.setCq i x).hax = d.hax := rfl
@[simp] theorem setCq_mvax (d : Dev) (i : Nat) (x : Cq) : (d.setCq i x).mvax = d.mvax := rfl
@[simp] theorem setCq_mvs (d : Dev) (i : Nat) (x : Cq) : (d.setCq i x).mvs = d.mvs := rfl
@[simp] theorem setCq_strikes (d : Dev) (i : Nat) (x : Cq) : (d.setCq i x).strikes = d.strikes := rfl
@[simp] theorem setCq_cmds (d : Dev) (i : Nat) (x : Cq) : (d.setCq i x).cmds = d.cmds := rfl
@[simp] theorem setCq_flt (d : Dev) (i : Nat) (x : Cq) : (d.setCq i x).flt = d.flt := rfl
@[simp] theorem setCq_signs (d : Dev) (i : Nat) (x : Cq) : (d.setCq i x).signs = d.signs := rfl
@[simp] theorem setCq_detects (d : Dev) (i : Nat) (x : Cq) : (d.setCq i x).detects = d.detects := rfl
@[simp] theorem setCq_reopens (d : Dev) (i : Nat) (x : Cq) : (d.setCq i x).reopens = d.reopens := rfl
@[simp] theorem setCq_signSerial (d : Dev) (i : Nat) (x : Cq) : (d.setCq i x).signSerial = d.signSerial := rfl
@[simp] theorem setCq_cans (d : Dev) (i : Nat) (x : Cq) : (d.setCq i x).cans = d.cans := rfl
@[simp] theorem setCq_objs (d : Dev) (i : Nat) (x : Cq) : (d.setCq i x).objs = d.objs := rfl
@[simp] theorem setCq_lock (d : Dev) (i : Nat) (x : Cq) : (d.setCq i x).lock = d.lock := rfl
@[simp] theorem setCq_nvs (d : Dev) (i : Nat) (x : Cq) : (d.setCq i x).nvs = d.nvs := rfl
@[simp] theorem setCq_therm (d : Dev) (i : Nat) (x : Cq) : (d.setCq i x).therm = d.therm := rfl
@[simp] theorem setCq_mons (d : Dev) (i : Nat) (x : Cq) : (d.setCq i x).mons = d.mons := rfl
@[simp] theorem setCq_sys (d : Dev) (i : Nat) (x : Cq) : (d.setCq i x).sys = d.sys := rfl
@[simp] theorem setCq_out (d : Dev) (i : Nat) (x : Cq) : (d.setCq i x).out = d.out := rfl
@[simp] theorem setCq_fresh (d : Dev) (i : Nat) (x : Cq) : (d.setCq i x).fresh = d.fresh := rfl

/-! ### setBq -/

@[simp] theorem setBq_time (d : Dev) (i : Nat) (x : Bq) : (d.setBq i x).time = d.time := rfl
@[simp] theorem setBq_regs (d : Dev) (i : Nat) (x : Bq) : (d.setBq i x).regs = d.regs := rfl
@[simp] theorem setBq_units (d : Dev) (i : Nat) (x : Bq) : (d.setBq i x).units = d.units := rfl
@[simp] theorem setBq_acts (d : Dev) (i : Nat) (x : Bq) : (d.setBq i x).acts = d.acts := rfl
@[simp] theorem setBq_hax (d : Dev) (i : Nat) (x : Bq) : (d.setBq i x).hax = d.hax := rfl
@[simp] theorem setBq_mvax (d : Dev) (i : Nat) (x : Bq) : (d.setBq i x).mvax = d.mvax := rfl
@[simp] theorem setBq_mvs (d : Dev) (i : Nat) (x : Bq) : (d.setBq i x).mvs = d.mvs := rfl
@[simp] theorem setBq_strikes (d : Dev) (i : Nat) (x : Bq) : (d.setBq i x).strikes = d.strikes := rfl
@[simp] theorem setBq_cmds (d : Dev) (i : Nat) (x : Bq) : (d.setBq i x).cmds = d.cmds := rfl
@[simp] theorem setBq_flt (d : Dev) (i : Nat) (x : Bq) : (d.setBq i x).flt = d.flt := rfl
@[simp] theorem setBq_signs (d : Dev) (i : Nat) (x : Bq) : (d.setBq i x).signs = d.signs := rfl
@[simp] theorem setBq_detects (d : Dev) (i : Nat) (x : Bq) : (d.setBq i x).detects = d.detects := rfl
@[simp] theorem setBq_reopens (d : Dev) (i : Nat) (x : Bq) : (d.setBq i x).reopens = d.reopens := rfl
@[simp] theorem setBq_signSerial (d : Dev) (i : Nat) (x : Bq) : (d.setBq i x).signSerial = d.signSerial := rfl
@[simp] theorem setBq_cans (d : Dev) (i : Nat) (x : Bq) : (d.setBq i x).cans = d.cans := rfl
@[simp] theorem setBq_objs (d : Dev) (i : Nat) (x : Bq) : (d.setBq i x).objs = d.objs := rfl
@[simp] theorem setBq_lock (d : Dev) (i : Nat) (x : Bq) : (d.setBq i x).lock = d.lock := rfl
@[simp] theorem setBq_nvs (d : Dev) (i : Nat) (x : Bq) : (d.setBq i x).nvs = d.nvs := rfl
@[simp] theorem setBq_therm (d : Dev) (i : Nat) (x : Bq) : (d.setBq i x).therm = d.therm := rfl
@[simp] theorem setBq_mons (d : Dev) (i : Nat) (x : Bq) : (d.setBq i x).mons = d.mons := rfl
@[simp] theorem setBq_sys (d : Dev) (i : Nat) (x : Bq) : (d.setBq i x).sys = d.sys := rfl
@[simp] theorem setBq_out (d : Dev) (i : Nat) (x : Bq) : (d.setBq i x).out = d.out := rfl
@[simp] theorem setBq_fresh (d : Dev) (i : Nat) (x : Bq) : (d.setBq i x).fresh = d.fresh := rfl

/-! ### setUnit -/

@[simp] theorem setUnit_time (d : Dev) (u : Nat) (x : UnitEnt) : (d.setUnit u x).time = d.time := rfl
@[simp] theorem setUnit_regs (d : Dev) (u : Nat) (x : UnitEnt) : (d.setUnit u x).regs = d.regs := rfl
@[simp] theorem setUnit_hif (d : Dev) (u : Nat) (x : UnitEnt) : (d.setUnit u x).hif = d.hif := rfl
@[simp] theorem setUnit_acts (d : Dev) (u : Nat) (x : UnitEnt) : (d.setUnit u x).acts = d.acts := rfl
@[simp] theorem setUnit_hax (d : Dev) (u : Nat) (x : UnitEnt) : (d.setUnit u x).hax = d.hax := rfl
@[simp] theorem setUnit_mvax (d : Dev) (u : Nat) (x : UnitEnt) : (d.setUnit u x).mvax = d.mvax := rfl
@[simp] theorem setUnit_mvs (d : Dev) (u : Nat) (x : UnitEnt) : (d.setUnit u x).mvs = d.mvs := rfl
@[simp] theorem setUnit_strikes (d : Dev) (u : Nat) (x : UnitEnt) : (d.setUnit u x).strikes = d.strikes := rfl
@[simp] theorem setUnit_cmds (d : Dev) (u : Nat) (x : UnitEnt) : (d.setUnit u x).cmds = d.cmds := rfl
@[simp] theorem setUnit_flt (d : Dev) (u : Nat) (x : UnitEnt) : (d.setUnit u x).flt = d.flt := rfl
@[simp] theorem setUnit_signs (d : Dev) (u : Nat) (x : UnitEnt) : (d.setUnit u x).signs = d.signs := rfl
@[simp] theorem setUnit_detects (d : Dev) (u : Nat) (x : UnitEnt) : (d.setUnit u x).detects = d.detects := rfl
@[simp] theorem setUnit_reopens (d : Dev) (u : Nat) (x : UnitEnt) : (d.setUnit u x).reopens = d.reopens := rfl
@[simp] theorem setUnit_signSerial (d : Dev) (u : Nat) (x : UnitEnt) : (d.setUnit u x).signSerial = d.signSerial := rfl
@[simp] theorem setUnit_cans (d : Dev) (u : Nat) (x : UnitEnt) : (d.setUnit u x).cans = d.cans := rfl
@[simp] theorem setUnit_objs (d : Dev) (u : Nat) (x : UnitEnt) : (d.setUnit u x).objs = d.objs := rfl
@[simp] theorem setUnit_lock (d : Dev) (u : Nat) (x : UnitEnt) : (d.setUnit u x).lock = d.lock := rfl
@[simp] theorem setUnit_nvs (d : Dev) (u : Nat) (x : UnitEnt) : (d.setUnit u x).nvs = d.nvs := rfl
@[simp] theorem setUnit_therm (d : Dev) (u : Nat) (x : UnitEnt) : (d.setUnit u x).therm = d.therm := rfl
@[simp] theorem setUnit_mons (d : Dev) (u : Nat) (x : UnitEnt) : (d.setUnit u x).mons = d.mons := rfl
@[simp] theorem setUnit_sys (d : Dev) (u : Nat) (x : UnitEnt) : (d.setUnit u x).sys = d.sys := rfl
@[simp] theorem setUnit_out (d : Dev) (u : Nat) (x : UnitEnt) : (d.setUnit u x).out = d.out := rfl
@[simp] theorem setUnit_fresh (d : Dev) (u : Nat) (x : UnitEnt) : (d.setUnit u x).fresh = d.fresh := rfl

/-! ### setStrike -/

@[simp] theorem setStrike_time (d : Dev) (i : Nat) (x : Strike) : (d.setStrike i x).time = d.time := rfl
@[simp] theorem setStrike_regs (d : Dev) (i : Nat) (x : Strike) : (d.setStrike i x).regs = d.regs := rfl
@[simp] theorem setStrike_hif (d : Dev) (i : Nat) (x : Strike) : (d.setStrike i x).hif = d.hif := rfl
@[simp] theorem setStrike_units (d : Dev) (i : Nat) (x : Strike) : (d.setStrike i x).units = d.units := rfl
@[simp] theorem setStrike_acts (d : Dev) (i : Nat) (x : Strike) : (d.setStrike i x).acts = d.acts := rfl
@[simp] theorem setStrike_hax (d : Dev) (i : Nat) (x : Strike) : (d.setStrike i x).hax = d.hax := rfl
@[simp] theorem setStrike_mvax (d : Dev) (i : Nat) (x : Strike) : (d.setStrike i x).mvax = d.mvax := rfl
@[simp] theorem setStrike_mvs (d : Dev) (i : Nat) (x : Strike) : (d.setStrike i x).mvs = d.mvs := rfl
@[simp] theorem setStrike_cmds (d : Dev) (i : Nat) (x : Strike) : (d.setStrike i x).cmds = d.cmds := rfl
@[simp] theorem setStrike_flt (d : Dev) (i : Nat) (x : Strike) : (d.setStrike i x).flt = d.flt := rfl
@[simp] theorem setStrike_signs (d : Dev) (i : Nat) (x : Strike) : (d.setStrike i x).signs = d.signs := rfl
@[simp] theorem setStrike_detects (d : Dev) (i : Nat) (x : Strike) : (d.setStrike i x).detects = d.detects := rfl
@[simp] theorem setStrike_reopens (d : Dev) (i : Nat) (x : Strike) : (d.setStrike i x).reopens = d.reopens := rfl
@[simp] theorem setStrike_signSerial (d : Dev) (i : Nat) (x : Strike) : (d.setStrike i x).signSerial = d.signSerial := rfl
@[simp] theorem setStrike_cans (d : Dev) (i : Nat) (x : Strike) : (d.setStrike i x).cans = d.cans := rfl
@[simp] theorem setStrike_objs (d : Dev) (i : Nat) (x : Strike) : (d.setStrike i x).objs = d.objs := rfl
@[simp] theorem setStrike_lock (d : Dev) (i : Nat) (x : Strike) : (d.setStrike i x).lock = d.lock := rfl
@[simp] theorem setStrike_nvs (d : Dev) (i : Nat) (x : Strike) : (d.setStrike i x).nvs = d.nvs := rfl
@[simp] theorem setStrike_therm (d : Dev) (i : Nat) (x : Strike) : (d.setStrike i x).therm = d.therm := rfl
@[simp] theorem setStrike_mons (d : Dev) (i : Nat) (x : Strike) : (d.setStrike i x).mons = d.mons := rfl
@[simp] theorem setStrike_sys (d : Dev) (i : Nat) (x : Strike) : (d.setStrike i x).sys = d.sys := rfl
@[simp] theorem setStrike_out (d : Dev) (i : Nat) (x : Strike) : (d.setStrike i x).out = d.out := rfl
@[simp] theorem setStrike_fresh (d : Dev) (i : Nat) (x : Strike) : (d.setStrike i x).fresh = d.fresh := rfl

/-! ### setCmd -/

@[simp] theorem setCmd_time (d : Dev) (c : Nat) (x : CmdPin) : (d.setCmd c x).time = d.time := rfl
@[simp] theorem setCmd_regs (d : Dev) (c : Nat) (x : CmdPin) : (d.setCmd c x).regs = d.regs := rfl
@[simp] theorem setCmd_hif (d : Dev) (c : Nat) (x : CmdPin) : (d.setCmd c x).hif = d.hif := rfl
@[simp] theorem setCmd_units (d : Dev) (c : Nat) (x : CmdPin) : (d.setCmd c x).units = d.units := rfl
@[simp] theorem setCmd_acts (d : Dev) (c : Nat) (x : CmdPin) : (d.setCmd c x).acts = d.acts := rfl
@[simp] theorem setCmd_hax (d : Dev) (c : Nat) (x : CmdPin) : (d.setCmd c x).hax = d.hax := rfl
@[simp] theorem setCmd_mvax (d : Dev) (c : Nat) (x : CmdPin) : (d.setCmd c x).mvax = d.mvax := rfl
@[simp] theorem setCmd_mvs (d : Dev) (c : Nat) (x : CmdPin) : (d.setCmd c x).mvs = d.mvs := rfl
@[simp] theorem setCmd_strikes (d : Dev) (c : Nat) (x : CmdPin) : (d.setCmd c x).strikes = d.strikes := rfl
@[simp] theorem setCmd_flt (d : Dev) (c : Nat) (x : CmdPin) : (d.setCmd c x).flt = d.flt := rfl
@[simp] theorem setCmd_signs (d : Dev) (c : Nat) (x : CmdPin) : (d.setCmd c x).signs = d.signs := rfl
@[simp] theorem setCmd_detects (d : Dev) (c : Nat) (x : CmdPin) : (d.setCmd c x).detects = d.detects := rfl
@[simp] theorem setCmd_reopens (d : Dev) (c : Nat) (x : CmdPin) : (d.setCmd c x).reopens = d.reopens := rfl
@[simp] theorem setCmd_signSerial (d : Dev) (c : Nat) (x : CmdPin) : (d.setCmd c x).signSerial = d.signSerial := rfl
@[simp] theorem setCmd_cans (d : Dev) (c : Nat) (x : CmdPin) : (d.setCmd c x).cans = d.cans := rfl
@[simp] theorem setCmd_objs (d : Dev) (c : Nat) (x : CmdPin) : (d.setCmd c x).objs = d.objs := rfl
@[simp] theorem setCmd_lock (d : Dev) (c : Nat) (x : CmdPin) : (d.setCmd c x).lock = d.lock := rfl
@[simp] theorem setCmd_nvs (d : Dev) (c : Nat) (x : CmdPin) : (d.setCmd c x).nvs = d.nvs := rfl
@[simp] theorem setCmd_therm (d : Dev) (c : Nat) (x : CmdPin) : (d.setCmd c x).therm = d.therm := rfl
@[simp] theorem setCmd_mons (d : Dev) (c : Nat) (x : CmdPin) : (d.setCmd c x).mons = d.mons := rfl
@[simp] theorem setCmd_sys (d : Dev) (c : Nat) (x : CmdPin) : (d.setCmd c x).sys = d.sys := rfl
@[simp] theorem setCmd_out (d : Dev) (c : Nat) (x : CmdPin) : (d.setCmd c x).out = d.out := rfl
@[simp] theorem setCmd_fresh (d : Dev) (c : Nat) (x : CmdPin) : (d.setCmd c x).fresh = d.fresh := rfl

/-! ### post -/

@[simp] theorem post_time (d : Dev) (m : Msg) : (d.post m).time = d.time := rfl
@[simp] theorem post_regs (d : Dev) (m : Msg) : (d.post m).regs = d.regs := rfl
@[simp] theorem post_units (d : Dev) (m : Msg) : (d.post m).units = d.units := rfl
@[simp] theorem post_acts (d : Dev) (m : Msg) : (d.post m).acts = d.acts := rfl
@[simp] theorem post_hax (d : Dev) (m : Msg) : (d.post m).hax = d.hax := rfl
@[simp] theorem post_mvax (d : Dev) (m : Msg) : (d.post m).mvax = d.mvax := rfl
@[simp] theorem post_mvs (d : Dev) (m : Msg) : (d.post m).mvs = d.mvs := rfl
@[simp] theorem post_strikes (d : Dev) (m : Msg) : (d.post m).strikes = d.strikes := rfl
@[simp] theorem post_cmds (d : Dev) (m : Msg) : (d.post m).cmds = d.cmds := rfl
@[simp] theorem post_flt (d : Dev) (m : Msg) : (d.post m).flt = d.flt := rfl
@[simp] theorem post_signs (d : Dev) (m : Msg) : (d.post m).signs = d.signs := rfl
@[simp] theorem post_detects (d : Dev) (m : Msg) : (d.post m).detects = d.detects := rfl
@[simp] theorem post_reopens (d : Dev) (m : Msg) : (d.post m).reopens = d.reopens := rfl
@[simp] theorem post_signSerial (d : Dev) (m : Msg) : (d.post m).signSerial = d.signSerial := rfl
@[simp] theorem post_cans (d : Dev) (m : Msg) : (d.post m).cans = d.cans := rfl
@[simp] theorem post_objs (d : Dev) (m : Msg) : (d.post m).objs = d.objs := rfl
@[simp] theorem post_lock (d : Dev) (m : Msg) : (d.post m).lock = d.lock := rfl
@[simp] theorem post_nvs (d : Dev) (m : Msg) : (d.post m).nvs = d.nvs := rfl
@[simp] theorem post_therm (d : Dev) (m : Msg) : (d.post m).therm = d.therm := rfl
@[simp] theorem post_mons (d : Dev) (m : Msg) : (d.post m).mons = d.mons := rfl
@[simp] theorem post_sys (d : Dev) (m : Msg) : (d.post m).sys = d.sys := rfl
@[simp] theorem post_out (d : Dev) (m : Msg) : (d.post m).out = d.out := rfl
@[simp] theorem post_fresh (d : Dev) (m : Msg) : (d.post m).fresh = d.fresh := rfl

/-! ### emit -/

@[simp] theorem emit_time (d : Dev) (m : Msg) : (d.emit m).time = d.time := rfl
@[simp] theorem emit_regs (d : Dev) (m : Msg) : (d.emit m).regs = d.regs := rfl
@[simp] theorem emit_hif (d : Dev) (m : Msg) : (d.emit m).hif = d.hif := rfl
@[simp] theorem emit_units (d : Dev) (m : Msg) : (d.emit m).units = d.units := rfl
@[simp] theorem emit_acts (d : Dev) (m : Msg) : (d.emit m).acts = d.acts := rfl
@[simp] theorem emit_hax (d : Dev) (m : Msg) : (d.emit m).hax = d.hax := rfl
@[simp] theorem emit_mvax (d : Dev) (m : Msg) : (d.emit m).mvax = d.mvax := rfl
@[simp] theorem emit_mvs (d : Dev) (m : Msg) : (d.emit m).mvs = d.mvs := rfl
@[simp] theorem emit_strikes (d : Dev) (m : Msg) : (d.emit m).strikes = d.strikes := rfl
@[simp] theorem emit_cmds (d : Dev) (m : Msg) : (d.emit m).cmds = d.cmds := rfl
@[simp] theorem emit_flt (d : Dev) (m : Msg) : (d.emit m).flt = d.flt := rfl
@[simp] theorem emit_signs (d : Dev) (m : Msg) : (d.emit m).signs = d.signs := rfl
@[simp] theorem emit_detects (d : Dev) (m : Msg) : (d.emit m).detects = d.detects := rfl
@[simp] theorem emit_reopens (d : Dev) (m : Msg) : (d.emit m).reopens = d.reopens := rfl
@[simp] theorem emit_signSerial (d : Dev) (m : Msg) : (d.emit m).signSerial = d.signSerial := rfl
@[simp] theorem emit_cans (d : Dev) (m : Msg) : (d.emit m).cans = d.cans := rfl
@[simp] theorem emit_objs (d : Dev) (m : Msg) : (d.emit m).objs = d.objs := rfl
@[simp] theorem emit_lock (d : Dev) (m : Msg) : (d.emit m).lock = d.lock := rfl
@[simp] theorem emit_nvs (d : Dev) (m : Msg) : (d.emit m).nvs = d.nvs := rfl
@[simp] theorem emit_therm (d : Dev) (m : Msg) : (d.emit m).therm = d.therm := rfl
@[simp] theorem emit_mons (d : Dev) (m : Msg) : (d.emit m).mons = d.mons := rfl
@[simp] theorem emit_sys (d : Dev) (m : Msg) : (d.emit m).sys = d.sys := rfl
@[simp] theorem emit_fresh (d : Dev) (m : Msg) : (d.emit m).fresh = d.fresh := rfl

/-! ### Parts read back -/

@[simp] theorem setHw_acc (d : Dev) (f : Fld) (i v : Nat) : (d.setHw f i v).regs.acc = d.regs.acc := rfl
@[simp] theorem setHw_force (d : Dev) (f : Fld) (i v : Nat) : (d.setHw f i v).regs.force = d.regs.force := rfl
@[simp] theorem setHw_pend (d : Dev) (f : Fld) (i v : Nat) : (d.setHw f i v).regs.pend = d.regs.pend := rfl
@[simp] theorem setHw_snap (d : Dev) (f : Fld) (i v : Nat) : (d.setHw f i v).regs.snap = d.regs.snap := rfl
@[simp] theorem setHw_rdata (d : Dev) (f : Fld) (i v : Nat) : (d.setHw f i v).regs.rdata = d.regs.rdata := rfl
@[simp] theorem setHw_hw (d : Dev) (f : Fld) (i v : Nat) : (d.setHw f i v).regs.hw = fldSet d.regs.hw f i v := rfl
@[simp] theorem setCfg_hw (d : Dev) (f : Fld) (i v : Nat) : (d.setCfg f i v).regs.hw = d.regs.hw := rfl
@[simp] theorem setCfg_pend (d : Dev) (f : Fld) (i v : Nat) : (d.setCfg f i v).regs.pend = d.regs.pend := rfl
@[simp] theorem setCfg_force (d : Dev) (f : Fld) (i v : Nat) : (d.setCfg f i v).regs.force = fldSet d.regs.force f i v := rfl
@[simp] theorem setCfg_acc (d : Dev) (f : Fld) (i v : Nat) : (d.setCfg f i v).regs.acc = fldSet d.regs.acc f i v := rfl
@[simp] theorem cfg_setHw (d : Dev) (f : Fld) (i v : Nat) (g : Fld) (j : Nat) : (d.setHw f i v).cfg g j = d.cfg g j := rfl
@[simp] theorem on_setHw (d : Dev) (f : Fld) (i v : Nat) (g : Fld) (j : Nat) : (d.setHw f i v).on g j = d.on g j := rfl
@[simp] theorem hw_setCfg (d : Dev) (f : Fld) (i v : Nat) (g : Fld) (j : Nat) : (d.setCfg f i v).hw g j = d.hw g j := rfl
@[simp] theorem setHw_axis (d : Dev) (f : Fld) (i v n : Nat) : (d.setHw f i v).axis n = d.axis n := rfl
@[simp] theorem setHw_mva (d : Dev) (f : Fld) (i v n : Nat) : (d.setHw f i v).mva n = d.mva n := rfl
@[simp] theorem setHw_mv (d : Dev) (f : Fld) (i v m : Nat) : (d.setHw f i v).mv m = d.mv m := rfl
@[simp] theorem setHw_sq (d : Dev) (f : Fld) (i v k : Nat) : (d.setHw f i v).sq k = d.sq k := rfl
@[simp] theorem setHw_cq (d : Dev) (f : Fld) (i v k : Nat) : (d.setHw f i v).cq k = d.cq k := rfl
@[simp] theorem setHw_unit (d : Dev) (f : Fld) (i v u : Nat) : (d.setHw f i v).unit u = d.unit u := rfl

/-- A device-driven field that was set reads back, cut to its width. -/
@[simp] theorem hw_setHw_same (d : Dev) (f : Fld) (i v : Nat) (h : f.lo + f.width ≤ 32) :
    (d.setHw f i v).hw f i = v % 2 ^ f.width := fldOf_fldSet_same _ f i v h

/-- A field of another register, or of another instance, stays. -/
theorem hw_setHw_reg (d : Dev) (f g : Fld) (i j v : Nat) (h : g.reg.offset j ≠ f.reg.offset i) :
    (d.setHw f i v).hw g j = d.hw g j := fldOf_fldSet_reg _ f g i j v h

/-- A field beside it in the same register stays. -/
theorem hw_setHw_beside (d : Dev) (f g : Fld) (i v : Nat) (hr : g.reg = f.reg) (h : f.lo + f.width ≤ 32)
    (hd : g.lo + g.width ≤ f.lo ∨ f.lo + f.width ≤ g.lo) : (d.setHw f i v).hw g i = d.hw g i :=
  fldOf_fldSet_beside _ f g i v hr h hd

/-- A configuration field that the device changed reads back. -/
@[simp] theorem cfg_setCfg_same (d : Dev) (f : Fld) (i v : Nat) (h : f.lo + f.width ≤ 32) :
    (d.setCfg f i v).cfg f i = v % 2 ^ f.width := fldOf_fldSet_same _ f i v h

@[simp] theorem axis_setAxis (d : Dev) (n : Nat) (x : HubAxis) : (d.setAxis n x).axis n = x := SMap.get_set_same _ _ _ _
theorem axis_setAxis_other (d : Dev) (x : HubAxis) {n k : Nat} (h : k ≠ n) : (d.setAxis n x).axis k = d.axis k :=
  SMap.get_set_other _ _ _ h
@[simp] theorem axis_modAxis (d : Dev) (n : Nat) (f : HubAxis → HubAxis) : (d.modAxis n f).axis n = f (d.axis n) :=
  axis_setAxis _ _ _
theorem axis_modAxis_other (d : Dev) (f : HubAxis → HubAxis) {n k : Nat} (h : k ≠ n) : (d.modAxis n f).axis k = d.axis k :=
  axis_setAxis_other _ _ h
@[simp] theorem mva_setMva (d : Dev) (n : Nat) (x : MvAxis) : (d.setMva n x).mva n = x := SMap.get_set_same _ _ _ _
theorem mva_setMva_other (d : Dev) (x : MvAxis) {n k : Nat} (h : k ≠ n) : (d.setMva n x).mva k = d.mva k :=
  SMap.get_set_other _ _ _ h
@[simp] theorem mva_modMva (d : Dev) (n : Nat) (f : MvAxis → MvAxis) : (d.modMva n f).mva n = f (d.mva n) := mva_setMva _ _ _
theorem mva_modMva_other (d : Dev) (f : MvAxis → MvAxis) {n k : Nat} (h : k ≠ n) : (d.modMva n f).mva k = d.mva k :=
  mva_setMva_other _ _ h
@[simp] theorem mv_setMv (d : Dev) (m : Nat) (x : Mv) : (d.setMv m x).mv m = x := SMap.get_set_same _ _ _ _
theorem mv_setMv_other (d : Dev) (x : Mv) {m k : Nat} (h : k ≠ m) : (d.setMv m x).mv k = d.mv k := SMap.get_set_other _ _ _ h
@[simp] theorem sq_setSq (d : Dev) (i : Nat) (x : Sq) : (d.setSq i x).sq i = x := SMap.get_set_same _ _ _ _
theorem sq_setSq_other (d : Dev) (x : Sq) {i k : Nat} (h : k ≠ i) : (d.setSq i x).sq k = d.sq k := SMap.get_set_other _ _ _ h
@[simp] theorem cq_setCq (d : Dev) (i : Nat) (x : Cq) : (d.setCq i x).cq i = x := SMap.get_set_same _ _ _ _
theorem cq_setCq_other (d : Dev) (x : Cq) {i k : Nat} (h : k ≠ i) : (d.setCq i x).cq k = d.cq k := SMap.get_set_other _ _ _ h
@[simp] theorem cq_setSq (d : Dev) (i k : Nat) (x : Sq) : (d.setSq i x).cq k = d.cq k := rfl
@[simp] theorem sq_setCq (d : Dev) (i k : Nat) (x : Cq) : (d.setCq i x).sq k = d.sq k := rfl
@[simp] theorem unit_setUnit (d : Dev) (u : Nat) (x : UnitEnt) : (d.setUnit u x).unit u = x := SMap.get_set_same _ _ _ _
theorem unit_setUnit_other (d : Dev) (x : UnitEnt) {u k : Nat} (h : k ≠ u) : (d.setUnit u x).unit k = d.unit k :=
  SMap.get_set_other _ _ _ h
@[simp] theorem strike_setStrike (d : Dev) (i : Nat) (x : Strike) : (d.setStrike i x).strike i = x := SMap.get_set_same _ _ _ _
theorem strike_setStrike_other (d : Dev) (x : Strike) {i k : Nat} (h : k ≠ i) : (d.setStrike i x).strike k = d.strike k :=
  SMap.get_set_other _ _ _ h
@[simp] theorem cmd_setCmd (d : Dev) (c : Nat) (x : CmdPin) : (d.setCmd c x).cmd c = x := SMap.get_set_same _ _ _ _

end Sys2Proof.Machine.Dev
end

