-- ==== Sys2Proof/Laws/Dispatch.lean ====
section
/-! SUPPORT. Laws/Dispatch.lean: what producing a record, taking a slot and dispatching a descriptor do: each once. -/

namespace Sys2Proof.Machine.Dev

/-! ## Records -/

/-- A record with a credit joins the queue of an active completion ring. -/
theorem produce_credit (d : Dev) (i : Nat) (r : CRec) (ha : (d.cq i).active = true) (hc : r.credit = true) :
    d.produce i r = d.setCq i { d.cq i with queue := (d.cq i).queue ++ [r] } := by
  simp [produce, ha, hc]

/-- Producing a record changes the completion rings and a drop count, and nothing else. -/
theorem produce_frame (d : Dev) (i : Nat) (r : CRec) :
    d.produce i r = { d with hif := { d.hif with cqs := (d.produce i r).hif.cqs }
                             regs := { d.regs with hw := (d.produce i r).regs.hw } } := by
  unfold produce
  dsimp only
  split
  · split <;> rfl
  · split
    · split <;> rfl
    · rfl

/-- A producer leaves the submission rings. -/
@[simp] theorem produce_sq (d : Dev) (i : Nat) (r : CRec) (j : Nat) : (d.produce i r).sq j = d.sq j := by
  rw [produce_frame]; rfl

/-- The final record of an owner changes the completion rings and a drop count, and nothing else. -/
theorem finish_frame (d : Dev) (o : Owner) (st : Status) (unit : Nat) (result : Word) :
    d.finish o st unit result = { d with hif := { d.hif with cqs := (d.finish o st unit result).hif.cqs }
                                         regs := { d.regs with hw := (d.finish o st unit result).regs.hw } } := by
  unfold finish
  dsimp only
  split
  · split
    · rw [← produce_frame]
    · rfl
  · rw [← produce_frame]

@[simp] theorem finish_sq (d : Dev) (o : Owner) (st : Status) (unit : Nat) (result : Word) (j : Nat) :
    (d.finish o st unit result).sq j = d.sq j := by
  rw [finish_frame]; rfl

/-- The final record of an owner with a credit joins its active ring, hidden where it is suppressed. -/
theorem finish_credit (d : Dev) (o : Owner) (st : Status) (unit : Nat) (result : Word)
    (ha : (d.cq o.cq).active = true) (hc : o.credit = true) :
    d.finish o st unit result = d.setCq o.cq { d.cq o.cq with queue := (d.cq o.cq).queue ++
      [{ d.recOf o .final st unit result true with hidden := o.silent && st == .ok }] } := by
  unfold finish
  dsimp only
  by_cases h : (o.silent && st == .ok) = true
  · rw [if_pos h, if_pos hc, produce_credit d _ _ ha (by simp [recOf, hc])]
    simp [h, hc]
  · rw [if_neg h, produce_credit d _ _ ha (by simp [recOf, hc])]
    simp only [Bool.not_eq_true] at h
    simp [h, hc, recOf]

/-! ## Slots and credits -/

/-- The block after a descriptor's credits and slot have been taken. -/
abbrev taken (d : Dev) (i : Nat) (slot : BitVec 16) (x : Desc) : Dev :=
  giveSlot i slot (reserve (d.recordCq (d.sq i) x) (d.need (d.sq i) x) d)

/-- Reserving credits changes the completion rings only. -/
theorem reserve_frame (d : Dev) (i n : Nat) :
    reserve i n d = { d with hif := { d.hif with cqs := (reserve i n d).hif.cqs } } := rfl

@[simp] theorem reserve_sq (d : Dev) (i n j : Nat) : (reserve i n d).sq j = d.sq j := rfl

/-- Reserving credits leaves everything of a completion ring but the reservation. -/
theorem reserve_cq (d : Dev) (i n k : Nat) :
    (reserve i n d).cq k = { d.cq k with reserved := ((reserve i n d).cq k).reserved } := by
  unfold reserve modCq
  by_cases h : k = i
  · subst h; simp
  · rw [cq_setCq_other _ _ h]

@[simp] theorem reserve_active (d : Dev) (i n k : Nat) : ((reserve i n d).cq k).active = (d.cq k).active := by
  rw [reserve_cq]
@[simp] theorem reserve_queue (d : Dev) (i n k : Nat) : ((reserve i n d).cq k).queue = (d.cq k).queue := by
  rw [reserve_cq]

/-- A slot given back changes the submission rings and the count of the tick only. -/
theorem giveSlot_frame (d : Dev) (i : Nat) (slot : BitVec 16) :
    giveSlot i slot d = { d with hif := { d.hif with sqs := (giveSlot i slot d).hif.sqs, total := d.hif.total + 1 } } := rfl

@[simp] theorem giveSlot_cq (d : Dev) (i : Nat) (slot : BitVec 16) (k : Nat) : (giveSlot i slot d).cq k = d.cq k := rfl

theorem giveSlot_sq (d : Dev) (i : Nat) (slot : BitVec 16) :
    (giveSlot i slot d).sq i = { d.sq i with cons := (slot.toNat + 1) % 2 ^ (d.sq i).size
                                             fetched := (d.sq i).fetched.filter fun e => e.1 ≠ slot.toNat
                                             given := (d.sq i).given + 1 } := by
  show SMap.get _ _ _ = _
  simp [giveSlot, modSq, setSq, sq]

theorem giveSlot_sq_other (d : Dev) {i j : Nat} (slot : BitVec 16) (h : j ≠ i) : (giveSlot i slot d).sq j = d.sq j := by
  show SMap.get _ _ _ = _
  simp [giveSlot, modSq, setSq, sq, SMap.get_set_other _ _ _ h]

/-- Taking a slot changes the rings only. -/
theorem taken_frame (d : Dev) (i : Nat) (slot : BitVec 16) (x : Desc) :
    d.taken i slot x = { d with hif := (d.taken i slot x).hif } := rfl

/-- Whether a unit lies below another depends on the unit table only. -/
theorem isBelow_units (d t : Dev) (h : t.units = d.units) (r : Nat) : ∀ fuel u, t.isBelow u r fuel = d.isBelow u r fuel := by
  have hu : ∀ u, t.unit u = d.unit u := fun u => by unfold unit; rw [h]
  intro fuel
  induction fuel with
  | zero => intro u; rfl
  | succ f ih => intro u; simp only [isBelow, hu, ih]

theorem inRing_units (d t : Dev) (h : t.units = d.units) (q : Sq) (u : Nat) : t.inRing q u = d.inRing q u := by
  unfold inRing; rw [isBelow_units d t h]

/-- The checks of R60 do not see that the slot has been taken. -/
@[simp] theorem check60_taken (d : Dev) (i : Nat) (slot : BitVec 16) (x y : Desc) (q : Sq) (o : Op) :
    (d.taken i slot x).check60 q o y = d.check60 q o y := by
  have h : (d.taken i slot x).cqOk y = d.cqOk y := by simp [cqOk, taken]
  have hr : ∀ u, (d.taken i slot x).inRing q u = d.inRing q u :=
    inRing_units d (d.taken i slot x) rfl q
  unfold check60
  rw [h, hr]
  rfl

/-- Dispatch of an admitted descriptor: its slot and credits are taken, then it acts. -/
theorem dispatch_admits (d : Dev) (o : Op) (i : Nat) (slot : BitVec 16) (x : Desc) (act : Ctx → Dev → Dev)
    (h : d.admits o i x) :
    dispatch o i slot x act d =
      act { sq := i, ring := d.sq i, slot := slot, x := x, op := o, owner := d.ownerOf i slot x } (d.taken i slot x) := by
  obtain ⟨h1, h2, h3, h4⟩ := h
  unfold dispatch
  rw [if_neg (by simp [h1])]
  dsimp only
  have hc : (giveSlot i slot (reserve (d.ownerOf i slot x).cq (d.need (d.sq i) x) d)).check60 (d.sq i) o x = none := by
    have := check60_taken d i slot x x (d.sq i) o
    rw [h2] at this
    exact this
  rw [hc]
  dsimp only
  rw [if_neg, if_neg]
  · rfl
  · exact fun h => by
      have : (needsMotion o x && !d.motionOn) = true := h
      rw [h4] at this; cases this
  · exact fun h => by
      have : (refusedDown o x && d.down x.unit) = true := h
      rw [h3] at this; cases this

end Sys2Proof.Machine.Dev
end

