-- ==== Sys2Proof/Laws/Actions.lean ====
section
/-! SUPPORT. Laws/Actions.lean: what the beginning and the end of an action and of a waiting register write can change. -/

namespace Sys2Proof.Machine.Dev

/-- A new action takes the next number; nothing but the actions changes. -/
theorem openAct_frame (d : Dev) (o : Owner) (unit : Nat) (axes : List Nat) :
    (d.openAct o unit axes).1 = d.acts.next ∧
    (d.openAct o unit axes).2 = { d with acts := (d.openAct o unit axes).2.acts } := ⟨rfl, rfl⟩

/-- The part of an axis in an action ends: the actions, the completion rings and a drop count change, and nothing else. -/
theorem endAct_frame (d : Dev) (n ax : Nat) (st : Status) (result : Word) :
    d.endAct n ax st result =
      { d with acts := (d.endAct n ax st result).acts, hif := { d.hif with cqs := (d.endAct n ax st result).hif.cqs },
               regs := { d.regs with hw := (d.endAct n ax st result).regs.hw } } := by
  unfold endAct
  split
  · rfl
  · split
    · rfl
    · dsimp only
      split
      · rw [finish_frame]
      · rfl

theorem endAct?_frame (d : Dev) (n : Option Nat) (ax : Nat) (st : Status) (result : Word) :
    d.endAct? n ax st result =
      { d with acts := (d.endAct? n ax st result).acts, hif := { d.hif with cqs := (d.endAct? n ax st result).hif.cqs },
               regs := { d.regs with hw := (d.endAct? n ax st result).regs.hw } } := by
  unfold endAct?
  split
  · rfl
  · rw [endAct_frame]

@[simp] theorem endAct?_axis (d : Dev) (n : Option Nat) (ax : Nat) (st : Status) (result : Word) (k : Nat) :
    (d.endAct? n ax st result).axis k = d.axis k := by
  rw [endAct?_frame]; rfl

@[simp] theorem endAct?_sq (d : Dev) (n : Option Nat) (ax : Nat) (st : Status) (result : Word) (k : Nat) :
    (d.endAct? n ax st result).sq k = d.sq k := by
  rw [endAct?_frame]; rfl

/-- A write that comes into force changes the values in force only. -/
theorem enforce_frame (r : Reg) (i : Nat) (m v : Word) (d : Dev) :
    enforce r i m v d = { d with regs := { d.regs with force := (enforce r i m v d).regs.force } } := rfl

/-- A write that is accepted changes the accepted values only. -/
theorem accept_frame (r : Reg) (i : Nat) (m v : Word) (d : Dev) :
    accept r i m v d = { d with regs := { d.regs with acc := (accept r i m v d).regs.acc } } := rfl

/-- The word in force after a write under a mask. -/
theorem regWord_enforce (r : Reg) (i : Nat) (m v : Word) (d : Dev) :
    regWord (enforce r i m v d).regs.force r i = blend (regWord d.regs.force r i) m v := by
  simp [enforce, regWord, SMap.find_set_same]

/-- The word accepted after a write under a mask. -/
theorem regWord_accept (r : Reg) (i : Nat) (m v : Word) (d : Dev) :
    regWord (accept r i m v d).regs.acc r i = blend (regWord d.regs.acc r i) m v := by
  simp [accept, regWord, SMap.find_set_same]

end Sys2Proof.Machine.Dev
end

