-- ==== Sys2Proof/Laws/Faults.lean ====
section
/-! SUPPORT. Laws/Faults.lean: what raising a fault source can change: each operation once. -/

namespace Sys2Proof.Machine.Dev

/-- A sticky flag of an axis changes device-driven registers, or the flags that the axis's movement holds. -/
theorem stickAxis_frame (p b c n : Nat) (d : Dev) :
    stickAxis p b c n d =
      { d with regs := { d.regs with hw := (stickAxis p b c n d).regs.hw }, flt := (stickAxis p b c n d).flt } := by
  unfold stickAxis
  dsimp only
  split <;> rfl

theorem each_stickAxis_frame (p b c : Nat) (l : List Nat) (d : Dev) :
    each l (stickAxis p b c) d =
      { d with regs := { d.regs with hw := (each l (stickAxis p b c) d).regs.hw }, flt := (each l (stickAxis p b c) d).flt } := by
  induction l generalizing d with
  | nil => rfl
  | cons n r ih => rw [each_cons, ih, stickAxis_frame]

/-- A source of the hub, or of a movement that is off, sets the flag in FLT_STICKY. -/
theorem stickAxis_hub (p b c n : Nat) (d : Dev) (h : d.flagsAtMv p n = false) :
    regWord (stickAxis p b c n d).regs.hw .fltSticky n = flagWord b c (regWord d.regs.hw .fltSticky n) := by
  simp [stickAxis, flagsAt, h, regWord]

/-- STO of an axis changes device-driven registers and the axes in their movements. -/
theorem stoAxis_frame (n : Nat) (d : Dev) :
    stoAxis n d = { d with regs := { d.regs with hw := (stoAxis n d).regs.hw }, mvax := (stoAxis n d).mvax } := rfl

theorem each_stoAxis_frame (l : List Nat) (d : Dev) :
    each l stoAxis d = { d with regs := { d.regs with hw := (each l stoAxis d).regs.hw }, mvax := (each l stoAxis d).mvax } := by
  induction l generalizing d with
  | nil => rfl
  | cons n r ih => rw [each_cons, ih, stoAxis_frame]

/-- STO leaves every other axis. -/
theorem mva_stoAxis_other (d : Dev) {n k : Nat} (h : k ≠ n) : (stoAxis n d).mva k = d.mva k := mva_modMva_other _ _ h

/-- STO leaves the axis without torque. -/
theorem stoAxis_drive (n : Nat) (d : Dev) :
    ((stoAxis n d).mva n).drive = .sto ∨ ((stoAxis n d).mva n).drive = .orphanSto := by
  show ((Dev.modMva _ n _).mva n).drive = _ ∨ ((Dev.modMva _ n _).mva n).drive = _
  rw [mva_modMva]
  dsimp only
  split <;> simp

/-- The STO latches change a device-driven register only. -/
theorem latchSto_frame (c : Nat) (l : List Nat) (d : Dev) :
    latchSto c l d = { d with regs := { d.regs with hw := (latchSto c l d).regs.hw } } := by
  unfold latchSto
  split
  · induction l generalizing d with
    | nil => rfl
    | cons n r ih => rw [List.foldl_cons, ih]; rfl
  · split <;> rfl

/-- What a reaction does at once. -/
theorem reactNow_frame (c : Nat) (l : List Nat) (d : Dev) :
    reactNow c l d = { d with regs := { d.regs with hw := (reactNow c l d).regs.hw }, mvax := (reactNow c l d).mvax } := by
  unfold reactNow
  split
  · rfl
  · rw [latchSto_frame, each_stoAxis_frame]

/-- t is d but for device-driven registers, the axes in their movements, the requests of a movement, and the fault collector. -/
def faultOnly (d t : Dev) : Prop :=
  t = { d with regs := { d.regs with hw := t.regs.hw }, mvax := t.mvax, mvs := t.mvs, flt := t.flt }

theorem faultOnly_trans {d t u : Dev} (h : d.faultOnly t) (k : t.faultOnly u) : d.faultOnly u := by
  unfold faultOnly at *
  rw [k, h]

/-- Raising a source changes no more than that. -/
theorem raiseAs_faultOnly (d : Dev) (s : Src) (place sub pres cls : Nat) (status : Status) :
    d.faultOnly (d.raiseAs s place sub pres cls status) := by
  have h1 : ∀ (b c : Nat) (l : List Nat) (t : Dev), t.faultOnly (each l (stickAxis pres b c) t) := fun b c l t => by
    unfold faultOnly; rw [each_stickAxis_frame]
  have h2 : ∀ (c : Nat) (l : List Nat) (t : Dev), t.faultOnly (reactNow c l t) := fun c l t => by
    unfold faultOnly; rw [reactNow_frame]
  have h := faultOnly_trans (faultOnly_trans (h1 s.row.bit 0 (reactionSet s place) d)
    (h1 31 cls (classAxes cls (reactionSet s place)) _)) (h2 cls (reactionSet s place) _)
  unfold raiseAs
  dsimp only
  generalize reactNow cls (reactionSet s place) _ = t at h ⊢
  have hq : ∀ r, t.faultOnly (t.addReq pres r) := fun _ => rfl
  have hr : ∀ r, t.faultOnly (t.addReact r) := fun _ => rfl
  have hx : ∀ r, t.faultOnly (if cls < 2 then t else if (pres < 8 && cls < 5) = true then t.addReq pres r else t.addReact r) := by
    intro r
    split
    · rfl
    · split
      · exact hq r
      · exact hr r
  refine faultOnly_trans h ?_
  by_cases h0 : cls = 0
  · rw [if_pos h0]; exact hx _
  · rw [if_neg h0]
    exact faultOnly_trans (hx _) rfl

/-- Presenting the sources of a clock changes the fault collector only. -/
theorem settleOne_frame (p : Nat) (d : Dev) : settleOne p d = { d with flt := (settleOne p d).flt } := by
  unfold settleOne
  split
  · rfl
  · split
    · rfl
    · split <;> rfl

theorem each_settleOne_frame (l : List Nat) (d : Dev) : each l settleOne d = { d with flt := (each l settleOne d).flt } := by
  induction l generalizing d with
  | nil => rfl
  | cons n r ih => rw [each_cons, ih, settleOne_frame]

theorem settle_frame (d : Dev) : d.settle = { d with flt := d.settle.flt } := by
  unfold settle
  split
  · rfl
  · rw [each_settleOne_frame]

/-- Once the sources of a clock are presented, none waits. -/
theorem settle_raised (d : Dev) : d.settle.flt.raised = [] := by
  unfold settle
  split
  · rename_i h; exact List.isEmpty_iff.mp h
  · rfl

/-- With nothing raised, presenting changes nothing. -/
theorem settle_none (d : Dev) (h : d.flt.raised = []) : d.settle = d := by
  unfold settle; rw [h]; rfl

/-- A single source raised and presented. -/
theorem raise1_faultOnly (d : Dev) (s : Src) (place sub pres : Nat) : d.faultOnly (d.raise1 s place sub pres) := by
  refine faultOnly_trans (raiseAs_faultOnly d s place sub pres (d.classOf s) .stoppedFault) ?_
  unfold faultOnly raise1 raise
  rw [settle_frame]

/-- The hub's side of the axes stays. -/
@[simp] theorem raise1_axis (d : Dev) (s : Src) (place sub pres n : Nat) : (d.raise1 s place sub pres).axis n = d.axis n := by
  rw [raise1_faultOnly d s place sub pres]; rfl

end Sys2Proof.Machine.Dev
end

