-- ==== Sys2Proof/Laws/PerInstr.lean ====
section
/-! SUPPORT. Laws/PerInstr.lean: what well-formedness says of each command, per constructor: the instant of a well-formed command lies
in a tick (R17, R36). -/

namespace Sys2Proof.Laws.WF

/-- The instant in its tick, in hub clocks, that a command carries. -/
def instant : Instr → Option Nat
  | .hifKick _ off => some off
  | .doorbellEnable _ off => some off
  | .ringEnable _ _ _ off => some off
  | .ringDisable _ _ _ off => some off
  | .rebase _ _ off => some off
  | .cmdEngage _ _ off => some off
  | .cmdDisengage _ _ off => some off
  | .stepEdge _ _ _ off => some off
  | .unitRefWrite _ _ off => some off
  | .tickRateChange _ off => some off
  | .bemfCrossing _ _ _ x => some x.off
  | .feedbackEdge _ _ _ _ h => some h.off
  | .indexLatch e => some e.off
  | .switchLatch _ _ e => some e.off
  | .fltAck _ off => some off
  | .fltClear _ off => some off
  | .mainsEdge e => some e.off
  | .monUrgent _ off => some off
  | .canEnable _ _ off => some off
  | .canDisable _ _ off => some off
  | .recover _ _ off => some off
  | .flush _ _ off => some off
  | .password _ off => some off
  | .challenge _ off => some off
  | .response _ off => some off
  | .relock _ off => some off
  | .setpw _ off => some off
  | .nvsRead _ off => some off
  | .nvsProgram _ off => some off
  | .nvsErase _ off => some off
  | .movementSwitchOff _ _ off => some off
  | .movementSwitchOn _ _ off => some off
  | .hubDomainSwitch _ off => some off
  | .registerWrite _ _ off => some off
  | .tickBoundary _ _ | .doorbellReadComplete _ | .descriptorFetch _ _ | .moderatedMessage _ | .hostSilent
  | .hostLinkLost _ | .functionLevelReset | .badOpcode _ _ _ | .move _ _ _ | .stop _ _ _ | .resume _ _ _
  | .speed _ _ _ | .setprofile _ _ _ | .setpoint _ _ _ | .strikeArm _ _ _ | .strikeDisarm _ _ _ | .start _ _ _
  | .catchRotor _ _ _ | .brake _ _ _ | .float _ _ _ | .arm _ _ _ | .disarm _ _ _ | .auxPwm _ _ _ | .offtest _ _ _
  | .calibrate _ _ _ | .signLoad _ _ _ | .learn _ _ _ | .bind _ _ _ | .unbind _ _ _ | .canTx _ _ _ | .snapshot _ _ _
  | .fence _ _ _ | .fenceRelease _ | .fenceTimeout _ | .nop _ _ _ | .standstill _ | .moveEnd _ | .settleTimeout _
  | .reversalBrakingEnd _ | .cmdLost _ | .movementTickBoundary _ | .tickMark _ _ _ | .setpointFrame _
  | .setpointFrameMiss _ _ | .latchFrameMiss _ _ | .orphanEntry _ _ | .linkTrainingDone _ _ | .trainFail _
  | .pwmBoundary _ _ _ _ _ | .prechargeEnd _ | .park _ | .wakeEnd _ | .shortDidt _ _ | .shuntOc _
  | .interlockStuck _ _ | .bstUv _ _ | .vdrvFault _ _ _ | .offtestEnd _ _ | .calibrationEnd _ _
  | .alignEnd _ | .retryBrakeEnd _ | .catchWindowEnd _ | .speedProbe _ _ | .floatWindowSample _ _ | .speedTimeout _
  | .signStarved _ | .reopen _ | .remontoireRead _ _ _ _ | .faultArrival _ | .reactionSequenceEnd _
  | .alertPulseEnd _ | .railBroken _ _ | .railRestored _ _ | .stoActive _ _ | .stoPinRelease _ _ | .stoDiscrepancy _
  | .escFault _ | .selftestEnd _ | .safePinRelease | .safeCondition | .ss1Trip _ _ | .slsExceeded _ _
  | .slsDiscrepancy _ _ | .slcExceeded _ | .slcBlind _ | .clockMonitorTrip _ | .clockRecovery _ | .dllLost _
  | .dllLock _ | .debugHalt _ | .debugResume _ | .pllLoss | .mainsTimeout | .tempMeasurement _ _ | .vbusOv _ _
  | .vbusUv _ _ | .supplyFault _ | .monitorConversionDone _ _ _ | .integrationDone _ | .canFrameReceived _ _
  | .canTxAttempt _ _ | .canTxSuccess _ | .canError _ _ | .busOff _ | .busOffRecoveryDone _ | .canDataRead _ _ _
  | .lockCommandDone | .nonceExpiry | .lockoutExpiry | .nvsCommandDone _ | .powerOnReset _ | .deviceReset _ _
  | .movementReset _ | .imageLoadDone | .lowHalfRead _ | .highHalfRead _ | .badAccess _ | .unmappedAccess _ _
  | .configurationRequest _ _ _ | .hostLinkReturn | .pllLock | .didtEarly _ | .gathererPresentationEnd _
  | .monitorRestEnd _ | .movementResetRelease _ => none

/-- The instant of a well-formed command lies in a tick of the longest length. -/
def Statement (i : Instr) : Prop := i.wellFormed = true → ∀ off, instant i = some off → off < 80000

theorem none_ok (i : Instr) (h : instant i = none) : Statement i := by
  intro _ o ho
  rw [h] at ho
  cases ho

theorem some_ok (i : Instr) (n : Nat) (h : instant i = some n) (hw : i.wellFormed = true → offOk n = true) : Statement i := by
  intro w o ho
  rw [h] at ho
  cases ho
  exact of_decide_eq_true (hw w)

theorem tickBoundary (early : List Early) (room : Nat) : Statement (.tickBoundary early room) := none_ok _ rfl
theorem doorbellReadComplete (r : Option (List Word)) : Statement (.doorbellReadComplete r) := none_ok _ rfl
theorem descriptorFetch (sq : Fin 128) (r : Option Desc) : Statement (.descriptorFetch sq r) := none_ok _ rfl
theorem moderatedMessage (v : Fin 68) : Statement (.moderatedMessage v) := none_ok _ rfl
theorem hifKick (value : Word) (off : Nat) : Statement (.hifKick value off) := some_ok _ off rfl (id)
theorem doorbellEnable (value : Word) (off : Nat) : Statement (.doorbellEnable value off) := some_ok _ off rfl (id)
theorem ringEnable (k : RingKind) (i : Fin 128) (value : Word) (off : Nat) : Statement (.ringEnable k i value off) := some_ok _ off rfl (by simp [Instr.wellFormed])
theorem ringDisable (k : RingKind) (i : Fin 128) (value : Word) (off : Nat) : Statement (.ringDisable k i value off) := some_ok _ off rfl (by simp [Instr.wellFormed])
theorem hostSilent : Statement .hostSilent := none_ok _ rfl
theorem hostLinkLost (why : LinkLoss) : Statement (.hostLinkLost why) := none_ok _ rfl
theorem functionLevelReset : Statement .functionLevelReset := none_ok _ rfl
theorem badOpcode (sq : Fin 128) (slot : BitVec 16) (d : Desc) : Statement (.badOpcode sq slot d) := none_ok _ rfl
theorem move (sq : Fin 128) (slot : BitVec 16) (d : Desc) : Statement (.move sq slot d) := none_ok _ rfl
theorem stop (sq : Fin 128) (slot : BitVec 16) (d : Desc) : Statement (.stop sq slot d) := none_ok _ rfl
theorem resume (sq : Fin 128) (slot : BitVec 16) (d : Desc) : Statement (.resume sq slot d) := none_ok _ rfl
theorem speed (sq : Fin 128) (slot : BitVec 16) (d : Desc) : Statement (.speed sq slot d) := none_ok _ rfl
theorem setprofile (sq : Fin 128) (slot : BitVec 16) (d : Desc) : Statement (.setprofile sq slot d) := none_ok _ rfl
theorem setpoint (sq : Fin 128) (slot : BitVec 16) (d : Desc) : Statement (.setpoint sq slot d) := none_ok _ rfl
theorem strikeArm (sq : Fin 128) (slot : BitVec 16) (d : Desc) : Statement (.strikeArm sq slot d) := none_ok _ rfl
theorem strikeDisarm (sq : Fin 128) (slot : BitVec 16) (d : Desc) : Statement (.strikeDisarm sq slot d) := none_ok _ rfl
theorem start (sq : Fin 128) (slot : BitVec 16) (d : Desc) : Statement (.start sq slot d) := none_ok _ rfl
theorem catchRotor (sq : Fin 128) (slot : BitVec 16) (d : Desc) : Statement (.catchRotor sq slot d) := none_ok _ rfl
theorem brake (sq : Fin 128) (slot : BitVec 16) (d : Desc) : Statement (.brake sq slot d) := none_ok _ rfl
theorem float (sq : Fin 128) (slot : BitVec 16) (d : Desc) : Statement (.float sq slot d) := none_ok _ rfl
theorem arm (sq : Fin 128) (slot : BitVec 16) (d : Desc) : Statement (.arm sq slot d) := none_ok _ rfl
theorem disarm (sq : Fin 128) (slot : BitVec 16) (d : Desc) : Statement (.disarm sq slot d) := none_ok _ rfl
theorem auxPwm (sq : Fin 128) (slot : BitVec 16) (d : Desc) : Statement (.auxPwm sq slot d) := none_ok _ rfl
theorem offtest (sq : Fin 128) (slot : BitVec 16) (d : Desc) : Statement (.offtest sq slot d) := none_ok _ rfl
theorem calibrate (sq : Fin 128) (slot : BitVec 16) (d : Desc) : Statement (.calibrate sq slot d) := none_ok _ rfl
theorem signLoad (sq : Fin 128) (slot : BitVec 16) (d : Desc) : Statement (.signLoad sq slot d) := none_ok _ rfl
theorem learn (sq : Fin 128) (slot : BitVec 16) (d : Desc) : Statement (.learn sq slot d) := none_ok _ rfl
theorem bind (sq : Fin 128) (slot : BitVec 16) (d : Desc) : Statement (.bind sq slot d) := none_ok _ rfl
theorem unbind (sq : Fin 128) (slot : BitVec 16) (d : Desc) : Statement (.unbind sq slot d) := none_ok _ rfl
theorem canTx (sq : Fin 128) (slot : BitVec 16) (d : Desc) : Statement (.canTx sq slot d) := none_ok _ rfl
theorem snapshot (sq : Fin 128) (slot : BitVec 16) (d : Desc) : Statement (.snapshot sq slot d) := none_ok _ rfl
theorem fence (sq : Fin 128) (slot : BitVec 16) (d : Desc) : Statement (.fence sq slot d) := none_ok _ rfl
theorem fenceRelease (sq : Fin 128) : Statement (.fenceRelease sq) := none_ok _ rfl
theorem fenceTimeout (sq : Fin 128) : Statement (.fenceTimeout sq) := none_ok _ rfl
theorem nop (sq : Fin 128) (slot : BitVec 16) (d : Desc) : Statement (.nop sq slot d) := none_ok _ rfl
theorem standstill (ax : Fin 64) : Statement (.standstill ax) := none_ok _ rfl
theorem moveEnd (ax : Fin 64) : Statement (.moveEnd ax) := none_ok _ rfl
theorem settleTimeout (ax : Fin 64) : Statement (.settleTimeout ax) := none_ok _ rfl
theorem reversalBrakingEnd (ax : Fin 64) : Statement (.reversalBrakingEnd ax) := none_ok _ rfl
theorem rebase (ax : Fin 64) (value : Word) (off : Nat) : Statement (.rebase ax value off) := some_ok _ off rfl (id)
theorem cmdEngage (c : Fin 8) (value : Word) (off : Nat) : Statement (.cmdEngage c value off) := some_ok _ off rfl (id)
theorem cmdDisengage (c : Fin 8) (value : Word) (off : Nat) : Statement (.cmdDisengage c value off) := some_ok _ off rfl (id)
theorem cmdLost (c : Fin 8) : Statement (.cmdLost c) := none_ok _ rfl
theorem stepEdge (i : Fin 4) (dir : Bool) (gap : StepHeld) (off : Nat) : Statement (.stepEdge i dir gap off) := some_ok _ off rfl (id)
theorem unitRefWrite (u : Fin 512) (value : Word) (off : Nat) : Statement (.unitRefWrite u value off) := some_ok _ off rfl (id)
theorem tickRateChange (value : Word) (off : Nat) : Statement (.tickRateChange value off) := some_ok _ off rfl (id)
theorem movementTickBoundary (m : Fin 8) : Statement (.movementTickBoundary m) := none_ok _ rfl
theorem tickMark (m : Fin 8) (diff : Int) (skew : BitVec 8) : Statement (.tickMark m diff skew) := none_ok _ rfl
theorem setpointFrame (m : Fin 8) : Statement (.setpointFrame m) := none_ok _ rfl
theorem setpointFrameMiss (m : Fin 8) (crc : Bool) : Statement (.setpointFrameMiss m crc) := none_ok _ rfl
theorem latchFrameMiss (m : Fin 8) (crc : Bool) : Statement (.latchFrameMiss m crc) := none_ok _ rfl
theorem orphanEntry (m : Fin 8) (byMonitor : Bool) : Statement (.orphanEntry m byMonitor) := none_ok _ rfl
theorem linkTrainingDone (m : Fin 8) (skew : BitVec 8) : Statement (.linkTrainingDone m skew) := none_ok _ rfl
theorem trainFail (m : Fin 8) : Statement (.trainFail m) := none_ok _ rfl
theorem pwmBoundary (m : Fin 8) (mid : Bool) (meas : List Meas) (vbs : BitVec 12) (vdrv : BitVec 8) : Statement (.pwmBoundary m mid meas vbs vdrv) := none_ok _ rfl
theorem prechargeEnd (e : AxisAt) : Statement (.prechargeEnd e) := none_ok _ rfl
theorem park (m : Fin 8) : Statement (.park m) := none_ok _ rfl
theorem wakeEnd (m : Fin 8) : Statement (.wakeEnd m) := none_ok _ rfl
theorem shortDidt (ax : Fin 64) (e : DidtEvent) : Statement (.shortDidt ax e) := none_ok _ rfl
theorem shuntOc (e : OcEvent) : Statement (.shuntOc e) := none_ok _ rfl
theorem interlockStuck (ax : Fin 64) (e : StuckEvent) : Statement (.interlockStuck ax e) := none_ok _ rfl
theorem bstUv (ax : Fin 64) (e : BstEvent) : Statement (.bstUv ax e) := none_ok _ rfl
theorem vdrvFault (m : Fin 8) (ov : Bool) (reading : BitVec 8) : Statement (.vdrvFault m ov reading) := none_ok _ rfl
theorem offtestEnd (ax : Fin 64) (steps : List TestStep) : Statement (.offtestEnd ax steps) := none_ok _ rfl
theorem calibrationEnd (m : Fin 8) (factors : List CalData) : Statement (.calibrationEnd m factors) := none_ok _ rfl
theorem alignEnd (ax : Fin 64) : Statement (.alignEnd ax) := none_ok _ rfl
theorem bemfCrossing (ax : Fin 64) (phase : Fin 3) (half : Bool) (x : CrossAt) : Statement (.bemfCrossing ax phase half x) := some_ok _ x.off rfl (id)
theorem retryBrakeEnd (ax : Fin 64) : Statement (.retryBrakeEnd ax) := none_ok _ rfl
theorem catchWindowEnd (ax : Fin 64) : Statement (.catchWindowEnd ax) := none_ok _ rfl
theorem speedProbe (m j : Fin 8) : Statement (.speedProbe m j) := none_ok _ rfl
theorem floatWindowSample (ax : Fin 64) (v : Int) : Statement (.floatWindowSample ax v) := none_ok _ rfl
theorem feedbackEdge (ax : Fin 64) (fa : Bool) (fb : Bool) (fz : Bool) (h : Held) : Statement (.feedbackEdge ax fa fb fz h) := some_ok _ h.off rfl (id)
theorem indexLatch (e : AxisHeld) : Statement (.indexLatch e) := some_ok _ e.off rfl (id)
theorem switchLatch (ax : Fin 64) (swb : Bool) (e : LevelHeld) : Statement (.switchLatch ax swb e) := some_ok _ e.off rfl (id)
theorem speedTimeout (ax : Fin 64) : Statement (.speedTimeout ax) := none_ok _ rfl
theorem signStarved (ax : Fin 64) : Statement (.signStarved ax) := none_ok _ rfl
theorem reopen (ax : Fin 64) : Statement (.reopen ax) := none_ok _ rfl
theorem remontoireRead (ax : Fin 64) (block : Nat) (gen : Nat) (cells : Option (List Word)) : Statement (.remontoireRead ax block gen cells) := none_ok _ rfl
theorem faultArrival (from_ : List (Fin 18)) : Statement (.faultArrival from_) := none_ok _ rfl
theorem reactionSequenceEnd (second : Option (BitVec 16)) : Statement (.reactionSequenceEnd second) := none_ok _ rfl
theorem alertPulseEnd (m : Fin 8) : Statement (.alertPulseEnd m) := none_ok _ rfl
theorem railBroken (m : Fin 9) (p : Pair) : Statement (.railBroken m p) := none_ok _ rfl
theorem railRestored (m : Fin 9) (p : Pair) : Statement (.railRestored m p) := none_ok _ rfl
theorem fltAck (value : Word) (off : Nat) : Statement (.fltAck value off) := some_ok _ off rfl (id)
theorem fltClear (value : Word) (off : Nat) : Statement (.fltClear value off) := some_ok _ off rfl (id)
theorem stoActive (m : Fin 8) (pinB : Bool) : Statement (.stoActive m pinB) := none_ok _ rfl
theorem stoPinRelease (m : Fin 8) (pinB : Bool) : Statement (.stoPinRelease m pinB) := none_ok _ rfl
theorem stoDiscrepancy (m : Fin 8) : Statement (.stoDiscrepancy m) := none_ok _ rfl
theorem escFault (cause : EscCause) : Statement (.escFault cause) := none_ok _ rfl
theorem selftestEnd (pass : Bool) : Statement (.selftestEnd pass) := none_ok _ rfl
theorem safePinRelease : Statement .safePinRelease := none_ok _ rfl
theorem safeCondition : Statement .safeCondition := none_ok _ rfl
theorem ss1Trip (ax : Fin 64) (cause : Ss1Cause) : Statement (.ss1Trip ax cause) := none_ok _ rfl
theorem slsExceeded (ax : Fin 64) (channel2 : Bool) : Statement (.slsExceeded ax channel2) := none_ok _ rfl
theorem slsDiscrepancy (m j : Fin 8) : Statement (.slsDiscrepancy m j) := none_ok _ rfl
theorem slcExceeded (e : SlcEvent) : Statement (.slcExceeded e) := none_ok _ rfl
theorem slcBlind (ax : Fin 64) : Statement (.slcBlind ax) := none_ok _ rfl
theorem clockMonitorTrip (m : Fin 8) : Statement (.clockMonitorTrip m) := none_ok _ rfl
theorem clockRecovery (m : Fin 8) : Statement (.clockRecovery m) := none_ok _ rfl
theorem dllLost (m : Fin 8) : Statement (.dllLost m) := none_ok _ rfl
theorem dllLock (m : Fin 8) : Statement (.dllLock m) := none_ok _ rfl
theorem debugHalt (m : Fin 9) : Statement (.debugHalt m) := none_ok _ rfl
theorem debugResume (m : Fin 9) : Statement (.debugResume m) := none_ok _ rfl
theorem pllLoss : Statement .pllLoss := none_ok _ rfl
theorem mainsEdge (off : MainsHeld) : Statement (.mainsEdge off) := some_ok _ off.off rfl (id)
theorem mainsTimeout : Statement .mainsTimeout := none_ok _ rfl
theorem tempMeasurement (die : Fin 9) (readings : List TempSample) : Statement (.tempMeasurement die readings) := none_ok _ rfl
theorem vbusOv (m : Fin 8) (reading : BitVec 12) : Statement (.vbusOv m reading) := none_ok _ rfl
theorem vbusUv (m : Fin 8) (reading : BitVec 12) : Statement (.vbusUv m reading) := none_ok _ rfl
theorem supplyFault (e : RailReading) : Statement (.supplyFault e) := none_ok _ rfl
theorem monitorConversionDone (c : Fin 8) (value : BitVec 20) (clip : Bool) : Statement (.monitorConversionDone c value clip) := none_ok _ rfl
theorem monUrgent (value : Word) (off : Nat) : Statement (.monUrgent value off) := some_ok _ off rfl (id)
theorem canEnable (c : Fin 4) (value : Word) (off : Nat) : Statement (.canEnable c value off) := some_ok _ off rfl (id)
theorem canDisable (c : Fin 4) (value : Word) (off : Nat) : Statement (.canDisable c value off) := some_ok _ off rfl (id)
theorem integrationDone (c : Fin 4) : Statement (.integrationDone c) := none_ok _ rfl
theorem canFrameReceived (c : Fin 4) (f : Frame) : Statement (.canFrameReceived c f) := none_ok _ rfl
theorem canTxAttempt (c : Fin 4) (tdcv : Option Nat) : Statement (.canTxAttempt c tdcv) := none_ok _ rfl
theorem canTxSuccess (c : Fin 4) : Statement (.canTxSuccess c) := none_ok _ rfl
theorem canError (c : Fin 4) (e : BusErr) : Statement (.canError c e) := none_ok _ rfl
theorem busOff (c : Fin 4) : Statement (.busOff c) := none_ok _ rfl
theorem busOffRecoveryDone (c : Fin 4) : Statement (.busOffRecoveryDone c) := none_ok _ rfl
theorem recover (c : Fin 4) (value : Word) (off : Nat) : Statement (.recover c value off) := some_ok _ off rfl (id)
theorem flush (c : Fin 4) (value : Word) (off : Nat) : Statement (.flush c value off) := some_ok _ off rfl (id)
theorem canDataRead (c : Fin 4) (key : Nat) (data : Option (List Byte)) : Statement (.canDataRead c key data) := none_ok _ rfl
theorem password (value : Word) (off : Nat) : Statement (.password value off) := some_ok _ off rfl (id)
theorem challenge (value : Word) (off : Nat) : Statement (.challenge value off) := some_ok _ off rfl (id)
theorem response (value : Word) (off : Nat) : Statement (.response value off) := some_ok _ off rfl (id)
theorem relock (value : Word) (off : Nat) : Statement (.relock value off) := some_ok _ off rfl (id)
theorem setpw (value : Word) (off : Nat) : Statement (.setpw value off) := some_ok _ off rfl (id)
theorem lockCommandDone : Statement .lockCommandDone := none_ok _ rfl
theorem nonceExpiry : Statement .nonceExpiry := none_ok _ rfl
theorem lockoutExpiry : Statement .lockoutExpiry := none_ok _ rfl
theorem nvsRead (value : Word) (off : Nat) : Statement (.nvsRead value off) := some_ok _ off rfl (id)
theorem nvsProgram (value : Word) (off : Nat) : Statement (.nvsProgram value off) := some_ok _ off rfl (id)
theorem nvsErase (value : Word) (off : Nat) : Statement (.nvsErase value off) := some_ok _ off rfl (id)
theorem nvsCommandDone (verified : Bool) : Statement (.nvsCommandDone verified) := none_ok _ rfl
theorem powerOnReset (vcl : BitVec 8) : Statement (.powerOnReset vcl) := none_ok _ rfl
theorem deviceReset (cause : ResetCause) (vcl : BitVec 8) : Statement (.deviceReset cause vcl) := none_ok _ rfl
theorem movementReset (m : Fin 8) : Statement (.movementReset m) := none_ok _ rfl
theorem imageLoadDone : Statement .imageLoadDone := none_ok _ rfl
theorem movementSwitchOff (m : Fin 8) (value : Word) (off : Nat) : Statement (.movementSwitchOff m value off) := some_ok _ off rfl (id)
theorem movementSwitchOn (m : Fin 8) (value : Word) (off : Nat) : Statement (.movementSwitchOn m value off) := some_ok _ off rfl (id)
theorem hubDomainSwitch (value : Word) (off : Nat) : Statement (.hubDomainSwitch value off) := some_ok _ off rfl (id)
theorem lowHalfRead (p : Wide) : Statement (.lowHalfRead p) := none_ok _ rfl
theorem highHalfRead (p : Wide) : Statement (.highHalfRead p) := none_ok _ rfl
theorem badAccess (write : Bool) : Statement (.badAccess write) := none_ok _ rfl
theorem unmappedAccess (write : Bool) (addr : BitVec 20) : Statement (.unmappedAccess write addr) := none_ok _ rfl
theorem registerWrite (addr : BitVec 20) (value : Word) (off : Nat) : Statement (.registerWrite addr value off) := some_ok _ off rfl (by simp [Instr.wellFormed])
theorem configurationRequest (write : Bool) (reg : BitVec 12) (value : Word) : Statement (.configurationRequest write reg value) := none_ok _ rfl
theorem hostLinkReturn : Statement .hostLinkReturn := none_ok _ rfl
theorem pllLock : Statement .pllLock := none_ok _ rfl
theorem didtEarly (e : BlankEnd) : Statement (.didtEarly e) := none_ok _ rfl
theorem gathererPresentationEnd (p : Fin 17) : Statement (.gathererPresentationEnd p) := none_ok _ rfl
theorem monitorRestEnd (c : Fin 8) : Statement (.monitorRestEnd c) := none_ok _ rfl
theorem movementResetRelease (m : Fin 8) : Statement (.movementResetRelease m) := none_ok _ rfl

end Sys2Proof.Laws.WF
end

