-- ==== Sys2Proof/Laws/RegMap.lean ====
section
/-! SUPPORT. Laws/RegMap.lean: the register map read back: which register and instance an offset of a command's register holds. -/

namespace Sys2Proof.Machine

/-- The offset of an instance that exists reads back as that instance. -/
theorem Reg.atOffset_offset (r : Reg) (i : Nat) (h2 : 0 < r.place.n2) (hs : 0 < r.place.stride2)
    (h1 : i < r.place.n1 * r.place.n2) (hw : r.place.stride2 * r.place.n2 ≤ r.place.stride1) :
    r.atOffset (r.offset i) = some i := by
  have hq : i / r.place.n2 < r.place.n1 := Nat.div_lt_of_lt_mul (by rwa [Nat.mul_comm])
  have hm : i % r.place.n2 < r.place.n2 := Nat.mod_lt _ h2
  have hr : r.place.stride2 * (i % r.place.n2) < r.place.stride1 :=
    lt_of_lt_of_le ((Nat.mul_lt_mul_left hs).mpr hm) hw
  have hp : 0 < r.place.stride1 := lt_of_le_of_lt (Nat.zero_le _) hr
  have hd : r.offset i - r.place.base = r.place.stride2 * (i % r.place.n2) + r.place.stride1 * (i / r.place.n2) := by
    unfold Reg.offset; omega
  have e1 : (r.offset i - r.place.base) / r.place.stride1 = i / r.place.n2 := by
    rw [hd, Nat.add_mul_div_left _ _ hp, Nat.div_eq_of_lt hr, Nat.zero_add]
  have e2 : (r.offset i - r.place.base) % r.place.stride1 = r.place.stride2 * (i % r.place.n2) := by
    rw [hd, Nat.add_mul_mod_self_left, Nat.mod_eq_of_lt hr]
  unfold Reg.atOffset
  dsimp only
  rw [if_neg (by unfold Reg.offset; omega), e1, e2]
  rw [if_pos ⟨hq, Nat.mul_mod_right _ _, by rwa [Nat.mul_div_cancel_left _ hs]⟩, Nat.mul_div_cancel_left _ hs]
  congr 1
  rw [Nat.mul_comm]
  exact Nat.div_add_mod i _

/-- Two instances of one register lie at different offsets. -/
theorem Reg.offset_inj (r : Reg) {i j : Nat} (h2 : 0 < r.place.n2) (hs : 0 < r.place.stride2)
    (hi : i < r.place.n1 * r.place.n2) (hj : j < r.place.n1 * r.place.n2) (hw : r.place.stride2 * r.place.n2 ≤ r.place.stride1)
    (h : r.offset i = r.offset j) : i = j := by
  have a := r.atOffset_offset i h2 hs hi hw
  rw [h, r.atOffset_offset j h2 hs hj hw] at a
  exact (Option.some.inj a).symm

theorem decode_hifCfg : decodeOffset (Reg.offset .hifCfg 0) = some (.hifCfg, 0) := by decide +kernel
theorem decode_hifKick : decodeOffset (Reg.offset .hifKick 0) = some (.hifKick, 0) := by decide +kernel
theorem decode_sqCfg : ∀ i : Fin 128, decodeOffset (Reg.offset .sqCfg i) = some (.sqCfg, i.val) := by decide +kernel
theorem decode_cqCfg : ∀ i : Fin 64, decodeOffset (Reg.offset .cqCfg i) = some (.cqCfg, i.val) := by decide +kernel
theorem decode_bqCfg : ∀ i : Fin 4, decodeOffset (Reg.offset .bqCfg i) = some (.bqCfg, i.val) := by decide +kernel
theorem decode_cmdCfg : ∀ i : Fin 8, decodeOffset (Reg.offset .cmdCfg i) = some (.cmdCfg, i.val) := by decide +kernel
theorem decode_canCfg : ∀ i : Fin 4, decodeOffset (Reg.offset .canCfg i) = some (.canCfg, i.val) := by decide +kernel
theorem decode_canCmd : ∀ i : Fin 4, decodeOffset (Reg.offset .canCmd i) = some (.canCmd, i.val) := by decide +kernel
theorem decode_rebaseLo : ∀ i : Fin 64, decodeOffset (Reg.offset .motionRebaseLo i) = some (.motionRebaseLo, i.val) := by
  decide +kernel
theorem decode_rebaseHi : ∀ i : Fin 64, decodeOffset (Reg.offset .motionRebaseHi i) = some (.motionRebaseHi, i.val) := by
  decide +kernel
theorem decode_unitRef : ∀ i : Fin 512, decodeOffset (Reg.offset .unitRef i) = some (.unitRef, i.val) := by decide +kernel
theorem decode_tickCfg : decodeOffset (Reg.offset .tickCfg 0) = some (.tickCfg, 0) := by decide +kernel
theorem decode_pwrCtrl : decodeOffset (Reg.offset .pwrCtrl 0) = some (.pwrCtrl, 0) := by decide +kernel
theorem decode_fltAck : decodeOffset (Reg.offset .fltAck 0) = some (.fltAck, 0) := by decide +kernel
theorem decode_fltClear : decodeOffset (Reg.offset .fltClear 0) = some (.fltClear, 0) := by decide +kernel
theorem decode_fltAlert : decodeOffset (Reg.offset .fltAlert 0) = some (.fltAlert, 0) := by decide +kernel
theorem decode_lockCmd : decodeOffset (Reg.offset .lockCmd 0) = some (.lockCmd, 0) := by decide +kernel
theorem decode_nvsCmd : decodeOffset (Reg.offset .nvsCmd 0) = some (.nvsCmd, 0) := by decide +kernel
theorem decode_monUrgent : decodeOffset (Reg.offset .monUrgent 0) = some (.monUrgent, 0) := by decide +kernel

end Sys2Proof.Machine
end

