-- ==== Sys2Proof/Laws/Store.lean ====
section
/-! SUPPORT. Laws/Store.lean: the two operations that write the non-volatile store keep its canonical form. -/

namespace Sys2Proof.Machine.Dev

/-- The end of a store command keeps the canonical form. -/
theorem nvsStore_wf (m : List Host.Cell) (v : Bool) (d : Dev) (h : Mem.wf m = true) : Mem.wf (nvsStore m v d) = true := by
  unfold nvsStore
  split
  · exact h
  · split
    · exact Mem.wf_writes _ m _ h
    · exact Mem.wf_filter _ m h
    · exact h

/-- A reset in the middle of a store command keeps the canonical form. -/
theorem storeAfterReset_wf (d : Dev) (m : List Host.Cell) (h : Mem.wf m = true) : Mem.wf (storeAfterReset d m) = true := by
  unfold storeAfterReset
  split
  · exact h
  · exact Mem.wf_writes _ m _ h

/-- A reset with no store command under way leaves the store. -/
theorem storeAfterReset_none (d : Dev) (m : List Host.Cell) (h : d.openPage = none) : storeAfterReset d m = m := by
  unfold storeAfterReset; rw [h]

/-- An erase leaves every other slot. -/
theorem read_erase (m : List Host.Cell) (slot a : Nat) :
    Mem.read (m.filter fun c => c.1 / 0x40000 ≠ slot) a = if a / 0x40000 = slot then 0xFF else Mem.read m a := by
  induction m with
  | nil => simp [Mem.read]
  | cons c r ih =>
    obtain ⟨k, b⟩ := c
    simp only [Mem.read] at ih ⊢
    by_cases hk : k / 0x40000 = slot
    · rw [List.filter_cons_of_neg (by simpa using hk), ih]
      by_cases ha : a / 0x40000 = slot
      · rw [if_pos ha, if_pos ha]
      · rw [if_neg ha, if_neg ha, List.find?_cons_of_neg]
        simp only [decide_eq_true_eq]
        intro e; exact ha (e ▸ hk)
    · rw [List.filter_cons_of_pos (by simpa using hk)]
      by_cases hka : k = a
      · rw [List.find?_cons_of_pos (by simpa using hka), List.find?_cons_of_pos (by simpa using hka), if_neg (hka ▸ hk)]
      · rw [List.find?_cons_of_neg (by simpa using hka), List.find?_cons_of_neg (by simpa using hka), ih]

end Sys2Proof.Machine.Dev
end

