-- ==== Sys2Proof/Tests/Slice0.lean ====
section
/-! SUPPORT. Tests/Slice0.lean: well-formedness refused where it must be, small steps on small states, and for the hypotheses of
every obligation a concrete state and operands that meet them all. -/

open Sys2Proof Sys2Proof.Machine

namespace Sys2Proof.Tests

set_option Elab.async false
set_option linter.unusedVariables false

/-! ## Small states -/

/-- A state with a block. -/
def st (d : Dev) : State := { pending := [], dev := d, store := [] }

/-- The block after power-on reset is released. -/
def released : Dev := { sys := { released := true } }

/-- A block in operation: image loaded, all domains on, all links trained, scopes open, ring 0 and completion ring 0 active, and
group 64 of the axes 0 and 63. -/
def up : Dev :=
  let d : Dev :=
    { sys := { released := true, ticking := true },
      units := [(0, { bound := true, leaf := 1, parent := some 64 }), (63, { bound := true, leaf := 1 <<< 63, parent := some 64 }),
        (64, { bound := true, members := [0, 63], leaf := 1 ||| 1 <<< 63 })],
      hif := { sqs := [(0, { active := true, anyUnit := true, prod := 3 })], cqs := [(0, { active := true, phase := true })] } }
  let d := (((d.setHw Fl.clkStatusPllLock 0 1).setHw Fl.imgStatusDone 0 1).setHw Fl.imgStatusSlot 0 2).setHw Fl.pwrStatusMvOn 0 255
  let d := ((d.setHw Fl.pwrStatusHubOn 0 63).setHw Fl.lockStatusScopes 0 7).setHw Fl.pwrStatusVclOk 0 255
  let d := ((d.setHw Fl.stoStatusPinA 0 0).setHw Fl.stoStatusPinB 0 0).setHw Fl.lockStatusLockout 0 0
  each (span 0 8) (fun m d =>
    ((d.setHw Fl.linkStatusTrained m 1).setHw Fl.gateMvstatusVdrvOk m 1).setHw Fl.isenseCalStatusDone m 1) d

/-- An armed idle axis with a valid parameter set. -/
def good : HubAxis := { armed := true, set := { vmax := 0x10000, a1 := 1, a2 := 1, d2 := 1, d1 := 1 }, lat := { known := true } }

/-- Axes 0 and 63 armed, with verified positions. -/
def ready : Dev :=
  (((up.setAxis 0 good).setAxis 63 good).setHw Fl.motionStatusPosUnverified 0 0).setHw Fl.motionStatusPosUnverified 63 0

/-- Axis 0 under way in a profile. -/
def moving : Dev := ready.setAxis 0 { good with st := .moving, mot := { mode := .profile, v := 5 } }

/-- A stop that only waits for standstill. -/
def stopOf (keep : Bool) : Stop := ⟨false, 0, .stop, [], false, keep⟩
def stopping (keep : Bool) : HubAxis :=
  { good with st := .moving, stop := some (stopOf keep), quiet := 65535, mot := { mode := .profile, target := 0x7FFFFFFFFF } }

/-- A profile that has reached its target, so many ticks ago. -/
def arrived (n : Nat) : HubAxis := { good with st := .moving, mot := { mode := .profile, reached := some n } }

/-- A FENCE with word DW2 that waits in ring 0 since tick 0. -/
def fenceOf (w2 : Word) : Fence :=
  ⟨15, { withOpcode .fence ⟨0, 0, 0, 0, 0, 0, 0, 0⟩ with w2 := w2 }, 0, ⟨0, 0, 15, 0, 0x61, 0, false, false, true⟩⟩
def fenced (w2 : Word) (t : BitVec 48) : Dev :=
  { moving with time := { moving.time with tick := t } }.modSq 0 fun q => { q with fence := some (fenceOf w2) }

/-- A read of the doorbell page is outstanding. -/
def reading : Dev := { up with hif := { up.hif with dbActive := true, dbRead := true } }

/-- Axis 0 calibrated, fed back and unarmed. -/
def armable : Dev := ((up.setCfg Fl.loopCurKp 0 1).setCfg Fl.loopSpdKp 0 1).setCfg Fl.elecCfgCpe 0 24

/-- Axis 0 armed and sensorless. -/
def freerun : Dev := (((ready.setCfg Fl.fbCfgMode 0 2).setCfg Fl.elecCfgCpe 0 24).setCfg Fl.slObsRph 0 1).setCfg Fl.slObsLph 0 1

/-- An axis in a phase of its start sequence whose time is over. -/
def seqIn (phase : BitVec 4) (known : Bool) : MvAxis :=
  { drive := .openloop, sl := { phase := phase, known := known, req := some ⟨1, false, false, false, false⟩ } }

/-- Pin pair 3 in STEP mode drives axis 0, which turns at a speed. -/
def stepping (v : Int) : Dev :=
  (((ready.setAxis 0 { good with st := .moving, mot := { mode := .step, pin := some 6 },
                                 lat := { speed := BitVec.ofInt 32 v, valid := true } }).setCmd 6 { axes := [0] }).setCfg
    Fl.cmdCfgMode 6 4).setCfg Fl.cmdGainGain 6 256

/-- A descriptor of an opcode for a unit with opflags, its completion ring the default one. -/
def dsc (o : Op) (unit flags : Nat) : Desc :=
  withOpcode o { w0 := BitVec.ofNat 32 (0xFF0000 + flags * 4096), w1 := BitVec.ofNat 32 unit, w2 := 0, w3 := 0, w4 := 0, w5 := 0,
                 w6 := 0, w7 := 0 }

/-! ## The hypotheses of the obligations -/

/-! Obligations.StepTakesFrontCommand -/

theorem test_StepTakesFrontCommand_2 : ∃ (s : State),
    s.pending = [] :=
  ⟨State.reset, (by decide +kernel)⟩

/-! Obligations.StoreStaysCanonical -/

theorem test_StoreStaysCanonical_1 : ∃ (s t : State),
    s.storeOk :=
  ⟨State.reset, State.reset, (by unfold State.storeOk; decide +kernel)⟩

/-! Obligations.NopCompletes -/

theorem test_NopCompletes_1 : ∃ (s : State) (i : Fin 128) (slot : BitVec 16) (x y : Desc),
    y = withOpcode .nop x ∧ s.dev.admits .nop i y :=
  ⟨st up, 0, 15, (dsc .nop 0 0), _, rfl, (by unfold Dev.admits; decide +kernel)⟩

theorem test_NopCompletes_2a : ∃ (s : State) (i : Fin 128) (slot : BitVec 16) (x y : Desc) (k : Nat),
    y = withOpcode .nop x ∧ s.dev.canGive i y = true ∧ 1 ≤ k ∧ k < 8 ∧ y.word k ≠ 0 :=
  ⟨st up, 0, 15, { dsc .nop 0 0 with w7 := 1 }, _, 7, rfl, (by decide +kernel), (by decide +kernel), (by decide +kernel),
    (by decide +kernel)⟩

theorem test_NopCompletes_2b : ∃ (s : State) (i : Fin 128) (slot : BitVec 16) (x y : Desc) (k : Nat),
    y = withOpcode .nop x ∧ s.dev.canGive i y = true ∧ 1 ≤ k ∧ k < 8 ∧ y.word k ≠ 0 :=
  ⟨st up, 0, 0, { dsc .nop 0 0 with w1 := 1 }, _, 1, rfl, (by decide +kernel), (by decide +kernel), (by decide +kernel),
    (by decide +kernel)⟩

/-! Obligations.RefusalsChangeNothing -/

theorem test_RefusalsChangeNothing_1 : ∃ (s : State) (i : Fin 128) (slot : BitVec 16) (x : Desc),
    Op.ofCode x.opcode = none ∧ s.dev.canGive i x = true :=
  ⟨st up, 0, 0, { dsc .nop 0 0 with w0 := 0xFF00FF }, (by decide +kernel), (by decide +kernel)⟩

theorem test_RefusalsChangeNothing_2a : ∃ (s : State) (i : Fin 128) (slot : BitVec 16) (x : Desc) (o : Op) (c : Instr) (st : Status) (w : Nat),
    (o, c) ∈ [(Op.move, Instr.move i slot x), (.arm, .arm i slot x), (.bind, .bind i slot x), (.strikeArm,
    .strikeArm i slot x)] ∧ s.dev.canGive i (withOpcode o x) = true ∧
    s.dev.check60 (s.dev.sq i) o (withOpcode o x) = some (st, w) :=
  ⟨st up, 0, 0, { dsc .move 0 0 with w1 := 0xE00 }, .move, .move 0 0 ({ dsc .move 0 0 with w1 := 0xE00 }), .reservedSet,
    0x901, (by decide +kernel), (by decide +kernel), (by decide +kernel)⟩

theorem test_RefusalsChangeNothing_2b : ∃ (s : State) (i : Fin 128) (slot : BitVec 16) (x : Desc) (o : Op) (c : Instr) (st : Status) (w : Nat),
    (o, c) ∈ [(Op.move, Instr.move i slot x), (.arm, .arm i slot x), (.bind, .bind i slot x), (.strikeArm,
    .strikeArm i slot x)] ∧ s.dev.canGive i (withOpcode o x) = true ∧
    s.dev.check60 (s.dev.sq i) o (withOpcode o x) = some (st, w) :=
  ⟨st up, 0, 0, { dsc .arm 0 0 with w1 := 0xFFFFFE00 }, .arm, .arm 0 0 ({ dsc .arm 0 0 with w1 := 0xFFFFFE00 }),
    .reservedSet, 0x901, (by decide +kernel), (by decide +kernel), (by decide +kernel)⟩

theorem test_RefusalsChangeNothing_2c : ∃ (s : State) (i : Fin 128) (slot : BitVec 16) (x : Desc) (o : Op) (c : Instr) (st : Status) (w : Nat),
    (o, c) ∈ [(Op.move, Instr.move i slot x), (.arm, .arm i slot x), (.bind, .bind i slot x), (.strikeArm,
    .strikeArm i slot x)] ∧ s.dev.canGive i (withOpcode o x) = true ∧
    s.dev.check60 (s.dev.sq i) o (withOpcode o x) = some (st, w) :=
  ⟨st up, 0, 0, { dsc .bind 0 0 with w1 := 0xFFFFFE00 }, .bind, .bind 0 0 ({ dsc .bind 0 0 with w1 := 0xFFFFFE00 }),
    .reservedSet, 0x901, (by decide +kernel), (by decide +kernel), (by decide +kernel)⟩

theorem test_RefusalsChangeNothing_2d : ∃ (s : State) (i : Fin 128) (slot : BitVec 16) (x : Desc) (o : Op) (c : Instr) (st : Status) (w : Nat),
    (o, c) ∈ [(Op.move, Instr.move i slot x), (.arm, .arm i slot x), (.bind, .bind i slot x), (.strikeArm,
    .strikeArm i slot x)] ∧ s.dev.canGive i (withOpcode o x) = true ∧
    s.dev.check60 (s.dev.sq i) o (withOpcode o x) = some (st, w) :=
  ⟨st up, 0, 0, { dsc .strikeArm 0 0 with w1 := 0xFF000000 }, .strikeArm,
    .strikeArm 0 0 ({ dsc .strikeArm 0 0 with w1 := 0xFF000000 }), .reservedSet, 0x1801, (by decide +kernel),
    (by decide +kernel), (by decide +kernel)⟩

/-! Obligations.FenceBlocksItsRing -/

theorem test_FenceBlocksItsRing_1a : ∃ (s : State) (i : Fin 128) (slot : BitVec 16) (x y : Desc),
    y = withOpcode .fence x ∧ s.dev.admits .fence i y ∧ y.fenceMode = 0 :=
  ⟨st up, 0, 15, dsc .fence 0 0, _, rfl, (by unfold Dev.admits; decide +kernel), (by decide +kernel)⟩

theorem test_FenceBlocksItsRing_1b : ∃ (s : State) (i : Fin 128) (slot : BitVec 16) (x y : Desc),
    y = withOpcode .fence x ∧ s.dev.admits .fence i y ∧ y.fenceMode = 2 ∧ s.dev.stateOf y.unit = .moving ∧
    bits y.w2 16 16 = 0 :=
  ⟨st moving, 0, 15, { dsc .fence 0 0 with w2 := 2 }, _, rfl, (by unfold Dev.admits; decide +kernel), (by decide +kernel),
    (by decide +kernel), (by decide +kernel)⟩

theorem test_FenceBlocksItsRing_2 : ∃ (s : State) (i : Fin 128) (f : Fence),
    (s.dev.sq i).fence = some f ∧ s.dev.fenceHolds f = true :=
  ⟨st (fenced 0 0), 0, fenceOf 0, (by decide +kernel), (by decide +kernel)⟩

theorem test_FenceBlocksItsRing_5 : ∃ (s : State) (i : Fin 128) (f : Fence),
    (s.dev.sq i).fence = some f ∧ s.dev.fenceHolds f = false ∧ s.dev.fenceTimedOut f = true :=
  ⟨st (fenced 0x10002 1), 0, fenceOf 0x10002, (by decide +kernel), (by decide +kernel), (by decide +kernel)⟩

theorem test_FenceBlocksItsRing_3 : ∃ (s : State) (i : Fin 128),
    ((∀ f, (s.dev.sq i).fence = some f → s.dev.fenceHolds f = false)) :=
  ⟨st (fenced 0x10002 1), 0, (by decide +kernel)⟩

theorem test_FenceBlocksItsRing_4 : ∃ (s : State) (i : Fin 128),
    ((∀ f, (s.dev.sq i).fence = some f → s.dev.fenceHolds f = true ∨ s.dev.fenceTimedOut f = false)) :=
  ⟨st (fenced 0 0), 0, (by decide +kernel)⟩

/-! Obligations.DoorbellReadMovesIndices -/

theorem test_DoorbellReadMovesIndices_1a : ∃ (s : State) (w : List Word),
    s.dev.hif.dbRead = true ∧ s.dev.hif.dbAgain = false ∧ (s.dev.sq 0).active = true ∧ (s.dev.sq 0).error = none ∧
    Dev.indexWord w 0 < 2 ^ (s.dev.sq 0).size :=
  ⟨st reading, List.replicate 196 0xF, (by decide +kernel), (by decide +kernel), (by decide +kernel), (by decide +kernel),
    (by decide +kernel)⟩

theorem test_DoorbellReadMovesIndices_1b : ∃ (s : State) (w : List Word),
    s.dev.hif.dbRead = true ∧ s.dev.hif.dbAgain = false ∧ (s.dev.sq 0).active = true ∧ (s.dev.sq 0).error = none ∧
    ¬ Dev.indexWord w 0 < 2 ^ (s.dev.sq 0).size :=
  ⟨st reading, List.replicate 196 0x10, (by decide +kernel), (by decide +kernel), (by decide +kernel), (by decide +kernel),
    (by decide +kernel)⟩

theorem test_DoorbellReadMovesIndices_1c : ∃ (s : State) (w : List Word),
    s.dev.hif.dbRead = true ∧ s.dev.hif.dbAgain = false ∧ (s.dev.sq 0).active = true ∧ (s.dev.sq 0).error = none ∧
    (s.dev.sq 0).oldPage = true :=
  ⟨st (reading.modSq 0 fun q => { q with oldPage := true }), List.replicate 196 0x10, (by decide +kernel),
    (by decide +kernel), (by decide +kernel), (by decide +kernel), (by decide +kernel)⟩

theorem test_DoorbellReadMovesIndices_2 : ∃ (s : State),
    s.dev.hif.dbRead = true ∧ s.dev.hif.dbAgain = false :=
  ⟨st reading, (by decide +kernel), (by decide +kernel)⟩

/-! Obligations.DescriptorFetchQueues -/

theorem test_DescriptorFetchQueues_1 : ∃ (s : State) (i : Fin 128),
    (s.dev.sq i).asked = true ∧ (s.dev.sq i).stale = 0 ∧ (s.dev.sq i).fetched = [] ∧ (s.dev.sq i).fence = none :=
  ⟨st (up.modSq 0 fun q => { q with asked := true }), 0, (by decide +kernel), (by decide +kernel), (by decide +kernel),
    (by decide +kernel)⟩

/-! Obligations.MoveStartsProfiles -/

theorem test_MoveStartsProfiles_1 : ∃ (s : State) (i : Fin 128) (slot : BitVec 16) (x y : Desc),
    y = withOpcode .move x ∧ s.dev.admits .move i y ∧ axisFails (s.dev.leaves y.unit) (Dev.moveCheck y s.dev) = [] ∧
    s.dev.leaves y.unit = [0, 63] :=
  ⟨st ready, 0, 15, { dsc .move 0 0 with w1 := 64, w2 := 0x1000, w3 := 0x100, w4 := 1, w5 := 1, w6 := 1, w7 := 1 }, _, rfl,
    (by unfold Dev.admits; decide +kernel), (by decide +kernel), (by decide +kernel)⟩

/-! Obligations.ResumeContinuesToKeptTarget -/

theorem test_ResumeContinuesToKeptTarget_1 : ∃ (s : State) (i : Fin 128) (slot : BitVec 16) (x y : Desc),
    y = withOpcode .resume x ∧ s.dev.admits .resume i y ∧ axisFails (s.dev.leaves y.unit) s.dev.resumeCheck = [] :=
  ⟨st (ready.setAxis 0 { good with st := .stopped }), 0, 0, dsc .resume 0 0, _, rfl,
    (by unfold Dev.admits; decide +kernel), (by decide +kernel)⟩

/-! Obligations.SetprofileWritesMaskedFields -/

theorem test_SetprofileWritesMaskedFields_1 : ∃ (s : State) (i : Fin 128) (slot : BitVec 16) (x y : Desc),
    y = withOpcode .setprofile x ∧ s.dev.admits .setprofile i y ∧ (∀ n ∈ s.dev.leaves y.unit,
    setFault (Dev.profileSet (s.dev.axis n).set y) (Dev.profileWrites y) = none) ∧ s.dev.leaves y.unit = [0, 63] :=
  ⟨st ready, 0, 0, { dsc .setprofile 64 0 with w2 := 0x02001000 }, _, rfl, (by unfold Dev.admits; decide +kernel),
    (by decide +kernel), (by decide +kernel)⟩

theorem test_SetprofileWritesMaskedFields_2 : ∃ (s : State) (i : Fin 128) (slot : BitVec 16) (x y : Desc),
    y = withOpcode .setprofile x ∧ s.dev.canGive i y = true ∧
    (bits y.w0 12 4 ≠ 0 ∨ bits y.w1 9 3 ≠ 0 ∨ bit y.w2 31 = true ∨ bits y.w3 20 12 ≠ 0) :=
  ⟨st ready, 0, 0, { dsc .setprofile 64 0 with w3 := 0x80000000 }, _, rfl, (by decide +kernel), (by decide +kernel)⟩

/-! Obligations.SpeedActsByMode -/

theorem test_SpeedActsByMode_1a : ∃ (s : State) (i : Fin 128) (slot : BitVec 16) (x y : Desc),
    y = withOpcode .speed x ∧ s.dev.admits .speed i y ∧ axisFails (s.dev.leaves y.unit) (Dev.speedCheck y s.dev) = [] ∧
    (s.dev.axis 0).mot.mode = .none ∧ y.opflag 0 = false :=
  ⟨st ready, 0, 0, { dsc .speed 0 0 with w2 := 0xFFFFFF }, _, rfl, (by unfold Dev.admits; decide +kernel),
    (by decide +kernel), (by decide +kernel), (by decide +kernel)⟩

theorem test_SpeedActsByMode_1b : ∃ (s : State) (i : Fin 128) (slot : BitVec 16) (x y : Desc),
    y = withOpcode .speed x ∧ s.dev.admits .speed i y ∧ axisFails (s.dev.leaves y.unit) (Dev.speedCheck y s.dev) = [] ∧
    (s.dev.axis 0).mot.mode = .none ∧ y.opflag 0 = true :=
  ⟨st ready, 0, 0, { dsc .speed 0 1 with w2 := 0x80000000 }, _, rfl, (by unfold Dev.admits; decide +kernel),
    (by decide +kernel), (by decide +kernel), (by decide +kernel)⟩

theorem test_SpeedActsByMode_1c : ∃ (s : State) (i : Fin 128) (slot : BitVec 16) (x y : Desc),
    y = withOpcode .speed x ∧ s.dev.admits .speed i y ∧ axisFails (s.dev.leaves y.unit) (Dev.speedCheck y s.dev) = [] ∧
    (s.dev.axis 0).mot.mode = .velocity :=
  ⟨st (ready.setAxis 0 { good with st := .moving, mot := { mode := .velocity } }), 0, 0,
    { dsc .speed 0 0 with w2 := 0x80000000 }, _, rfl, (by unfold Dev.admits; decide +kernel), (by decide +kernel),
    (by decide +kernel)⟩

/-! Obligations.SetpointQueuesSegment -/

theorem test_SetpointQueuesSegment_1 : ∃ (s : State) (i : Fin 128) (slot : BitVec 16) (x y : Desc),
    y = withOpcode .setpoint x ∧ s.dev.admits .setpoint i y ∧
    axisFails (s.dev.leaves y.unit) (Dev.setpointCheck y s.dev) = [] :=
  ⟨st ready, 0, 0, { dsc .setpoint 64 0 with w2 := 0x100, w3 := 0x10000 }, _, rfl, (by unfold Dev.admits; decide +kernel),
    (by decide +kernel)⟩

/-! Obligations.StopBeginsOrJoins -/

theorem test_StopBeginsOrJoins_1 : ∃ (s : State) (i : Fin 128) (slot : BitVec 16) (x y : Desc),
    y = withOpcode .stop x ∧ s.dev.admits .stop i y ∧ (s.dev.axis 0).st = .moving ∧ (s.dev.axis 0).stop = none :=
  ⟨st moving, 0, 0, dsc .stop 64 1, _, rfl, (by unfold Dev.admits; decide +kernel), (by decide +kernel), (by decide +kernel)⟩

/-! Obligations.StandstillEndsStop -/

theorem test_StandstillEndsStop_1a : ∃ (s : State) (ax : Fin 64) (p : Stop),
    s.dev.standstillDue ax = true ∧ (s.dev.axis ax).stop = some p ∧ (s.dev.axis ax).st = .moving :=
  ⟨st (up.setAxis 63 (stopping false)), 63, stopOf false, (by decide +kernel), (by decide +kernel), (by decide +kernel)⟩

theorem test_StandstillEndsStop_1b : ∃ (s : State) (ax : Fin 64) (p : Stop),
    s.dev.standstillDue ax = true ∧ (s.dev.axis ax).stop = some p ∧ s.dev.inWindow ax (s.dev.toGo ax) = false ∧
    (s.dev.axis ax).st = .moving :=
  ⟨st (up.setAxis 63 (stopping true)), 63, stopOf true, (by decide +kernel), (by decide +kernel), (by decide +kernel),
    (by decide +kernel)⟩

/-! Obligations.ProfileEventsEnd -/

theorem test_ProfileEventsEnd_5 : ∃ (s : State) (ax : Fin 64),
    s.dev.moveEndDue ax = true :=
  ⟨st (up.setAxis 63 (arrived 0)), 63, (by decide +kernel)⟩

theorem test_ProfileEventsEnd_6 : ∃ (s : State) (ax : Fin 64),
    (s.dev.axis ax).stop = none ∧ s.dev.revDue ax = true :=
  ⟨st (up.setAxis 0 { good with st := .moving, mot := { mode := .profile, rev := true } }), 0, (by decide +kernel),
    (by decide +kernel)⟩

theorem test_ProfileEventsEnd_7 : ∃ (s : State) (ax : Fin 64),
    s.dev.settleDue ax = true :=
  ⟨st (((up.setAxis 0 { arrived 7 with mot := { (arrived 7).mot with target := 0x7FFFFFFFFF } }).setCfg Fl.motionInposSettle 0 7).setCfg Fl.motionInposWindow 0 1), 0, (by decide +kernel)⟩

/-! Obligations.ArmArms -/

theorem test_ArmArms_1a : ∃ (s : State) (i : Fin 128) (slot : BitVec 16) (x y : Desc),
    y = withOpcode .arm x ∧ s.dev.admits .arm i y ∧ axisFails (s.dev.leaves y.unit) (Dev.armCheck y s.dev) = [] ∧
    (s.dev.axis 0).armed = false :=
  ⟨st armable, 0, 0, dsc .arm 0 0, _, rfl, (by unfold Dev.admits; decide +kernel), (by decide +kernel), (by decide +kernel)⟩

theorem test_ArmArms_1b : ∃ (s : State) (i : Fin 128) (slot : BitVec 16) (x y : Desc),
    y = withOpcode .arm x ∧ s.dev.admits .arm i y ∧ axisFails (s.dev.leaves y.unit) (Dev.armCheck y s.dev) = [] ∧
    (s.dev.axis 0).armed = true :=
  ⟨st ready, 0, 0, dsc .arm 64 0, _, rfl, (by unfold Dev.admits; decide +kernel), (by decide +kernel), (by decide +kernel)⟩

/-! Obligations.DisarmUnarms -/

theorem test_DisarmUnarms_1a : ∃ (s : State) (i : Fin 128) (slot : BitVec 16) (x y : Desc),
    y = withOpcode .disarm x ∧ s.dev.admits .disarm i y ∧ (s.dev.axis 0).armed = true ∧ (s.dev.axis 0).st = .moving :=
  ⟨st moving, 0, 0, dsc .disarm 64 0, _, rfl, (by unfold Dev.admits; decide +kernel), (by decide +kernel),
    (by decide +kernel)⟩

theorem test_DisarmUnarms_1b : ∃ (s : State) (i : Fin 128) (slot : BitVec 16) (x y : Desc),
    y = withOpcode .disarm x ∧ s.dev.admits .disarm i y ∧ (s.dev.axis 0).armed = true ∧ (s.dev.axis 0).st = .moving :=
  ⟨st moving, 0, 0, dsc .disarm 64 1, _, rfl, (by unfold Dev.admits; decide +kernel), (by decide +kernel),
    (by decide +kernel)⟩

/-! Obligations.FloatAndBrakeTakeDrive -/

theorem test_FloatAndBrakeTakeDrive_1a : ∃ (s : State) (i : Fin 128) (slot : BitVec 16) (x y : Desc) (o : Op) (c : Instr) (k : DriveCmd),
    (o, c, k) ∈ [(Op.float, Instr.float i slot x, DriveCmd.float (Desc.opflag y 0)), (.brake, .brake i slot x, .brake)] ∧
    y = withOpcode o x ∧ s.dev.admits o i y ∧ (s.dev.axis 0).st = .moving :=
  ⟨st moving, 0, 0, dsc .float 64 1, dsc .float 64 1, .float, .float 0 0 (dsc .float 64 1), .float true,
    (by decide +kernel), rfl, (by unfold Dev.admits; decide +kernel), (by decide +kernel)⟩

theorem test_FloatAndBrakeTakeDrive_1b : ∃ (s : State) (i : Fin 128) (slot : BitVec 16) (x y : Desc) (o : Op) (c : Instr) (k : DriveCmd),
    (o, c, k) ∈ [(Op.float, Instr.float i slot x, DriveCmd.float (Desc.opflag y 0)), (.brake, .brake i slot x, .brake)] ∧
    y = withOpcode o x ∧ s.dev.admits o i y ∧ (s.dev.axis 0).st = .idle ∧ y.opflag 0 = true :=
  ⟨st ready, 0, 0, dsc .brake 64 1, dsc .brake 64 1, .brake, .brake 0 0 (dsc .brake 64 1), .brake, (by decide +kernel),
    rfl, (by unfold Dev.admits; decide +kernel), (by decide +kernel), (by decide +kernel)⟩

/-! Obligations.StartBeginsSequence -/

theorem test_StartBeginsSequence_1a : ∃ (s : State) (i : Fin 128) (slot : BitVec 16) (x y : Desc),
    y = withOpcode .start x ∧ s.dev.admits .start i y ∧ axisFails (s.dev.leaves y.unit) (Dev.startCheck y s.dev) = [] ∧
    y.opflag 0 = false :=
  ⟨st freerun, 0, 0, { dsc .start 0 0 with w2 := 0xFFFF0001 }, _, rfl, (by unfold Dev.admits; decide +kernel),
    (by decide +kernel), (by decide +kernel)⟩

theorem test_StartBeginsSequence_1b : ∃ (s : State) (i : Fin 128) (slot : BitVec 16) (x y : Desc),
    y = withOpcode .start x ∧ s.dev.admits .start i y ∧ axisFails (s.dev.leaves y.unit) (Dev.startCheck y s.dev) = [] ∧
    y.opflag 0 = true ∧ y.opflag 2 = true :=
  ⟨st freerun, 0, 0, dsc .start 0 5, _, rfl, (by unfold Dev.admits; decide +kernel), (by decide +kernel),
    (by decide +kernel), (by decide +kernel)⟩

theorem test_StartBeginsSequence_1c : ∃ (s : State) (i : Fin 128) (slot : BitVec 16) (x y : Desc),
    y = withOpcode .start x ∧ s.dev.admits .start i y ∧ axisFails (s.dev.leaves y.unit) (Dev.startCheck y s.dev) = [] ∧
    y.opflag 0 = true ∧ (s.dev.axis 0).lat.known = true :=
  ⟨st freerun, 0, 0, dsc .start 0 1, _, rfl, (by unfold Dev.admits; decide +kernel), (by decide +kernel),
    (by decide +kernel), (by decide +kernel)⟩

/-! Obligations.CatchBeginsSequence -/

theorem test_CatchBeginsSequence_1a : ∃ (s : State) (i : Fin 128) (slot : BitVec 16) (x y : Desc),
    y = withOpcode .catchRotor x ∧ s.dev.admits .catchRotor i y ∧ axisFails (s.dev.leaves y.unit) s.dev.catchCheck = [] ∧
    s.dev.fieldHold 0 = false :=
  ⟨st freerun, 0, 0, dsc .catchRotor 0 0, _, rfl, (by unfold Dev.admits; decide +kernel), (by decide +kernel),
    (by decide +kernel)⟩

theorem test_CatchBeginsSequence_1b : ∃ (s : State) (i : Fin 128) (slot : BitVec 16) (x y : Desc),
    y = withOpcode .catchRotor x ∧ s.dev.admits .catchRotor i y ∧ axisFails (s.dev.leaves y.unit) s.dev.catchCheck = [] ∧
    s.dev.fieldHold 0 = true :=
  ⟨st (freerun.setAxis 0 { good with cmd := .field }), 0, 0, dsc .catchRotor 0 1, _, rfl,
    (by unfold Dev.admits; decide +kernel), (by decide +kernel), (by decide +kernel)⟩

/-! Obligations.TestAndAuxDescriptors -/

theorem test_TestAndAuxDescriptors_1 : ∃ (s : State) (i : Fin 128) (slot : BitVec 16) (x y : Desc),
    y = withOpcode .auxPwm x ∧ s.dev.admits .auxPwm i y ∧ axisFails (s.dev.leaves y.unit) (Dev.auxCheck y s.dev) = [] ∧
    y.opflag 0 = true ∧ y.opflag 1 = false :=
  ⟨st ready, 0, 0, { dsc .auxPwm 64 1 with w2 := 0xAFFFF }, _, rfl, (by unfold Dev.admits; decide +kernel),
    (by decide +kernel), (by decide +kernel), (by decide +kernel)⟩

theorem test_TestAndAuxDescriptors_2 : ∃ (s : State) (i : Fin 128) (slot : BitVec 16) (x y : Desc),
    y = withOpcode .offtest x ∧ s.dev.admits .offtest i y ∧ axisFails (s.dev.leaves y.unit) s.dev.offtCheck = [] :=
  ⟨st (up.setHw Fl.vbusStatusVbs 0 200), 0, 0, dsc .offtest 0 1, _, rfl, (by unfold Dev.admits; decide +kernel),
    (by decide +kernel)⟩

theorem test_TestAndAuxDescriptors_3 : ∃ (s : State) (i : Fin 128) (slot : BitVec 16) (x y : Desc),
    y = withOpcode .calibrate x ∧ s.dev.admits .calibrate i y ∧ axisFails (s.dev.leaves y.unit) s.dev.calCheck = [] ∧
    s.dev.leaves y.unit = [0, 63] :=
  ⟨st up, 0, 0, dsc .calibrate 64 0, _, rfl, (by unfold Dev.admits; decide +kernel), (by decide +kernel),
    (by decide +kernel)⟩

/-! Obligations.StartPhasesEnd -/

theorem test_StartPhasesEnd_1 : ∃ (s : State) (ax : Fin 64),
    s.dev.alignDue ax = true :=
  ⟨st (up.setMva 63 (seqIn 3 false)), 63, (by decide +kernel)⟩

theorem test_StartPhasesEnd_2 : ∃ (s : State) (ax : Fin 64),
    s.dev.retryDue ax = true :=
  ⟨st (up.setMva 63 (seqIn 5 false)), 63, (by decide +kernel)⟩

theorem test_StartPhasesEnd_3 : ∃ (s : State) (ax : Fin 64),
    s.dev.windowDue ax = true ∧ (s.dev.mva ax).sl.phase = 8 ∧
    s.dev.cfg Fl.slLossCatchtries ax ≤ (s.dev.mva ax).sl.catchTry :=
  ⟨st (up.setMva 63 { (seqIn 8 false) with sl := { (seqIn 8 false).sl with catchTry := 255 } }), 63, (by decide +kernel),
    (by decide +kernel), (by decide +kernel)⟩

theorem test_StartPhasesEnd_4 : ∃ (s : State) (ax : Fin 64) (r : SeqReq),
    s.dev.windowDue ax = true ∧ (s.dev.mva ax).sl.phase ≠ 8 ∧ (s.dev.mva ax).sl.req = some r ∧
    (s.dev.mva ax).sl.stopping = false ∧ r.catchOnly = false :=
  ⟨st (up.setMva 63 (seqIn 1 false)), 63, ⟨1, false, false, false, false⟩, (by decide +kernel), (by decide +kernel),
    (by decide +kernel), (by decide +kernel), (by decide +kernel)⟩

/-! Obligations.PrechargeParkWake -/

theorem test_PrechargeParkWake_2 : ∃ (s : State) (m : Fin 8),
    s.dev.parkDue m = true :=
  ⟨st ((up.setMv 7 { idle := 400000 }).setCfg Fl.pwrParkParktime 0 1), 7, (by decide +kernel)⟩

theorem test_PrechargeParkWake_3 : ∃ (s : State) (m : Fin 8),
    (s.dev.mv m).waking = true :=
  ⟨st (up.setMv 7 { waking := true }), 7, (by decide +kernel)⟩

/-! Obligations.EnableWritesWait -/

theorem test_EnableWritesWait_1a : ∃ (s : State) (c : Instr) (r : Reg) (i k off : Nat) (b : Bool),
    enableWrite c = some (r, i, k, b, off) ∧ s.dev.barOpen = true ∧ s.dev.serves r (r.offset i) = true :=
  ⟨st up, .doorbellEnable 1 5, .hifCfg, 0, 0, 5, true, (by decide +kernel), (by decide +kernel), (by decide +kernel)⟩

theorem test_EnableWritesWait_1b : ∃ (s : State) (c : Instr) (r : Reg) (i k off : Nat) (b : Bool),
    enableWrite c = some (r, i, k, b, off) ∧ s.dev.barOpen = true ∧ s.dev.serves r (r.offset i) = true :=
  ⟨st up, .ringEnable .sq 127 1 5, .sqCfg, 127, 0, 5, true, (by decide +kernel), (by decide +kernel), (by decide +kernel)⟩

theorem test_EnableWritesWait_1c : ∃ (s : State) (c : Instr) (r : Reg) (i k off : Nat) (b : Bool),
    enableWrite c = some (r, i, k, b, off) ∧ s.dev.barOpen = true ∧ s.dev.serves r (r.offset i) = true :=
  ⟨st up, .ringDisable .bq 3 0 5, .bqCfg, 3, 0, 5, false, (by decide +kernel), (by decide +kernel), (by decide +kernel)⟩

theorem test_EnableWritesWait_1d : ∃ (s : State) (c : Instr) (r : Reg) (i k off : Nat) (b : Bool),
    enableWrite c = some (r, i, k, b, off) ∧ s.dev.barOpen = true ∧ s.dev.serves r (r.offset i) = true :=
  ⟨st up, .cmdEngage 7 0 5, .cmdCfg, 7, 13, 5, true, (by decide +kernel), (by decide +kernel), (by decide +kernel)⟩

theorem test_EnableWritesWait_1e : ∃ (s : State) (c : Instr) (r : Reg) (i k off : Nat) (b : Bool),
    enableWrite c = some (r, i, k, b, off) ∧ s.dev.barOpen = true ∧ s.dev.serves r (r.offset i) = true :=
  ⟨st up, .cmdDisengage 0 0 5, .cmdCfg, 0, 13, 5, false, (by decide +kernel), (by decide +kernel), (by decide +kernel)⟩

theorem test_EnableWritesWait_1f : ∃ (s : State) (c : Instr) (r : Reg) (i k off : Nat) (b : Bool),
    enableWrite c = some (r, i, k, b, off) ∧ s.dev.barOpen = true ∧ s.dev.serves r (r.offset i) = true :=
  ⟨st up, .canEnable 3 1 5, .canCfg, 3, 0, 5, true, (by decide +kernel), (by decide +kernel), (by decide +kernel)⟩

theorem test_EnableWritesWait_1g : ∃ (s : State) (c : Instr) (r : Reg) (i k off : Nat) (b : Bool),
    enableWrite c = some (r, i, k, b, off) ∧ s.dev.barOpen = true ∧ s.dev.serves r (r.offset i) = true :=
  ⟨st up, .canDisable 3 0 5, .canCfg, 3, 0, 5, false, (by decide +kernel), (by decide +kernel), (by decide +kernel)⟩

/-! Obligations.TickBoundaryAdvances -/

theorem test_TickBoundaryAdvances_1a : ∃ (s : State) (early : List Early) (room : Nat),
    s.dev.tickRuns = true ∧ s.dev.sys.first = false :=
  ⟨st up, [], 0, (by decide +kernel), (by decide +kernel)⟩

theorem test_TickBoundaryAdvances_1b : ∃ (s : State) (early : List Early) (room : Nat),
    s.dev.tickRuns = true ∧ s.dev.sys.first = true :=
  ⟨st { up with sys := { up.sys with first := true } }, [], 0, (by decide +kernel), (by decide +kernel)⟩

theorem test_TickBoundaryAdvances_2 : ∃ (s : State) (early : List Early) (room : Nat),
    s.dev.tickRuns = false :=
  ⟨State.reset, [], 0, (by decide +kernel)⟩

/-! Obligations.HostActivityAndMessages -/

theorem test_HostActivityAndMessages_2 : ∃ (s : State),
    s.dev.cfg Fl.hifWdogTicks 0 ≠ 0 ∧ s.dev.hif.dbActive = true ∧ s.dev.accepted Fl.hifCfgDbEn 0 = 1 ∧
    s.dev.hif.silentRaised = false ∧ s.dev.cfg Fl.hifWdogTicks 0 ≤ s.dev.hif.silent :=
  ⟨st (({ up with hif := { up.hif with dbActive := true, silent := 1 } }.setCfg Fl.hifWdogTicks 0 1).setCfg Fl.hifCfgDbEn 0 1), (by decide +kernel), (by decide +kernel), (by decide +kernel), (by decide +kernel), (by decide +kernel)⟩

theorem test_HostActivityAndMessages_3 : ∃ (s : State),
    (s.dev.cfg Fl.hifWdogTicks 0 = 0 ∨ s.dev.hif.dbActive = false ∨ s.dev.accepted Fl.hifCfgDbEn 0 ≠ 1 ∨ s.dev.hif.silentRaised = true ∨ s.dev.hif.silent < s.dev.cfg Fl.hifWdogTicks 0) :=
  ⟨st up, (by decide +kernel)⟩

theorem test_HostActivityAndMessages_5a : ∃ (s : State) (v : Fin 68),
    s.dev.hif.linkUp = true ∧ s.dev.hif.d3hot = false ∧ s.dev.hif.outq = [] ∧ v.val < 64 ∧
    s.dev.on Fl.cqCfgIrqEn v = true ∧ (((s.dev.cq v).msgForce = true ∨ ((s.dev.cq v).msgDue = true ∧
    s.dev.modOk (s.dev.cq v).lastMsg (s.dev.cfg Fl.cqCfgModTicks v) = true))) :=
  ⟨st ((up.setCq 63 { active := true, msgForce := true }).setCfg Fl.cqCfgIrqEn 63 1), 63, (by decide +kernel),
    (by decide +kernel), (by decide +kernel), (by decide +kernel), (by decide +kernel), (by decide +kernel)⟩

theorem test_HostActivityAndMessages_5b : ∃ (s : State) (v : Fin 68),
    s.dev.hif.linkUp = true ∧ s.dev.hif.d3hot = false ∧ s.dev.hif.outq = [] ∧ v.val < 64 ∧
    s.dev.on Fl.cqCfgIrqEn v = true ∧ (((s.dev.cq v).msgForce = true ∨ ((s.dev.cq v).msgDue = true ∧
    s.dev.modOk (s.dev.cq v).lastMsg (s.dev.cfg Fl.cqCfgModTicks v) = true))) :=
  ⟨st (((up.setCq 63 { active := true, msgDue := true, lastMsg := some 0 }).setCfg Fl.cqCfgIrqEn 63 1).setCfg Fl.cqCfgModTicks 63 0), 63, (by decide +kernel), (by decide +kernel), (by decide +kernel), (by decide +kernel), (by decide +kernel), (by decide +kernel)⟩

/-! Obligations.LinkLossStopsRings -/

theorem test_LinkLossStopsRings_1a : ∃ (s : State) (c : Instr),
    ((c = .hostLinkLost .down ∧ s.dev.hif.linkUp = true) ∨ (c = .hostLinkLost .d3hot ∧
    s.dev.hif.d3hot = false) ∨ c = .functionLevelReset) :=
  ⟨st up, .hostLinkLost .down, (by decide +kernel)⟩

theorem test_LinkLossStopsRings_1b : ∃ (s : State) (c : Instr),
    ((c = .hostLinkLost .down ∧ s.dev.hif.linkUp = true) ∨ (c = .hostLinkLost .d3hot ∧
    s.dev.hif.d3hot = false) ∨ c = .functionLevelReset) :=
  ⟨st up, .hostLinkLost .d3hot, (by decide +kernel)⟩

theorem test_LinkLossStopsRings_1c : ∃ (s : State) (c : Instr),
    ((c = .hostLinkLost .down ∧ s.dev.hif.linkUp = true) ∨ (c = .hostLinkLost .d3hot ∧
    s.dev.hif.d3hot = false) ∨ c = .functionLevelReset) :=
  ⟨st up, .functionLevelReset, (by decide +kernel)⟩

/-! Obligations.UnitsBindAndUnbind -/

theorem test_UnitsBindAndUnbind_1 : ∃ (s : State) (i : Fin 128) (slot : BitVec 16) (x y : Desc) (p : Nat) (us : List Nat),
    y = withOpcode .bind x ∧ p = Dev.bindParent y ∧ us = y.unit :: Dev.bindAxes y ∧ s.dev.admits .bind i y ∧
    s.dev.bindCheck (s.dev.sq i) y = none :=
  ⟨st up, 0, 0, { dsc .bind 1 0 with w2 := 511, w5 := 0x40000000 }, _, 511, [1, 62], rfl, rfl, rfl,
    (by unfold Dev.admits; decide +kernel), (by decide +kernel)⟩

theorem test_UnitsBindAndUnbind_2 : ∃ (s : State) (i : Fin 128) (slot : BitVec 16) (x y : Desc) (p v : Nat),
    y = withOpcode .unbind x ∧ s.dev.admits .unbind i y ∧ bit y.w1 9 = false ∧ (s.dev.unit y.unit).parent = some p ∧
    v ∈ (s.dev.unit p).members ∧ v ≠ y.unit :=
  ⟨st up, 0, 0, dsc .unbind 63 0, _, 64, 0, rfl, (by unfold Dev.admits; decide +kernel), (by decide +kernel),
    (by decide +kernel), (by decide +kernel), (by decide +kernel)⟩

theorem test_UnitsBindAndUnbind_3 : ∃ (s : State) (i : Fin 128) (slot : BitVec 16) (x y : Desc),
    y = withOpcode .unbind x ∧ s.dev.admits .unbind i y ∧ bit y.w1 9 = true ∧ 64 ≤ y.unit ∧
    (s.dev.unit y.unit).parent = none :=
  ⟨st up, 0, 0, { dsc .unbind 64 0 with w1 := 0x240 }, _, rfl, (by unfold Dev.admits; decide +kernel), (by decide +kernel),
    (by decide +kernel), (by decide +kernel)⟩

theorem test_UnitsBindAndUnbind_4 : ∃ (s : State) (u : Fin 512) (v : Word) (off : Nat),
    64 ≤ u.val ∧ s.dev.barOpen = true ∧ s.dev.hubOn 0 = true :=
  ⟨st up, 511, 0x3FF, 0, (by decide +kernel), (by decide +kernel), (by decide +kernel)⟩

theorem test_UnitsBindAndUnbind_5 : ∃ (s : State) (u : Fin 512) (v : Word) (off : Nat),
    u.val < 64 :=
  ⟨st up, 63, 0, 0, (by decide +kernel)⟩

/-! Obligations.SignatureTablesAndEvents -/

theorem test_SignatureTablesAndEvents_1a : ∃ (s : State) (i : Fin 128) (slot : BitVec 16) (x y : Desc) (t : Option SignTbl),
    y = withOpcode .signLoad x ∧ s.dev.admits .signLoad i y ∧
    axisFails (s.dev.leaves y.unit) (Dev.loadCheck y s.dev) = [] ∧
    t = (if y.opflag 1 then none else some (Dev.loadTbl y (y.addr 2) y.w4 (bits y.w5 0 17))) ∧ y.opflag 0 = true :=
  ⟨st up, 0, 0, { dsc .signLoad 64 1 with w1 := 0x1840, w5 := 0x10000 }, _, some ⟨0, 0, 12, 0x10000⟩, rfl,
    (by unfold Dev.admits; decide +kernel), (by decide +kernel), (by decide +kernel), (by decide +kernel)⟩

theorem test_SignatureTablesAndEvents_1b : ∃ (s : State) (i : Fin 128) (slot : BitVec 16) (x y : Desc) (t : Option SignTbl),
    y = withOpcode .signLoad x ∧ s.dev.admits .signLoad i y ∧
    axisFails (s.dev.leaves y.unit) (Dev.loadCheck y s.dev) = [] ∧
    t = (if y.opflag 1 then none else some (Dev.loadTbl y (y.addr 2) y.w4 (bits y.w5 0 17))) ∧ y.opflag 0 = false :=
  ⟨st up, 0, 0, dsc .signLoad 64 2, _, none, rfl, (by unfold Dev.admits; decide +kernel), (by decide +kernel),
    (by decide +kernel), (by decide +kernel)⟩

theorem test_SignatureTablesAndEvents_2 : ∃ (s : State) (i : Fin 128) (slot : BitVec 16) (x y : Desc),
    y = withOpcode .learn x ∧ s.dev.admits .learn i y ∧ axisFails (s.dev.leaves y.unit) (Dev.learnCheck y s.dev) = [] ∧
    Dev.learnCycles y ≠ 0 :=
  ⟨st up, 0, 0, { dsc .learn 64 3 with w7 := 0x1FF0000 }, _, rfl, (by unfold Dev.admits; decide +kernel),
    (by decide +kernel), (by decide +kernel)⟩

theorem test_SignatureTablesAndEvents_3 : ∃ (s : State) (ax : Fin 64),
    (s.dev.sign ax).starved = true :=
  ⟨st (up.setSign 63 { starved := true }), 63, (by decide +kernel)⟩

theorem test_SignatureTablesAndEvents_5 : ∃ (s : State) (ax : Fin 64) (r : Reopen),
    s.dev.reopenDue ax = true ∧ (s.dev.sign ax).reopen = some r ∧ (s.dev.axis ax).armed = true ∧ s.dev.outOf ax = false :=
  ⟨st (ready.setSign 63 { reopen := some ⟨1, 100, [0], false⟩ }), 63, ⟨1, 100, [0], false⟩, (by decide +kernel),
    (by decide +kernel), (by decide +kernel), (by decide +kernel)⟩

/-! Obligations.CommandPins -/

theorem test_CommandPins_1a : ∃ (s : State) (c : Fin 8),
    (s.dev.cmdMode c = 2 ∨ s.dev.cmdMode c = 3) ∧ 0 ∈ (s.dev.cmd c).axes ∧ (s.dev.axis 0).st = .moving :=
  ⟨st (((moving.modMot 0 fun m => { m with pin := some 7 }).setCmd 7 { axes := [0] }).setCfg Fl.cmdCfgMode 7 2), 7,
    (by decide +kernel), (by decide +kernel), (by decide +kernel)⟩

theorem test_CommandPins_1b : ∃ (s : State) (c : Fin 8),
    (s.dev.cmdMode c = 2 ∨ s.dev.cmdMode c = 3) :=
  ⟨st (up.setCfg Fl.cmdCfgMode 7 3), 7, (by decide +kernel)⟩

theorem test_CommandPins_5 : ∃ (s : State) (ax : Fin 64) (v : Word) (off : Nat),
    s.dev.barOpen = true ∧ s.dev.hubOn 1 = true :=
  ⟨st up, 63, 0x1FF, 0, (by decide +kernel), (by decide +kernel)⟩

/-! Obligations.MovementFrames -/

theorem test_MovementFrames_1 : ∃ (s : State) (m : Fin 8),
    s.dev.sys.ticking = true ∧ s.dev.flag Fl.clkStatusPllLock 0 = true ∧ s.dev.mvRuns m = true ∧ s.dev.trained m = true :=
  ⟨st up, 7, (by decide +kernel), (by decide +kernel), (by decide +kernel), (by decide +kernel)⟩

theorem test_MovementFrames_2a : ∃ (s : State) (m : Fin 8) (diff : Int) (skew : BitVec 8),
    s.dev.mvRuns m = true ∧ s.dev.trained m = true ∧ diff.natAbs ≤ 2 ∧ skew.toInt.natAbs ≤ 16 :=
  ⟨st up, 7, 2, 16, (by decide +kernel), (by decide +kernel), (by decide +kernel)⟩

theorem test_MovementFrames_2b : ∃ (s : State) (m : Fin 8) (diff : Int) (skew : BitVec 8),
    s.dev.mvRuns m = true ∧ s.dev.trained m = true ∧ 2 < diff.natAbs ∧ 16 < skew.toInt.natAbs :=
  ⟨st up, 7, -3, 0xEF, (by decide +kernel), (by decide +kernel), (by decide +kernel)⟩

theorem test_MovementFrames_4 : ∃ (s : State) (m : Fin 8) (crc : Bool),
    s.dev.mvOn m = true ∧ s.dev.trained m = true ∧ s.dev.spNow m = none :=
  ⟨st up, 7, true, (by decide +kernel), (by decide +kernel), (by decide +kernel)⟩

theorem test_MovementFrames_5 : ∃ (s : State) (m : Fin 8) (crc : Bool),
    s.dev.mvOn m = true ∧ s.dev.trained m = true ∧ (s.dev.mv m).missed = false ∧ (s.dev.mv m).latMiss = 1 :=
  ⟨st (up.setMv 7 { latMiss := 1 }), 7, true, (by decide +kernel), (by decide +kernel), (by decide +kernel),
    (by decide +kernel)⟩

/-! Obligations.LinksAndOrphans -/

theorem test_LinksAndOrphans_1 : ∃ (s : State) (m : Fin 8),
    s.dev.mvOn m = true ∧ s.dev.orphan m = false :=
  ⟨st up, 7, (by decide +kernel), (by decide +kernel)⟩

theorem test_LinksAndOrphans_2a : ∃ (s : State) (m : Fin 8) (skew : BitVec 8),
    s.dev.mvOn m = true ∧ s.dev.trained m = false ∧ skew.toInt.natAbs ≤ 16 :=
  ⟨st (up.setHw Fl.linkStatusTrained 7 0), 7, 16, (by decide +kernel), (by decide +kernel), (by decide +kernel)⟩

theorem test_LinksAndOrphans_2b : ∃ (s : State) (m : Fin 8) (skew : BitVec 8),
    s.dev.mvOn m = true ∧ s.dev.trained m = false ∧ 16 < skew.toInt.natAbs :=
  ⟨st (up.setHw Fl.linkStatusTrained 7 0), 7, 17, (by decide +kernel), (by decide +kernel), (by decide +kernel)⟩

theorem test_LinksAndOrphans_3 : ∃ (s : State) (m : Fin 8),
    s.dev.mvOn m = true ∧ s.dev.trained m = false :=
  ⟨st (up.setHw Fl.linkStatusTrained 7 0), 7, (by decide +kernel), (by decide +kernel)⟩

/-! Obligations.CollectorCaptures -/

theorem test_CollectorCaptures_1a : ∃ (s : State) (l : List (Fin 18)) (a : Nat × Present) (r : List (Nat × Present)),
    s.dev.arrivals l = a :: r ∧ s.dev.flt.seq = none ∧ s.dev.flag Fl.fltCapValid 0 = false :=
  ⟨st { up with flt := { up.flt with pres := [(7, ⟨0x123, 0, 63, 3, false, false⟩)] } }, [7], (7, ⟨0x123, 0, 63, 3, false,
    false⟩), [], (by decide +kernel), (by decide +kernel), (by decide +kernel)⟩

theorem test_CollectorCaptures_1b : ∃ (s : State) (l : List (Fin 18)) (a : Nat × Present) (r : List (Nat × Present)),
    s.dev.arrivals l = a :: r ∧ s.dev.flt.seq = none ∧ s.dev.flag Fl.fltCapValid 0 = true :=
  ⟨st ({ up with flt := { up.flt with pres := [(0, ⟨0x123, 0, 63, 3, false, false⟩), (7, ⟨0x123, 0, 63, 3, false, false⟩)] } }.setHw Fl.fltCapValid 0 1), [7, 0], (0, ⟨0x123, 0, 63, 3, false, false⟩), [(7, ⟨0x123, 0, 63, 3, false, false⟩)], (by decide +kernel), (by decide +kernel), (by decide +kernel)⟩

theorem test_CollectorCaptures_2 : ∃ (s : State) (q : FltSeq),
    s.dev.flt.seq = some q ∧ s.dev.flt.acks = [] :=
  ⟨st { up with flt := { up.flt with seq := some ⟨7, ⟨0x123, 0, 63, 3, false, false⟩, 0, 5⟩ } }, ⟨7, ⟨0x123, 0, 63, 3,
    false, false⟩, 0, 5⟩, (by decide +kernel), (by decide +kernel)⟩

/-! Obligations.FaultWritesAndPairs -/

theorem test_FaultWritesAndPairs_1a : ∃ (s : State) (v : Word) (off : Nat),
    s.dev.barOpen = true ∧ s.dev.flt.seq = none ∧ bits v 0 8 = s.dev.hw Fl.fltCapOvfCount 0 :=
  ⟨st (up.setHw Fl.fltCapOvfCount 0 255), 0xFF, 0, (by decide +kernel), (by decide +kernel), (by decide +kernel)⟩

theorem test_FaultWritesAndPairs_1b : ∃ (s : State) (v : Word) (off : Nat),
    s.dev.barOpen = true ∧ s.dev.flt.seq = none ∧ bits v 0 8 ≠ s.dev.hw Fl.fltCapOvfCount 0 :=
  ⟨st up, 0xFF, 0, (by decide +kernel), (by decide +kernel), (by decide +kernel)⟩

theorem test_FaultWritesAndPairs_2a : ∃ (s : State) (v : Word) (off : Nat),
    s.dev.barOpen = true ∧ s.dev.late off = true :=
  ⟨st up, 0x1FF, 39993, (by decide +kernel), (by decide +kernel)⟩

theorem test_FaultWritesAndPairs_2b : ∃ (s : State) (v : Word) (off : Nat),
    s.dev.barOpen = true ∧ s.dev.late off = false :=
  ⟨st up, 0x1FF, 39992, (by decide +kernel), (by decide +kernel)⟩

/-! Obligations.ClocksAndMains -/

theorem test_ClocksAndMains_1 : ∃ (s : State),
    s.dev.flag Fl.clkStatusPllLock 0 = true :=
  ⟨st up, (by decide +kernel)⟩

theorem test_ClocksAndMains_2a : ∃ (s : State),
    s.dev.sys.released = true ∧ s.dev.flag Fl.clkStatusPllLock 0 = false ∧ s.dev.sys.ticking = true :=
  ⟨st { released with sys := { released.sys with ticking := true } }, (by decide +kernel), (by decide +kernel),
    (by decide +kernel)⟩

theorem test_ClocksAndMains_2b : ∃ (s : State),
    s.dev.sys.released = true ∧ s.dev.flag Fl.clkStatusPllLock 0 = false ∧ s.dev.sys.ticking = false :=
  ⟨st released, (by decide +kernel), (by decide +kernel), (by decide +kernel)⟩

/-! Obligations.MonitorBank -/

theorem test_MonitorBank_1 : ∃ (s : State) (c : Fin 8) (v : BitVec 20) (clip : Bool) (i : Nat) (u ns : Bool),
    (s.dev.mon c).run = some (i, u, ns) ∧ i < 32 ∧ s.dev.monDue c = true :=
  ⟨st (up.setMon 7 { run := some (31, true, false) }), 7, 0xFFFFF, false, 31, true, false, (by decide +kernel),
    (by decide +kernel), (by decide +kernel)⟩

theorem test_MonitorBank_2a : ∃ (s : State) (v : Word) (off : Nat),
    s.dev.barOpen = true ∧ s.dev.hubOn 4 = true ∧ (s.dev.mon (bits v 0 5 % 8)).run = none :=
  ⟨st up, 31, 0, (by decide +kernel), (by decide +kernel), (by decide +kernel)⟩

theorem test_MonitorBank_2b : ∃ (s : State) (v : Word) (off : Nat),
    s.dev.barOpen = true ∧ s.dev.hubOn 4 = true ∧ (s.dev.mon (bits v 0 5 % 8)).run.isSome = true :=
  ⟨st (up.setMon 7 { run := some (31, true, false) }), 31, 0, (by decide +kernel), (by decide +kernel), (by decide +kernel)⟩

theorem test_MonitorBank_3 : ∃ (s : State) (c : Fin 8),
    s.dev.hubOn 4 = true ∧ (s.dev.mon c).resting = true ∧ (s.dev.mon c).run = none ∧ s.dev.monDue c = true :=
  ⟨st ((up.setMon 7 { resting := true }).setCfg Fl.monEnEn 0 0x80000000), 7, (by decide +kernel), (by decide +kernel),
    (by decide +kernel), (by decide +kernel)⟩

/-! Obligations.CanTraffic -/

theorem test_CanTraffic_1 : ∃ (s : State) (i : Fin 128) (slot : BitVec 16) (x y : Desc) (c : Nat),
    y = withOpcode .canTx x ∧ c = bits y.w1 9 2 ∧ s.dev.admits .canTx i y ∧ Dev.txCheck y = none ∧
    s.dev.on Fl.canCfgEnable c = true ∧ (s.dev.can c).queue.length < 32 :=
  ⟨st (up.setCfg Fl.canCfgEnable 3 1), 0, 0, { dsc .canTx 0 0 with w1 := 0x600, w2 := 0x7FF }, _, 3, rfl,
    (by decide +kernel), (by unfold Dev.admits; decide +kernel), (by decide +kernel), (by decide +kernel),
    (by decide +kernel)⟩

theorem test_CanTraffic_3 : ∃ (s : State) (c : Fin 4) (f : Frame),
    Dev.onBus (s.dev.can c) = true ∧ (s.dev.can c).active = none ∧ (s.dev.can c).leaving = false ∧
    (s.dev.can c).held.length < 16 :=
  ⟨st (up.setCan 3 { on := true }), 3, ⟨0x7FF, false, false, false, false, false, 0, []⟩, (by decide +kernel),
    (by decide +kernel), (by decide +kernel), (by decide +kernel)⟩

theorem test_CanTraffic_4 : ∃ (s : State) (c : Fin 4) (n : Option Nat) (t : TxFrame),
    Dev.onBus (s.dev.can c) = true ∧ (s.dev.can c).active = none ∧ s.dev.restricted c = false ∧
    Dev.bestTx ((s.dev.can c).queue.filter (·.eligible)) = some t :=
  ⟨st (up.setCan 3 { on := true, queue := [⟨4, ⟨0, 1, 0, 0, 0x50, 0, false, false, true⟩, ⟨0x7FF, false, false, false, false, false, 0, []⟩, 0, 0, false, true, 64, 0⟩] }), 3, none, ⟨4, ⟨0, 1, 0, 0, 0x50, 0, false, false, true⟩, ⟨0x7FF, false, false, false, false, false, 0, []⟩, 0, 0, false, true, 64, 0⟩, (by decide +kernel), (by decide +kernel), (by decide +kernel), (by decide +kernel)⟩

theorem test_CanTraffic_5 : ∃ (s : State) (c : Fin 4) (t : TxFrame),
    Dev.inFlight (s.dev.can c) = some t ∧ t.gone = 0 ∧ (s.dev.can c).leaving = false ∧ s.dev.on Fl.canCfgSelfrx c = false :=
  ⟨st (up.setCan 3 { on := true, queue := [⟨4, ⟨0, 1, 0, 0, 0x50, 0, false, false, true⟩, ⟨0x7FF, false, false, false, false, false, 0, []⟩, 0, 0, false, true, 64, 0⟩], active := some 4 }), 3, ⟨4, ⟨0, 1, 0, 0, 0x50, 0, false, false, true⟩, ⟨0x7FF, false, false, false, false, false, 0, []⟩, 0, 0, false, true, 64, 0⟩, (by decide +kernel), (by decide +kernel), (by decide +kernel), (by decide +kernel)⟩

/-! Obligations.LockCommands -/

theorem test_LockCommands_1a : ∃ (s : State) (v : Word) (off op : Nat) (c : Instr),
    (c, op) ∈ [(Instr.password v off, 0), (.challenge v off, 1), (.response v off, 2), (.relock v off, 3), (.setpw v off,
    4)] ∧ s.dev.barOpen = true ∧ s.dev.lock.run = none :=
  ⟨st up, 0x73, 0, 0, .password 0x73 0, (by decide +kernel), (by decide +kernel), (by decide +kernel)⟩

theorem test_LockCommands_1b : ∃ (s : State) (v : Word) (off op : Nat) (c : Instr),
    (c, op) ∈ [(Instr.password v off, 0), (.challenge v off, 1), (.response v off, 2), (.relock v off, 3), (.setpw v off,
    4)] ∧ s.dev.barOpen = true ∧ s.dev.lock.run = none :=
  ⟨st up, 0x73, 0, 1, .challenge 0x73 0, (by decide +kernel), (by decide +kernel), (by decide +kernel)⟩

theorem test_LockCommands_1c : ∃ (s : State) (v : Word) (off op : Nat) (c : Instr),
    (c, op) ∈ [(Instr.password v off, 0), (.challenge v off, 1), (.response v off, 2), (.relock v off, 3), (.setpw v off,
    4)] ∧ s.dev.barOpen = true ∧ s.dev.lock.run = none :=
  ⟨st up, 0x73, 0, 2, .response 0x73 0, (by decide +kernel), (by decide +kernel), (by decide +kernel)⟩

theorem test_LockCommands_1d : ∃ (s : State) (v : Word) (off op : Nat) (c : Instr),
    (c, op) ∈ [(Instr.password v off, 0), (.challenge v off, 1), (.response v off, 2), (.relock v off, 3), (.setpw v off,
    4)] ∧ s.dev.barOpen = true ∧ s.dev.lock.run = none :=
  ⟨st up, 0x73, 0, 3, .relock 0x73 0, (by decide +kernel), (by decide +kernel), (by decide +kernel)⟩

theorem test_LockCommands_1e : ∃ (s : State) (v : Word) (off op : Nat) (c : Instr),
    (c, op) ∈ [(Instr.password v off, 0), (.challenge v off, 1), (.response v off, 2), (.relock v off, 3), (.setpw v off,
    4)] ∧ s.dev.barOpen = true ∧ s.dev.lock.run = none :=
  ⟨st up, 0x73, 0, 4, .setpw 0x73 0, (by decide +kernel), (by decide +kernel), (by decide +kernel)⟩

theorem test_LockCommands_2 : ∃ (s : State) (v : Word) (off : Nat) (c : Instr),
    c ∈ [Instr.password v off, .challenge v off, .response v off, .relock v off, .setpw v off] ∧ s.dev.barOpen = true ∧
    s.dev.lock.run.isSome = true :=
  ⟨st { up with lock := { up.lock with run := some (.password 7), verifier := some 5 } }, 0x73, 0, .relock 0x73 0,
    (by decide +kernel), (by decide +kernel), (by decide +kernel)⟩

theorem test_LockCommands_3 : ∃ (s : State) (mask : BitVec 3) (v : BitVec 256),
    s.dev.lock.run = some (.password mask) ∧ s.dev.lock.verifier = some v ∧ s.dev.flag Fl.lockStatusLockout 0 = false :=
  ⟨st { up with lock := { up.lock with run := some (.password 7), verifier := some 5 } }, 7, 5, (by decide +kernel),
    (by decide +kernel), (by decide +kernel)⟩

theorem test_LockCommands_4 : ∃ (s : State),
    s.dev.lock.run = some .setpw ∧ s.dev.hw Fl.lockStatusScopes 0 = 7 ∧ s.dev.lock.verifier = none :=
  ⟨st { up with lock := { up.lock with run := some .setpw } }, (by decide +kernel), (by decide +kernel), (by decide +kernel)⟩

/-! Obligations.StoreCommands -/

theorem test_StoreCommands_1a : ∃ (s : State) (v : Word) (off op : Nat) (c : Instr),
    (c, op) ∈ [(Instr.nvsRead v off, 0), (.nvsProgram v off, 1), (.nvsErase v off, 2)] ∧ s.dev.barOpen = true ∧
    s.dev.hubOn 5 = true :=
  ⟨st up, 4, 0, 0, .nvsRead 4 0, (by decide +kernel), (by decide +kernel), (by decide +kernel)⟩

theorem test_StoreCommands_1b : ∃ (s : State) (v : Word) (off op : Nat) (c : Instr),
    (c, op) ∈ [(Instr.nvsRead v off, 0), (.nvsProgram v off, 1), (.nvsErase v off, 2)] ∧ s.dev.barOpen = true ∧
    s.dev.hubOn 5 = true :=
  ⟨st up, 4, 0, 1, .nvsProgram 4 0, (by decide +kernel), (by decide +kernel), (by decide +kernel)⟩

theorem test_StoreCommands_1c : ∃ (s : State) (v : Word) (off op : Nat) (c : Instr),
    (c, op) ∈ [(Instr.nvsRead v off, 0), (.nvsProgram v off, 1), (.nvsErase v off, 2)] ∧ s.dev.barOpen = true ∧
    s.dev.hubOn 5 = true :=
  ⟨st up, 4, 0, 2, .nvsErase 4 0, (by decide +kernel), (by decide +kernel), (by decide +kernel)⟩

theorem test_StoreCommands_2 : ∃ (s : State) (page : Nat),
    s.dev.nvs = some (.program page) ∧ s.dev.hubOn 5 = true ∧ s.storeOk :=
  ⟨st { up with nvs := some (.program 2047) }, 2047, (by decide +kernel), (by decide +kernel),
    (by unfold State.storeOk; decide +kernel)⟩

theorem test_StoreCommands_3 : ∃ (s : State) (page : Nat),
    s.dev.nvs = some (.program page) ∧ s.dev.hubOn 5 = true ∧ s.storeOk :=
  ⟨st { up with nvs := some (.program 2047) }, 2047, (by decide +kernel), (by decide +kernel),
    (by unfold State.storeOk; decide +kernel)⟩

theorem test_StoreCommands_4 : ∃ (s : State) (slot : Nat) (v : Bool),
    s.dev.nvs = some (.erase slot) ∧ s.dev.hubOn 5 = true :=
  ⟨st { up with nvs := some (.erase 1) }, 1, true, (by decide +kernel), (by decide +kernel)⟩

theorem test_StoreCommands_5 : ∃ (s : State) (page : Nat) (v : Bool),
    s.dev.nvs = some (.read page) ∧ s.dev.hubOn 5 = true :=
  ⟨st { up with nvs := some (.read 2047) }, 2047, true, (by decide +kernel), (by decide +kernel)⟩

/-! Obligations.DeviceResets -/

theorem test_DeviceResets_2 : ∃ (s : State) (cause : ResetCause) (vcl : BitVec 8),
    s.dev.canReset cause = true :=
  ⟨st up, .perst, 255, (by decide +kernel)⟩

theorem test_DeviceResets_3 : ∃ (s : State) (cause : ResetCause) (vcl : BitVec 8),
    s.dev.canReset cause = false :=
  ⟨State.reset, .perst, 255, (by decide +kernel)⟩

/-! Obligations.MovementResets -/

theorem test_MovementResets_1 : ∃ (s : State) (m : Fin 8),
    s.dev.mvOn m = true :=
  ⟨st up, 7, (by decide +kernel)⟩

/-! Obligations.PowerAndRateWrites -/

theorem test_PowerAndRateWrites_1a : ∃ (s : State) (m : Fin 8) (v : Word) (off : Nat) (c : Instr) (b : Bool),
    (c, b) ∈ [(Instr.movementSwitchOff m v off, false), (.movementSwitchOn m v off, true)] ∧ s.dev.barOpen = true ∧
    s.dev.orphan m = false ∧ s.dev.mvUnarmed m = true :=
  ⟨st up, 7, 0, 0, .movementSwitchOff 7 0 0, false, (by decide +kernel), (by decide +kernel), (by decide +kernel),
    (by decide +kernel)⟩

theorem test_PowerAndRateWrites_1b : ∃ (s : State) (m : Fin 8) (v : Word) (off : Nat) (c : Instr) (b : Bool),
    (c, b) ∈ [(Instr.movementSwitchOff m v off, false), (.movementSwitchOn m v off, true)] ∧ s.dev.barOpen = true ∧
    s.dev.orphan m = false ∧ s.dev.mvUnarmed m = true :=
  ⟨st up, 7, 0x80, 0, .movementSwitchOn 7 0x80 0, true, (by decide +kernel), (by decide +kernel), (by decide +kernel),
    (by decide +kernel)⟩

theorem test_PowerAndRateWrites_2 : ∃ (s : State) (m : Fin 8) (v : Word) (off : Nat) (c : Instr) (b : Bool),
    (c, b) ∈ [(Instr.movementSwitchOff m v off, false), (.movementSwitchOn m v off, true)] ∧ s.dev.barOpen = true ∧
    (s.dev.accepted Fl.pwrCtrlMv 0).testBit m ≠ b ∧ s.dev.mvUnarmed m = false :=
  ⟨st ready, 7, 0, 0, .movementSwitchOff 7 0 0, false, (by decide +kernel), (by decide +kernel), (by decide +kernel),
    (by decide +kernel)⟩

theorem test_PowerAndRateWrites_3 : ∃ (s : State) (v : Word) (off : Nat) (k : Fin 3),
    s.dev.barOpen = true ∧ (∀ n < 64, (s.dev.axis n).armed = false) :=
  ⟨st up, 0, 0, 2, (by decide +kernel), (by decide +kernel)⟩

theorem test_PowerAndRateWrites_4a : ∃ (s : State) (v : Word) (off : Nat),
    s.dev.barOpen = true ∧ (∀ n < 64, (s.dev.axis n).armed = false) ∧ bits v 0 2 ≠ 3 :=
  ⟨st up, 2, 0, (by decide +kernel), (by decide +kernel), (by decide +kernel)⟩

theorem test_PowerAndRateWrites_4b : ∃ (s : State) (v : Word) (off : Nat),
    s.dev.barOpen = true ∧ (∀ n < 64, (s.dev.axis n).armed = false) ∧ bits v 0 2 ≠ 3 :=
  ⟨st up, 2, 39999, (by decide +kernel), (by decide +kernel), (by decide +kernel)⟩

theorem test_PowerAndRateWrites_5 : ∃ (s : State) (v : Word) (off n : Nat),
    s.dev.barOpen = true ∧ n < 64 ∧ (s.dev.axis n).armed = true ∧ bits v 0 2 ≠ s.dev.accepted Fl.tickCfgRate 0 :=
  ⟨st ready, 2, 0, 63, (by decide +kernel), (by decide +kernel), (by decide +kernel), (by decide +kernel)⟩

/-! Obligations.UnmappedAndConfiguration -/

theorem test_UnmappedAndConfiguration_1 : ∃ (s : State) (w : Bool) (a : BitVec 20),
    s.dev.barOpen = true ∧ a.toNat % 4 = 0 ∧ decodeOffset a.toNat = none :=
  ⟨st up, false, 0xFFFFC, (by decide +kernel), (by decide +kernel), (by decide +kernel)⟩

theorem test_UnmappedAndConfiguration_2 : ∃ (s : State) (w : Bool) (r : BitVec 12) (v : Word),
    s.dev.hif.linkUp = true ∧ s.dev.crsNow = true :=
  ⟨State.reset, false, 0, 0, (by decide +kernel), (by decide +kernel)⟩

theorem test_UnmappedAndConfiguration_3 : ∃ (s : State) (v : Word),
    s.dev.hif.linkUp = true ∧ s.dev.crsNow = false :=
  ⟨st up, 0, (by decide +kernel), (by decide +kernel)⟩

/-! Obligations.OfftestEndGivesVerdict -/

theorem test_OfftestEndGivesVerdict_1 : ∃ (s : State) (ax : Fin 64) (steps : List TestStep),
    (s.dev.mva ax).offt = some true ∧ (s.dev.mva ax).offtAt + 800000 ≤ (s.dev.mv (ax.val / 8)).start + Dev.hubClocks (s.dev.mv (ax.val / 8)).rate ∧ (s.dev.mva ax).offtSkip = true :=
  ⟨st ((up.setMva 63 { offt := some true, offtSkip := true, offtDist := true }).setMv 7 { start := 800000 }), 63, [],
    (by decide +kernel), (by decide +kernel), (by decide +kernel)⟩

theorem test_OfftestEndGivesVerdict_2 : ∃ (s : State) (ax : Fin 64) (steps : List TestStep),
    (s.dev.mv (ax.val / 8)).start + Dev.hubClocks (s.dev.mv (ax.val / 8)).rate < (s.dev.mva ax).offtAt + 800000 :=
  ⟨st (up.setMva 63 { offt := some true }), 63, [], (by decide +kernel)⟩

/-! Obligations.ComparatorEvents -/

theorem test_ComparatorEvents_1a : ∃ (s : State) (ax : Fin 64) (p : Fin 3) (half : Bool) (swing off t : Nat) (ph : Fin 3),
    s.dev.sensorless ax = true ∧ s.dev.mvOn (ax.val / 8) = true ∧ (s.dev.mva ax).drive = .openloop ∧
    (s.dev.mva ax).sl.phase = 4 ∧ t = (s.dev.mv (ax.val / 8)).start + off ∧ ph = Fin.ofNat 3 (s.dev.swapped ax p) ∧
    (s.dev.mva ax).sl.counts = true ∧ (s.dev.mva ax).sl.secGood = false ∧
    Dev.crossPhase (Dev.rampCross (s.dev.mva ax).sl) = ph ∧ decide (Dev.rampCross (s.dev.mva ax).sl % 2 = 1) = half ∧
    (s.dev.mva ax).sl.comm + 800 ≤ t ∧ s.dev.inSyncwin ax t = true :=
  ⟨st (freerun.setMva 0 { drive := .openloop, sl := { phase := 4, counts := true, angle := 5461 } }), 0, 2, true, 0, 800,
    800, 2, (by decide +kernel), (by decide +kernel), (by decide +kernel), (by decide +kernel), (by decide +kernel),
    (by decide +kernel), (by decide +kernel), (by decide +kernel), (by decide +kernel), (by decide +kernel),
    (by decide +kernel)⟩

theorem test_ComparatorEvents_1b : ∃ (s : State) (ax : Fin 64) (p : Fin 3) (half : Bool) (swing off t : Nat) (ph : Fin 3),
    s.dev.sensorless ax = true ∧ s.dev.mvOn (ax.val / 8) = true ∧ (s.dev.mva ax).drive = .openloop ∧
    (s.dev.mva ax).sl.phase = 4 ∧ t = (s.dev.mv (ax.val / 8)).start + off ∧ ph = Fin.ofNat 3 (s.dev.swapped ax p) ∧
    (s.dev.mva ax).sl.counts = true ∧ (s.dev.mva ax).sl.secGood = false ∧
    Dev.crossPhase (Dev.rampCross (s.dev.mva ax).sl) = ph ∧ decide (Dev.rampCross (s.dev.mva ax).sl % 2 = 1) = half ∧
    ¬ (s.dev.mva ax).sl.comm + 800 ≤ t :=
  ⟨st (freerun.setMva 0 { drive := .openloop, sl := { phase := 4, counts := true, angle := 5461 } }), 0, 2, true, 0, 799,
    799, 2, (by decide +kernel), (by decide +kernel), (by decide +kernel), (by decide +kernel), (by decide +kernel),
    (by decide +kernel), (by decide +kernel), (by decide +kernel), (by decide +kernel), (by decide +kernel),
    (by decide +kernel)⟩

theorem test_ComparatorEvents_2 : ∃ (s : State) (ax : Fin 64) (p : Fin 3) (half : Bool) (swing off : Nat),
    s.dev.sensorless ax = true ∧ s.dev.mvOn (ax.val / 8) = true ∧ (s.dev.mva ax).drive = .off ∧
    (s.dev.mva ax).sl.phase = 0 :=
  ⟨st freerun, 0, 1, false, 0, 0, (by decide +kernel), (by decide +kernel), (by decide +kernel), (by decide +kernel)⟩

theorem test_ComparatorEvents_3 : ∃ (s : State) (ax : Fin 64) (p ph q : Fin 3) (half : Bool) (swing off : Nat) (n : Int),
    s.dev.sensorless ax = true ∧ s.dev.mvOn (ax.val / 8) = true ∧ (s.dev.mva ax).drive = .catching ∧
    (s.dev.mva ax).sl.phase = 1 ∧ 10 * s.dev.cfg Fl.slCatchHyst ax ≤ 2 * swing ∧ ph = Fin.ofNat 3 (s.dev.swapped ax p) ∧
    (s.dev.mva ax).sl.last = some q ∧ Dev.crossDir q ph ≠ 0 ∧
    (((s.dev.mva ax).sl.order = 0 ∨ (s.dev.mva ax).sl.order = Dev.crossDir q ph)) ∧ n = (s.dev.mva ax).sl.crossN :=
  ⟨st (freerun.setMva 0 { drive := .catching, sl := { phase := 1, last := some 0, count := 2, order := -1 } }), 0, 1, 1, 0,
    false, 100000, 0, 0, (by decide +kernel), (by decide +kernel), (by decide +kernel), (by decide +kernel),
    (by decide +kernel), (by decide +kernel), (by decide +kernel), (by decide +kernel), (by decide +kernel),
    (by decide +kernel)⟩

theorem test_ComparatorEvents_4 : ∃ (s : State) (ax : Fin 64) (p : Fin 3) (half : Bool) (swing off : Nat),
    ((s.dev.mva ax).sl.phase = 1 ∨ (s.dev.mva ax).sl.phase = 8) ∧ 2 * swing < 10 * s.dev.cfg Fl.slCatchHyst ax :=
  ⟨st ((freerun.setMva 0 { drive := .catching, sl := { phase := 8 } }).setCfg Fl.slCatchHyst 0 1), 0, 0, true, 4, 0,
    (by decide +kernel), (by decide +kernel)⟩

theorem test_ComparatorEvents_5a : ∃ (s : State) (ax : Fin 64) (v : Int),
    s.dev.sensorless ax = true ∧ (s.dev.mva ax).legs.wphase.isSome = true ∧ (s.dev.mva ax).sl.wtaken = false ∧
    s.dev.inBand ax v = true :=
  ⟨st (freerun.setMva 0 { drive := .field, sl := { phase := 6, emf := 100, winEmf := 100 }, legs := { wphase := some 1 } }), 0, 0, (by decide +kernel), (by decide +kernel), (by decide +kernel), (by decide +kernel)⟩

theorem test_ComparatorEvents_5b : ∃ (s : State) (ax : Fin 64) (v : Int),
    s.dev.sensorless ax = true ∧ (s.dev.mva ax).legs.wphase.isSome = true ∧ (s.dev.mva ax).sl.wtaken = false ∧
    s.dev.inBand ax v = false :=
  ⟨st (freerun.setMva 0 { drive := .field, sl := { phase := 6, emf := 100, winEmf := 100 }, legs := { wphase := some 1 } }), 0, 100, (by decide +kernel), (by decide +kernel), (by decide +kernel), (by decide +kernel)⟩

theorem test_ComparatorEvents_6 : ∃ (s : State) (ax : Fin 64) (v : Int),
    ((s.dev.mva ax).legs.wphase = none ∨ (s.dev.mva ax).sl.wtaken = true) :=
  ⟨st freerun, 0, 0, (by decide +kernel)⟩

theorem test_ComparatorEvents_7 : ∃ (s : State) (m j : Fin 8) (ax : Fin 64),
    ax.val = 8 * m.val + j.val ∧ s.dev.sensorless ax = true ∧ (s.dev.mva ax).drive = .brake ∧
    (s.dev.mva ax).legs.probe = 1 :=
  ⟨st (freerun.setMva 0 { drive := .brake, legs := { probe := 1 } }), 0, 0, 0, (by decide +kernel), (by decide +kernel),
    (by decide +kernel), (by decide +kernel)⟩

/-! Obligations.GateSupplyFaults -/

theorem test_GateSupplyFaults_4a : ∃ (s : State) (m : Fin 8) (ov : Bool) (v : BitVec 8),
    s.dev.mvOn m = true ∧ (if ov then 160 < v.toNat else v.toNat < 90) ∧ s.dev.mvUnarmed m = true :=
  ⟨st up, 7, true, 161, (by decide +kernel), (by decide +kernel), (by decide +kernel)⟩

theorem test_GateSupplyFaults_4b : ∃ (s : State) (m : Fin 8) (ov : Bool) (v : BitVec 8),
    s.dev.mvOn m = true ∧ (if ov then 160 < v.toNat else v.toNat < 90) ∧ s.dev.mvUnarmed m = false :=
  ⟨st ready, 0, false, 89, (by decide +kernel), (by decide +kernel), (by decide +kernel)⟩

/-! Obligations.PwmBoundaryCountsPeriods -/

theorem test_PwmBoundaryCountsPeriods_2 : ∃ (s : State) (m : Fin 8) (meas : List Meas) (vbs : BitVec 12) (vdrv : BitVec 8),
    s.dev.mvRuns m = true ∧ (s.dev.mv m).period < s.dev.kOf m :=
  ⟨st up, 7, [], 3000, 120, (by decide +kernel), (by decide +kernel)⟩

theorem test_PwmBoundaryCountsPeriods_3 : ∃ (s : State) (m : Fin 8) (meas : List Meas) (vbs : BitVec 12) (vdrv : BitVec 8),
    s.dev.flt.raised = [] ∧ s.dev.mvRuns m = true ∧ s.dev.kOf m ≤ (s.dev.mv m).period :=
  ⟨st (up.setMv 7 { period := 10 }), 7, [], 3000, 120, (by decide +kernel), (by decide +kernel), (by decide +kernel)⟩

theorem test_PwmBoundaryCountsPeriods_4 : ∃ (s : State) (m : Fin 8) (meas : List Meas) (vbs : BitVec 12) (vdrv : BitVec 8),
    s.dev.mvRuns m = true ∧ (s.dev.mv m).period ≠ 0 ∧ s.dev.on Fl.pwmMvcfgMidupd m = true ∧ s.dev.edgeAligned m = false :=
  ⟨st ((up.setMv 7 { period := 1 }).setCfg Fl.pwmMvcfgMidupd 7 1), 7, [], 3000, 120, (by decide +kernel),
    (by decide +kernel), (by decide +kernel), (by decide +kernel)⟩

theorem test_PwmBoundaryCountsPeriods_5 : ∃ (s : State) (m : Fin 8) (meas : List Meas) (vbs : BitVec 12) (vdrv : BitVec 8),
    (s.dev.mvRuns m = false ∨ (s.dev.mv m).period = 0 ∨ s.dev.on Fl.pwmMvcfgMidupd m = false ∨ s.dev.edgeAligned m = true) :=
  ⟨st up, 7, [], 3000, 120, (by decide +kernel)⟩

theorem test_HostActivityAndMessages_1a : ∃ (s : State) (v : Word) (off : Nat),
    s.dev.barOpen = true ∧ s.dev.hif.dbActive = true ∧ s.dev.hif.dbRead = true :=
  ⟨st reading, 0, 0, (by decide +kernel), (by decide +kernel), (by decide +kernel)⟩

theorem test_HostActivityAndMessages_1b : ∃ (s : State) (v : Word) (off : Nat),
    s.dev.barOpen = true ∧ s.dev.hif.dbActive = true ∧ s.dev.hif.dbRead = false ∧
    s.dev.tagsFree s.dev.pageReads.length = true :=
  ⟨st { reading with hif := { reading.hif with dbRead := false } }, 0, 0, (by decide +kernel), (by decide +kernel),
    (by decide +kernel), (by decide +kernel)⟩

theorem test_SignatureTablesAndEvents_6a : ∃ (s : State) (ax : Fin 64) (blk gen : Nat) (cells : Option (List Word)),
    gen = (s.dev.sign ax).gen ∧ blk ∈ (s.dev.sign ax).asked ∧ (blk, gen) ∉ (s.dev.sign ax).old ∧
    s.dev.queuedRead ax blk = false ∧ cells = none :=
  ⟨st (up.setSign 63 { gen := 2, asked := [5] }), 63, 5, 2, none, (by decide +kernel), (by decide +kernel),
    (by decide +kernel), (by decide +kernel), (by decide +kernel)⟩

theorem test_SignatureTablesAndEvents_6b : ∃ (s : State) (ax : Fin 64) (blk gen : Nat) (cells : Option (List Word)),
    gen = (s.dev.sign ax).gen ∧ blk ∈ (s.dev.sign ax).asked ∧ (blk, gen) ∉ (s.dev.sign ax).old ∧
    s.dev.queuedRead ax blk = false :=
  ⟨st (up.setSign 63 { gen := 2, asked := [5] }), 63, 5, 2, some (List.replicate 16 0), (by decide +kernel),
    (by decide +kernel), (by decide +kernel), (by decide +kernel)⟩

theorem test_SignatureTablesAndEvents_7 : ∃ (s : State) (ax : Fin 64) (blk gen : Nat) (cells : Option (List Word)),
    (blk, gen) ∈ (s.dev.sign ax).old :=
  ⟨st (up.setSign 63 { gen := 2, asked := [5], old := [(5, 1)] }), 63, 5, 1, none, (by decide +kernel)⟩

theorem test_SignatureTablesAndEvents_8 : ∃ (s : State) (ax : Fin 64) (blk gen : Nat) (cells : Option (List Word)),
    gen ≠ (s.dev.sign ax).gen ∧ (blk, gen) ∉ (s.dev.sign ax).old :=
  ⟨st (up.setSign 63 { gen := 2, asked := [5] }), 63, 5, 1, none, (by decide +kernel), (by decide +kernel)⟩

/-! Obligations.FeedbackCounts -/

theorem test_FeedbackCounts_1a : ∃ (s : State) (ax : Fin 64) (a b z : Bool) (held off t : Nat),
    s.dev.mvOn (ax.val / 8) = true ∧ s.dev.fbMode ax = 0 ∧ s.dev.qualFb ax held off = some t ∧
    (s.dev.mva ax).fb.init = true ∧ z = (s.dev.mva ax).fb.fz ∧ b = (s.dev.mva ax).fb.fb :=
  ⟨st (((up.setCfg Fl.fbCfgFilt 63 1).setCfg Fl.fbCfgSwfilt 63 1).setMva 63 { fb := { init := true, swaIn := true } }), 63,
    true, false, false, 1, 0, 0, (by decide +kernel), (by decide +kernel), (by decide +kernel), (by decide +kernel),
    (by decide +kernel), (by decide +kernel)⟩

theorem test_FeedbackCounts_1b : ∃ (s : State) (ax : Fin 64) (a b z : Bool) (held off t : Nat),
    s.dev.mvOn (ax.val / 8) = true ∧ s.dev.fbMode ax = 0 ∧ s.dev.qualFb ax held off = some t ∧
    (s.dev.mva ax).fb.init = true ∧ z = (s.dev.mva ax).fb.fz ∧ a ≠ (s.dev.mva ax).fb.fa ∧ b ≠ (s.dev.mva ax).fb.fb :=
  ⟨st (((up.setCfg Fl.fbCfgFilt 63 1).setCfg Fl.fbCfgSwfilt 63 1).setMva 63 { fb := { init := true, swaIn := true } }), 63,
    true, true, false, 1, 0, 0, (by decide +kernel), (by decide +kernel), (by decide +kernel), (by decide +kernel),
    (by decide +kernel), (by decide +kernel)⟩

theorem test_FeedbackCounts_2 : ∃ (s : State) (ax : Fin 64) (a b z : Bool) (held off t o c : Nat),
    s.dev.mvOn (ax.val / 8) = true ∧ s.dev.fbMode ax = 1 ∧ s.dev.qualFb ax held off = some t ∧
    (s.dev.mva ax).fb.init = true ∧ (s.dev.mva ax).fb.sector = some o ∧
    s.dev.hallSector ax ((if a then 1 else 0) + (if b then 2 else 0) + (if z then 4 else 0)) = some c ∧ c = (o + 1) % 6 ∧
    ¬ (a = (s.dev.mva ax).fb.fa ∧ b = (s.dev.mva ax).fb.fb ∧ z = (s.dev.mva ax).fb.fz) :=
  ⟨st (((((up.setCfg Fl.fbCfgFilt 63 1).setCfg Fl.fbCfgSwfilt 63 1).setMva 63 { fb := { init := true, fa := true, sector := some 5 } }).setCfg Fl.fbCfgMode 63 1).setCfg Fl.hallMapMap 63 (5 + 8 * 0)), 63, false, true, false, 1, 0, 0, 5, 0, (by decide +kernel), (by decide +kernel), (by decide +kernel), (by decide +kernel), (by decide +kernel), (by decide +kernel), (by decide +kernel), (by decide +kernel)⟩

theorem test_FeedbackCounts_3 : ∃ (s : State) (ax : Fin 64) (a b z : Bool) (held off t : Nat),
    s.dev.mvOn (ax.val / 8) = true ∧ (s.dev.mva ax).fb.init = false ∧ s.dev.qualFb ax held off = some t :=
  ⟨st ((up.setCfg Fl.fbCfgFilt 63 1).setCfg Fl.fbCfgSwfilt 63 1), 63, true, true, true, 1, 0, 0, (by decide +kernel),
    (by decide +kernel), (by decide +kernel)⟩

theorem test_FeedbackCounts_4 : ∃ (s : State) (ax : Fin 64) (a b z : Bool) (held off : Nat),
    s.dev.mvOn (ax.val / 8) = true ∧ s.dev.qualFb ax held off = none :=
  ⟨st (up.setCfg Fl.fbCfgFilt 63 2), 63, true, true, true, 1, 0, (by decide +kernel), (by decide +kernel)⟩

theorem test_FeedbackCounts_5 : ∃ (s : State) (ax : Fin 64) (held off t : Nat),
    s.dev.mvOn (ax.val / 8) = true ∧ s.dev.fbMode ax = 0 ∧ s.dev.qualFb ax held off = some t ∧
    s.dev.on Fl.fbCfgZen ax = true ∧ (s.dev.mva ax).fb.init = true ∧ (s.dev.mva ax).fb.fz = false ∧
    (s.dev.mva ax).fb.zref = none :=
  ⟨st ((((up.setCfg Fl.fbCfgFilt 63 1).setCfg Fl.fbCfgSwfilt 63 1).setMva 63 { fb := { init := true } }).setCfg Fl.fbCfgZen 63 1), 63, 1, 0, 0, (by decide +kernel), (by decide +kernel), (by decide +kernel), (by decide +kernel), (by decide +kernel), (by decide +kernel), (by decide +kernel)⟩

theorem test_FeedbackCounts_6 : ∃ (s : State) (ax : Fin 64) (level : Bool) (held off : Nat),
    (s.dev.qualSw ax held off).isSome = true ∧ s.dev.mvOn (ax.val / 8) = true ∧ (s.dev.mva ax).fb.swaIn = true ∧
    level ≠ (s.dev.mva ax).fb.swa ∧ s.dev.on Fl.swCfgOnceA ax = false :=
  ⟨st (((up.setCfg Fl.fbCfgFilt 63 1).setCfg Fl.fbCfgSwfilt 63 1).setMva 63 { fb := { init := true, swaIn := true } }), 63,
    true, 1, 0, (by decide +kernel), (by decide +kernel), (by decide +kernel), (by decide +kernel), (by decide +kernel)⟩

theorem test_FeedbackCounts_7 : ∃ (s : State) (ax : Fin 64),
    s.dev.stillDue ax = true :=
  ⟨st (up.setMva 63 { fb := { quiet := 70000 } }), 63, (by decide +kernel)⟩

/-! Obligations.SafetyPins -/

theorem test_SafetyPins_1 : ∃ (s : State) (m : Fin 8) (b : Bool),
    (s.dev.hw (Dev.pinFields b).1 0).testBit m = false :=
  ⟨st up, 7, true, (by decide +kernel)⟩

theorem test_SafetyPins_4 : ∃ (s : State) (m : Fin 8),
    (s.dev.hw Fl.stoStatusPinA 0).testBit m ≠ (s.dev.hw Fl.stoStatusPinB 0).testBit m ∧ s.dev.discGone m = true :=
  ⟨st { up.setHw Fl.stoStatusPinA 0 128 with time := { up.time with start := 1000000000 } }, 7, (by decide +kernel),
    (by decide +kernel)⟩

theorem test_SafetyPins_5 : ∃ (s : State) (m : Fin 8),
    (s.dev.discGone m = false ∨ (s.dev.hw Fl.stoStatusPinA 0).testBit m = (s.dev.hw Fl.stoStatusPinB 0).testBit m) :=
  ⟨st up, 7, (by decide +kernel)⟩

theorem test_SafetyPins_6 : ∃ (s : State),
    s.dev.safeCond = true :=
  ⟨State.reset, (by decide +kernel)⟩

theorem test_SafetyPins_7 : ∃ (s : State),
    s.dev.safeCond = false ∧ s.dev.sys.safeDue = false :=
  ⟨st (up.setHw Fl.escStatusSelftestOk 0 1), (by decide +kernel), (by decide +kernel)⟩

theorem test_SafetyPins_8 : ∃ (s : State),
    s.dev.safeCond = true :=
  ⟨State.reset, (by decide +kernel)⟩

/-! Obligations.SafetyFunctions -/

theorem test_SafetyFunctions_1 : ∃ (s : State) (ax : Fin 64) (c : Ss1Cause),
    s.dev.flag Fl.escAxstatusSs1 ax = true ∧ s.dev.ss1Due ax c = true :=
  ⟨st ((up.setHw Fl.escAxstatusSs1 63 1).setMv 7 { start := 1000000000000 }), 63, .tmax, (by decide +kernel),
    (by decide +kernel)⟩

theorem test_SafetyFunctions_2a : ∃ (s : State) (ax : Fin 64) (b : Bool),
    s.dev.slsOn ax = true ∧ max 1 (s.dev.cfg Fl.escSlsCfgN ax) ≤ (if b then (s.dev.mva ax).watch.run2 else (s.dev.mva ax).watch.run1) :=
  ⟨st ((ready.setCfg Fl.escSlsCfgEn 63 1).setMva 63 { watch := { run1 := 255, run2 := 255, differ := 255 } }), 63, false,
    (by decide +kernel), (by decide +kernel)⟩

theorem test_SafetyFunctions_2b : ∃ (s : State) (ax : Fin 64) (b : Bool),
    s.dev.slsOn ax = true ∧ max 1 (s.dev.cfg Fl.escSlsCfgN ax) ≤ (if b then (s.dev.mva ax).watch.run2 else (s.dev.mva ax).watch.run1) :=
  ⟨st ((ready.setCfg Fl.escSlsCfgEn 63 1).setMva 63 { watch := { run1 := 255, run2 := 255, differ := 255 } }), 63, true,
    (by decide +kernel), (by decide +kernel)⟩

theorem test_SafetyFunctions_3 : ∃ (s : State) (m j : Fin 8) (ax : Fin 64),
    ax.val = 8 * m.val + j.val ∧ s.dev.slsOn ax = true ∧ s.dev.slsBlind ax = false ∧ s.dev.slsDisagree ax = true :=
  ⟨st ((ready.setCfg Fl.escSlsCfgEn 63 1).setMva 63 { watch := { run1 := 255, run2 := 255, differ := 255 } }), 7, 7, 63,
    (by decide +kernel), (by decide +kernel), (by decide +kernel), (by decide +kernel)⟩

theorem test_SafetyFunctions_4 : ∃ (s : State) (ax : Fin 64) (l : List (Nat × Int)),
    s.dev.mvOn (ax.val / 8) = true ∧ s.dev.on Fl.escSlcEn ax = true ∧ s.dev.slcHigh ax l = true :=
  ⟨st (up.setCfg Fl.escSlcEn 63 1), 63, List.replicate 255 (400, 100000000), (by decide +kernel), (by decide +kernel),
    (by decide +kernel)⟩

/-! Obligations.SlcBlindRaisesNoSource -/

theorem test_SlcBlindRaisesNoSource_1 : ∃ (s : State) (ax : Fin 64),
    64 ≤ (s.dev.mva ax).watch.blind :=
  ⟨st (up.setMva 63 { watch := { blind := 64 } }), 63, (by decide +kernel)⟩

theorem test_SlcBlindRaisesNoSource_2 : ∃ (s : State) (ax : Fin 64),
    (s.dev.mva ax).watch.blind < 64 :=
  ⟨st (up.setMva 63 { watch := { blind := 63 } }), 63, (by decide +kernel)⟩

/-! Obligations.ThermalAndSupplies -/

theorem test_ThermalAndSupplies_1a : ∃ (s : State) (m : Fin 9) (rs : List TempSample) (rep : Option Int),
    m.val < 8 ∧ s.dev.mvRuns m = true ∧ rep = Dev.maxInt (((s.dev.usableReadings m (s.dev.tempsOf m rs)).filter fun e => (s.dev.cfg Fl.thermCfgSel m).testBit (e.1 % 6)).map (·.2)) ∧ s.dev.flag Fl.thermStatusTrip m = false ∧ 1 ≤ (s.dev.mv m).trip ∧ 16 * (min 165 (s.dev.cfg Fl.thermCfgTrip m) : Int) ≤ rep.getD 0x7FFF :=
  ⟨st (up.setMv 7 { trip := 1 }), 7, List.replicate 6 ⟨2640, false⟩, some 2640, (by decide +kernel), (by decide +kernel),
    (by decide +kernel), (by decide +kernel), (by decide +kernel), (by decide +kernel)⟩

theorem test_ThermalAndSupplies_1b : ∃ (s : State) (m : Fin 9) (rs : List TempSample) (rep : Option Int),
    m.val < 8 ∧ s.dev.mvRuns m = true ∧ rep = Dev.maxInt (((s.dev.usableReadings m (s.dev.tempsOf m rs)).filter fun e => (s.dev.cfg Fl.thermCfgSel m).testBit (e.1 % 6)).map (·.2)) :=
  ⟨st up, 7, List.replicate 6 ⟨0, true⟩, none, (by decide +kernel), (by decide +kernel), (by decide +kernel)⟩

theorem test_ThermalAndSupplies_2 : ∃ (s : State) (m : Fin 8) (v : BitVec 12),
    s.dev.mvOn m = true ∧ min 1800 (s.dev.cfg Fl.vbusLimOv m) < s.dev.vbsOf m v ∧ s.dev.flag Fl.vbusStatusOvNow m = false :=
  ⟨st (up.setCfg Fl.vbusCfgFs 7 3000), 7, 3000, (by decide +kernel), (by decide +kernel), (by decide +kernel)⟩

theorem test_ThermalAndSupplies_3 : ∃ (s : State) (m : Fin 8) (v : BitVec 12),
    s.dev.mvOn m = true ∧ s.dev.mvUnarmed m = false ∧ s.dev.vbsOf m v < s.dev.cfg Fl.vbusLimUv m ∧
    (s.dev.flag Fl.vbusStatusUvNow m = false ∨ (s.dev.mv m).uvNew = true) :=
  ⟨st ((ready.setCfg Fl.vbusCfgFs 7 3000).setCfg Fl.vbusLimUv 7 100), 7, 0, (by decide +kernel), (by decide +kernel),
    (by decide +kernel), (by decide +kernel)⟩

theorem test_ThermalAndSupplies_4 : ∃ (s : State) (m : Fin 8) (v : BitVec 12),
    s.dev.mvUnarmed m = true :=
  ⟨st up, 7, 0, (by decide +kernel)⟩

/-! Obligations.AccessesAndHalves -/

theorem test_AccessesAndHalves_1 : ∃ (s : State) (a : BitVec 20) (v : Word) (off : Nat),
    s.dev.barOpen = false :=
  ⟨State.reset, 0, 0, 0, (by decide +kernel)⟩

theorem test_AccessesAndHalves_2 : ∃ (s : State) (a : BitVec 20) (v : Word) (off : Nat),
    s.dev.barOpen = true ∧ a.toNat % 4 ≠ 0 :=
  ⟨st up, 0xFFFFF, 0, 0, (by decide +kernel), (by decide +kernel)⟩

theorem test_AccessesAndHalves_3 : ∃ (s : State) (a : BitVec 20) (v : Word) (off : Nat),
    s.dev.barOpen = true ∧ a.toNat % 4 = 0 ∧ decodeOffset a.toNat = none :=
  ⟨st up, 0xFFFFC, 0, 0, (by decide +kernel), (by decide +kernel), (by decide +kernel)⟩

theorem test_AccessesAndHalves_4 : ∃ (s : State) (a : BitVec 20) (v : Word) (off i : Nat) (r : Reg),
    s.dev.barOpen = true ∧ a.toNat % 4 = 0 ∧ decodeOffset a.toNat = some (r, i) ∧ Dev.absent r i = true :=
  ⟨st up, BitVec.ofNat 20 (Reg.offset .unitRef 63), 0, 0, 63, .unitRef, (by decide +kernel), (by decide +kernel),
    (by decide +kernel), (by decide +kernel)⟩

theorem test_AccessesAndHalves_5 : ∃ (s : State) (a : BitVec 20) (v : Word) (off i : Nat) (r : Reg),
    s.dev.barOpen = true ∧ a.toNat % 4 = 0 ∧ decodeOffset a.toNat = some (r, i) ∧ Dev.absent r i = false ∧
    s.dev.serves r a.toNat = false :=
  ⟨st (up.setHw Fl.pwrStatusMvOn 0 0x7F), BitVec.ofNat 20 (Reg.offset .revCfg 63), 0, 0, 63, .revCfg, (by decide +kernel),
    (by decide +kernel), (by decide +kernel), (by decide +kernel), (by decide +kernel)⟩

theorem test_AccessesAndHalves_6 : ∃ (s : State) (a : BitVec 20) (v : Word) (off i m : Nat) (r : Reg),
    s.dev.barOpen = true ∧ a.toNat % 4 = 0 ∧ decodeOffset a.toNat = some (r, i) ∧ r.place.dom = .mv ∧
    Dev.pageMv a.toNat = some m ∧ s.dev.serves r a.toNat = true ∧ s.dev.orphan m = true :=
  ⟨st (up.setHw Fl.escMvstatusOrphan 7 1), BitVec.ofNat 20 (Reg.offset .revCfg 63), 0, 0, 63, 7, .revCfg,
    (by decide +kernel), (by decide +kernel), (by decide +kernel), (by decide +kernel), (by decide +kernel),
    (by decide +kernel), (by decide +kernel)⟩

theorem test_AccessesAndHalves_7a : ∃ (s : State) (a : BitVec 20) (v : Word) (off i : Nat) (f : Fld),
    f ∈ [Fl.fltAlertLevel, Fl.fltCfgIrqEn, Fl.fltCfgPulse, Fl.fltCfgHubmap, Fl.escCfgIrqEn, Fl.nvsAddrPage, Fl.nvsDataData,
    Fl.motionDmaxDmax, Fl.motionStillSpeed, Fl.motionStillTicks, Fl.motionInposWindow, Fl.motionInposSettle,
    Fl.motionInposFollow, Fl.swCfgEdgeA, Fl.swCfgOnceA, Fl.swCfgEdgeB, Fl.swCfgOnceB] ∧ s.dev.barOpen = true ∧
    a.toNat % 4 = 0 ∧ decodeOffset a.toNat = some (f.reg, i) ∧ s.dev.serves f.reg a.toNat = true :=
  ⟨st up, BitVec.ofNat 20 (Reg.offset .fltAlert 0), 0xFF, 0, 0, Fl.fltAlertLevel, (by decide +kernel), (by decide +kernel),
    (by decide +kernel), (by decide +kernel), (by decide +kernel)⟩

theorem test_AccessesAndHalves_7b : ∃ (s : State) (a : BitVec 20) (v : Word) (off i : Nat) (f : Fld),
    f ∈ [Fl.fltAlertLevel, Fl.fltCfgIrqEn, Fl.fltCfgPulse, Fl.fltCfgHubmap, Fl.escCfgIrqEn, Fl.nvsAddrPage, Fl.nvsDataData,
    Fl.motionDmaxDmax, Fl.motionStillSpeed, Fl.motionStillTicks, Fl.motionInposWindow, Fl.motionInposSettle,
    Fl.motionInposFollow, Fl.swCfgEdgeA, Fl.swCfgOnceA, Fl.swCfgEdgeB, Fl.swCfgOnceB] ∧ s.dev.barOpen = true ∧
    a.toNat % 4 = 0 ∧ decodeOffset a.toNat = some (f.reg, i) ∧ s.dev.serves f.reg a.toNat = true :=
  ⟨st up, BitVec.ofNat 20 (Reg.offset .swCfg 63), 0xFF, 0, 63, Fl.swCfgOnceB, (by decide +kernel), (by decide +kernel),
    (by decide +kernel), (by decide +kernel), (by decide +kernel)⟩

theorem test_AccessesAndHalves_8 : ∃ (s : State) (w : Bool),
    s.dev.barOpen = true :=
  ⟨st up, false, (by decide +kernel)⟩

theorem test_AccessesAndHalves_9a : ∃ (s : State) (c : Instr),
    ((∃ p, c = .lowHalfRead p ∨ c = .highHalfRead p) ∨ c = .badAccess false) ∧ s.dev.hif.linkUp = true ∧
    s.dev.hif.d3hot = false ∧ s.dev.sys.rstCmd = true :=
  ⟨st { up with sys := { up.sys with rstCmd := true } }, .lowHalfRead .capTick, (by simp), (by decide +kernel),
    (by decide +kernel), (by decide +kernel)⟩

theorem test_AccessesAndHalves_9b : ∃ (s : State) (c : Instr),
    ((∃ p, c = .lowHalfRead p ∨ c = .highHalfRead p) ∨ c = .badAccess false) ∧ s.dev.hif.linkUp = true ∧
    s.dev.hif.d3hot = false ∧ s.dev.sys.rstCmd = true :=
  ⟨st { up with sys := { up.sys with rstCmd := true } }, .badAccess false, (by simp), (by decide +kernel),
    (by decide +kernel), (by decide +kernel)⟩

theorem test_AccessesAndHalves_10a : ∃ (s : State) (c : Instr),
    (((∃ p, c = .lowHalfRead p ∨ c = .highHalfRead p) ∨ ∃ w, c = .badAccess w)) ∧ s.dev.barOpen = false ∧
    (s.dev.hif.linkUp = false ∨ s.dev.hif.d3hot = true ∨ s.dev.sys.rstCmd = false ∨ c = .badAccess true) :=
  ⟨State.reset, .badAccess true, (by simp), (by decide +kernel), (by decide +kernel)⟩

theorem test_AccessesAndHalves_10b : ∃ (s : State) (c : Instr),
    (((∃ p, c = .lowHalfRead p ∨ c = .highHalfRead p) ∨ ∃ w, c = .badAccess w)) ∧ s.dev.barOpen = false ∧
    (s.dev.hif.linkUp = false ∨ s.dev.hif.d3hot = true ∨ s.dev.sys.rstCmd = false ∨ c = .badAccess true) :=
  ⟨State.reset, .highHalfRead .capTick, (by simp), (by decide +kernel), (by decide +kernel)⟩

theorem test_AccessesAndHalves_11 : ∃ (s : State) (p : Wide) (b i hi o : Nat) (lo hir r : Reg) (c : Instr),
    s.dev.wideOf p = (b, i, lo, hir, hi) ∧ (c, r) ∈ [(Instr.lowHalfRead p, lo), (.highHalfRead p, hir)] ∧ o = r.offset i ∧
    s.dev.barOpen = true ∧ s.dev.serves r o = false :=
  ⟨st (up.setHw Fl.pwrStatusHubOn 0 0), .unitLeaf 511, 1, 511, 0, Reg.offset .unitLeafLo 511, .unitLeafLo, .unitLeafHi,
    .unitLeafLo, .lowHalfRead (.unitLeaf 511), (by decide +kernel), (by decide +kernel), (by decide +kernel),
    (by decide +kernel), (by decide +kernel)⟩

theorem test_AccessesAndHalves_12 : ∃ (s : State) (p : Wide) (b i hi : Nat) (lo hir : Reg),
    s.dev.wideOf p = (b, i, lo, hir, hi) ∧ s.dev.barOpen = true ∧ s.dev.serves lo (lo.offset i) = true :=
  ⟨st up, .unitLeaf 511, 1, 511, 0, .unitLeafLo, .unitLeafHi, (by decide +kernel), (by decide +kernel), (by decide +kernel)⟩

theorem test_AccessesAndHalves_13 : ∃ (s : State) (p : Wide) (b i hi : Nat) (lo hir : Reg) (w : Word),
    s.dev.wideOf p = (b, i, lo, hir, hi) ∧ s.dev.barOpen = true ∧ s.dev.serves hir (hir.offset i) = true ∧
    SMap.get s.dev.regs.snap b (0, 0, false) = (w, i, true) :=
  ⟨st { up with regs := { up.regs with snap := [(1, (9, 511, true))] } }, .unitLeaf 511, 1, 511, 0, .unitLeafLo,
    .unitLeafHi, 9, (by decide +kernel), (by decide +kernel), (by decide +kernel), (by decide +kernel)⟩

theorem test_AccessesAndHalves_14 : ∃ (s : State) (p : Wide) (b i hi j : Nat) (lo hir : Reg) (w : Word) (ok : Bool),
    s.dev.wideOf p = (b, i, lo, hir, hi) ∧ s.dev.barOpen = true ∧ s.dev.serves hir (hir.offset i) = true ∧
    SMap.get s.dev.regs.snap b (0, 0, false) = (w, j, ok) ∧ (ok = false ∨ j ≠ i) :=
  ⟨st { up with regs := { up.regs with snap := [(1, (9, 511, true))] } }, .unitLeaf 510, 1, 510, 0, 511, .unitLeafLo,
    .unitLeafHi, 9, true, (by decide +kernel), (by decide +kernel), (by decide +kernel), (by decide +kernel),
    (by decide +kernel)⟩

/-! Obligations.ShortsTurnOffSoftly -/

theorem test_ShortsTurnOffSoftly_1 : ∃ (s : State) (ax : Fin 64) (v : Senses) (t : InPeriod) (since : Nat) (soft : List Nat),
    s.dev.senseOn ax = true ∧ (span 0 4).filter (s.dev.didtConfirmed ax v t since) ≠ [] ∧ s.dev.softOn ax = false :=
  ⟨st (up.setMva 63 { drive := .field, legs := { modes := allLegs .high, span := { modes := allLegs .high } } }), 63,
    ⟨1000000, [0, 0, 0, 0], 0⟩, ⟨100000, [[], [], [], []]⟩, 1000000, [9, 9, 9, 9], (by decide +kernel),
    (by decide +kernel), (by decide +kernel)⟩

theorem test_ShortsTurnOffSoftly_2 : ∃ (s : State) (ax : Fin 64) (shunt : Int) (t : InPeriod) (since : Nat) (soft : List Nat),
    s.dev.senseOn ax = true ∧ s.dev.shuntOver ax shunt = true ∧ 25 * s.dev.cfg Fl.gateScOcfilt ax ≤ since :=
  ⟨st (up.setMva 63 { drive := .field, legs := { modes := allLegs .high, span := { modes := allLegs .high } } }), 63,
    -1000000, ⟨100000, [[], [], [], []]⟩, 1000000, [9, 9, 9, 9], (by decide +kernel), (by decide +kernel),
    (by decide +kernel)⟩

theorem test_ShortsTurnOffSoftly_3 : ∃ (s : State) (ax : Fin 64) (leg : Fin 4) (t : InPeriod) (since : Nat) (soft : List Nat),
    s.dev.gatesOn ax = true ∧ 2000 ≤ since :=
  ⟨st (up.setMva 63 { drive := .field, legs := { modes := allLegs .high, span := { modes := allLegs .high } } }), 63, 3,
    ⟨100000, [[], [], [], []]⟩, 2000, [9, 9, 9, 9], (by decide +kernel), (by decide +kernel)⟩

theorem test_ShortsTurnOffSoftly_4 : ∃ (s : State) (ax : Fin 64) (leg : Fin 4) (v : Senses) (t : InPeriod),
    s.dev.senseOn ax = true ∧ (s.dev.mva ax).legs.didt.getLsbD leg = true ∧ s.dev.blanked ax t leg = false ∧
    s.dev.didtOver ax v t leg = false ∧ s.dev.shuntOver ax v.shunt = false :=
  ⟨st (up.setMva 63 { drive := .field, legs := { modes := allLegs .high, didt := 9, span := { modes := allLegs .high } } }), 63, 3, ⟨0, [0, 0, 0, 0], 0⟩, ⟨100000, [[], [], [], []]⟩, (by decide +kernel), (by decide +kernel), (by decide +kernel), (by decide +kernel), (by decide +kernel)⟩

theorem test_ShortsTurnOffSoftly_5 : ∃ (s : State) (ax : Fin 64) (leg : Fin 4) (v : Senses) (t : InPeriod),
    (s.dev.senseOn ax = false ∨ (s.dev.mva ax).legs.didt.getLsbD leg = false ∨ s.dev.blanked ax t leg = true ∨ s.dev.didtOver ax v t leg = true ∨ s.dev.shuntOver ax v.shunt = true) :=
  ⟨st (up.setMva 63 { drive := .field, legs := { modes := allLegs .high, didt := 9, span := { modes := allLegs .high } } }), 63, 3, ⟨1000000, [0, 0, 0, 0], 0⟩, ⟨100000, [[], [], [], []]⟩, (by decide +kernel)⟩

theorem test_GateSupplyFaults_1 : ∃ (s : State) (ax : Fin 64) (leg : Fin 4) (bst ph : Nat) (t : InPeriod),
    s.dev.gatesOn ax = true ∧ bst < 500 ∧ ph = s.dev.swapped ax leg ∧ s.dev.switchAt ax t ph = some true :=
  ⟨st (up.setMva 63 { drive := .field, legs := { modes := allLegs .high, span := { modes := allLegs .high } } }), 63, 3,
    499, 3, ⟨100000, [[], [], [], []]⟩, (by decide +kernel), (by decide +kernel), (by decide +kernel), (by decide +kernel)⟩

theorem test_GateSupplyFaults_2 : ∃ (s : State) (ax : Fin 64) (leg : Fin 4) (bst ph : Nat) (t : InPeriod),
    s.dev.gatesOn ax = true ∧ 500 ≤ bst ∧ ph = s.dev.swapped ax leg ∧ ph < 3 ∧ s.dev.switchAt ax t ph = some true ∧
    bst < s.dev.bstuv (ax.val / 8) ∧ (((s.dev.mva ax).drive = .brake ∨ (s.dev.mva ax).drive = .orphanBrake)) ∧
    Dev.probing (s.dev.mva ax) = false ∧ (s.dev.mva ax).legs.high = true :=
  ⟨st ((up.setMva 63 { drive := .brake, legs := { high := true, modes := { allLegs .high with x := .off }, span := { modes := { allLegs .high with x := .off } } } }).setCfg Fl.gateBstBstuv 7 4), 63, 2, 599, 2, ⟨100000, [[], [], [], []]⟩, (by decide +kernel), (by decide +kernel), (by decide +kernel), (by decide +kernel), (by decide +kernel), (by decide +kernel), (by decide +kernel), (by decide +kernel), (by decide +kernel)⟩

theorem test_GateSupplyFaults_3 : ∃ (s : State) (ax : Fin 64) (leg : Fin 4) (bst : Nat) (t : InPeriod),
    ((500 ≤ bst ∧ ((s.dev.mva ax).legs.high = false ∨ s.dev.bstuv (ax.val / 8) ≤ bst ∨ ((s.dev.mva ax).drive ≠ .brake ∧
    (s.dev.mva ax).drive ≠ .orphanBrake))) ∨ s.dev.gatesOn ax = false ∨ s.dev.switchAt ax t (s.dev.swapped ax leg) ≠ some true) :=
  ⟨st (up.setMva 63 { drive := .field, legs := { modes := allLegs .high, span := { modes := allLegs .high } } }), 63, 3,
    500, ⟨100000, [[], [], [], []]⟩, (by decide +kernel)⟩

theorem test_PrechargeParkWake_1 : ∃ (s : State) (ax : Fin 64) (off : Nat),
    (s.dev.mva ax).drive = .precharge :=
  ⟨st (up.setMva 63 { drive := .precharge }), 63, 39600, (by decide +kernel)⟩

/-! Obligations.CalibrationEndStoresAllOrNone -/

theorem test_CalibrationEndStoresAllOrNone_1a : ∃ (s : State) (m : Fin 8) (fs : List CalData),
    fs.length = 8 ∧ (s.dev.mv m).cal = some true ∧
    (s.dev.mv m).calAt + 1000000 ≤ (s.dev.mv m).start + Dev.hubClocks (s.dev.mv m).rate ∧ (∀ f ∈ fs,
    Dev.factorsOk f = true) :=
  ⟨st (up.setMv 7 { cal := some true, calAt := 0, start := 1000000 }), 7, List.replicate 8 ⟨⟨0, 0, 9437184, -9437184⟩, ⟨0,
    0, 9437184, -9437184⟩⟩, (by decide +kernel), (by decide +kernel), (by decide +kernel), (by decide +kernel)⟩

theorem test_CalibrationEndStoresAllOrNone_1b : ∃ (s : State) (m : Fin 8) (fs : List CalData),
    fs.length = 8 ∧ (s.dev.mv m).cal = some true ∧
    (s.dev.mv m).calAt + 1000000 ≤ (s.dev.mv m).start + Dev.hubClocks (s.dev.mv m).rate ∧ (∃ f ∈ fs,
    Dev.factorsOk f = false) :=
  ⟨st (up.setMv 7 { cal := some true, calAt := 0, start := 1000000 }), 7, List.replicate 8 ⟨⟨0, 0, 9437184, -9437184⟩, ⟨0,
    0, 0, 0⟩⟩, (by decide +kernel), (by decide +kernel), (by decide +kernel), (by decide +kernel)⟩

theorem test_CalibrationEndStoresAllOrNone_2 : ∃ (s : State) (m : Fin 8) (fs : List CalData),
    ((s.dev.mv m).cal ≠ some true ∨ (s.dev.mv m).start + Dev.hubClocks (s.dev.mv m).rate < (s.dev.mv m).calAt + 1000000) :=
  ⟨st (up.setMv 7 { cal := some true }), 7, List.replicate 8 ⟨⟨0, 0, 9437184, -9437184⟩, ⟨0, 0, 9437184, -9437184⟩⟩,
    (by decide +kernel)⟩

/-! Obligations.HaltsAndClocks -/

theorem test_HaltsAndClocks_1 : ∃ (s : State) (m : Fin 8),
    s.dev.mvOn m = true ∧ (s.dev.mv m).clkBad = false :=
  ⟨st (up.setMva 56 { drive := .field }), 7, (by decide +kernel), (by decide +kernel)⟩

theorem test_HaltsAndClocks_2 : ∃ (s : State) (m : Fin 8),
    (s.dev.mvOn m = false ∨ (s.dev.mv m).clkBad = true) :=
  ⟨st (up.setMv 7 { clkBad := true }), 7, (by decide +kernel)⟩

theorem test_HaltsAndClocks_3 : ∃ (s : State) (m : Fin 8),
    (s.dev.mv m).clkBad = true :=
  ⟨st ((up.setMv 7 { clkBad := true }).setMva 56 { drive := .halt }), 7, (by decide +kernel)⟩

theorem test_HaltsAndClocks_4 : ∃ (s : State) (m : Fin 8),
    s.dev.mvOn m = true ∧ s.dev.flag Fl.pwmMvstatusDllLock m = true :=
  ⟨st (up.setHw Fl.pwmMvstatusDllLock 7 1), 7, (by decide +kernel), (by decide +kernel)⟩

theorem test_HaltsAndClocks_5 : ∃ (s : State) (m : Fin 8),
    s.dev.mvOn m = true ∧ s.dev.flag Fl.pwmMvstatusDllLock m = false :=
  ⟨st (up.setHw Fl.pwmMvstatusDllLock 7 0), 7, (by decide +kernel), (by decide +kernel)⟩

theorem test_HaltsAndClocks_6 : ∃ (s : State) (m : Fin 8),
    s.dev.mvOn m = false :=
  ⟨st (up.setHw Fl.pwrStatusMvOn 0 0), 7, (by decide +kernel)⟩

theorem test_HaltsAndClocks_7 : ∃ (s : State) (m : Fin 8),
    s.dev.scopeOpen 3 = true ∧ s.dev.mvOn m = true ∧ (s.dev.mv m).halted = false :=
  ⟨st (up.setMva 56 { drive := .field }), 7, (by decide +kernel), (by decide +kernel), (by decide +kernel)⟩

theorem test_HaltsAndClocks_8 : ∃ (s : State),
    s.dev.scopeOpen 3 = true :=
  ⟨st up, (by decide +kernel)⟩

theorem test_HaltsAndClocks_9 : ∃ (s : State) (m : Fin 9),
    s.dev.scopeOpen 3 = false :=
  ⟨State.reset, 8, (by decide +kernel)⟩

theorem test_HaltsAndClocks_10 : ∃ (s : State) (m : Fin 8),
    (s.dev.mv m).halted = true :=
  ⟨st ((up.setMv 7 { halted := true }).setMva 56 { drive := .halt }), 7, (by decide +kernel)⟩

/-! Obligations.StrikesAndSnapshot -/

theorem test_StrikesAndSnapshot_1a : ∃ (s : State) (i : Fin 128) (slot : BitVec 16) (x y : Desc) (k au : Nat),
    y = withOpcode .strikeArm x ∧ k = Dev.strikeIndex y ∧ au = bits y.w4 4 9 ∧ s.dev.admits .strikeArm i y ∧
    Dev.strikeField y = none ∧ (s.dev.unit au).bound = true ∧ s.dev.inRing (s.dev.sq i) au = true ∧
    (((s.dev.strike k).live = false ∨ (y.opflag 0 = true ∧
    s.dev.inRing (s.dev.sq i) (s.dev.strike k).unit.toNat = true))) ∧ y.opflag 2 = true :=
  ⟨st up, 0, 0, { dsc .strikeArm 0 4 with w1 := 0x2FFE00, w4 := 0x3F0 }, _, 1023, 63, rfl, rfl, rfl,
    (by unfold Dev.admits; decide +kernel), (by decide +kernel), (by decide +kernel), (by decide +kernel),
    (by decide +kernel), (by decide +kernel)⟩

theorem test_StrikesAndSnapshot_1b : ∃ (s : State) (i : Fin 128) (slot : BitVec 16) (x y : Desc) (k au : Nat),
    y = withOpcode .strikeArm x ∧ k = Dev.strikeIndex y ∧ au = bits y.w4 4 9 ∧ s.dev.admits .strikeArm i y ∧
    Dev.strikeField y = none ∧ (s.dev.unit au).bound = true ∧ s.dev.inRing (s.dev.sq i) au = true ∧
    (((s.dev.strike k).live = false ∨ (y.opflag 0 = true ∧
    s.dev.inRing (s.dev.sq i) (s.dev.strike k).unit.toNat = true))) ∧ y.opflag 2 = false :=
  ⟨st up, 0, 0, { dsc .strikeArm 0 0 with w1 := 0x200000, w4 := 0x3F0 }, _, 0, 63, rfl, rfl, rfl,
    (by unfold Dev.admits; decide +kernel), (by decide +kernel), (by decide +kernel), (by decide +kernel),
    (by decide +kernel), (by decide +kernel)⟩

theorem test_StrikesAndSnapshot_1c : ∃ (s : State) (i : Fin 128) (slot : BitVec 16) (x y : Desc) (k au : Nat),
    y = withOpcode .strikeArm x ∧ k = Dev.strikeIndex y ∧ au = bits y.w4 4 9 ∧ s.dev.admits .strikeArm i y ∧
    Dev.strikeField y = none ∧ (s.dev.unit au).bound = true ∧ s.dev.inRing (s.dev.sq i) au = true ∧
    (((s.dev.strike k).live = false ∨ (y.opflag 0 = true ∧
    s.dev.inRing (s.dev.sq i) (s.dev.strike k).unit.toNat = true))) ∧ y.opflag 1 = true :=
  ⟨st (up.setAxis 0 { lat := { pos := 0x200 } }), 0, 0,
    { dsc .strikeArm 0 2 with w1 := 0x200000, w2 := 0x100, w4 := 0x3F0 }, _, 0, 63, rfl, rfl, rfl,
    (by unfold Dev.admits; decide +kernel), (by decide +kernel), (by decide +kernel), (by decide +kernel),
    (by decide +kernel), (by decide +kernel)⟩

theorem test_StrikesAndSnapshot_1d : ∃ (s : State) (i : Fin 128) (slot : BitVec 16) (x y : Desc) (k au : Nat),
    y = withOpcode .strikeArm x ∧ k = Dev.strikeIndex y ∧ au = bits y.w4 4 9 ∧ s.dev.admits .strikeArm i y ∧
    Dev.strikeField y = none ∧ (s.dev.unit au).bound = true ∧ s.dev.inRing (s.dev.sq i) au = true ∧
    (((s.dev.strike k).live = false ∨ (y.opflag 0 = true ∧
    s.dev.inRing (s.dev.sq i) (s.dev.strike k).unit.toNat = true))) ∧ y.opflag 0 = true ∧ (s.dev.strike 0).live = true :=
  ⟨st (up.setStrike 0 { st := .armed }), 0, 0,
    { dsc .strikeArm 0 1 with w1 := 0x380000, w2 := 5, w3 := 0x10000, w4 := 0x3F0 }, _, 0, 63, rfl, rfl, rfl,
    (by unfold Dev.admits; decide +kernel), (by decide +kernel), (by decide +kernel), (by decide +kernel),
    (by decide +kernel), (by decide +kernel), (by decide +kernel)⟩

theorem test_StrikesAndSnapshot_2 : ∃ (s : State) (i : Fin 128) (slot : BitVec 16) (x y : Desc),
    y = withOpcode .strikeDisarm x ∧ s.dev.admits .strikeDisarm i y ∧ bit y.w1 19 = false ∧
    (((s.dev.strike (Dev.strikeIndex y)).live = true → (s.dev.strike (Dev.strikeIndex y)).unit.toNat = y.unit)) ∧
    (s.dev.strike (Dev.strikeIndex y)).live = true :=
  ⟨st (up.setStrike 1023 { st := .armed, unit := 5 }), 0, 0, { dsc .strikeDisarm 5 0 with w1 := 0x7FE05 }, _, rfl,
    (by unfold Dev.admits; decide +kernel), (by decide +kernel), (by decide +kernel), (by decide +kernel)⟩

theorem test_StrikesAndSnapshot_3 : ∃ (s : State) (i : Fin 128) (slot : BitVec 16) (x y : Desc),
    y = withOpcode .strikeDisarm x ∧ s.dev.admits .strikeDisarm i y ∧ bit y.w1 19 = true :=
  ⟨st (up.setStrike 1023 { st := .armed, unit := 5 }), 0, 0, { dsc .strikeDisarm 5 0 with w1 := 0x80005 }, _, rfl,
    (by unfold Dev.admits; decide +kernel), (by decide +kernel)⟩

theorem test_StrikesAndSnapshot_4a : ∃ (d : Dev) (i : Nat) (e : Strike),
    e = d.strike i ∧ (((e.st ≠ .armed ∧ e.st ≠ .recoiling) ∨ e.since = d.time.tick)) ∧ e.st ≠ .armed ∧ e.st ≠ .recoiling :=
  ⟨({ up with time := { up.time with tick := 9, mainsLatch := 7 } }.setAxis 0 {}).setStrike 1023 { st := .held }, 1023, _,
    rfl, (by decide +kernel), (by decide +kernel)⟩

theorem test_StrikesAndSnapshot_4b : ∃ (d : Dev) (i : Nat) (e : Strike),
    e = d.strike i ∧ (((e.st ≠ .armed ∧ e.st ≠ .recoiling) ∨ e.since = d.time.tick)) ∧ e.since = d.time.tick :=
  ⟨({ up with time := { up.time with tick := 9, mainsLatch := 7 } }.setAxis 0 {}).setStrike 1023 { st := .armed, since := 9 }, 1023, _, rfl, (by decide +kernel), (by decide +kernel)⟩

theorem test_StrikesAndSnapshot_5 : ∃ (d : Dev) (i : Nat) (e : Strike),
    e = d.strike i ∧ (e.st = .armed ∨ e.st = .recoiling) ∧ e.since ≠ d.time.tick ∧ e.key = 0 ∧
    (d.axis (d.rep e.unit.toNat)).stale = true :=
  ⟨({ up with time := { up.time with tick := 9, mainsLatch := 7 } }.setAxis 0 { stale := true }).setStrike 1023 { st := .armed, key := 0, mode := 1, value := 100 }, 1023, _, rfl, (by decide +kernel), (by decide +kernel), (by decide +kernel), (by decide +kernel)⟩

theorem test_StrikesAndSnapshot_6a : ∃ (d : Dev) (i ax : Nat) (e e' : Strike) (a b k : Int),
    e = d.strike i ∧ e.st = .armed ∧ e.since ≠ d.time.tick ∧ e.key = 0 ∧ ax = d.rep e.unit.toNat ∧
    (d.axis ax).stale = false ∧ a = e.prev.toInt ∧ b = (d.axis ax).lat.pos.toInt ∧ k = e.value.toInt ∧
    e' = { e with prev := (d.axis ax).lat.pos, prevAx := ax, jump := false, passed := false } ∧ b < k :=
  ⟨({ up with time := { up.time with tick := 9, mainsLatch := 7 } }.setAxis 0 { lat := { pos := 99 } }).setStrike 1023 { st := .armed, key := 0, mode := 1, value := 100 }, 1023, 0, _, _, 0, 99, 100, rfl, (by decide +kernel), (by decide +kernel), (by decide +kernel), (by decide +kernel), (by decide +kernel), (by decide +kernel), (by decide +kernel), (by decide +kernel), rfl, (by decide +kernel)⟩

theorem test_StrikesAndSnapshot_6b : ∃ (d : Dev) (i ax : Nat) (e e' : Strike) (a b k : Int),
    e = d.strike i ∧ e.st = .armed ∧ e.since ≠ d.time.tick ∧ e.key = 0 ∧ ax = d.rep e.unit.toNat ∧
    (d.axis ax).stale = false ∧ a = e.prev.toInt ∧ b = (d.axis ax).lat.pos.toInt ∧ k = e.value.toInt ∧
    e' = { e with prev := (d.axis ax).lat.pos, prevAx := ax, jump := false, passed := false } ∧ a < k ∧ k ≤ b :=
  ⟨({ up with time := { up.time with tick := 9, mainsLatch := 7 } }.setAxis 0 { lat := { pos := 100 } }).setStrike 1023 { st := .armed, key := 0, mode := 1, value := 100 }, 1023, 0, _, _, 0, 100, 100, rfl, (by decide +kernel), (by decide +kernel), (by decide +kernel), (by decide +kernel), (by decide +kernel), (by decide +kernel), (by decide +kernel), (by decide +kernel), rfl, (by decide +kernel)⟩

theorem test_StrikesAndSnapshot_6c : ∃ (d : Dev) (i ax : Nat) (e e' : Strike) (a b k : Int),
    e = d.strike i ∧ e.st = .armed ∧ e.since ≠ d.time.tick ∧ e.key = 0 ∧ ax = d.rep e.unit.toNat ∧
    (d.axis ax).stale = false ∧ a = e.prev.toInt ∧ b = (d.axis ax).lat.pos.toInt ∧ k = e.value.toInt ∧
    e' = { e with prev := (d.axis ax).lat.pos, prevAx := ax, jump := false, passed := false } ∧ e.passed = true :=
  ⟨({ up with time := { up.time with tick := 9, mainsLatch := 7 } }.setAxis 0 { lat := { pos := 50 } }).setStrike 1023 { passed := true, st := .armed, key := 0, mode := 1, value := 100 }, 1023, 0, _, _, 0, 50, 100, rfl, (by decide +kernel), (by decide +kernel), (by decide +kernel), (by decide +kernel), (by decide +kernel), (by decide +kernel), (by decide +kernel), (by decide +kernel), rfl, (by decide +kernel)⟩

theorem test_StrikesAndSnapshot_7a : ∃ (d : Dev) (i ax : Nat) (e : Strike) (b k h : Int),
    e = d.strike i ∧ e.st = .recoiling ∧ e.since ≠ d.time.tick ∧ e.key = 0 ∧ ax = d.rep e.unit.toNat ∧
    (d.axis ax).stale = false ∧ b = (d.axis ax).lat.pos.toInt ∧ k = e.value.toInt ∧
    h = ((e.hyst.toNat * 256 : Nat) : Int) ∧ h ≤ ((b - k).natAbs : Int) :=
  ⟨({ up with time := { up.time with tick := 9, mainsLatch := 7 } }.setAxis 0 { lat := { pos := 356 } }).setStrike 1023 { st := .recoiling, key := 0, mode := 3, value := 100, hyst := 1 }, 1023, 0, _, 356, 100, 256, rfl, (by decide +kernel), (by decide +kernel), (by decide +kernel), (by decide +kernel), (by decide +kernel), (by decide +kernel), (by decide +kernel), (by decide +kernel), (by decide +kernel)⟩

theorem test_StrikesAndSnapshot_7b : ∃ (d : Dev) (i ax : Nat) (e : Strike) (b k h : Int),
    e = d.strike i ∧ e.st = .recoiling ∧ e.since ≠ d.time.tick ∧ e.key = 0 ∧ ax = d.rep e.unit.toNat ∧
    (d.axis ax).stale = false ∧ b = (d.axis ax).lat.pos.toInt ∧ k = e.value.toInt ∧
    h = ((e.hyst.toNat * 256 : Nat) : Int) ∧ ¬ h ≤ ((b - k).natAbs : Int) :=
  ⟨({ up with time := { up.time with tick := 9, mainsLatch := 7 } }.setAxis 0 { lat := { pos := 355 } }).setStrike 1023 { st := .recoiling, key := 0, mode := 3, value := 100, hyst := 1 }, 1023, 0, _, 355, 100, 256, rfl, (by decide +kernel), (by decide +kernel), (by decide +kernel), (by decide +kernel), (by decide +kernel), (by decide +kernel), (by decide +kernel), (by decide +kernel), (by decide +kernel)⟩

theorem test_StrikesAndSnapshot_8a : ∃ (d : Dev) (i : Nat) (e : Strike),
    e = d.strike i ∧ e.st = .armed ∧ e.since ≠ d.time.tick ∧ e.key = 1 :=
  ⟨({ up with time := { up.time with tick := 9, mainsLatch := 7 } }.setAxis 0 { lat := { swbNew := true } }).setStrike 1023 { st := .armed, key := 1, mode := 2 }, 1023, _, rfl, (by decide +kernel), (by decide +kernel), (by decide +kernel)⟩

theorem test_StrikesAndSnapshot_8b : ∃ (d : Dev) (i : Nat) (e : Strike),
    e = d.strike i ∧ e.st = .armed ∧ e.since ≠ d.time.tick ∧ e.key = 2 :=
  ⟨({ up with time := { up.time with tick := 9, mainsLatch := 7 } }.setAxis 0 {}).setStrike 1023 { st := .armed, key := 2, value := 7 }, 1023, _, rfl, (by decide +kernel), (by decide +kernel), (by decide +kernel)⟩

theorem test_StrikesAndSnapshot_8c : ∃ (d : Dev) (i : Nat) (e : Strike),
    e = d.strike i ∧ e.st = .armed ∧ e.since ≠ d.time.tick ∧ e.key = 3 :=
  ⟨({ up with time := { up.time with tick := 9, mainsLatch := 7 } }.setAxis 0 {}).setStrike 1023 { st := .armed, key := 3, value := 10 }, 1023, _, rfl, (by decide +kernel), (by decide +kernel), (by decide +kernel)⟩

theorem test_StrikesAndSnapshot_9a : ∃ (d t : Dev) (i : Nat) (byPassed jump : Bool) (e : Strike),
    e = d.strike i ∧ e.st = .armed ∧ t = Dev.fire i byPassed jump d ∧ e.action = 0 :=
  ⟨((moving.setStrike 7 { st := .held }).setStrike 1023 { st := .armed, action := 0, param := 0, actUnit := 64, owner := some ⟨0, 0, 0, 0, 0x12, 0, false, false, true⟩ }), _, 1023, false, true, _, rfl, (by decide +kernel), rfl, (by decide +kernel)⟩

theorem test_StrikesAndSnapshot_9b : ∃ (d t : Dev) (i : Nat) (byPassed jump : Bool) (e : Strike),
    e = d.strike i ∧ e.st = .armed ∧ t = Dev.fire i byPassed jump d ∧ e.action = 1 :=
  ⟨((moving.setStrike 7 { st := .held }).setStrike 1023 { st := .armed, action := 1, param := 77, actUnit := 64, owner := some ⟨0, 0, 0, 0, 0x12, 0, false, false, true⟩ }), _, 1023, false, true, _, rfl, (by decide +kernel), rfl, (by decide +kernel)⟩

theorem test_StrikesAndSnapshot_9c : ∃ (d t : Dev) (i : Nat) (byPassed jump : Bool) (e : Strike),
    e = d.strike i ∧ e.st = .armed ∧ t = Dev.fire i byPassed jump d ∧ e.action = 2 :=
  ⟨((moving.setStrike 7 { st := .held }).setStrike 1023 { st := .armed, action := 2, param := 0, actUnit := 64, owner := some ⟨0, 0, 0, 0, 0x12, 0, false, false, true⟩ }), _, 1023, false, true, _, rfl, (by decide +kernel), rfl, (by decide +kernel)⟩

theorem test_StrikesAndSnapshot_9d : ∃ (d t : Dev) (i : Nat) (byPassed jump : Bool) (e : Strike),
    e = d.strike i ∧ e.st = .armed ∧ t = Dev.fire i byPassed jump d ∧ e.action = 3 :=
  ⟨((moving.setStrike 7 { st := .held }).setStrike 1023 { st := .armed, action := 3, param := 0x1234, actUnit := 64, owner := some ⟨0, 0, 0, 0, 0x12, 0, false, false, true⟩ }), _, 1023, false, true, _, rfl, (by decide +kernel), rfl, (by decide +kernel)⟩

theorem test_StrikesAndSnapshot_9e : ∃ (d t : Dev) (i : Nat) (byPassed jump : Bool) (e : Strike),
    e = d.strike i ∧ e.st = .armed ∧ t = Dev.fire i byPassed jump d ∧ e.action = 4 :=
  ⟨((moving.setStrike 7 { st := .held }).setStrike 1023 { st := .armed, action := 4, param := 0x4321, actUnit := 64, owner := some ⟨0, 0, 0, 0, 0x12, 0, false, false, true⟩ }), _, 1023, false, true, _, rfl, (by decide +kernel), rfl, (by decide +kernel)⟩

theorem test_StrikesAndSnapshot_9f : ∃ (d t : Dev) (i : Nat) (byPassed jump : Bool) (e : Strike),
    e = d.strike i ∧ e.st = .armed ∧ t = Dev.fire i byPassed jump d ∧ e.action = 5 :=
  ⟨((moving.setStrike 7 { st := .held }).setStrike 1023 { st := .armed, action := 5, param := 7, actUnit := 64, owner := some ⟨0, 0, 0, 0, 0x12, 0, false, false, true⟩ }), _, 1023, false, true, _, rfl, (by decide +kernel), rfl, (by decide +kernel)⟩

theorem test_StrikesAndSnapshot_10 : ∃ (s : State) (i : Fin 128) (slot : BitVec 16) (x y : Desc),
    y = withOpcode .snapshot x ∧ s.dev.admits .snapshot i y :=
  ⟨st up, 0, 0, { dsc .snapshot 64 0 with w2 := 0xFFFFFFC0 }, _, rfl, (by unfold Dev.admits; decide +kernel)⟩

theorem test_SignatureTablesAndEvents_4 : ∃ (s : State) (ax : Fin 64),
    (s.dev.sign ax).starved = false :=
  ⟨st up, 63, (by decide +kernel)⟩

theorem test_CommandPins_2a : ∃ (s : State) (i : Fin 4) (dir : Bool) (e : StepHeld) (off : Nat),
    (e.low < 3 ∨ e.high < 3 ∨ s.dev.cmdMode (2 * i.val) ≠ 4) ∧ s.dev.cmdMode (2 * i.val) = 4 :=
  ⟨st (stepping 0), 3, true, ⟨100, 2, 9⟩, 0, (by decide +kernel), (by decide +kernel)⟩

theorem test_CommandPins_2b : ∃ (s : State) (i : Fin 4) (dir : Bool) (e : StepHeld) (off : Nat),
    (e.low < 3 ∨ e.high < 3 ∨ s.dev.cmdMode (2 * i.val) ≠ 4) ∧ s.dev.cmdMode (2 * i.val) ≠ 4 :=
  ⟨st up, 3, true, ⟨100, 9, 9⟩, 0, (by decide +kernel), (by decide +kernel)⟩

theorem test_CommandPins_3 : ∃ (s : State) (i : Fin 4) (dir : Bool) (e : StepHeld) (off : Nat) (g : Int),
    s.dev.cmdMode (2 * i.val) = 4 ∧ 3 ≤ e.low ∧ 3 ≤ e.high ∧
    g = (if dir then 1 else -1) * signed 32 (s.dev.cfg Fl.cmdGainGain (2 * i.val)) ∧ (∀ n ∈ s.dev.pinAxes (2 * i.val),
    (s.dev.axis n).mot.rev = false ∧ s.dev.reversal n (sgn g) = false) :=
  ⟨st (stepping 0), 3, true, ⟨100, 3, 3⟩, 0, 256, (by decide +kernel), (by decide +kernel), (by decide +kernel),
    (by decide +kernel), (by decide +kernel)⟩

theorem test_CommandPins_4 : ∃ (s : State) (i : Fin 4) (dir : Bool) (e : StepHeld) (off : Nat) (g : Int) (n : Nat),
    s.dev.cmdMode (2 * i.val) = 4 ∧ 3 ≤ e.low ∧ 3 ≤ e.high ∧
    g = (if dir then 1 else -1) * signed 32 (s.dev.cfg Fl.cmdGainGain (2 * i.val)) ∧ (∀ k ∈ s.dev.pinAxes (2 * i.val),
    (s.dev.axis k).mot.rev = false) ∧ n ∈ s.dev.pinAxes (2 * i.val) ∧ s.dev.reversal n (sgn g) = true ∧
    s.dev.brakeReverse n = false :=
  ⟨st (stepping (-0x100000)), 3, true, ⟨100, 3, 3⟩, 0, 256, 0, (by decide +kernel), (by decide +kernel),
    (by decide +kernel), (by decide +kernel), (by decide +kernel), (by decide +kernel), (by decide +kernel),
    (by decide +kernel)⟩

theorem test_MovementFrames_3a : ∃ (s : State) (m : Fin 8) (f : SpFrame),
    s.dev.mvOn m = true ∧ s.dev.trained m = true ∧ (s.dev.mv m).spWay = some f ∧ s.dev.orphan m = false ∧
    (s.dev.mv m).clkBad = false :=
  ⟨st (up.setMv 7 { spWay := some ⟨0, [], 0, 0⟩ }), 7, ⟨0, [], 0, 0⟩, (by decide +kernel), (by decide +kernel),
    (by decide +kernel), (by decide +kernel), (by decide +kernel)⟩

theorem test_MovementFrames_3b : ∃ (s : State) (m : Fin 8) (f : SpFrame),
    s.dev.mvOn m = true ∧ s.dev.trained m = true ∧ (s.dev.mv m).spWay = some f ∧ s.dev.orphan m = true :=
  ⟨st ((up.setMv 7 { spWay := some ⟨0, [], 0, 0⟩ }).setHw Fl.escMvstatusOrphan 7 1), 7, ⟨0, [], 0, 0⟩, (by decide +kernel),
    (by decide +kernel), (by decide +kernel), (by decide +kernel)⟩

theorem test_MovementFrames_3c : ∃ (s : State) (m : Fin 8) (f : SpFrame),
    s.dev.mvOn m = true ∧ s.dev.trained m = true ∧ (s.dev.mv m).spWay = some f ∧ (s.dev.mv m).clkBad = true :=
  ⟨st (up.setMv 7 { clkBad := true, spWay := some ⟨0, [], 0, 0⟩ }), 7, ⟨0, [], 0, 0⟩, (by decide +kernel),
    (by decide +kernel), (by decide +kernel), (by decide +kernel)⟩

theorem test_FaultWritesAndPairs_4 : ∃ (s : State) (p : Pair),
    (8, p) ∉ s.dev.flt.broken ∧ Dev.ofHub p = true :=
  ⟨st up, .hubFlt 3, (by decide +kernel), (by decide +kernel)⟩

theorem test_FaultWritesAndPairs_5a : ∃ (s : State) (m : Fin 9) (p : Pair),
    m.val < 8 ∧ (m.val, p) ∉ s.dev.flt.broken ∧ Dev.ofHub p = false :=
  ⟨st up, 7, .dstoReq, (by decide +kernel), (by decide +kernel), (by decide +kernel)⟩

theorem test_FaultWritesAndPairs_5b : ∃ (s : State) (m : Fin 9) (p : Pair),
    m.val < 8 ∧ (m.val, p) ∉ s.dev.flt.broken ∧ Dev.ofHub p = false :=
  ⟨st up, 7, .data 15, (by decide +kernel), (by decide +kernel), (by decide +kernel)⟩

theorem test_FaultWritesAndPairs_3a : ∃ (s : State) (m : Fin 9) (p : Pair),
    ((m.val, p) ∈ s.dev.flt.broken ∨ (m.val = 8 ↔ Dev.ofHub p = false)) ∧ (m.val, p) ∈ s.dev.flt.broken :=
  ⟨st { up with flt := { up.flt with broken := [(7, .dstoReq)] } }, 7, .dstoReq, (by decide +kernel), (by decide +kernel)⟩

theorem test_FaultWritesAndPairs_3b : ∃ (s : State) (m : Fin 9) (p : Pair),
    ((m.val, p) ∈ s.dev.flt.broken ∨ (m.val = 8 ↔ Dev.ofHub p = false)) ∧ (m.val = 8 ↔ Dev.ofHub p = false) :=
  ⟨st up, 8, .dstoReq, (by decide +kernel), (by decide +kernel)⟩

theorem test_SafetyPins_2a : ∃ (s : State) (m : Fin 8) (b : Bool),
    ((s.dev.hw (Dev.pinFields b).1 0).testBit m = false ∨ (s.dev.hw Fl.pwrStatusVclOk 0).testBit m = false) ∧
    (s.dev.hw (Dev.pinFields b).1 0).testBit m = false :=
  ⟨st up, 7, false, (by decide +kernel), (by decide +kernel)⟩

theorem test_SafetyPins_2b : ∃ (s : State) (m : Fin 8) (b : Bool),
    ((s.dev.hw (Dev.pinFields b).1 0).testBit m = false ∨ (s.dev.hw Fl.pwrStatusVclOk 0).testBit m = false) ∧
    (s.dev.hw Fl.pwrStatusVclOk 0).testBit m = false :=
  ⟨st ((up.setHw Fl.stoStatusPinA 0 128).setHw Fl.pwrStatusVclOk 0 0), 7, false, (by decide +kernel), (by decide +kernel)⟩

theorem test_SafetyPins_3 : ∃ (s : State) (m : Fin 8) (b : Bool),
    (s.dev.hw (Dev.pinFields b).1 0).testBit m = true ∧ (s.dev.hw Fl.pwrStatusVclOk 0).testBit m = true :=
  ⟨st (up.setHw Fl.stoStatusPinA 0 128), 7, false, (by decide +kernel), (by decide +kernel)⟩

theorem test_SafetyFunctions_6 : ∃ (s : State),
    s.dev.sys.released = true ∧ s.dev.hw Fl.escStatusSelftestOk 0 = 0 :=
  ⟨st (up.setHw Fl.escStatusSelftestOk 0 0), (by decide +kernel), (by decide +kernel)⟩

theorem test_ClocksAndMains_3a : ∃ (s : State) (off low high : Nat),
    (low < 10000 ∨ high < 10000) ∧ low < 10000 :=
  ⟨st up, 0, 9999, 10000, (by decide +kernel), (by decide +kernel)⟩

theorem test_ClocksAndMains_3b : ∃ (s : State) (off low high : Nat),
    (low < 10000 ∨ high < 10000) ∧ high < 10000 :=
  ⟨st up, 0, 10000, 9999, (by decide +kernel), (by decide +kernel)⟩

theorem test_ClocksAndMains_4 : ∃ (s : State) (off low high : Nat),
    10000 ≤ low ∧ 10000 ≤ high ∧ ((s.dev.time.mainsValid = false ∨ s.dev.time.start + off < s.dev.time.mainsLast + 12000000)) ∧ s.dev.time.mainsRef = none :=
  ⟨st up, 0, 10000, 10000, (by decide +kernel), (by decide +kernel), (by decide +kernel), (by decide +kernel)⟩

theorem test_ClocksAndMains_5 : ∃ (s : State) (off low high r : Nat),
    10000 ≤ low ∧ 10000 ≤ high ∧ ((s.dev.time.mainsValid = false ∨ s.dev.time.start + off < s.dev.time.mainsLast + 12000000)) ∧ s.dev.time.mainsRef = some r ∧ s.dev.time.start + off - r < 5720000 :=
  ⟨st { up with time := { up.time with mainsRef := some 0, mainsValid := true, start := 0, mainsLast := 0 } }, 5719999,
    10000, 10000, 0, (by decide +kernel), (by decide +kernel), (by decide +kernel), (by decide +kernel), (by decide +kernel)⟩

theorem test_ClocksAndMains_6a : ∃ (s : State) (off low high r : Nat),
    10000 ≤ low ∧ 10000 ≤ high ∧ ((s.dev.time.mainsValid = false ∨ s.dev.time.start + off < s.dev.time.mainsLast + 12000000)) ∧ s.dev.time.mainsRef = some r ∧ 5720000 ≤ s.dev.time.start + off - r ∧ s.dev.time.start + off - r ≤ 10000000 :=
  ⟨st { up with time := { up.time with mainsRef := some 0, mainsValid := true, start := 0, mainsLast := 0 } }, 5720000,
    10000, 10000, 0, (by decide +kernel), (by decide +kernel), (by decide +kernel), (by decide +kernel),
    (by decide +kernel), (by decide +kernel)⟩

theorem test_ClocksAndMains_6b : ∃ (s : State) (off low high r : Nat),
    10000 ≤ low ∧ 10000 ≤ high ∧ ((s.dev.time.mainsValid = false ∨ s.dev.time.start + off < s.dev.time.mainsLast + 12000000)) ∧ s.dev.time.mainsRef = some r ∧ 5720000 ≤ s.dev.time.start + off - r ∧ s.dev.time.start + off - r ≤ 10000000 :=
  ⟨st { up with time := { up.time with mainsRef := some 0, mainsValid := true, start := 0, mainsLast := 0 } }, 10000000,
    10000, 10000, 0, (by decide +kernel), (by decide +kernel), (by decide +kernel), (by decide +kernel),
    (by decide +kernel), (by decide +kernel)⟩

theorem test_ClocksAndMains_7 : ∃ (s : State) (off low high r : Nat),
    10000 ≤ low ∧ 10000 ≤ high ∧ ((s.dev.time.mainsValid = false ∨ s.dev.time.start + off < s.dev.time.mainsLast + 12000000)) ∧ s.dev.time.mainsRef = some r ∧ 10000000 < s.dev.time.start + off - r :=
  ⟨st { up with time := { up.time with mainsRef := some 0, mainsValid := true, start := 0, mainsLast := 0 } }, 10000001,
    10000, 10000, 0, (by decide +kernel), (by decide +kernel), (by decide +kernel), (by decide +kernel), (by decide +kernel)⟩

theorem test_ClocksAndMains_8 : ∃ (s : State) (off low high : Nat),
    10000 ≤ low ∧ 10000 ≤ high ∧ s.dev.time.mainsValid = true ∧ s.dev.time.mainsLast + 12000000 ≤ s.dev.time.start + off :=
  ⟨st { up with time := { up.time with mainsRef := some 0, mainsValid := true, start := 12000000, mainsLast := 0 } }, 0,
    10000, 10000, (by decide +kernel), (by decide +kernel), (by decide +kernel), (by decide +kernel)⟩

theorem test_ClocksAndMains_9 : ∃ (s : State),
    s.dev.time.mainsValid = true ∧ s.dev.time.mainsLast + 12000000 ≤ s.dev.time.start + s.dev.tickLen :=
  ⟨st { up with time := { up.time with mainsRef := some 0, mainsValid := true, start := 11960000, mainsLast := 0 } },
    (by decide +kernel), (by decide +kernel)⟩

theorem test_ThermalAndSupplies_5 : ∃ (s : State) (r : Fin 4) (mv : Nat),
    2 * mv < Dev.railNominal r :=
  ⟨st up, 3, 809, (by decide +kernel)⟩

theorem test_ThermalAndSupplies_6a : ∃ (s : State) (r : Fin 4) (mv : Nat),
    Dev.railNominal r ≤ 2 * mv ∧ ¬ (90 * Dev.railNominal r ≤ 100 * mv ∧ 100 * mv ≤ 112 * Dev.railNominal r) :=
  ⟨st up, 3, 1619, (by decide +kernel), (by decide +kernel)⟩

theorem test_ThermalAndSupplies_6b : ∃ (s : State) (r : Fin 4) (mv : Nat),
    Dev.railNominal r ≤ 2 * mv ∧ ¬ (90 * Dev.railNominal r ≤ 100 * mv ∧ 100 * mv ≤ 112 * Dev.railNominal r) :=
  ⟨st up, 3, 2017, (by decide +kernel), (by decide +kernel)⟩

theorem test_CanTraffic_6 : ∃ (s : State) (c : Fin 4) (key : Nat) (data : Option (List Byte)) (t : TxFrame),
    (s.dev.can c).queue.find? (fun t => t.key == key && !t.eligible) = some t ∧ key ∈ (s.dev.can c).reads ∧
    s.dev.readOut c key = true :=
  ⟨st (up.setCan 3 { on := true, queue := [⟨4, ⟨0, 1, 0, 0, 0x50, 0, false, false, true⟩, ⟨0x7FF, false, false, false, false, false, 0, []⟩, 0, 0, false, false, 64, 0⟩], reads := [4] }), 3, 4, none, ⟨4, ⟨0, 1, 0, 0, 0x50, 0, false, false, true⟩, ⟨0x7FF, false, false, false, false, false, 0, []⟩, 0, 0, false, false, 64, 0⟩, (by decide +kernel), (by decide +kernel), (by decide +kernel)⟩

theorem test_CanTraffic_7 : ∃ (s : State) (c : Fin 4) (key : Nat) (data : Option (List Byte)),
    (key ∉ (s.dev.can c).reads ∨ s.dev.readOut c key = false) ∧ key ∉ (s.dev.can c).reads :=
  ⟨st up, 3, 4, none, (by decide +kernel), (by decide +kernel)⟩

/-! Obligations.CanErrors -/

theorem test_CanErrors_1 : ∃ (s : State) (c : Fin 4) (code : BitVec 3) (dp mild : Bool) (t : TxFrame),
    Dev.onBus (s.dev.can c) = true ∧ Dev.inFlight (s.dev.can c) = some t ∧ s.dev.restricted c = false ∧ t.gone = 0 ∧
    t.maxtx = 0 ∧ (s.dev.can c).leaving = false :=
  ⟨st (up.setCan 3 { on := true, queue := [⟨4, ⟨0, 1, 0, 0, 0x50, 0, false, false, true⟩, ⟨0x7FF, false, false, false, false, false, 0, []⟩, 0, 0, false, true, 64, 0⟩], active := some 4 }), 3, 3, false, true, ⟨4, ⟨0, 1, 0, 0, 0x50, 0, false, false, true⟩, ⟨0x7FF, false, false, false, false, false, 0, []⟩, 0, 0, false, true, 64, 0⟩, (by decide +kernel), (by decide +kernel), (by decide +kernel), (by decide +kernel), (by decide +kernel), (by decide +kernel)⟩

theorem test_CanErrors_2 : ∃ (s : State) (c : Fin 4) (sending : Bool),
    Dev.onBus (s.dev.can c) = true ∧ s.dev.restricted c = false :=
  ⟨st (up.setCan 3 { on := true, recv := 250 }), 3, true, (by decide +kernel), (by decide +kernel)⟩

theorem test_CanErrors_3 : ∃ (s : State) (c : Fin 4) (code : BitVec 3) (dp after : Bool),
    Dev.onBus (s.dev.can c) = true ∧ (s.dev.can c).active = none ∧ s.dev.restricted c = false ∧
    (s.dev.can c).leaving = false :=
  ⟨st (up.setCan 3 { on := true, recv := 250 }), 3, 2, true, true, (by decide +kernel), (by decide +kernel),
    (by decide +kernel), (by decide +kernel)⟩

theorem test_CanErrors_4 : ∃ (s : State) (c : Fin 4),
    (s.dev.can c).on = true ∧ (s.dev.can c).integrating = false ∧ (s.dev.can c).busOff = false ∧ 255 < (s.dev.can c).tec :=
  ⟨st (up.setCan 3 { on := true, tec := 256 }), 3, (by decide +kernel), (by decide +kernel), (by decide +kernel),
    (by decide +kernel)⟩

theorem test_CanErrors_5 : ∃ (s : State) (c : Fin 4) (v : Word) (off : Nat),
    s.dev.barOpen = true ∧ s.dev.hubOn 3 = true ∧ bit v 1 = false ∧ s.dev.flag Fl.canStatusBoffWait c = true :=
  ⟨st (up.setHw Fl.canStatusBoffWait 3 1), 3, 0xFFFFFFFD, 0, (by decide +kernel), (by decide +kernel), (by decide +kernel),
    (by decide +kernel)⟩

theorem test_CanErrors_6 : ∃ (s : State) (c : Fin 4),
    s.dev.flag Fl.canStatusRecovering c = true :=
  ⟨st (up.setHw Fl.canStatusRecovering 3 1), 3, (by decide +kernel)⟩

theorem test_CanErrors_7 : ∃ (s : State) (c : Fin 4) (v : Word) (off : Nat),
    s.dev.barOpen = true ∧ s.dev.hubOn 3 = true :=
  ⟨st (up.setCan 3 { on := true, queue := [⟨4, ⟨0, 1, 0, 0, 0x50, 0, false, false, true⟩, ⟨0x7FF, false, false, false, false, false, 0, []⟩, 0, 0, false, true, 64, 0⟩], active := some 4 }), 3, 2, 0, (by decide +kernel), (by decide +kernel)⟩

theorem test_DeviceResets_4 : ∃ (s : State),
    s.dev.sys.released = true ∧ s.dev.flag Fl.clkStatusPllLock 0 = true ∧ s.dev.flag Fl.imgStatusDone 0 = false ∧
    ((∀ m : Fin 8, s.dev.mvOn m = true → s.dev.trained m = true ∨ (s.dev.hw Fl.pwrEvtTrainFail 0).testBit m = true)) ∧
    pickSlot s.store s.dev.sys.badSlots = none :=
  ⟨st ((released.setHw Fl.clkStatusPllLock 0 1).setHw Fl.pwrEvtTrainFail 0 255), (by decide +kernel), (by decide +kernel),
    (by decide +kernel), (by decide +kernel), (by decide +kernel)⟩

theorem test_DeviceResets_5 : ∃ (s : State) (m : Fin 8),
    s.dev.mvOn m = true ∧ s.dev.trained m = false ∧ (s.dev.hw Fl.pwrEvtTrainFail 0).testBit m = false :=
  ⟨st (up.setHw Fl.linkStatusTrained 7 0), 7, (by decide +kernel), (by decide +kernel), (by decide +kernel)⟩

theorem test_MovementResets_3 : ∃ (s : State) (m : Fin 8),
    s.dev.sys.released = true ∧ s.dev.sys.ticking = true ∧ s.dev.mvOn m = false ∧ s.dev.sys.mvSw.getLsbD m = true :=
  ⟨st (up.setHw Fl.pwrStatusMvOn 0 0x7F), 7, (by decide +kernel), (by decide +kernel), (by decide +kernel),
    (by decide +kernel)⟩

theorem test_MovementResets_2 : ∃ (s : State) (m : Fin 8),
    s.dev.sys.released = true ∧ s.dev.mvOn m = false ∧ (s.dev.sys.ticking = false ∨ s.dev.sys.mvSw.getLsbD m = false) :=
  ⟨st { (up.setHw Fl.pwrStatusMvOn 0 0x7F) with sys := { up.sys with ticking := false } }, 7, (by decide +kernel),
    (by decide +kernel), (by decide +kernel)⟩

theorem test_ProfileEventsEnd_3a : ∃ (d : Dev) (n : Nat),
    n < 64 ∧ d.runsProfile n ∧ (d.axis n).mot.v < (d.axis n).mot.dir * (fine (d.axis n).mot.target - (d.axis n).mot.p) ∧
    (d.axis n).mot.dir * (fine (d.axis n).mot.target - (d.axis n).mot.p) ≤ (d.params n).brake (d.axis n).mot.v + (d.axis n).mot.v ∧ (d.params n).need (d.axis n).mot.v ((d.axis n).mot.dir * (fine (d.axis n).mot.target - (d.axis n).mot.p)) ≤ (d.params n).dmax :=
  ⟨((ready.setAxis 0 { good with cmd := .field, set := { vmax := 0x10000, vstart := 0x100, vstop := 0x80, a1 := 0x200, a2 := 0x100, d2 := 0x100, d1 := 0x200 }, st := .moving, mot := { mode := .profile, act := some 1, v := 0x100000, dir := 1, target := 32000 } }).setCfg Fl.motionDmaxDmax 0 0), 0, (by decide +kernel), (by unfold Dev.runsProfile; decide +kernel), (by decide +kernel), (by decide +kernel), (by decide +kernel)⟩

theorem test_ProfileEventsEnd_3b : ∃ (d : Dev) (n : Nat),
    n < 64 ∧ d.runsProfile n ∧ (d.axis n).mot.v < (d.axis n).mot.dir * (fine (d.axis n).mot.target - (d.axis n).mot.p) ∧
    (d.axis n).mot.dir * (fine (d.axis n).mot.target - (d.axis n).mot.p) ≤ (d.params n).brake (d.axis n).mot.v + (d.axis n).mot.v ∧ (d.params n).dmax < (d.params n).need (d.axis n).mot.v ((d.axis n).mot.dir * (fine (d.axis n).mot.target - (d.axis n).mot.p)) :=
  ⟨((ready.setAxis 0 { good with cmd := .field, set := { vmax := 0x10000, vstart := 0x100, vstop := 0x80, a1 := 0x200, a2 := 0x100, d2 := 0x100, d1 := 0x200 }, st := .moving, mot := { mode := .profile, act := some 1, v := 0x100000, dir := -1, target := -32000 } }).setCfg Fl.motionDmaxDmax 0 1), 0, (by decide +kernel), (by unfold Dev.runsProfile; decide +kernel), (by decide +kernel), (by decide +kernel), (by decide +kernel)⟩

theorem test_ProfileEventsEnd_3c : ∃ (d : Dev) (n : Nat),
    n < 64 ∧ d.runsProfile n ∧ (d.axis n).mot.v < (d.axis n).mot.dir * (fine (d.axis n).mot.target - (d.axis n).mot.p) ∧
    ¬ (d.axis n).mot.dir * (fine (d.axis n).mot.target - (d.axis n).mot.p) ≤ (d.params n).brake (d.axis n).mot.v + (d.axis n).mot.v ∧ (d.params n).vmax < (d.axis n).mot.v :=
  ⟨((ready.setAxis 0 { good with cmd := .field, set := { vmax := 0x10000, vstart := 0x100, vstop := 0x80, a1 := 0x200, a2 := 0x100, d2 := 0x100, d1 := 0x200 }, st := .moving, mot := { mode := .profile, act := some 1, v := 0x2000000, dir := 1, target := 0x7FFFFFFFFF } }).setCfg Fl.motionDmaxDmax 0 0), 0, (by decide +kernel), (by unfold Dev.runsProfile; decide +kernel), (by decide +kernel), (by decide +kernel), (by decide +kernel)⟩

theorem test_ProfileEventsEnd_3d : ∃ (d : Dev) (n : Nat),
    n < 64 ∧ d.runsProfile n ∧ (d.axis n).mot.v < (d.axis n).mot.dir * (fine (d.axis n).mot.target - (d.axis n).mot.p) ∧
    ¬ (d.axis n).mot.dir * (fine (d.axis n).mot.target - (d.axis n).mot.p) ≤ (d.params n).brake (d.axis n).mot.v + (d.axis n).mot.v ∧ (d.axis n).mot.v ≤ (d.params n).vmax :=
  ⟨((ready.setAxis 0 { good with cmd := .field, set := { vmax := 0x10000, vstart := 0x100, vstop := 0x80, a1 := 0x200, a2 := 0x100, d2 := 0x100, d1 := 0x200 }, st := .moving, mot := { mode := .profile, act := some 1, v := 0, dir := 1, target := 0x7FFFFFFFFF } }).setCfg Fl.motionDmaxDmax 0 0), 0, (by decide +kernel), (by unfold Dev.runsProfile; decide +kernel), (by decide +kernel), (by decide +kernel), (by decide +kernel)⟩

theorem test_ProfileEventsEnd_4 : ∃ (d : Dev) (n : Nat),
    n < 64 ∧ d.runsProfile n ∧ (d.axis n).mot.dir * (fine (d.axis n).mot.target - (d.axis n).mot.p) ≤ (d.axis n).mot.v :=
  ⟨((ready.setAxis 0 { good with cmd := .field, set := { vmax := 0x10000, vstart := 0x100, vstop := 0x80, a1 := 0x200, a2 := 0x100, d2 := 0x100, d1 := 0x200 }, st := .moving, mot := { mode := .profile, act := some 1, v := 0x100000, dir := 1, target := 1 } }).setCfg Fl.motionDmaxDmax 0 0), 0, (by decide +kernel), (by unfold Dev.runsProfile; decide +kernel), (by decide +kernel)⟩

/-! ## Ill-formed commands, one for each check -/

/-- Instants at the end of the longest tick and after it (R17, R36). -/
def timed (off : Nat) : List Instr :=
  [.hifKick 0 off, .doorbellEnable 1 off, .ringEnable .sq 127 1 off, .ringDisable .bq 3 0 off, .rebase 63 0 off, .cmdEngage 7 0 off,
   .cmdDisengage 7 0 off, .stepEdge 3 true ⟨1, 3, 3⟩ off, .unitRefWrite 511 0 off, .tickRateChange 0 off, .feedbackEdge 63 true true true ⟨1, off⟩,
   .indexLatch ⟨63, 1, off⟩, .switchLatch 63 true ⟨true, 1, off⟩, .bemfCrossing 63 2 true ⟨0, off⟩,
   .fltAck 0 off, .fltClear 0 off, .mainsEdge ⟨0, 0, off⟩, .prechargeEnd ⟨63, off⟩, .monUrgent 0 off, .canEnable 3 1 off, .canDisable 3 0 off] ++
  [.recover 3 0 off, .flush 3 0 off, .password 0 off, .challenge 0 off, .response 0 off, .relock 0 off, .setpw 0 off, .nvsRead 0 off,
   .nvsProgram 0 off, .nvsErase 0 off, .movementSwitchOff 7 0 off, .movementSwitchOn 7 0 off, .hubDomainSwitch 0 off,
   .registerWrite 0 0 off]

theorem test_wf_instant : (timed 79999).all Instr.wellFormed = true ∧ (timed 80000).all (fun i => !i.wellFormed) = true := by
  decide +kernel

/-- The host area has 196 words (R53), a cell block 16 (R345), a movement 8 axes, a die 6 or 4 sensors (R476). -/
theorem test_wf_lengths :
    (Instr.doorbellReadComplete (some (List.replicate 195 0))).wellFormed = false ∧
    (Instr.tickBoundary [.doorbell (some (List.replicate 197 0))] 0).wellFormed = false ∧
    (Instr.remontoireRead 0 0 0 (some (List.replicate 15 0))).wellFormed = false ∧
    (Instr.pwmBoundary 0 false [] 0 0).wellFormed = false ∧ (Instr.calibrationEnd 0 []).wellFormed = false ∧
    (Instr.tempMeasurement 7 (List.replicate 4 ⟨0, false⟩)).wellFormed = false ∧
    (Instr.tempMeasurement 8 (List.replicate 6 ⟨0, false⟩)).wellFormed = false ∧
    (Instr.tempMeasurement 8 (List.replicate 4 ⟨0, false⟩)).wellFormed = true ∧
    (Instr.canDataRead 0 0 (some (List.replicate 65 0))).wellFormed = false ∧
    (Instr.shortDidt 0 ⟨⟨0, [0, 0, 0], 0⟩, ⟨0, [[], [], [], []]⟩, 0, [0, 0, 0, 0]⟩).wellFormed = false ∧
    (Instr.shuntOc ⟨0, 0, ⟨0, [[], [], []]⟩, 0, [0, 0, 0, 0]⟩).wellFormed = false ∧ (Instr.interlockStuck 0 ⟨0, ⟨0, [[], [], [], []]⟩, 0, []⟩).wellFormed = false ∧
    (Instr.offtestEnd 0 []).wellFormed = false := by decide +kernel

/-- Ring numbers (R4) and addresses. -/
theorem test_wf_ranges :
    (Instr.ringEnable .cq 64 1 0).wellFormed = false ∧ (Instr.ringDisable .bq 4 0 0).wellFormed = false ∧
    (Instr.registerWrite 2 0 0).wellFormed = false ∧ (Instr.unmappedAccess true 0xFFFFD).wellFormed = false := by decide +kernel

/-- Frames that no bus carries (R76): a long identifier without IDE, bit-rate switch or error state in a classic frame, a remote
frame in CAN FD, more bytes than the length code. -/
theorem test_wf_frames :
    ([⟨0x800, false, false, false, false, false, 0, []⟩, ⟨0, false, false, true, false, false, 0, []⟩,
      ⟨0, false, false, false, true, false, 0, []⟩, ⟨0, false, true, false, false, true, 0, []⟩,
      ⟨0, false, false, false, false, false, 1, []⟩, ⟨0, false, false, false, false, true, 1, [0]⟩] : List Frame).all
      (fun f => !(Instr.canFrameReceived 0 f).wellFormed) = true ∧
    (Instr.canFrameReceived 0 ⟨0x7FF, false, true, true, false, false, 9, List.replicate 12 0⟩).wellFormed = true := by
  decide +kernel

/-! ## Single steps and values, each with the rule or example that gives the expected result -/

/-- The block after a command. -/
def after (c : Instr) (d : Dev) : Dev := match exec c (st d) with
  | .next t => t.dev
  | _ => {}

/-- The status, unit and result word of the last record in completion ring 0. -/
def lastRec (d : Dev) : Option (Status × Nat × Word) := (d.cq 0).queue.getLast?.map fun r => (r.status, r.unit.toNat, r.result)

/-- On an empty queue a step leaves the block as it is (log entry 43). -/
theorem test_empty_queue : step (st up) = .next (st up) := rfl

/-- The register map of R537 and R549 to R553. -/
theorem test_map :
    decodeOffset 0x17F8 = some (.sqCfg, 127) ∧ decodeOffset 0x1FF0 = some (.cqDropped, 63) ∧
    decodeOffset 0x7FEC = some (.unitRef, 511) ∧ decodeOffset 0xBFFC = some (.strikeLast, 1023) ∧
    decodeOffset 0xDC18 = some (.canErrlog, 3) ∧ decodeOffset 0xE724 = some (.gateMvstatus, 7) ∧
    decodeOffset 0x1FC60 = some (.axisStatus, 63) ∧ decodeOffset 0x51C = some (.fltAlert, 0) := by decide +kernel

/-- BIND of the half-platform's door 5 ("Worked example: building a half-platform"): group 69 with the leaves 10 and 11, two members,
created; the reference is AX10. -/
theorem test_bind_door5 :
    let d := after (.bind 0 0 ⟨0x05FF0040, 0xA, 0x45, 0, 0x800, 0, 0, 0⟩) up
    lastRec d = some (.ok, 10, 0x82) ∧ (d.unit 69).leaf = 0xC00 ∧ (d.unit 69).members = [10, 11] ∧ d.cfg Fl.unitRefRef 69 = 10 := by
  decide +kernel

/-- Refusals of R60 with their result words: an unknown opcode, a reserved bit of DW7, a closed completion ring, an absent unit. -/
theorem test_refusals :
    lastRec (after (.badOpcode 0 0 ⟨0x00FF0070, 0, 0, 0, 0, 0, 0, 0⟩) up) = some (.badOpcode, 0, 0x70) ∧
    lastRec (after (.nop 0 0 ⟨0x00FF0062, 0, 0, 0, 0, 0, 0, 0x80000000⟩) up) = some (.reservedSet, 0, 0x1F07) ∧
    lastRec (after (.nop 0 0 ⟨0x00010062, 0, 0, 0, 0, 0, 0, 0⟩) up) = some (.badCq, 0, 1) ∧
    lastRec (after (.arm 0 0 ⟨0x00FF0024, 200, 0, 0, 0, 0, 0, 0⟩) up) = some (.unitAbsent, 200, 200) := by decide +kernel

/-- MOVE refused while the axis moves, while it is unarmed (R121), and for a vmax of 0 in DW3. -/
theorem test_move_refused :
    lastRec (after (.move 0 0 ⟨0x00FF0001, 0, 0, 0x10000, 1, 1, 1, 1⟩) moving) = some (.busy, 0, 0) ∧
    lastRec (after (.move 0 0 ⟨0x00FF0001, 1, 0, 0x10000, 1, 1, 1, 1⟩) up) = some (.notArmed, 1, 0) ∧
    lastRec (after (.move 0 0 ⟨0x00FF0001, 0, 0, 0, 1, 1, 1, 1⟩) ready) = some (.paramRange, 0, 3) := by decide +kernel

/-- STOP of an axis that does not move ends at once with OK (R128). -/
theorem test_stop_idle : lastRec (after (.stop 0 0 ⟨0x00FF0002, 0, 0, 0, 0, 0, 0, 0⟩) ready) = some (.ok, 0, 0) := by decide +kernel

/-- Period lengths at 10 kHz and K = 3 (R269): 8,333, 8,333 and 8,334 counts. -/
theorem test_periods : (span 0 3).map (periodLen 25000 3) = [8333, 8333, 8334] := by decide

/-- A duty of 0.4 in a period of 266,688 units ("Example: one phase-leg period"); 0xC000 of an X leg at 20 kHz; 18,750 raw counts there. -/
theorem test_high_times :
    phaseHigh (BitVec.ofNat 24 (4 * 2 ^ 24 / 10)) 266688 = 106675 ∧ xHigh 0xC000 false 400000 = 300000 ∧
    xHigh 18750 true 800000 = 600000 ∧ xHigh 18750 true 400000 = 400000 ∧ beyond 18750 true 400000 = true := by decide +kernel

/-- Hash values: SHA-256 of "abc" (FIPS 180-4), the CRC of "123456789" (IEEE 802.3). -/
theorem test_hashes :
    ofBytes (sha256 [0x61, 0x62, 0x63]) = 0xBA7816BF8F01CFEA414140DE5DAE2223B00361A396177A9CB410FF61F20015AD ∧
    crc32 [0x31, 0x32, 0x33, 0x34, 0x35, 0x36, 0x37, 0x38, 0x39] = 0xCBF43926 := by decide +kernel

/-- Quadrature (R365): A leads B upward; one count is 1.0, which is 256 in pos32.8. -/
theorem test_quadrature :
    let d := after (.feedbackEdge 0 true false false ⟨1, 0⟩) ((up.setMva 0 { fb := { init := true } }).setCfg Fl.fbCfgFilt 0 1)
    d.counter 0 = 256 ∧ (after (.feedbackEdge 0 true true false ⟨1, 0⟩) d).counter 0 = 512 := by decide +kernel

/-- Data length codes of CAN FD (R76). -/
theorem test_dlc : (span 8 8).map (fun n => dlcBytes true (BitVec.ofNat 4 n)) = [8, 12, 16, 20, 24, 32, 48, 64] ∧
    dlcBytes false 15 = 8 := by decide

/-- A mains edge 20 ms after the reference counts and gives the period of 8,000,000 hub clocks (R21). -/
theorem test_mains :
    let d := after (.mainsEdge ⟨10000, 10000, 0⟩) { up with time := { up.time with start := 8000000, mainsRef := some 0 } }
    d.time.mainsCount = 1 ∧ d.time.mainsPeriod = 8000000 ∧ d.time.mainsValid = true := by decide +kernel

/-- A di/dt event of the bus-side sense while only the high side of the U leg of AX12 is on: its class, its flag and the pair that GTR1 presents (chapter 14's worked example). -/
theorem test_short :
    let d := after (.shortDidt 12 ⟨⟨5000, [0, 0, 0, 0], 0⟩, ⟨5000, [[], [], [], []]⟩, 100000, [0, 0, 0, 0]⟩)
      (up.setMva 12 { drive := .field, legs := let l := { allLegs .low with u := .high }; { modes := l, span := { modes := l } } })
    (SMap.get d.flt.mvFlags 12 0).getLsbD (Src.row .shortDidt).bit = true ∧ (SMap.find d.flt.pres 1).isSome = true ∧
    (SMap.find d.flt.pres 1).map (·.unit) = some 12 ∧ (d.mva 12).drive = .sto := by decide +kernel

/-- STO pin A of MV1 takes the torque of AX8 to AX15 and of no other axis (R435, R438). -/
theorem test_sto :
    let d := after (.stoActive 1 false) (each (span 0 64) (fun n d => d.setMva n { drive := .field }) up)
    (span 0 64).filter (fun n => (d.mva n).drive != .field) = span 8 8 := by decide +kernel

/-- A device reset closes the scopes and keeps the positions (R463, R532). -/
theorem test_reset :
    let d := after (.deviceReset .perst 255) (up.setAxis 5 { lat := { pos := 77 } })
    d.hw Fl.lockStatusScopes 0 = 0 ∧ (d.axis 5).lat.pos = 77 ∧ d.hw Fl.rstStatusCause 0 = 1 := by decide +kernel

/-- A wrong password counts as a failure and opens nothing (R461, R463). -/
theorem test_wrong_password :
    let d := after .lockCommandDone ({ up with lock := { up.lock with run := some (.password 1), verifier := some 0 } }.setHw
      Fl.lockStatusScopes 0 0)
    d.hw Fl.lockStatusScopes 0 = 0 ∧ d.hw Fl.lockStatusFails 0 = up.hw Fl.lockStatusFails 0 + 1 := by decide +kernel

/-- No row of the table has bits, so no word spells a command. -/
theorem test_no_words : decodeTableWord 32 0 = none ∧ State.reset.withFetchWord 32 0 = State.reset := ⟨rfl, rfl⟩

end Sys2Proof.Tests
end

section
/-! Proofs for chapter 2 (host rings and doorbells) and the accesses of BAR0. -/

namespace Sys2Proof.Machine

/-! ## Opcodes -/

/-- Every opcode value of R61 reads back as its opcode. -/
@[simp] theorem Op.ofCode_code (o : Op) : Op.ofCode o.code = some o := by
  cases o <;> decide

@[simp] theorem opcode_withOpcode (o : Op) (x : Desc) : (withOpcode o x).opcode = o.code := by
  apply BitVec.eq_of_getLsbD_eq
  intro k hk
  simp [Desc.opcode, withOpcode, putBits_testBit, hk, BitVec.testBit_toNat]

namespace Dev

/-! ## Dispatch of a descriptor that completes or is refused at once -/

/-- A descriptor that its ring can give and that fails a check of R60 is refused, its slot and credits taken. -/
theorem dispatch_check60_fails (d : Dev) (o : Op) (i : Nat) (slot : BitVec 16) (x : Desc) (act : Ctx → Dev → Dev)
    (st : Status) (w : Nat) (hg : d.canGive i x = true) (hc : d.check60 (d.sq i) o x = some (st, w)) :
    dispatch o i slot x act d =
      (d.taken i slot x).refuse (d.ownerOf i slot x) (decide (1 < d.need (d.sq i) x)) st (recUnit o x) w := by
  have ht : (giveSlot i slot (reserve (d.ownerOf i slot x).cq (d.need (d.sq i) x) d)).check60 (d.sq i) o x = some (st, w) :=
    (check60_taken d i slot x x (d.sq i) o).trans hc
  unfold dispatch
  rw [if_neg (by simp [hg])]
  dsimp only
  rw [ht]
  rfl

/-- Without a credit for an interim record, a refusal is the final record alone (R64). -/
theorem refuse_single (d : Dev) (o : Owner) (st : Status) (unit w : Nat) :
    d.refuse o false st unit w = d.finish o st unit (BitVec.ofNat 32 w) := rfl

/-- The final record of a descriptor leaves its slot returned, and the other rings (R50). -/
theorem slotTaken_finish_taken (d : Dev) (i : Nat) (slot : BitVec 16) (x : Desc) (st : Status) (unit : Nat) (w : Word) :
    d.slotTaken ((d.taken i slot x).finish (d.ownerOf i slot x) st unit w) i slot := by
  refine ⟨?_, fun j hj => ?_⟩
  · rw [finish_sq, taken, giveSlot_sq, reserve_sq]
  · rw [finish_sq, taken, giveSlot_sq_other _ _ hj, reserve_sq]

/-- Where dispatch reserved a credit, the final record joins its active completion ring (R63, R64). -/
theorem recordAdded_finish_taken (d : Dev) (i : Nat) (slot : BitVec 16) (x : Desc) (st : Status) (unit : Nat) (w : Word)
    (hr : d.recorded i x) (hn : 0 < d.need (d.sq i) x) :
    d.recordAdded ((d.taken i slot x).finish (d.ownerOf i slot x) st unit w) i x (d.finalOf i slot x st unit w) := by
  have ha : ((d.taken i slot x).cq (d.ownerOf i slot x).cq).active = true := by
    rw [taken, giveSlot_cq, reserve_active]; exact hr
  have hc : (d.ownerOf i slot x).credit = true := decide_eq_true hn
  unfold recordAdded
  rw [finish_credit _ _ _ _ _ ha hc]
  show ((setCq _ (d.recordCq (d.sq i) x) _).cq (d.recordCq (d.sq i) x)).queue = _
  rw [cq_setCq]
  show ((d.taken i slot x).cq (d.recordCq (d.sq i) x)).queue ++ _ = _
  rw [taken, giveSlot_cq, reserve_queue, finalOf, decide_eq_true hn]
  rfl

/-- A descriptor that only leaves its final record changes the rings and the drop counts. -/
theorem finish_taken_frame (d : Dev) (i : Nat) (slot : BitVec 16) (x : Desc) (st : Status) (unit : Nat) (w : Word) :
    (d.taken i slot x).finish (d.ownerOf i slot x) st unit w =
      { d with hif := ((d.taken i slot x).finish (d.ownerOf i slot x) st unit w).hif,
               regs := { d.regs with hw := ((d.taken i slot x).finish (d.ownerOf i slot x) st unit w).regs.hw } } := by
  rw [finish_frame, taken_frame]

/-! ## NOP (R69) -/

/-- A NOP reserves one credit where its completion ring is active. -/
theorem need_nop (d : Dev) (q : Sq) (x : Desc) :
    d.need q (withOpcode .nop x) = if (d.cq (d.recordCq q (withOpcode .nop x))).active then 1 else 0 := by
  simp only [need, opcode_withOpcode, Op.ofCode_code]
  cases (d.cq (d.recordCq q (withOpcode .nop x))).active <;> simp [Op.safety, Op.endOfAction]

/-- A NOP with a word of DW1 to DW7 that is not 0 has a reserved bit set. -/
theorem firstReserved_nop (x : Desc) (k : Nat) (h1 : 1 ≤ k) (h8 : k < 8) (hk : x.word k ≠ 0) :
    ∃ e, firstReserved .nop x = some e := by
  have hm : reservedMask .nop x k = BitVec.allOnes 32 := by
    cases k with
    | zero => omega
    | succ n => rfl
  have hall : x.word k &&& reservedMask .nop x k = x.word k := by rw [hm, BitVec.and_allOnes]
  have hf : ((span 0 8).find? fun j => (x.word j &&& (reservedMask .nop x j ||| if j = 0 then 0x800 else 0)) ≠ 0).isSome := by
    rw [List.find?_isSome]
    refine ⟨k, by simp [h8], ?_⟩
    simpa [show k ≠ 0 by omega, hall] using hk
  obtain ⟨j, hj⟩ := Option.isSome_iff_exists.mp hf
  exact ⟨_, by rw [firstReserved, hj]; rfl⟩

/-- Such a NOP fails the check of its reserved bits before any other (check 2 of R60). -/
theorem check60_nop_reserved (d : Dev) (q : Sq) (x : Desc) (k : Nat) (h1 : 1 ≤ k) (h8 : k < 8) (hk : x.word k ≠ 0) :
    ∃ w, d.check60 q .nop x = some (.reservedSet, w) := by
  obtain ⟨⟨j, b⟩, h⟩ := firstReserved_nop x k h1 h8 hk
  exact ⟨j + b * 256, by rw [check60, h]⟩

/-- What the final record of a NOP leaves behind: its slot returned, the record, and nothing changed but the rings and the drop
counts. -/
theorem finish_nop (d : Dev) (i : Nat) (slot : BitVec 16) (x y : Desc) (st : Status) (w : Word) (hy : y = withOpcode .nop x) :
    ∃ t, (d.taken i slot y).finish (d.ownerOf i slot y) st 0 w = t ∧ d.slotTaken t i slot ∧
      (d.recorded i y → d.recordAdded t i y (d.finalOf i slot y st 0 w)) ∧
      t = { d with hif := t.hif, regs := t.regs } ∧ t.regs = { d.regs with hw := t.regs.hw } := by
  have hframe := finish_taken_frame d i slot y st 0 w
  refine ⟨_, rfl, slotTaken_finish_taken d i slot y st 0 w, fun hr => ?_, ?_, ?_⟩
  · have hneed : d.need (d.sq i) y = 1 := by
      subst hy
      rw [need_nop]
      exact if_pos hr
    exact recordAdded_finish_taken d i slot y st 0 w hr (by omega)
  · rw [hframe]
  · rw [hframe]

end Dev
end Sys2Proof.Machine

namespace Sys2Proof.Proofs
open Sys2Proof Sys2Proof.Machine

/-- Settles O5: dispatch of a NOP takes its slot and its one credit, and the final record is all that follows. -/
theorem nopCompletes : Obligations.NopCompletes := by
  unfold Obligations.NopCompletes
  constructor
  · intro s i slot x y hy hadm
    obtain ⟨d, hd, hslot, hrec, hdev, hregs⟩ := s.dev.finish_nop i slot x y .ok 0 hy
    refine ⟨d, ?_, hslot, hrec, hdev, hregs⟩
    show s.onDev (Dev.dispatch .nop i slot (withOpcode .nop x) Dev.opNop) = _
    rw [State.onDev, ← hy, Dev.dispatch_admits _ _ _ _ _ _ hadm, ← hd]
    rfl
  · intro s i slot x y k hy hgive h1 h8 hk
    obtain ⟨w, hw⟩ := s.dev.check60_nop_reserved (s.dev.sq i) y k h1 h8 hk
    obtain ⟨d, hd, hslot, hrec, hdev, hregs⟩ := s.dev.finish_nop i slot x y .reservedSet (BitVec.ofNat 32 w) hy
    refine ⟨d, ?_, hslot, fun hr => ⟨_, hrec hr⟩, hdev, hregs⟩
    have hone : decide (1 < s.dev.need (s.dev.sq i) y) = false := by
      subst hy
      rw [Dev.need_nop]
      split <;> rfl
    show s.onDev (Dev.dispatch .nop i slot (withOpcode .nop x) Dev.opNop) = _
    rw [State.onDev, ← hy, Dev.dispatch_check60_fails _ _ _ _ _ _ _ _ hgive hw, hone, Dev.refuse_single, ← hd]
    rfl

/-! ## A domain that becomes ready with the write (R508, R537)

A write of a register is judged at its instant: a hub domain whose 20 µs have passed by then serves it. The statement of O59 takes
the domain as it was at the command before, so a domain that is coming up refutes it. -/

/-- The outcome of a register write is the host's write of BAR0. -/
theorem write_eq_of_exec_registerWrite {s t : State} {a : BitVec 20} {v : Word} {off : Nat}
    (h : exec (.registerWrite a v off) s = .next t) : s.write a.toNat v off = t := Host.Outcome.next.inj h

/-- The block in operation at the start of a tick: ticks running, image loaded, every hub domain on. -/
def operating : State :=
  { State.reset with
    dev := (({ sys := { released := true, ticking := true } } : Dev).setHw Fl.imgStatusDone 0 1).setHw Fl.pwrStatusHubOn 0 63 }

/-- PWR_CTRL has switched the MOTION domain off and on again at the start of the tick. -/
def motionComing : State :=
  (operating.write (Reg.offset .pwrCtrl 0) 0x3DFF 0).write (Reg.offset .pwrCtrl 0) 0x3FFF 0

/-- The offset of MOTION_DMAX of axis 0. -/
def dmaxOffset : BitVec 20 := 0x10000

/-- Before the write the domain is off and serves nothing; it is due 8,000 hub clocks (20 µs) into the tick (R508). -/
theorem motionComing_off :
    motionComing.dev.barOpen = true ∧ motionComing.dev.serves .motionDmax dmaxOffset.toNat = false ∧
      motionComing.dev.sys.hubAt = [(1, 8000)] := by decide +kernel

/-- A write of MOTION_DMAX at the instant at which the domain is ready is served: it takes its value and sets no OFF_DOMAIN. -/
theorem write_motionComing :
    (motionComing.write dmaxOffset.toNat 5 8000).dev.hw Fl.regStatusOffDomain 0 = 0 ∧
      (motionComing.write dmaxOffset.toNat 5 8000).dev.cfg Fl.motionDmaxDmax 0 = 5 := by decide +kernel

/-- Refutes O59: a write of MOTION_DMAX at the instant at which the MOTION domain, off until then, is ready sets no OFF_DOMAIN,
where the clause on domains that are off wants it set. -/
theorem not_accessesAndHalves : ¬ Obligations.AccessesAndHalves := by
  unfold Obligations.AccessesAndHalves
  rintro ⟨-, -, -, -, hoff, -⟩
  obtain ⟨hbar, hserves, -⟩ := motionComing_off
  obtain ⟨d, hd, hflag, -⟩ :=
    hoff motionComing dmaxOffset 5 8000 0 .motionDmax hbar (by decide) (by decide +kernel) rfl hserves
  obtain ⟨hclear, -⟩ := write_motionComing
  rw [write_eq_of_exec_registerWrite hd] at hclear
  exact absurd (hclear.symm.trans hflag) (by decide)

end Sys2Proof.Proofs
end

section
/-! Proofs for chapter 4 (motion profiles). -/

namespace Sys2Proof.Machine

/-! ## Loops over the axes of a target -/

/-- The numbers lo to lo + n - 1 are the library's range. -/
theorem span_eq_range' (lo n : Nat) : span lo n = List.range' lo n := by
  induction n generalizing lo with
  | zero => rfl
  | succ n ih => rw [span, ih, List.range'_succ]

/-- The numbers of the set bits of a mask are distinct. -/
theorem nodup_bitsSet (n w : Nat) : (bitsSet n w).Nodup := by
  rw [bitsSet, span_eq_range']
  exact (List.nodup_range' (step := 1)).filter _

/-- No axis fails a check that each of them passes. -/
theorem axisFails_eq_nil (axes : List Nat) (chk : Nat → Option (Status × Nat)) (h : ∀ n ∈ axes, chk n = none) :
    axisFails axes chk = [] :=
  List.filterMap_eq_nil_iff.mpr fun n hn => by rw [h n hn]; rfl

/-! ## Reserved bits of a layout -/

/-- A word with a bit set that a mask covers is not 0 under the mask. -/
theorem and_ne_zero_of_bit (w m : Word) (j : Nat) (hw : bit w j = true) (hm : m.getLsbD j = true) : w &&& m ≠ 0 := by
  intro h
  have hbit : (w &&& m).getLsbD j = true := by rw [BitVec.getLsbD_and, show w.getLsbD j = true from hw, hm]; rfl
  rw [h] at hbit
  simp at hbit

/-- A field that is not 0 has a bit set. -/
theorem exists_bit_of_bits_ne_zero (w : Word) (lo n : Nat) (h : bits w lo n ≠ 0) : ∃ j < n, bit w (lo + j) = true := by
  obtain ⟨j, hj⟩ := Nat.exists_testBit_of_ne_zero h
  rw [bits_testBit, Bool.and_eq_true, decide_eq_true_eq] at hj
  exact ⟨j, hj⟩

/-- A word with a field that is not 0 is not 0 under a mask that covers the field. -/
theorem and_ne_zero_of_bits (w m : Word) (lo n : Nat) (h : bits w lo n ≠ 0) (hm : ∀ j < n, m.getLsbD (lo + j) = true) :
    w &&& m ≠ 0 := by
  obtain ⟨j, hj, hbit⟩ := exists_bit_of_bits_ne_zero w lo n h
  exact and_ne_zero_of_bit w m (lo + j) hbit (hm j hj)

/-- A word with a reserved bit set gives the check of reserved bits something to find. -/
theorem firstReserved_of_word (o : Op) (x : Desc) (k : Nat) (hk : k < 8) (h : x.word k &&& reservedMask o x k ≠ 0) :
    ∃ e, firstReserved o x = some e := by
  have hor (m : Word) : x.word k &&& (reservedMask o x k ||| m) ≠ 0 := fun h0 => h <| by
    rw [BitVec.and_or_distrib_left] at h0
    exact (BitVec.or_eq_zero_iff.mp h0).1
  have hf : ((span 0 8).find? fun j => (x.word j &&& (reservedMask o x j ||| if j = 0 then 0x800 else 0)) ≠ 0).isSome := by
    rw [List.find?_isSome]
    exact ⟨k, by simp [hk], decide_eq_true (hor _)⟩
  obtain ⟨j, hj⟩ := Option.isSome_iff_exists.mp hf
  exact ⟨_, by rw [firstReserved, hj]; rfl⟩

/-- The reserved bits of a SETPROFILE (R123): DW0[15:12], DW1[11:9], DW2[31] and DW3[31:20]. -/
theorem firstReserved_setprofile (x : Desc)
    (h : bits x.w0 12 4 ≠ 0 ∨ bits x.w1 9 3 ≠ 0 ∨ bit x.w2 31 = true ∨ bits x.w3 20 12 ≠ 0) :
    ∃ e, firstReserved .setprofile x = some e := by
  obtain h | h | h | h := h
  · exact firstReserved_of_word _ x 0 (by decide) (and_ne_zero_of_bits x.w0 0xF000 12 4 h (by decide))
  · exact firstReserved_of_word _ x 1 (by decide) (and_ne_zero_of_bits x.w1 0xE00 9 3 h (by decide))
  · exact firstReserved_of_word _ x 2 (by decide) (and_ne_zero_of_bit x.w2 0x80000000 31 h (by decide))
  · exact firstReserved_of_word _ x 3 (by decide) (and_ne_zero_of_bits x.w3 0xFFF00000 20 12 h (by decide))

namespace Dev

/-- A reserved bit fails the checks of R60 before any other (check 2 of R60). -/
theorem check60_of_firstReserved (d : Dev) (q : Sq) (o : Op) (x : Desc) (h : ∃ e, firstReserved o x = some e) :
    ∃ w, d.check60 q o x = some (.reservedSet, w) := by
  obtain ⟨⟨k, b⟩, h⟩ := h
  exact ⟨k + b * 256, by rw [check60, h]⟩

/-! ## Descriptors with one record -/

/-- An opcode that is not safety-directed and ends in its dispatch tick reserves one credit where its completion ring is active
(R63, R64). -/
theorem need_of_single (d : Dev) (q : Sq) (o : Op) (x : Desc) (hs : o.safety = false) (he : o.endOfAction = false) :
    d.need q (withOpcode o x) = if (d.cq (d.recordCq q (withOpcode o x))).active then 1 else 0 := by
  simp only [need, opcode_withOpcode, Op.ofCode_code, hs, he]
  cases (d.cq (d.recordCq q (withOpcode o x))).active <;> simp

/-- A setting of a device-driven field leaves the registers at other offsets. -/
theorem find_hw_setHw (d : Dev) (f : Fld) (i v : Nat) {a : Nat} (h : a ≠ f.reg.offset i) :
    SMap.find (d.setHw f i v).regs.hw a = SMap.find d.regs.hw a := SMap.find_set_other _ _ h

/-- A produced record touches no register but its ring's drop count. -/
theorem find_hw_produce (d : Dev) (i : Nat) (r : CRec) {a : Nat} (h : a ≠ Reg.offset .cqDropped i) :
    SMap.find (d.produce i r).regs.hw a = SMap.find d.regs.hw a := by
  have hdrop : SMap.find (d.countDrop Fl.cqDroppedCount i 1).regs.hw a = SMap.find d.regs.hw a := find_hw_setHw d _ i _ h
  unfold produce
  dsimp only
  split
  · split
    · rfl
    · exact hdrop
  · split
    · split
      · rfl
      · exact hdrop
    · rfl

/-- The final record of an owner touches no register but its ring's drop count. -/
theorem find_hw_finish (d : Dev) (o : Owner) (st : Status) (unit : Nat) (w : Word) {a : Nat}
    (h : a ≠ Reg.offset .cqDropped o.cq) : SMap.find (d.finish o st unit w).regs.hw a = SMap.find d.regs.hw a := by
  unfold finish
  dsimp only
  split
  · split
    · exact find_hw_produce d _ _ h
    · rfl
  · exact find_hw_produce d _ _ h

/-- A descriptor that only leaves its final record touches no register but its ring's drop count. -/
theorem regsBut_finish_taken (d : Dev) (i : Nat) (slot : BitVec 16) (x : Desc) (st : Status) (unit : Nat) (w : Word) :
    d.regsBut ((d.taken i slot x).finish (d.ownerOf i slot x) st unit w) [Reg.offset .cqDropped (d.recordCq (d.sq i) x)] := by
  refine ⟨?_, fun a ha => ?_⟩
  · rw [finish_taken_frame]
  · exact find_hw_finish (d.taken i slot x) _ st unit w fun h => ha (List.mem_singleton.mpr h)

/-- A produced record does not see the axes. -/
theorem produce_hax (d : Dev) (i : Nat) (r : CRec) (h : SMap HubAxis) :
    ({ d with hax := h } : Dev).produce i r = { d.produce i r with hax := h } := by
  have hcq : ({ d with hax := h } : Dev).cq i = d.cq i := rfl
  unfold produce
  rw [hcq]
  dsimp only
  split_ifs <;> rfl

/-- The final record of an owner does not see the axes. -/
theorem finish_hax (d : Dev) (o : Owner) (st : Status) (unit : Nat) (w : Word) (h : SMap HubAxis) :
    ({ d with hax := h } : Dev).finish o st unit w = { d.finish o st unit w with hax := h } := by
  unfold finish
  dsimp only
  split
  · split
    · exact produce_hax d _ _ h
    · rfl
  · exact produce_hax d _ _ h

/-! ## Updates of the axes of a target -/

/-- A loop that updates axes changes nothing else. -/
theorem each_modAxis_frame (g : HubAxis → HubAxis) (l : List Nat) (d : Dev) :
    each l (fun n d => d.modAxis n g) d = { d with hax := (each l (fun n d => d.modAxis n g) d).hax } :=
  each_keeps (fun t => t = { d with hax := t.hax }) _ l d (fun n _ t ht => by rw [ht]; rfl) rfl

/-- A loop that updates axes does not see the rings. -/
theorem each_modAxis_hif (g : HubAxis → HubAxis) (l : List Nat) (d : Dev) (h : Hif) :
    each l (fun n d => d.modAxis n g) { d with hif := h } = { each l (fun n d => d.modAxis n g) d with hif := h } := by
  induction l generalizing d with
  | nil => rfl
  | cons k l ih => exact ih (d.modAxis k g)

/-- A loop over distinct axes updates each of them once, and no other. -/
theorem axis_each_modAxis (g : HubAxis → HubAxis) (l : List Nat) (hl : l.Nodup) (d : Dev) (n : Nat) :
    (each l (fun n d => d.modAxis n g) d).axis n = if n ∈ l then g (d.axis n) else d.axis n := by
  induction l generalizing d with
  | nil => rfl
  | cons k l ih =>
    obtain ⟨hk, hl⟩ := List.nodup_cons.mp hl
    rw [each_cons, ih hl]
    by_cases hn : n = k
    · subst hn
      simp [hk]
    · simp [hn, axis_modAxis_other d g hn]

/-! ## SETPROFILE (R123) -/

/-- The axis with the masked fields of a SETPROFILE in its stored set. -/
def axisProfile (y : Desc) (a : HubAxis) : HubAxis := { a with set := profileSet a.set y }

/-- The block with the masked fields of a SETPROFILE in the stored set of every axis of its target. -/
def writeProfile (y : Desc) (d : Dev) : Dev := each (d.leaves y.unit) (fun n d => d.modAxis n (axisProfile y)) d

/-- The write changes the axes only. -/
theorem writeProfile_frame (y : Desc) (d : Dev) : d.writeProfile y = { d with hax := (d.writeProfile y).hax } :=
  each_modAxis_frame _ _ d

/-- The write does not see that a slot has been taken. -/
theorem writeProfile_taken (d : Dev) (i : Nat) (slot : BitVec 16) (x y : Desc) :
    (d.taken i slot x).writeProfile y = { d.taken i slot x with hax := (d.writeProfile y).hax } := by
  have h : (d.taken i slot x).writeProfile y = { d.writeProfile y with hif := (d.taken i slot x).hif } :=
    each_modAxis_hif _ _ d _
  rw [writeProfile_frame, h]

theorem axis_writeProfile (y : Desc) (d : Dev) (n : Nat) :
    (d.writeProfile y).axis n = if n ∈ d.leaves y.unit then axisProfile y (d.axis n) else d.axis n :=
  axis_each_modAxis _ _ (nodup_bitsSet 64 _) d n

/-- A SETPROFILE that leaves valid sets writes them and completes (R115, R123). -/
theorem opSetprofile_valid (c : Ctx) (d : Dev)
    (h : ∀ n ∈ d.leaves c.x.unit, setFault (profileSet (d.axis n).set c.x) (profileWrites c.x) = none) :
    opSetprofile c d = c.okAxes 0 (d.writeProfile c.x) := by
  unfold opSetprofile
  dsimp only
  rw [axisFails_eq_nil _ _ fun n hn => by rw [h n hn]; rfl]
  rfl

/-- A SETPROFILE whose completion ring is active has a credit. -/
theorem need_setprofile (d : Dev) (i : Nat) (x y : Desc) (hy : y = withOpcode .setprofile x) (hr : d.recorded i y) :
    0 < d.need (d.sq i) y := by
  subst hy
  have hone : d.need (d.sq i) (withOpcode .setprofile x) = 1 :=
    (need_of_single d _ .setprofile x rfl rfl).trans (if_pos hr)
  omega

/-- A SETPROFILE needs no credit for an interim record. -/
theorem not_interim_setprofile (d : Dev) (q : Sq) (x y : Desc) (hy : y = withOpcode .setprofile x) :
    decide (1 < d.need q y) = false := by
  subst hy
  rw [need_of_single d q .setprofile x rfl rfl]
  split <;> rfl

/-- The result word of a SETPROFILE that completes (R100): 0 for an axis unit. -/
def profileResult (y : Desc) (d : Dev) : Word := if y.unit < 64 then 0 else groupResult ((d.leaves y.unit).headD 0) 0

theorem profileResult_of_axis (y : Desc) (d : Dev) (h : y.unit < 64) : d.profileResult y = 0 := if_pos h

/-- A SETPROFILE completes with its final record. -/
theorem okAxes_setprofile (c : Ctx) (d : Dev) (h : c.op = .setprofile) :
    c.okAxes 0 d = d.finish c.owner .ok c.x.unit (d.profileResult c.x) := by
  unfold Ctx.okAxes Ctx.done
  rw [h]
  rfl

/-- An admitted SETPROFILE whose sets are valid leaves its final record, and beside it the axes written. -/
theorem dispatch_setprofile_valid (d : Dev) (i : Nat) (slot : BitVec 16) (y : Desc) (hadm : d.admits .setprofile i y)
    (hvalid : ∀ n ∈ d.leaves y.unit, setFault (profileSet (d.axis n).set y) (profileWrites y) = none) :
    dispatch .setprofile i slot y opSetprofile d =
      { (d.taken i slot y).finish (d.ownerOf i slot y) .ok y.unit (d.profileResult y) with hax := (d.writeProfile y).hax } := by
  have hop := opSetprofile_valid
    { sq := i, ring := d.sq i, slot := slot, x := y, op := .setprofile, owner := d.ownerOf i slot y } (d.taken i slot y) hvalid
  rw [okAxes_setprofile _ _ rfl, writeProfile_taken] at hop
  rw [dispatch_admits _ _ _ _ _ _ hadm, hop]
  exact finish_hax (d.taken i slot y) _ _ _ _ _

/-- A SETPROFILE with a reserved bit of its layout set leaves a final record with RESERVED_SET (R60, R123). -/
theorem dispatch_setprofile_reserved (d : Dev) (i : Nat) (slot : BitVec 16) (x y : Desc) (hy : y = withOpcode .setprofile x)
    (hgive : d.canGive i y = true)
    (hres : bits y.w0 12 4 ≠ 0 ∨ bits y.w1 9 3 ≠ 0 ∨ bit y.w2 31 = true ∨ bits y.w3 20 12 ≠ 0) :
    ∃ w, dispatch .setprofile i slot y opSetprofile d =
      (d.taken i slot y).finish (d.ownerOf i slot y) .reservedSet y.unit w := by
  obtain ⟨w, hw⟩ := d.check60_of_firstReserved (d.sq i) .setprofile y (firstReserved_setprofile y hres)
  refine ⟨BitVec.ofNat 32 w, ?_⟩
  rw [dispatch_check60_fails _ _ _ _ _ _ _ _ hgive hw, not_interim_setprofile d _ x y hy, refuse_single]
  rfl

end Dev

/-- A SETPROFILE is a dispatch of its descriptor under its opcode. -/
theorem exec_setprofile (s : State) (i : Fin 128) (slot : BitVec 16) (x y : Desc) (hy : y = withOpcode .setprofile x) :
    exec (.setprofile i slot x) s = .next { s with dev := Dev.dispatch .setprofile i slot y Dev.opSetprofile s.dev } := by
  subst hy; rfl

end Sys2Proof.Machine

namespace Sys2Proof.Proofs
open Sys2Proof Sys2Proof.Machine

/-- Settles O12: the write to the stored sets and the final record stand beside each other; a bit that R123 reserves fails the check
of reserved bits, which comes first. -/
theorem setprofileWritesMaskedFields : Obligations.SetprofileWritesMaskedFields := by
  unfold Obligations.SetprofileWritesMaskedFields
  constructor
  · intro s i slot x y hy hadm hvalid
    have haxis := Dev.axis_writeProfile y s.dev
    have hexec := exec_setprofile s i slot x y hy
    rw [s.dev.dispatch_setprofile_valid i slot y hadm hvalid] at hexec
    refine ⟨_, hexec, s.dev.slotTaken_finish_taken i slot y .ok y.unit _, fun n hn => ?_, fun n hn => ?_, fun hr hu => ?_, ?_,
      s.dev.regsBut_finish_taken i slot y .ok y.unit _⟩
    · exact ⟨_, (haxis n).trans (if_pos hn), rfl, rfl, rfl, rfl, rfl, rfl, rfl, rfl⟩
    · exact (haxis n).trans (if_neg hn)
    · rw [Dev.profileResult_of_axis y s.dev hu]
      exact s.dev.recordAdded_finish_taken i slot y .ok y.unit 0 hr (s.dev.need_setprofile i x y hy hr)
    · rw [Dev.finish_taken_frame]
  · intro s i slot x y hy hgive hres
    obtain ⟨w, hw⟩ := s.dev.dispatch_setprofile_reserved i slot x y hy hgive hres
    have hexec := exec_setprofile s i slot x y hy
    rw [hw] at hexec
    have hframe := s.dev.finish_taken_frame i slot y .reservedSet y.unit w
    refine ⟨_, hexec, s.dev.slotTaken_finish_taken i slot y .reservedSet y.unit w, fun hr => ⟨w, ?_⟩, ?_, ?_⟩
    · exact s.dev.recordAdded_finish_taken i slot y .reservedSet y.unit w hr (s.dev.need_setprofile i x y hy hr)
    · rw [hframe]
    · rw [hframe]

end Sys2Proof.Proofs
end

section
/-! Proofs for the queue and the store: what every command leaves alone. -/

namespace Sys2Proof.Machine

/-- The outcome is a next state with the same queue, and with the same store where the command does not write it. -/
def keepsQueueAndStore (writes : Bool) (s : State) (o : Host.Outcome State Fault Refusal) : Prop :=
  ∃ t, o = .next t ∧ t.pending = s.pending ∧ (writes = false → t.store = s.store)

/-- A meaning that changes only the block keeps the queue and the store. -/
theorem State.keeps_onDev (w : Bool) (s : State) (f : Dev → Dev) : keepsQueueAndStore w s (s.onDev f) := ⟨_, rfl, rfl, fun _ => rfl⟩

/-- A command without an effect keeps the queue and the store. -/
theorem State.keeps_self (w : Bool) (s : State) : keepsQueueAndStore w s (.next s) := ⟨_, rfl, rfl, fun _ => rfl⟩

/-- A host write of BAR0 keeps the queue and the store. -/
theorem State.keeps_write (w : Bool) (s : State) (a : Nat) (v : Word) (off : Nat) :
    keepsQueueAndStore w s (.next (s.write a v off)) := ⟨_, rfl, rfl, fun _ => rfl⟩

/-- A command that writes the store keeps the queue. -/
theorem State.keeps_writer (s : State) (d : Dev) (m : List Host.Cell) :
    keepsQueueAndStore true s (.next { s with dev := d, store := m }) := ⟨_, rfl, rfl, fun h => nomatch h⟩

/-- Every command keeps the queue, and the store but for the end of a store command and the resets. -/
theorem exec_keeps (c : Instr) (s : State) : keepsQueueAndStore (writesStore c) s (exec c s) := by
  cases c with
  | hifKick | doorbellEnable | rebase | cmdEngage | cmdDisengage | unitRefWrite | tickRateChange | fltAck | fltClear | monUrgent
  | canEnable | canDisable | recover | flush | password | challenge | response | relock | setpw | nvsRead | nvsProgram | nvsErase
  | movementSwitchOff | movementSwitchOn | hubDomainSwitch | registerWrite => exact s.keeps_write _ _ _ _
  | ringEnable k i v off =>
    show keepsQueueAndStore _ s (match ringCfg k i with | some a => _ | none => _)
    split
    · exact s.keeps_write _ _ _ _
    · exact s.keeps_self _
  | ringDisable k i v off =>
    show keepsQueueAndStore _ s (match ringCfg k i with | some a => _ | none => _)
    split
    · exact s.keeps_write _ _ _ _
    · exact s.keeps_self _
  | unmappedAccess w a =>
    show keepsQueueAndStore _ s (if !w then s.onDev (Dev.busRead a.toNat) else _)
    split
    · exact s.keeps_onDev _ _
    · split
      · exact s.keeps_write _ _ _ _
      · exact s.keeps_self _
  | nvsCommandDone | powerOnReset => exact s.keeps_writer _ _
  | deviceReset cause vcl =>
    show keepsQueueAndStore _ s (if !s.dev.canReset cause then .next s else _)
    split
    · exact s.keeps_self _
    · exact s.keeps_writer _ _
  | supplyFault e =>
    show keepsQueueAndStore (Dev.railGone e.rail e.mv) s (if Dev.railGone e.rail e.mv = true then _ else _)
    split
    · next h => rw [h]; exact s.keeps_writer _ _
    · exact s.keeps_onDev _ _
  | _ => exact ⟨_, rfl, rfl, fun _ => rfl⟩

/-- The commands that write the store keep its canonical form. -/
theorem exec_writer_storeOk (c : Instr) (s t : State) (h : exec c s = .next t) (hs : s.storeOk) (hw : writesStore c = true) :
    t.storeOk := by
  cases c with
  | nvsCommandDone v =>
    cases h
    exact Dev.nvsStore_wf s.store v s.dev hs
  | powerOnReset =>
    cases h
    exact Dev.storeAfterReset_wf s.dev s.store hs
  | deviceReset cause vcl =>
    have he : (if !s.dev.canReset cause then .next s else _) = Host.Outcome.next t := h
    split at he
    · cases he; exact hs
    · cases he
      exact Dev.storeAfterReset_wf s.dev s.store hs
  | supplyFault e =>
    have he : (if Dev.railGone e.rail e.mv = true then _ else _) = Host.Outcome.next t := h
    rw [if_pos (show Dev.railGone e.rail e.mv = true from hw)] at he
    cases he
    exact Dev.storeAfterReset_wf s.dev s.store hs
  | _ => cases hw

/-- Every command keeps the canonical form of the store. -/
theorem exec_storeOk (c : Instr) (s t : State) (h : exec c s = .next t) (hs : s.storeOk) : t.storeOk := by
  by_cases hw : writesStore c = true
  · exact exec_writer_storeOk c s t h hs hw
  · obtain ⟨u, hu, -, hstore⟩ := exec_keeps c s
    cases h.symm.trans hu
    unfold State.storeOk
    rwa [hstore (Bool.eq_false_iff.mpr hw)]

/-- A step is the front command on the state with the rest of the queue. -/
theorem step_cons (c : Instr) (rest : List Instr) (s : State) :
    step { s with pending := c :: rest } = exec c { s with pending := rest } := rfl

/-- A step on an empty queue idles. -/
theorem step_nil (s : State) (h : s.pending = []) : step s = .next s := by
  unfold step
  rw [h]

end Sys2Proof.Machine

namespace Sys2Proof.Proofs
open Sys2Proof Sys2Proof.Machine

/-- Settles O1. -/
theorem stepTakesFrontCommand : Obligations.StepTakesFrontCommand := by
  unfold Obligations.StepTakesFrontCommand
  exact ⟨step_cons, step_nil⟩

/-- Settles O4. -/
theorem onlyStoreCommandsWriteStore : Obligations.OnlyStoreCommandsWriteStore := by
  unfold Obligations.OnlyStoreCommandsWriteStore
  exact exec_keeps

/-- Settles O3: an idle step changes nothing, and every command keeps the canonical form. -/
theorem storeStaysCanonical : Obligations.StoreStaysCanonical := by
  unfold Obligations.StoreStaysCanonical
  intro s t hs hstep
  unfold step at hstep
  split at hstep
  · cases hstep; exact hs
  · exact exec_storeOk _ _ _ hstep hs

end Sys2Proof.Proofs
end

section
/-! Proofs for the reset state. -/

namespace Sys2Proof.Machine

/-- The word with every field of a register at the reset value of its row. -/
def fieldReset (r : Reg) : Word := r.fields.foldl (fun w f => putBits w f.lo f.width f.reset) 0

/-- But for four registers, the reset word at an index is that of the register's table. -/
theorem resetWord_eq_fieldReset (r : Reg) (i : Nat) (h : r ∉ [Reg.fltClass, .signReopen, .msixTable, .devInfo]) :
    resetWord r i = fieldReset r := by
  unfold resetWord
  split
  · exact absurd (by decide) h
  · exact absurd (by decide) h
  · exact absurd (by decide) h
  · exact absurd (by decide) h
  · rfl

theorem Reg.mem_all (r : Reg) : r ∈ Reg.all := by cases r <;> decide

/-- The rows of no register table overlap: each field of the reset word reads its own reset value. -/
theorem bits_fieldReset : ∀ r ∈ Reg.all, ∀ f ∈ r.fields, bits (fieldReset r) f.lo f.width = f.reset := by decide +kernel

/-- A map that lists nothing holds the reset value of every field. -/
theorem bits_regWord_nil (r : Reg) (i : Nat) (h : r ∉ [Reg.fltClass, .signReopen, .msixTable, .devInfo]) (f : Field) (hf : f ∈ r.fields) :
    bits (regWord [] r i) f.lo f.width = f.reset := by
  show bits (resetWord r i) f.lo f.width = f.reset
  rw [resetWord_eq_fieldReset r i h]
  exact bits_fieldReset r r.mem_all f hf

end Sys2Proof.Machine

namespace Sys2Proof.Proofs
open Sys2Proof Sys2Proof.Machine

/-- Settles O2: the reset state lists nothing, so that every part is its default and every register field its reset value. -/
theorem resetLeaves : Obligations.ResetLeaves := by
  unfold Obligations.ResetLeaves
  have hdmax : ∀ n, State.reset.dev.cfg Fl.motionDmaxDmax n = 0xFFFFFFFF := fun n =>
    bits_regWord_nil .motionDmax n (by decide) ⟨0, 32, .rw, 0xFFFFFFFF, .live, false⟩ (by decide)
  refine ⟨fun n _ => ⟨rfl, rfl, rfl, rfl, ?_⟩, by decide, by decide, by decide, fun _ _ => rfl, fun _ _ => rfl, fun _ _ => rfl,
    fun _ _ => rfl, by decide, by decide, by decide, by decide, by decide, by decide, by decide, by decide, fun n _ => hdmax n,
    fun r i hr f hf => ⟨bits_regWord_nil r i hr f hf, bits_regWord_nil r i hr f hf⟩, by decide, rfl, rfl⟩
  show bits (resetWord .motionStatus n) _ _ = 1
  rw [resetWord_eq_fieldReset _ n (by decide)]
  decide

end Sys2Proof.Proofs
end

section
/-! What raising a fault source leaves: the reaction of `Dev.reacted`, and which later operations keep it (R408, R411 to R413, R419). -/

namespace Sys2Proof.Machine

/-- The word of a register that was set reads back. -/
@[simp] theorem regWord_set_same (m : SMap Word) (r : Reg) (i : Nat) (w : Word) : regWord (SMap.set m (r.offset i) w) r i = w := by
  simp [regWord]

/-- Every source has its flag below the CLASS of FLT_STICKY (R431). -/
theorem Src.bit_lt (s : Src) : s.row.bit < 29 := by cases s <;> decide

namespace Dev

/-- The flag that a source sets stands in the word of flags. -/
theorem getLsbD_flagWord_same (b c : Nat) (w : Word) (h : b < 29) : (flagWord b c w).getLsbD b = true := by
  unfold flagWord
  dsimp only
  rw [if_pos h, putBits_testBit _ 29 3 _ _ (by decide), if_neg (by omega), putBits_testBit _ _ _ _ _ (by omega), if_pos (by omega)]
  simp

/-- A flag that stands in the word of flags stays. -/
theorem getLsbD_flagWord_of (b c k : Nat) (w : Word) (hk : k < 29) (h : w.getLsbD k = true) :
    (flagWord b c w).getLsbD k = true := by
  unfold flagWord
  dsimp only
  rw [putBits_testBit _ 29 3 _ _ (by decide), if_neg (by omega)]
  split
  · rw [putBits_testBit _ _ _ _ _ (by omega)]
    split
    · simp [show k - b = 0 by omega]
    · exact h
  · exact h

/-- The class of a source depends on the registers in force only. -/
theorem classOf_congr (d t : Dev) (s : Src) (h : t.regs.force = d.regs.force) : t.classOf s = d.classOf s := by
  unfold classOf cfg
  rw [h]

/-! ## What keeps a reaction -/

/-- The drive is without torque by STO. -/
def noTorque (x : MvAxis) : Prop := x.drive = .sto ∨ x.drive = .orphanSto

/-- u keeps the flags of t, its reaction requests, its reactions for phase 2, and its axes without torque. -/
structure keepsReaction (pres : Nat) (t u : Dev) : Prop where
  flags : ∀ n b, b < 29 → (t.flagsAt pres n).getLsbD b = true → (u.flagsAt pres n).getLsbD b = true
  reqs : ∀ q ∈ (t.mv pres).reqs, q ∈ (u.mv pres).reqs
  reacts : ∀ r ∈ t.flt.reacts, r ∈ u.flt.reacts
  drives : ∀ n, noTorque (t.mva n) → noTorque (u.mva n)

theorem keepsReaction.refl (p : Nat) (t : Dev) : keepsReaction p t t :=
  ⟨fun _ _ _ h => h, fun _ h => h, fun _ h => h, fun _ h => h⟩

theorem keepsReaction.trans {p : Nat} {t u v : Dev} (h : keepsReaction p t u) (k : keepsReaction p u v) : keepsReaction p t v :=
  ⟨fun n b hb hf => k.flags n b hb (h.flags n b hb hf), fun q hq => k.reqs q (h.reqs q hq),
    fun r hr => k.reacts r (h.reacts r hr), fun n hn => k.drives n (h.drives n hn)⟩

/-- What is kept by every round of a loop is kept by the loop. -/
theorem keepsReaction.each {p : Nat} (f : Nat → Dev → Dev) (l : List Nat) (t : Dev) (h : ∀ n ∈ l, ∀ u, keepsReaction p u (f n u)) :
    keepsReaction p t (each l f t) :=
  each_keeps (keepsReaction p t) f l t (fun n hn u hu => hu.trans (h n hn u)) (.refl p t)

/-- The flags of an axis are read from two registers and from those that its movement holds. -/
theorem flagsAt_congr (t u : Dev) (p n : Nat) (hf : u.flt.mvFlags = t.flt.mvFlags)
    (hp : SMap.find u.regs.hw (Reg.offset .pwrStatus 0) = SMap.find t.regs.hw (Reg.offset .pwrStatus 0))
    (hs : SMap.find u.regs.hw (Reg.offset .fltSticky n) = SMap.find t.regs.hw (Reg.offset .fltSticky n)) :
    u.flagsAt p n = t.flagsAt p n := by
  have hm : u.flagsAtMv p n = t.flagsAtMv p n := by unfold flagsAtMv mvOn hw fldOf regWord; rw [hp]
  unfold flagsAt regWord
  rw [hm, hf, hs]

/-- A change of other parts keeps a reaction. -/
theorem keepsReaction_of_eq {p : Nat} {t u : Dev} (hf : u.flt.mvFlags = t.flt.mvFlags) (hr : u.flt.reacts = t.flt.reacts)
    (hm : (u.mv p).reqs = (t.mv p).reqs) (hd : ∀ n, (u.mva n).drive = (t.mva n).drive)
    (hp : SMap.find u.regs.hw (Reg.offset .pwrStatus 0) = SMap.find t.regs.hw (Reg.offset .pwrStatus 0))
    (hs : ∀ n, SMap.find u.regs.hw (Reg.offset .fltSticky n) = SMap.find t.regs.hw (Reg.offset .fltSticky n)) :
    keepsReaction p t u where
  flags n b _ h := by rw [flagsAt_congr t u p n hf hp (hs n)]; exact h
  reqs q h := by rw [hm]; exact h
  reacts r h := by rw [hr]; exact h
  drives n h := by unfold noTorque; rw [hd]; exact h

/-- An offset of neither PWR_STATUS nor FLT_STICKY. -/
def offFlags (a : Nat) : Prop := a ≠ Reg.offset .pwrStatus 0 ∧ ∀ n, a ≠ Reg.offset .fltSticky n

/-- A device-driven field of another register keeps a reaction. -/
theorem keepsReaction_setHw (p : Nat) (t : Dev) (f : Fld) (i v : Nat) (h : offFlags (f.reg.offset i)) :
    keepsReaction p t (t.setHw f i v) :=
  keepsReaction_of_eq rfl rfl rfl (fun _ => rfl) (SMap.find_set_other _ _ h.1.symm) fun n => SMap.find_set_other _ _ (h.2 n).symm

/-- A change of an axis in its movement that leaves it without torque where it was so keeps a reaction. -/
theorem keepsReaction_modMva (p : Nat) (t : Dev) (n : Nat) (f : MvAxis → MvAxis) (h : noTorque (t.mva n) → noTorque (f (t.mva n))) :
    keepsReaction p t (t.modMva n f) where
  flags _ _ _ h := h
  reqs _ h := h
  reacts _ h := h
  drives k hk := by
    by_cases hkn : k = n
    · subst hkn; rw [mva_modMva]; exact h hk
    · rw [mva_modMva_other _ _ hkn]; exact hk

/-- The flags of an axis after one of its flags has been set. -/
theorem flagsAt_stickAxis_same (p b c n : Nat) (t : Dev) : (stickAxis p b c n t).flagsAt p n = flagWord b c (t.flagsAt p n) := by
  by_cases h : t.flagsAtMv p n = true
  · have hu : stickAxis p b c n t = { t with flt := { t.flt with mvFlags := SMap.set t.flt.mvFlags n (flagWord b c (t.flagsAt p n)) } } :=
      if_pos h
    rw [hu]
    exact (if_pos h).trans (SMap.get_set_same _ _ _ _)
  · have hu : stickAxis p b c n t =
        { t with regs := { t.regs with hw := SMap.set t.regs.hw (Reg.offset .fltSticky n) (flagWord b c (t.flagsAt p n)) } } :=
      if_neg h
    have hm : (stickAxis p b c n t).flagsAtMv p n = t.flagsAtMv p n := by
      rw [hu]
      unfold flagsAtMv mvOn hw fldOf regWord
      rw [SMap.find_set_other _ _ (by simp [Reg.offset, Reg.place]; omega)]
    rw [Bool.not_eq_true, ← hm] at h
    rw [hu] at h ⊢
    exact (if_neg (ne_true_of_eq_false h)).trans (regWord_set_same _ _ _ _)

/-- A sticky flag leaves the flags of another axis, for each presenter. -/
theorem flagsAt_stickAxis_elsewhere (p pres b c : Nat) {n k : Nat} (t : Dev) (h : k ≠ n) :
    (stickAxis pres b c n t).flagsAt p k = t.flagsAt p k := by
  have hoff : Reg.offset .fltSticky k ≠ Reg.offset .fltSticky n := by
    simp only [Reg.offset, Reg.place, Nat.div_one, Nat.mod_one]; omega
  by_cases hm : t.flagsAtMv pres n = true
  · have hu : stickAxis pres b c n t =
        { t with flt := { t.flt with mvFlags := SMap.set t.flt.mvFlags n (flagWord b c (t.flagsAt pres n)) } } := if_pos hm
    rw [hu]
    unfold flagsAt
    rw [show SMap.get (SMap.set t.flt.mvFlags n _) k 0 = _ from SMap.get_set_other _ _ _ h]
    rfl
  · have hu : stickAxis pres b c n t =
        { t with regs := { t.regs with hw := SMap.set t.regs.hw (Reg.offset .fltSticky n) (flagWord b c (t.flagsAt pres n)) } } :=
      if_neg hm
    rw [hu]
    exact flagsAt_congr t _ p k rfl (SMap.find_set_other _ _ (by simp [Reg.offset, Reg.place]; omega)) (SMap.find_set_other _ _ hoff)

/-- The flags of another axis stay. -/
theorem flagsAt_stickAxis_other (p b c : Nat) {n k : Nat} (t : Dev) (h : k ≠ n) : (stickAxis p b c n t).flagsAt p k = t.flagsAt p k :=
  flagsAt_stickAxis_elsewhere p p b c t h

/-- A sticky flag keeps a reaction. -/
theorem keepsReaction_stickAxis (p b c n : Nat) (t : Dev) : keepsReaction p t (stickAxis p b c n t) where
  flags k j hj h := by
    by_cases hk : k = n
    · subst hk; rw [flagsAt_stickAxis_same]; exact getLsbD_flagWord_of b c j _ hj h
    · rw [flagsAt_stickAxis_other p b c t hk]; exact h
  reqs q h := by rw [stickAxis_frame]; exact h
  reacts r h := by
    have : (stickAxis p b c n t).flt.reacts = t.flt.reacts := by unfold stickAxis; dsimp only; split <;> rfl
    rw [this]; exact h
  drives k h := by rw [stickAxis_frame]; exact h

theorem offFlags_escAxstatus (n : Nat) : offFlags (Reg.offset .escAxstatus n) :=
  ⟨by simp [Reg.offset, Reg.place]; omega, fun k => by simp only [Reg.offset, Reg.place, Nat.div_one, Nat.mod_one]; omega⟩

theorem offFlags_fltLatch : offFlags (Reg.offset .fltLatch 0) :=
  ⟨by decide, fun k => by simp only [Reg.offset, Reg.place, Nat.div_one, Nat.mod_one]; omega⟩

/-- STO of an axis keeps a reaction. -/
theorem keepsReaction_stoAxis (p n : Nat) (t : Dev) : keepsReaction p t (stoAxis n t) := by
  unfold stoAxis
  refine ((keepsReaction_setHw p t Fl.escAxstatusHold n 1 (offFlags_escAxstatus n)).trans
    (keepsReaction_setHw p _ Fl.escAxstatusSs1 n 0 (offFlags_escAxstatus n))).trans (keepsReaction_modMva p _ n _ fun h => ?_)
  obtain h | h := h
  · exact .inl (by dsimp only; rw [h])
  · exact .inr (by dsimp only; rw [h])

/-- The STO latches keep a reaction. -/
theorem keepsReaction_latchSto (p c : Nat) (l : List Nat) (t : Dev) : keepsReaction p t (latchSto c l t) := by
  unfold latchSto
  split
  · induction l generalizing t with
    | nil => exact .refl p t
    | cons n l ih => exact (keepsReaction_setHw p t Fl.fltLatchMsto 0 _ offFlags_fltLatch).trans (ih _)
  · split
    · exact keepsReaction_setHw p t _ 0 _ offFlags_fltLatch
    · exact .refl p t

/-- What a reaction does at once keeps an earlier one. -/
theorem keepsReaction_reactNow (p c : Nat) (l : List Nat) (t : Dev) : keepsReaction p t (reactNow c l t) := by
  unfold reactNow
  split
  · exact .refl p t
  · exact (keepsReaction.each _ _ t fun n _ u => keepsReaction_stoAxis p n u).trans (keepsReaction_latchSto p _ _ _)

/-- A further request of a movement keeps a reaction. -/
theorem keepsReaction_addReq (p m : Nat) (r : React) (t : Dev) : keepsReaction p t (t.addReq m r) where
  flags _ _ _ h := h
  reqs _ h := by
    by_cases hm : p = m
    · subst hm
      rw [show (t.addReq p r).mv p = _ from mv_setMv _ _ _]
      exact List.mem_append_left _ h
    · rw [show (t.addReq m r).mv p = t.mv p from mv_setMv_other _ _ hm]
      exact h
  reacts _ h := h
  drives _ h := h

/-- A further reaction of the hub keeps a reaction. -/
theorem keepsReaction_addReact (p : Nat) (r : React) (t : Dev) : keepsReaction p t (t.addReact r) where
  flags _ _ _ h := h
  reqs _ h := h
  reacts _ h := List.mem_append_left _ h
  drives _ h := h

/-- A change of presenters and presentations keeps a reaction. -/
theorem keepsReaction_flt (p : Nat) (t : Dev) (f : Flt) (hm : f.mvFlags = t.flt.mvFlags) (hr : f.reacts = t.flt.reacts) :
    keepsReaction p t { t with flt := f } :=
  keepsReaction_of_eq hm hr rfl (fun _ => rfl) rfl fun _ => rfl

theorem settleOne_keeps (p : Nat) (t : Dev) :
    (settleOne p t).flt.mvFlags = t.flt.mvFlags ∧ (settleOne p t).flt.reacts = t.flt.reacts := by
  unfold settleOne
  split
  · exact ⟨rfl, rfl⟩
  · split
    · exact ⟨rfl, rfl⟩
    · split <;> exact ⟨rfl, rfl⟩

/-- The presentation of a clock's sources leaves flags and reactions. -/
theorem settle_keeps (t : Dev) : t.settle.flt.mvFlags = t.flt.mvFlags ∧ t.settle.flt.reacts = t.flt.reacts := by
  unfold settle
  split
  · exact ⟨rfl, rfl⟩
  · have h : (each (span 0 18) settleOne t).flt.mvFlags = t.flt.mvFlags ∧ (each (span 0 18) settleOne t).flt.reacts = t.flt.reacts :=
      ⟨each_same (·.flt.mvFlags) _ _ t fun n _ u => (settleOne_keeps n u).1,
        each_same (·.flt.reacts) _ _ t fun n _ u => (settleOne_keeps n u).2⟩
    generalize each (span 0 18) settleOne t = u at h
    exact h

theorem keepsReaction_settle (p : Nat) (t : Dev) : keepsReaction p t t.settle := by
  rw [settle_frame]
  exact keepsReaction_flt p t _ (settle_keeps t).1 (settle_keeps t).2

/-! ## Raising a source, stage by stage -/

/-- The sticky flags of a source and its CLASS, set. -/
def raiseFlags (d : Dev) (s : Src) (place pres cls : Nat) : Dev :=
  each (classAxes cls (reactionSet s place)) (stickAxis pres 31 cls) (each (reactionSet s place) (stickAxis pres s.row.bit 0) d)

/-- The reaction of a source: class, axes, code, status. -/
def reactOf (s : Src) (place cls : Nat) (status : Status) : React :=
  { cls := cls, axes := classAxes cls (reactionSet s place), code := s.row.code, status := status }

/-- The reaction of a source on its way to phase 2, from class 2 on. -/
def sendReact (d : Dev) (pres : Nat) (r : React) : Dev :=
  if r.cls < 2 then d else if (pres < 8 && r.cls < 5) = true then d.addReq pres r else d.addReact r

/-- A raised source sets its flags, acts at once, and sends its reaction; then it waits to be presented. -/
theorem raiseAs_stages (d : Dev) (s : Src) (place sub pres cls : Nat) (st : Status) :
    ∃ f : Flt, d.raiseAs s place sub pres cls st =
        { ((reactNow cls (reactionSet s place) (d.raiseFlags s place pres cls)).sendReact pres (reactOf s place cls st)) with flt := f } ∧
      f.mvFlags = ((reactNow cls (reactionSet s place) (d.raiseFlags s place pres cls)).sendReact pres (reactOf s place cls st)).flt.mvFlags ∧
      f.reacts = ((reactNow cls (reactionSet s place) (d.raiseFlags s place pres cls)).sendReact pres (reactOf s place cls st)).flt.reacts := by
  unfold raiseAs
  dsimp only
  split
  · exact ⟨_, rfl, rfl, rfl⟩
  · exact ⟨_, rfl, rfl, rfl⟩

theorem keepsReaction_sendReact (p pres : Nat) (r : React) (t : Dev) : keepsReaction p t (t.sendReact pres r) := by
  unfold sendReact
  split
  · exact .refl p t
  · split
    · exact keepsReaction_addReq p pres r t
    · exact keepsReaction_addReact p r t

/-- The reaction that has been sent is on its way (R412). -/
theorem sendReact_on_way (t : Dev) (pres : Nat) (r : React) (h : 2 ≤ r.cls) :
    if pres < 8 ∧ r.cls < 5 then ∃ q ∈ ((t.sendReact pres r).mv pres).reqs, q.react = r else r ∈ (t.sendReact pres r).flt.reacts := by
  unfold sendReact
  rw [if_neg (show ¬ r.cls < 2 by omega)]
  by_cases hp : pres < 8 ∧ r.cls < 5
  · rw [if_pos hp, if_pos (by simpa using hp), show (t.addReq pres r).mv pres = _ from mv_setMv _ _ _]
    exact ⟨_, List.mem_append_right _ (List.mem_singleton_self _), rfl⟩
  · rw [if_neg hp, if_neg (by simpa using hp)]
    exact List.mem_append_right _ (List.mem_singleton_self _)

/-- The flag of the source stands on every axis of its reaction set. -/
theorem raiseFlags_flag (d : Dev) (s : Src) (place pres cls n : Nat) (hn : n ∈ reactionSet s place) :
    ((d.raiseFlags s place pres cls).flagsAt pres n).getLsbD s.row.bit = true := by
  have hset : ((each (reactionSet s place) (stickAxis pres s.row.bit 0) d).flagsAt pres n).getLsbD s.row.bit = true :=
    each_does (fun u => (u.flagsAt pres n).getLsbD s.row.bit = true) _ _ d n hn
      (fun t => by rw [flagsAt_stickAxis_same]; exact getLsbD_flagWord_same _ _ _ s.bit_lt)
      (fun m _ _ t ht => (keepsReaction_stickAxis pres s.row.bit 0 m t).flags n _ s.bit_lt ht)
  exact (keepsReaction.each _ _ _ fun m _ u => keepsReaction_stickAxis pres 31 cls m u).flags n _ s.bit_lt hset

/-- From class 3 on, the axes that the class acts on have lost their torque (R411). -/
theorem reactNow_torqueOff (c : Nat) (l : List Nat) (t : Dev) (hc : 3 ≤ c) (n : Nat) (hn : n ∈ classAxes c l) :
    noTorque ((reactNow c l t).mva n) := by
  have hsto : noTorque ((each (classAxes c l) stoAxis t).mva n) :=
    each_does (fun u : Dev => noTorque (u.mva n)) stoAxis _ t n hn (fun u => stoAxis_drive n u)
      fun m _ _ u hu => (keepsReaction_stoAxis 0 m u).drives n hu
  unfold reactNow
  rw [if_neg (by omega)]
  exact (keepsReaction_latchSto 0 c l _).drives n hsto

/-- A raised source has reacted. -/
theorem raiseAs_reacted (d : Dev) (s : Src) (place sub pres : Nat) (st : Status) :
    d.reacted (d.raiseAs s place sub pres (d.classOf s) st) s place pres := by
  obtain ⟨f, hf, hm, hr⟩ := raiseAs_stages d s place sub pres (d.classOf s) st
  have hflt := keepsReaction_flt pres _ f hm hr
  rw [← hf] at hflt
  have hsend := keepsReaction_sendReact pres pres (reactOf s place (d.classOf s) st)
    (reactNow (d.classOf s) (reactionSet s place) (d.raiseFlags s place pres (d.classOf s)))
  refine ⟨fun n hn => ?_, fun hc => ⟨reactOf s place (d.classOf s) st, rfl, rfl, rfl, ?_⟩, fun hc n hn => ?_⟩
  · exact (((keepsReaction_reactNow pres _ _ _).trans hsend).trans hflt).flags n _ s.bit_lt (raiseFlags_flag d s place pres _ n hn)
  · have hway := sendReact_on_way (reactNow (d.classOf s) (reactionSet s place) (d.raiseFlags s place pres (d.classOf s))) pres
      (reactOf s place (d.classOf s) st) hc
    by_cases hp : pres < 8 ∧ d.classOf s < 5
    · rw [if_pos (show pres < 8 ∧ (reactOf s place (d.classOf s) st).cls < 5 from hp)] at hway
      obtain ⟨q, hq, hqr⟩ := hway
      rw [if_pos hp]
      exact ⟨q, hflt.reqs q hq, hqr⟩
    · rw [if_neg (show ¬ (pres < 8 ∧ (reactOf s place (d.classOf s) st).cls < 5) from hp)] at hway
      rw [if_neg hp]
      exact hflt.reacts _ hway
  · exact (hsend.trans hflt).drives n (reactNow_torqueOff _ _ _ hc n hn)

/-- What keeps a reaction keeps that a source has reacted. -/
theorem reacted.keep {d t u : Dev} {s : Src} {place pres : Nat} (h : d.reacted t s place pres) (k : keepsReaction pres t u) :
    d.reacted u s place pres := by
  obtain ⟨hflag, hway, htorque⟩ := h
  refine ⟨fun n hn => k.flags n _ s.bit_lt (hflag n hn), fun hc => ?_, fun hc n hn => k.drives n (htorque hc n hn)⟩
  obtain ⟨r, hcls, haxes, hcode, hr⟩ := hway hc
  refine ⟨r, hcls, haxes, hcode, ?_⟩
  split
  · rename_i hp
    rw [if_pos hp] at hr
    obtain ⟨q, hq, hqr⟩ := hr
    exact ⟨q, k.reqs q hq, hqr⟩
  · rename_i hp
    rw [if_neg hp] at hr
    exact k.reacts r hr

/-- A reaction is the same seen from a block with the same classes. -/
theorem reacted.from {d e t : Dev} {s : Src} {place pres : Nat} (h : e.reacted t s place pres) (hf : e.regs.force = d.regs.force) :
    d.reacted t s place pres := by
  unfold reacted at h ⊢
  rw [← classOf_congr d e s hf]
  exact h

/-- A source raised and presented has reacted. -/
theorem raise1_reacted (d : Dev) (s : Src) (place sub pres : Nat) : d.reacted (d.raise1 s place sub pres) s place pres :=
  (raiseAs_reacted d s place sub pres .stoppedFault).keep (keepsReaction_settle pres _)

end Dev
end Sys2Proof.Machine
end

section
/-! What raising a fault source leaves alone: registers, movements and axes that it does not name. -/

namespace Sys2Proof.Machine.Dev

/-- A field is read at the offset of its register. -/
theorem hw_congr (d t : Dev) (f : Fld) (i : Nat)
    (h : SMap.find t.regs.hw (f.reg.offset i) = SMap.find d.regs.hw (f.reg.offset i)) : t.hw f i = d.hw f i := by
  unfold hw fldOf regWord
  rw [h]

/-! ## Registers -/

/-- An offset that raising a source does not write: not FLT_LATCH, no FLT_STICKY, no ESC_AXSTATUS. -/
def offRaise (a : Nat) : Prop := a ≠ Reg.offset .fltLatch 0 ∧ ∀ n, a ≠ Reg.offset .fltSticky n ∧ a ≠ Reg.offset .escAxstatus n

/-- Below the axis pages, only FLT_LATCH is written. -/
theorem offRaise_of_lt (a : Nat) (h : a < 0x10000) (hl : a ≠ 0x524) : offRaise a :=
  ⟨hl, fun n => by simp only [Reg.offset, Reg.place]; omega⟩

/-- In the axis pages, only two registers of an axis are written. -/
theorem offRaise_of_mod (a : Nat) (h : 0x10000 ≤ a) (hs : a % 0x400 ≠ 0x240) (he : a % 0x400 ≠ 0x1D4) : offRaise a :=
  ⟨by simp only [Reg.offset, Reg.place]; omega, fun n => by simp only [Reg.offset, Reg.place]; omega⟩

/-- The registers at a are as they were. -/
abbrev sameHw (a : Nat) (d t : Dev) : Prop := SMap.find t.regs.hw a = SMap.find d.regs.hw a

theorem sameHw_stickAxis (p b c n a : Nat) (h : offRaise a) (d : Dev) : sameHw a d (stickAxis p b c n d) := by
  unfold stickAxis
  dsimp only
  split
  · rfl
  · exact SMap.find_set_other _ _ (h.2 n).1

theorem sameHw_stoAxis (n a : Nat) (h : offRaise a) (d : Dev) : sameHw a d (stoAxis n d) :=
  (SMap.find_set_other _ _ (h.2 n).2).trans (SMap.find_set_other _ _ (h.2 n).2)

theorem sameHw_latchSto (c : Nat) (l : List Nat) (a : Nat) (h : offRaise a) (d : Dev) : sameHw a d (latchSto c l d) := by
  unfold latchSto
  split
  · induction l generalizing d with
    | nil => rfl
    | cons n l ih => exact (ih (d.setHw Fl.fltLatchMsto 0 _)).trans (SMap.find_set_other _ _ h.1)
  · split
    · exact SMap.find_set_other _ _ h.1
    · rfl

theorem sameHw_each (f : Nat → Dev → Dev) (l : List Nat) (a : Nat) (d : Dev) (h : ∀ n ∈ l, ∀ t, sameHw a t (f n t)) :
    sameHw a d (each l f d) := each_same (fun t => SMap.find t.regs.hw a) f l d h

theorem sameHw_reactNow (c : Nat) (l : List Nat) (a : Nat) (h : offRaise a) (d : Dev) : sameHw a d (reactNow c l d) := by
  unfold reactNow
  split
  · rfl
  · exact (sameHw_latchSto c l a h _).trans (sameHw_each _ _ a d fun n _ t => sameHw_stoAxis n a h t)

theorem sameHw_sendReact (p : Nat) (r : React) (a : Nat) (d : Dev) : sameHw a d (d.sendReact p r) := by
  unfold sendReact
  split
  · rfl
  · split <;> rfl

theorem sameHw_raiseFlags (s : Src) (place pres cls a : Nat) (h : offRaise a) (d : Dev) :
    sameHw a d (d.raiseFlags s place pres cls) :=
  (sameHw_each _ _ a _ fun n _ t => sameHw_stickAxis _ _ _ n a h t).trans
    (sameHw_each _ _ a d fun n _ t => sameHw_stickAxis _ _ _ n a h t)

/-- A raised source writes its flags, the holds of the axes it stops and the STO latches, and no other register. -/
theorem find_hw_raiseAs (d : Dev) (s : Src) (place sub pres cls : Nat) (st : Status) {a : Nat} (h : offRaise a) :
    SMap.find (d.raiseAs s place sub pres cls st).regs.hw a = SMap.find d.regs.hw a := by
  obtain ⟨f, hf, -, -⟩ := raiseAs_stages d s place sub pres cls st
  rw [hf]
  exact (sameHw_sendReact pres _ a _).trans
    ((sameHw_reactNow cls _ a h _).trans (sameHw_raiseFlags s place pres cls a h d))

theorem find_hw_raise1 (d : Dev) (s : Src) (place sub pres : Nat) {a : Nat} (h : offRaise a) :
    SMap.find (d.raise1 s place sub pres).regs.hw a = SMap.find d.regs.hw a := by
  unfold raise1 raise
  rw [settle_frame]
  exact find_hw_raiseAs d s place sub pres _ _ h

/-- A field of a register that raising does not write stays. -/
theorem hw_raise1 (d : Dev) (s : Src) (place sub pres : Nat) (f : Fld) (i : Nat) (h : offRaise (f.reg.offset i)) :
    (d.raise1 s place sub pres).hw f i = d.hw f i :=
  hw_congr _ _ f i (find_hw_raise1 d s place sub pres h)

/-- The hub's side of the axes stays. -/
@[simp] theorem raise1_hax (d : Dev) (s : Src) (place sub pres : Nat) : (d.raise1 s place sub pres).hax = d.hax := by
  rw [raise1_faultOnly d s place sub pres]

/-! ## Axes in their movements -/

/-- A loop over axes leaves those that its rounds leave. -/
theorem mva_each_other (f : Nat → Dev → Dev) (l : List Nat) (d : Dev) (k : Nat) (h : ∀ n ∈ l, ∀ t : Dev, (f n t).mva k = t.mva k) :
    (each l f d).mva k = d.mva k := each_same (fun t => t.mva k) f l d h

/-- What a reaction does at once leaves the axes that its class does not act on. -/
theorem mva_reactNow_other (c : Nat) (l : List Nat) (d : Dev) (k : Nat) (h : c < 3 ∨ k ∉ classAxes c l) :
    (reactNow c l d).mva k = d.mva k := by
  unfold reactNow
  split
  · rfl
  · rw [latchSto_frame]
    have hk : k ∉ classAxes c l := h.resolve_left (by assumption)
    exact mva_each_other stoAxis _ d k fun n hn t => mva_stoAxis_other t fun e => hk (e ▸ hn)

theorem mvax_raiseFlags (d : Dev) (s : Src) (place pres cls : Nat) : (d.raiseFlags s place pres cls).mvax = d.mvax := by
  unfold raiseFlags
  rw [each_stickAxis_frame, each_stickAxis_frame]

theorem mvax_sendReact (d : Dev) (p : Nat) (r : React) : (d.sendReact p r).mvax = d.mvax := by
  unfold sendReact
  split
  · rfl
  · split <;> rfl

/-- A raised source leaves the axes that its class does not stop. -/
theorem mva_raiseAs_other (d : Dev) (s : Src) (place sub pres cls : Nat) (st : Status) (k : Nat)
    (h : cls < 3 ∨ k ∉ classAxes cls (reactionSet s place)) : (d.raiseAs s place sub pres cls st).mva k = d.mva k := by
  obtain ⟨f, hf, -, -⟩ := raiseAs_stages d s place sub pres cls st
  rw [hf]
  show SMap.get (sendReact _ _ _).mvax k {} = _
  rw [mvax_sendReact]
  exact (mva_reactNow_other cls _ _ k h).trans (by unfold mva; rw [mvax_raiseFlags])

theorem mva_raise1_other (d : Dev) (s : Src) (place sub pres : Nat) (k : Nat)
    (h : d.classOf s < 3 ∨ k ∉ classAxes (d.classOf s) (reactionSet s place)) : (d.raise1 s place sub pres).mva k = d.mva k := by
  unfold raise1 raise
  rw [settle_frame]
  exact mva_raiseAs_other d s place sub pres _ _ k h

/-! ## Movements -/

theorem mvs_raiseFlags (d : Dev) (s : Src) (place pres cls : Nat) : (d.raiseFlags s place pres cls).mvs = d.mvs := by
  unfold raiseFlags
  rw [each_stickAxis_frame, each_stickAxis_frame]

/-- A request changes the requests of its movement alone. -/
theorem mv_addReq (d : Dev) (m k : Nat) (r : React) :
    (d.addReq m r).mv k = { d.mv k with reqs := ((d.addReq m r).mv k).reqs, serial := ((d.addReq m r).mv k).serial } := by
  by_cases h : k = m
  · subst h
    rw [show (d.addReq k r).mv k = _ from mv_setMv _ _ _]
  · rw [show (d.addReq m r).mv k = d.mv k from mv_setMv_other _ _ h]

/-- A raised source changes the requests of a movement alone. -/
theorem mv_raiseAs (d : Dev) (s : Src) (place sub pres cls : Nat) (st : Status) (k : Nat) :
    ∃ q n, (d.raiseAs s place sub pres cls st).mv k = { d.mv k with reqs := q, serial := n } := by
  obtain ⟨f, hf, -, -⟩ := raiseAs_stages d s place sub pres cls st
  have hmv : ∀ t : Dev, t.mvs = d.mvs → t.mv k = d.mv k := fun t h => by unfold mv; rw [h]
  have hstages : (reactNow cls (reactionSet s place) (d.raiseFlags s place pres cls)).mv k = d.mv k :=
    hmv _ (by rw [reactNow_frame]; exact mvs_raiseFlags d s place pres cls)
  rw [hf]
  show ∃ q n, (sendReact _ _ _).mv k = _
  unfold sendReact
  split
  · exact ⟨_, _, hstages⟩
  · split
    · exact ⟨_, _, (mv_addReq _ _ _ _).trans (by rw [hstages])⟩
    · exact ⟨_, _, hstages⟩

/-- A single source raised and presented changes the requests of a movement alone. -/
theorem mv_raise1 (d : Dev) (s : Src) (place sub pres k : Nat) :
    ∃ q n, (d.raise1 s place sub pres).mv k = { d.mv k with reqs := q, serial := n } := by
  unfold raise1 raise
  rw [settle_frame]
  exact mv_raiseAs d s place sub pres _ _ k

/-- A source of another presenter leaves a movement. -/
theorem mv_raise1_other (d : Dev) (s : Src) (place sub pres k : Nat) (h : k ≠ pres) : (d.raise1 s place sub pres).mv k = d.mv k := by
  obtain ⟨f, hf, -, -⟩ := raiseAs_stages d s place sub pres (d.classOf s) .stoppedFault
  have hmv : ∀ t : Dev, t.mvs = d.mvs → t.mv k = d.mv k := fun t h => by unfold mv; rw [h]
  have hstages : (reactNow (d.classOf s) (reactionSet s place) (d.raiseFlags s place pres (d.classOf s))).mv k = d.mv k :=
    hmv _ (by rw [reactNow_frame]; exact mvs_raiseFlags d s place pres _)
  unfold raise1 raise
  rw [settle_frame, hf]
  show (sendReact _ _ _).mv k = _
  unfold sendReact
  split
  · exact hstages
  · split
    · exact (mv_setMv_other _ _ h).trans hstages
    · exact hstages

end Sys2Proof.Machine.Dev
end

section
/-! Fields, masks and registers of one block after another: the facts that the events of every chapter share. -/

namespace Sys2Proof.Machine

/-- Taking away a bit that stands clears it and no other. -/
theorem testBit_sub_two_pow (w m k : Nat) (h : w.testBit m = true) : (w - 2 ^ m).testBit k = (w.testBit k && decide (k ≠ m)) := by
  rw [Nat.testBit_eq_decide_div_mod_eq, decide_eq_true_eq] at h
  have hw : w = 2 ^ m * (2 * (w / 2 ^ m / 2) + 1) + w % 2 ^ m := by
    rw [show 2 * (w / 2 ^ m / 2) + 1 = w / 2 ^ m by omega]
    exact (Nat.div_add_mod w (2 ^ m)).symm
  have hs : w - 2 ^ m = 2 ^ m * (2 * (w / 2 ^ m / 2)) + w % 2 ^ m := by
    rw [Nat.mul_add, Nat.mul_one] at hw
    omega
  have hlt : w % 2 ^ m < 2 ^ m := Nat.mod_lt _ (Nat.two_pow_pos m)
  rw [hs]
  conv_rhs => rw [hw]
  rw [Nat.testBit_two_pow_mul_add _ hlt, Nat.testBit_two_pow_mul_add _ hlt]
  obtain hk | rfl | hk := Nat.lt_trichotomy k m
  · simp [hk, Nat.ne_of_lt hk]
  · simp
  · obtain ⟨j, rfl⟩ := Nat.exists_eq_add_of_lt hk
    rw [if_neg (by omega), if_neg (by omega), show m + j + 1 - m = j + 1 by omega, Nat.testBit_succ, Nat.testBit_succ]
    rw [show 2 * (w / 2 ^ m / 2) / 2 = (2 * (w / 2 ^ m / 2) + 1) / 2 by omega, decide_eq_true (show m + j + 1 ≠ m by omega),
      Bool.and_true]

/-- The value of a field of one bit is 0 or 1. -/
theorem bits_one (w : Word) (lo : Nat) : bits w lo 1 = if bits w lo 1 ≠ 0 then 1 else 0 := by
  have := bits_lt w lo 1
  split <;> omega

namespace Dev

/-! ## Frames of registers -/

theorem regsBut_refl (d : Dev) (l : List Nat) : d.regsBut d l := ⟨rfl, fun _ _ => rfl⟩

/-- A further device-driven field at a listed offset. -/
theorem regsBut.setHw {d t : Dev} {l : List Nat} (h : d.regsBut t l) (f : Fld) (i v : Nat) (hm : f.reg.offset i ∈ l) :
    d.regsBut (t.setHw f i v) l := by
  obtain ⟨hr, hf⟩ := h
  have hs : (t.setHw f i v).regs = { t.regs with hw := (t.setHw f i v).regs.hw } := rfl
  refine ⟨by rw [hs, hr], fun a ha => ?_⟩
  rw [← hf a ha]
  exact SMap.find_set_other _ _ fun e => ha (e ▸ hm)

/-- A change of other parts of the block keeps the frame of the registers. -/
theorem regsBut.of_regs {d t u : Dev} {l : List Nat} (h : d.regsBut t l) (hu : u.regs = t.regs) : d.regsBut u l := by
  unfold regsBut
  rw [hu]
  exact h

/-! ## Flags -/

theorem hw_lt (d : Dev) (f : Fld) (i : Nat) : d.hw f i < 2 ^ f.width := bits_lt _ _ _

/-- A flag of one bit that is up reads 1. -/
theorem hw_eq_one_of_flag (d : Dev) (f : Fld) (i : Nat) (hw1 : f.width = 1) (h : d.flag f i = true) : d.hw f i = 1 := by
  have hlt := hw_lt d f i
  rw [hw1] at hlt
  have hne : d.hw f i ≠ 0 := of_decide_eq_true h
  omega

theorem hw_eq_zero_of_flag (d : Dev) (f : Fld) (i : Nat) (h : d.flag f i = false) : d.hw f i = 0 :=
  not_not.mp (of_decide_eq_false h)

/-- A flag that is set reads 1 in a field of one bit. -/
theorem hw_setFlag_same (d : Dev) (f : Fld) (i : Nat) (b : Bool) (h : f.lo + f.width ≤ 32) (hw1 : f.width = 1) :
    (d.setFlag f i b).hw f i = if b then 1 else 0 := by
  unfold setFlag
  rw [hw_setHw_same _ _ _ _ h, hw1]
  cases b <;> rfl

/-- A sticky flag of one bit reads 1. -/
theorem hw_stick_same (d : Dev) (f : Fld) (i : Nat) (h : f.lo + f.width ≤ 32) (hw1 : f.width = 1) : (d.stick f i).hw f i = 1 := by
  unfold stick
  rw [hw_setHw_same _ _ _ _ h, hw1]
  rfl

/-- A saturating count reads its new value. -/
theorem hw_bump_same (d : Dev) (f : Fld) (i n : Nat) (h : f.lo + f.width ≤ 32) :
    (d.bump f i n).hw f i = min (2 ^ f.width - 1) (d.hw f i + n) := by
  unfold bump
  rw [hw_setHw_same _ _ _ _ h]
  exact Nat.mod_eq_of_lt (lt_of_le_of_lt (min_le_left _ _) (Nat.sub_lt (Nat.two_pow_pos _) (by decide)))

/-! ## Bits of a mask -/

/-- A bit of a mask that was set or cleared reads back, and the others stay. -/
theorem testBit_hw_setBit (d : Dev) (f : Fld) (m : Nat) (b : Bool) (k : Nat) (h : f.lo + f.width ≤ 32) (hm : m < f.width) :
    ((d.setBit f m b).hw f 0).testBit k = if k = m then b else (d.hw f 0).testBit k := by
  have hlt := hw_lt d f 0
  have hk : f.width ≤ k → (d.hw f 0).testBit k = false := fun hk =>
    Nat.testBit_lt_two_pow (lt_of_lt_of_le hlt (Nat.pow_le_pow_right (by decide) hk))
  unfold setBit
  dsimp only
  rw [hw_setHw_same _ _ _ _ h, Nat.testBit_mod_two_pow]
  cases b with
  | true =>
    rw [if_pos rfl, Nat.testBit_or, Nat.testBit_two_pow]
    by_cases hkm : k = m
    · simp [hkm, hm]
    · by_cases hkw : k < f.width
      · simp [hkw, hkm, Ne.symm hkm]
      · simp [hkw, hkm, hk (by omega)]
  | false =>
    rw [if_neg (by decide)]
    split
    · rename_i hb
      rw [testBit_sub_two_pow _ _ _ hb]
      by_cases hkm : k = m
      · simp [hkm]
      · by_cases hkw : k < f.width
        · simp [hkw, hkm]
        · simp [hkw, hkm, hk (by omega)]
    · rename_i hb
      by_cases hkm : k = m
      · simp [hkm, hb]
      · by_cases hkw : k < f.width
        · simp [hkw, hkm]
        · simp [hkw, hkm, hk (by omega)]

/-- A mask changes one register. -/
theorem hw_setBit_beside (d : Dev) (f g : Fld) (m : Nat) (b : Bool) (hr : g.reg = f.reg) (h : f.lo + f.width ≤ 32)
    (hd : g.lo + g.width ≤ f.lo ∨ f.lo + f.width ≤ g.lo) : (d.setBit f m b).hw g 0 = d.hw g 0 := hw_setHw_beside d f g 0 _ hr h hd

theorem regsBut.setBit {d t : Dev} {l : List Nat} (h : d.regsBut t l) (f : Fld) (m : Nat) (b : Bool) (hm : f.reg.offset 0 ∈ l) :
    d.regsBut (t.setBit f m b) l := regsBut.setHw h f 0 _ hm

end Dev
end Sys2Proof.Machine
end

section
/-! Proofs for the escapement's pins (chapter 15). -/

namespace Sys2Proof.Machine.Dev

/-! ## STO pins (R435, R438, R439) -/

/-- The fields of a pin and of its path have eight bits each in STO_STATUS. -/
theorem pinFields_spec (b : Bool) :
    (pinFields b).1.reg = .stoStatus ∧ (pinFields b).2.reg = .stoStatus ∧ (pinFields b).1.width = 8 ∧ (pinFields b).2.width = 8 ∧
      (pinFields b).1.lo + 8 ≤ 32 ∧ (pinFields b).2.lo + 8 ≤ 32 ∧ (pinFields b).1.lo + 8 ≤ (pinFields b).2.lo := by
  cases b <;> decide

/-- The block with a pin and its path set or cleared, and the time since when the pins differ. -/
def pinSet (m : Nat) (b v : Bool) (d : Dev) : Dev := stoTime m ((d.setBit (pinFields b).1 m v).setBit (pinFields b).2 m v)

/-- A pin set or cleared reads back with its path, and the pins of other movements stay. -/
theorem testBit_pinSet (m : Nat) (b v : Bool) (d : Dev) (k : Nat) (hm : m < 8) :
    ((d.pinSet m b v).hw (pinFields b).1 0).testBit k = (if k = m then v else (d.hw (pinFields b).1 0).testBit k) ∧
      ((d.pinSet m b v).hw (pinFields b).2 0).testBit k = if k = m then v else (d.hw (pinFields b).2 0).testBit k := by
  obtain ⟨h1, h2, w1, w2, l1, l2, hd⟩ := pinFields_spec b
  constructor
  · show ((setBit _ _ _ _).hw (pinFields b).1 0).testBit k = _
    rw [hw_setBit_beside _ _ _ _ _ (h1.trans h2.symm) (by omega) (.inl (by omega)), testBit_hw_setBit _ _ _ _ _ (by omega) (by omega)]
  · show ((setBit _ _ _ _).hw (pinFields b).2 0).testBit k = _
    rw [testBit_hw_setBit _ _ _ _ _ (by omega) (by omega),
      hw_setBit_beside _ _ _ _ _ (h2.trans h1.symm) (by omega) (.inr (by omega))]

/-- A pin changes STO_STATUS and the time since when the pins differ. -/
theorem regsBut_pinSet (m : Nat) (b v : Bool) (d : Dev) : d.regsBut (d.pinSet m b v) [Reg.offset .stoStatus 0] := by
  obtain ⟨h1, h2, -⟩ := pinFields_spec b
  exact (((regsBut_refl d _).setBit _ m v (by rw [h1]; exact List.mem_singleton_self _)).setBit _ m v
    (by rw [h2]; exact List.mem_singleton_self _)).of_regs rfl

theorem offRaise_stoStatus : offRaise (Reg.offset .stoStatus 0) := offRaise_of_lt _ (by decide) (by decide)

/-- A pin that becomes active shows with its path and raises STO_ACTIVE. -/
theorem stoOn_of_inactive (m : Nat) (b : Bool) (d : Dev) (h : (d.hw (pinFields b).1 0).testBit m = false) :
    stoOn m b d = (d.pinSet m b true).raise1 .stoActive m m m := by
  unfold stoOn
  rw [if_neg (ne_true_of_eq_false h)]
  rfl

/-- A pin that becomes inactive shows so with its path. -/
theorem stoOff_of_active (m : Nat) (b : Bool) (d : Dev) (h : (d.hw (pinFields b).1 0).testBit m = true)
    (hv : (d.hw Fl.pwrStatusVclOk 0).testBit m = true) : stoOff m b d = d.safeSense.pinSet m b false := by
  unfold stoOff
  rw [if_neg (by simp [h, hv])]
  rfl

/-- What is felt of a condition that may be about to end is a note of the escapement's. -/
theorem safeSense_frame (d : Dev) : d.safeSense = { d with sys := d.safeSense.sys } := by
  unfold safeSense
  split <;> rfl

/-- A pin changes registers and the escapement's notes. -/
theorem pinSet_frame (m : Nat) (b v : Bool) (d : Dev) :
    d.pinSet m b v = { d with regs := (d.pinSet m b v).regs, sys := (d.pinSet m b v).sys } := rfl

/-! ## SAFE pins (R440) -/

/-- The SAFE pins show the level that they have taken. -/
theorem hw_safePins (low : Bool) (d : Dev) :
    (safePins low d).hw Fl.escStatusSafeA 0 = (if low then 1 else 0) ∧ (safePins low d).hw Fl.escStatusSafeB 0 = if low then 1 else 0 := by
  unfold safePins
  split
  · rename_i h
    rw [Bool.and_eq_true, beq_iff_eq, beq_iff_eq] at h
    cases low with
    | true => exact ⟨hw_eq_one_of_flag d _ 0 rfl h.1, hw_eq_one_of_flag d _ 0 rfl h.2⟩
    | false => exact ⟨hw_eq_zero_of_flag d _ 0 h.1, hw_eq_zero_of_flag d _ 0 h.2⟩
  · have hmsg : ∀ (t : Dev) (f : Fld), t.escMessage.hw f 0 = t.hw f 0 := fun t f => by unfold escMessage; split <;> rfl
    rw [hmsg, hmsg]
    refine ⟨?_, hw_setFlag_same _ _ _ _ (by decide) rfl⟩
    exact (hw_setHw_beside _ Fl.escStatusSafeB Fl.escStatusSafeA 0 _ rfl (by decide) (.inl (by decide))).trans
      (hw_setFlag_same _ _ _ _ (by decide) rfl)

/-- The SAFE pins change ESC_STATUS and the wish for a message. -/
theorem safePins_frame (low : Bool) (d : Dev) :
    safePins low d = { d with regs := (safePins low d).regs, sys := (safePins low d).sys } ∧
      d.regsBut (safePins low d) [Reg.offset .escStatus 0] := by
  unfold safePins
  split
  · exact ⟨rfl, regsBut_refl d _⟩
  · have hregs := ((regsBut_refl d [Reg.offset .escStatus 0]).setHw Fl.escStatusSafeA 0 (if low then 1 else 0)
      (List.mem_singleton_self _)).setHw Fl.escStatusSafeB 0 (if low then 1 else 0) (List.mem_singleton_self _)
    unfold escMessage
    split
    · exact ⟨rfl, hregs⟩
    · exact ⟨rfl, hregs⟩

end Sys2Proof.Machine.Dev

namespace Sys2Proof.Proofs
open Sys2Proof Sys2Proof.Machine

/-- Settles O46. -/
theorem safetyPins : Obligations.SafetyPins := by
  unfold Obligations.SafetyPins
  refine ⟨fun s m b h => ?_, fun s m b h => ?_, fun s m b h hv => ?_, fun s m hne hgone => ?_, fun s m h => ?_, fun s h => ?_,
    fun s h hdue => ?_, fun s h => ?_⟩
  · obtain ⟨h1, h2, -⟩ := Dev.pinFields_spec b
    refine ⟨Dev.stoOn m b s.dev, rfl, ?_⟩
    obtain ⟨hpin, hpath⟩ := Dev.testBit_pinSet m b true s.dev m m.isLt
    rw [if_pos rfl] at hpin hpath
    rw [Dev.stoOn_of_inactive _ _ _ h]
    refine ⟨?_, ?_, (Dev.raise1_reacted _ _ _ _ _).from rfl, Dev.raise1_hax _ _ _ _ _⟩
    · rw [Dev.hw_raise1 _ _ _ _ _ _ _ (by rw [h1]; exact Dev.offRaise_stoStatus)]; exact hpin
    · rw [Dev.hw_raise1 _ _ _ _ _ _ _ (by rw [h2]; exact Dev.offRaise_stoStatus)]; exact hpath
  · show Host.Outcome.next { s with dev := Dev.stoOff m b s.dev } = _
    unfold Dev.stoOff
    rw [if_pos (by simpa using h)]
  · refine ⟨Dev.stoOff m b s.dev, rfl, ?_⟩
    have hsense := Dev.safeSense_frame s.dev
    obtain ⟨hpin, hpath⟩ := Dev.testBit_pinSet m b false s.dev.safeSense m m.isLt
    have hregs := Dev.regsBut_pinSet m b false s.dev.safeSense
    rw [if_pos rfl] at hpin hpath
    rw [Dev.stoOff_of_active _ _ _ h hv]
    refine ⟨hpin, hpath, fun k hk => ?_, ?_, ?_⟩
    · rw [(Dev.testBit_pinSet m b false s.dev.safeSense k m.isLt).1, if_neg (fun e => hk (Fin.ext e)), hsense]
      rfl
    · rw [Dev.pinSet_frame, hsense]
    · rw [hsense] at hregs ⊢
      exact hregs
  · refine ⟨Dev.stoDiffer m s.dev, rfl, ?_⟩
    have hunlike : s.dev.stoUnlike m = true := by unfold Dev.stoUnlike; exact bne_iff_ne.mpr hne
    unfold Dev.stoDiffer
    rw [if_pos (by simp [hunlike, hgone])]
    exact ⟨Dev.raise1_reacted _ _ _ _ _, Dev.raise1_hax _ _ _ _ _⟩
  · show Host.Outcome.next { s with dev := Dev.stoDiffer m s.dev } = _
    have hno : ¬ (s.dev.stoUnlike m && s.dev.discGone m) = true := by
      obtain h | h := h
      · simp [h]
      · simp [Dev.stoUnlike, h]
    unfold Dev.stoDiffer
    rw [if_neg hno]
  · refine ⟨Dev.safeFall s.dev, rfl, ?_⟩
    unfold Dev.safeFall
    rw [if_pos (by simp [h])]
    obtain ⟨hA, hB⟩ := Dev.hw_safePins true { s.dev with sys := { s.dev.sys with safeDue := false } }
    obtain ⟨hframe, hregs⟩ := Dev.safePins_frame true { s.dev with sys := { s.dev.sys with safeDue := false } }
    exact ⟨hA, hB, hframe, hregs⟩
  · refine ⟨Dev.safeRise s.dev, rfl, ?_⟩
    unfold Dev.safeRise
    rw [if_neg (by simp [h, hdue])]
    obtain ⟨hA, hB⟩ := Dev.hw_safePins false s.dev
    obtain ⟨hframe, hregs⟩ := Dev.safePins_frame false s.dev
    exact ⟨hA, hB, hframe, hregs⟩
  · show Host.Outcome.next { s with dev := Dev.safeRise s.dev } = _
    unfold Dev.safeRise
    rw [if_pos (by simp [h])]

end Sys2Proof.Proofs
end

section
/-! Proofs for the safety functions and the escapement's own checks (chapter 15). -/

namespace Sys2Proof.Machine.Dev

/-! ## The safety hold (R441) -/

/-- The hold of an axis stands. -/
def holdStands (n : Nat) (d : Dev) : Prop := d.hw Fl.escAxstatusHold n = 1

/-- A register that no ESC_AXSTATUS shares leaves the holds. -/
theorem hw_hold_of_find (d t : Dev) (n : Nat)
    (h : SMap.find t.regs.hw (Reg.offset .escAxstatus n) = SMap.find d.regs.hw (Reg.offset .escAxstatus n)) :
    t.hw Fl.escAxstatusHold n = d.hw Fl.escAxstatusHold n := hw_congr d t _ n h

theorem escAxstatus_ne {n k : Nat} (h : k ≠ n) : Reg.offset .escAxstatus k ≠ Reg.offset .escAxstatus n := by
  simp only [Reg.offset, Reg.place, Nat.div_one, Nat.mod_one]; omega

theorem escAxstatus_ne_fltSticky (n k : Nat) : Reg.offset .escAxstatus n ≠ Reg.offset .fltSticky k := by
  simp only [Reg.offset, Reg.place, Nat.div_one, Nat.mod_one]; omega

theorem escAxstatus_ne_fltLatch (n : Nat) : Reg.offset .escAxstatus n ≠ Reg.offset .fltLatch 0 := by
  simp only [Reg.offset, Reg.place, Nat.div_one, Nat.mod_one]; omega

/-- STO of an axis leaves it with its hold and without SS1 (R441, R457). -/
theorem hw_stoAxis_same (n : Nat) (d : Dev) :
    (stoAxis n d).hw Fl.escAxstatusHold n = 1 ∧ (stoAxis n d).hw Fl.escAxstatusSs1 n = 0 := by
  constructor
  · exact (hw_setHw_beside _ Fl.escAxstatusSs1 Fl.escAxstatusHold n 0 rfl (by decide) (by decide)).trans
      (hw_setHw_same _ _ _ _ (by decide))
  · exact hw_setHw_same _ Fl.escAxstatusSs1 n 0 (by decide)

/-- STO of an axis keeps the holds. -/
theorem holdStands_stoAxis (n k : Nat) (d : Dev) (h : holdStands n d) : holdStands n (stoAxis k d) := by
  by_cases hk : n = k
  · subst hk; exact (hw_stoAxis_same n d).1
  · exact (hw_hold_of_find d _ n ((SMap.find_set_other _ _ (escAxstatus_ne hk)).trans
      (SMap.find_set_other _ _ (escAxstatus_ne hk)))).trans h

theorem holdStands_stickAxis (n p b c k : Nat) (d : Dev) (h : holdStands n d) : holdStands n (stickAxis p b c k d) := by
  refine (hw_hold_of_find d _ n ?_).trans h
  unfold stickAxis
  dsimp only
  split
  · rfl
  · exact SMap.find_set_other _ _ (escAxstatus_ne_fltSticky n k)

theorem holdStands_latchSto (n c : Nat) (l : List Nat) (d : Dev) (h : holdStands n d) : holdStands n (latchSto c l d) := by
  unfold latchSto
  split
  · induction l generalizing d with
    | nil => exact h
    | cons k l ih => exact ih _ ((hw_hold_of_find d _ n (SMap.find_set_other _ _ (escAxstatus_ne_fltLatch n))).trans h)
  · split
    · exact (hw_hold_of_find d _ n (SMap.find_set_other _ _ (escAxstatus_ne_fltLatch n))).trans h
    · exact h

theorem holdStands_reactNow (n c : Nat) (l : List Nat) (d : Dev) (h : holdStands n d) : holdStands n (reactNow c l d) := by
  unfold reactNow
  split
  · exact h
  · exact holdStands_latchSto n c l _ (each_keeps (holdStands n) stoAxis _ d (fun k _ t ht => holdStands_stoAxis n k t ht) h)

/-- A raised source keeps the holds. -/
theorem holdStands_raise1 (n : Nat) (d : Dev) (s : Src) (place sub pres : Nat) (h : holdStands n d) : holdStands n (d.raise1 s place sub pres) := by
  obtain ⟨f, hf, -, -⟩ := raiseAs_stages d s place sub pres (d.classOf s) .stoppedFault
  have hflags : holdStands n (d.raiseFlags s place pres (d.classOf s)) :=
    each_keeps (holdStands n) _ _ _ (fun k _ t ht => holdStands_stickAxis n _ _ _ k t ht)
      (each_keeps (holdStands n) _ _ d (fun k _ t ht => holdStands_stickAxis n _ _ _ k t ht) h)
  have hsend : ∀ (t : Dev) (r : React), holdStands n t → holdStands n (t.sendReact pres r) := fun t r ht => by
    unfold sendReact
    split
    · exact ht
    · split <;> exact ht
  unfold raise1 raise
  rw [settle_frame, hf]
  exact hsend _ _ (holdStands_reactNow n _ _ _ hflags)

/-- A safety function takes the hold and raises its source (R441). -/
theorem safetyFn_spec (s : Src) (n : Nat) (d e : Dev) (hf : d.regs = e.regs) (hh : d.hax = e.hax) :
    (safetyFn s n d).hw Fl.escAxstatusHold n = 1 ∧ e.reacted (safetyFn s n d) s n (n / 8) ∧ (safetyFn s n d).hax = e.hax := by
  refine ⟨holdStands_raise1 n _ s n 0 (n / 8) (hw_setHw_same _ _ _ _ (by decide)), ?_, (raise1_hax _ _ _ _ _).trans hh⟩
  exact (raise1_reacted _ s n 0 (n / 8)).from (by rw [← hf]; rfl)

/-! ## SS1 (R449) -/

/-- Setting a class raises the CLASS of an axis at least to it. -/
theorem bits_flagWord_cls (b c : Nat) (w : Word) (hc : c < 8) : c ≤ bits (flagWord b c w) 29 3 := by
  unfold flagWord
  dsimp only
  rw [bits_putBits_same _ 29 3 _ (by decide), Nat.mod_eq_of_lt]
  · exact le_max_right _ _
  · exact max_lt (bits_lt _ 29 3) (by omega)

/-- STO of an axis leaves the flags of all. -/
theorem flagsAt_stoAxis (p n k : Nat) (d : Dev) : (stoAxis n d).flagsAt p k = d.flagsAt p k := by
  obtain ⟨hp, hs⟩ := offFlags_escAxstatus n
  exact flagsAt_congr d _ p k rfl ((SMap.find_set_other _ _ hp.symm).trans (SMap.find_set_other _ _ hp.symm))
    ((SMap.find_set_other _ _ (hs k).symm).trans (SMap.find_set_other _ _ (hs k).symm))

/-- The block after the SS1 monitor's mark on its axis. -/
def ss1Marked (n : Nat) (d : Dev) : Dev := stickAxis (n / 8) 31 3 n (d.setHw Fl.escAxstatusSs1 n 0)

/-- SS1 that has its event marks its axis, takes its torque and asks for class 3. -/
theorem ss1Trip_due (n : Nat) (c : Ss1Cause) (d : Dev) (hf : d.flag Fl.escAxstatusSs1 n = true) (hd : d.ss1Due n c = true) :
    ss1Trip n c d = (stoAxis n (ss1Marked n d)).addReq (n / 8) { cls := 3, axes := [n], code := 0, status := .stoppedFault } := by
  unfold ss1Trip
  rw [if_neg (by simp [hf, hd])]
  rfl

theorem mva_ss1Marked (n k : Nat) (d : Dev) : (ss1Marked n d).mva k = d.mva k := by
  unfold ss1Marked
  rw [stickAxis_frame]
  rfl

/-- The mark raises the CLASS of its axis to 3 and touches no flag of another one. -/
theorem flagsAt_ss1Marked (n k : Nat) (d : Dev) :
    (ss1Marked n d).flagsAt (n / 8) k = if k = n then flagWord 31 3 (d.flagsAt (n / 8) n) else d.flagsAt (n / 8) k := by
  obtain ⟨hp, hs⟩ := offFlags_escAxstatus n
  have hset : ∀ j, (d.setHw Fl.escAxstatusSs1 n 0).flagsAt (n / 8) j = d.flagsAt (n / 8) j := fun j =>
    flagsAt_congr d _ _ j rfl (SMap.find_set_other _ _ hp.symm) (SMap.find_set_other _ _ (hs j).symm)
  unfold ss1Marked
  by_cases hk : k = n
  · subst hk; rw [flagsAt_stickAxis_same, hset, if_pos rfl]
  · rw [flagsAt_stickAxis_other _ _ _ _ hk, hset, if_neg hk]

/-! ## ESC_FAULT and the self-test (R443, R444) -/

/-- The flag of a failed check, set. -/
def escMark (c : EscCause) (d : Dev) : Dev :=
  match c with
  | .clock => d.setHw Fl.escStatusOscFail 0 1
  | .tick => d.setHw Fl.escStatusTickFail 0 1
  | .readback => d.setHw Fl.escStatusReadbackFail 0 1
  | .selftest => d

/-- The block with the flag of a failed check and ESC_FAULT held. -/
def escHeld (c : EscCause) (d : Dev) : Dev :=
  escMessage { escMark c d with sys := { (escMark c d).sys with escFault := true } }

/-- A failed check of the escapement holds ESC_FAULT and raises its source. -/
theorem escFault_eq (c : EscCause) (d : Dev) : escFault c d = (escHeld c d).raise1 .escFault 0 0 presEsc := rfl

theorem escHeld_frame (c : EscCause) (d : Dev) :
    (escHeld c d).regs = (escMark c d).regs ∧ (escHeld c d).hax = d.hax ∧ (escHeld c d).sys.escFault = true ∧
      (escHeld c d).regs.force = d.regs.force := by
  unfold escHeld escMessage
  cases c <;> (split <;> exact ⟨rfl, rfl, rfl, rfl⟩)

theorem offRaise_escStatus : offRaise (Reg.offset .escStatus 0) := offRaise_of_lt _ (by decide) (by decide)

/-- A field of ESC_STATUS after ESC_FAULT is as its mark has left it. -/
theorem hw_escFault (c : EscCause) (d : Dev) (f : Fld) (hr : f.reg = .escStatus) : (escFault c d).hw f 0 = (escMark c d).hw f 0 := by
  rw [escFault_eq, hw_raise1 _ _ _ _ _ _ _ (by rw [hr]; exact offRaise_escStatus)]
  exact hw_congr _ _ f 0 (by rw [(escHeld_frame c d).1])

/-- What ESC_FAULT leaves: the fault held, its source raised, the hub's axes as they were. -/
theorem escFault_spec (c : EscCause) (d : Dev) :
    (escFault c d).sys.escFault = true ∧ d.reacted (escFault c d) .escFault 0 16 ∧ (escFault c d).hax = d.hax := by
  obtain ⟨-, hhax, hheld, hforce⟩ := escHeld_frame c d
  rw [escFault_eq]
  refine ⟨?_, (raise1_reacted _ _ _ _ _).from hforce, (raise1_hax _ _ _ _ _).trans hhax⟩
  rw [raise1_faultOnly]
  exact hheld

/-- Modes taken inside a period change the legs of their axis. -/
theorem modesAt_frame (t n : Nat) (d : Dev) : modesAt t n d = { d with mvax := (modesAt t n d).mvax } := by
  unfold modesAt
  dsimp only
  split <;> rfl

theorem mva_modesAt (t n k : Nat) (d : Dev) :
    (modesAt t n d).mva k = { d.mva k with legs := ((modesAt t n d).mva k).legs } ∧ (k ≠ n → (modesAt t n d).mva k = d.mva k) := by
  unfold modesAt
  dsimp only
  split
  · exact ⟨rfl, fun _ => rfl⟩
  · by_cases h : k = n
    · subst h
      refine ⟨?_, fun h => absurd rfl h⟩
      unfold modLegs
      rw [mva_modMva]
    · unfold modLegs
      rw [mva_modMva_other _ _ h]
      exact ⟨rfl, fun _ => rfl⟩

/-- The legs of listed axes take their modes. -/
theorem each_modesAt (l : List Nat) (d : Dev) :
    (∀ k, (each l (fun n d => modesAt (d.turnAt n) n d) d).mva k =
        { d.mva k with legs := ((each l (fun n d => modesAt (d.turnAt n) n d) d).mva k).legs } ∧
      (k ∉ l → (each l (fun n d => modesAt (d.turnAt n) n d) d).mva k = d.mva k)) ∧
      each l (fun n d => modesAt (d.turnAt n) n d) d = { d with mvax := (each l (fun n d => modesAt (d.turnAt n) n d) d).mvax } := by
  refine ⟨fun k => ⟨?_, fun hk => ?_⟩, ?_⟩
  · exact each_keeps (fun t : Dev => t.mva k = { d.mva k with legs := (t.mva k).legs }) _ l d
      (fun n _ t ht => by
        rw [(mva_modesAt (t.turnAt n) n k t).1]
        generalize ((modesAt (t.turnAt n) n t).mva k).legs = g
        rw [ht]) rfl
  · exact mva_each_other _ l d k fun n hn t => (mva_modesAt _ n k t).2 fun e => hk (e ▸ hn)
  · exact each_keeps (fun t : Dev => t = { d with mvax := t.mvax }) _ l d
      (fun n _ t ht => by
        rw [modesAt_frame]
        generalize (modesAt (t.turnAt n) n t).mvax = g
        rw [ht]) rfl

end Sys2Proof.Machine.Dev

namespace Sys2Proof.Proofs
open Sys2Proof Sys2Proof.Machine

/-- Settles O48. -/
theorem slcBlindRaisesNoSource : Obligations.SlcBlindRaisesNoSource := by
  unfold Obligations.SlcBlindRaisesNoSource
  refine ⟨fun s ax h => ⟨Dev.slcBlind ax s.dev, rfl, ?_⟩, fun s ax h => ?_⟩
  · have hmva : (s.dev.modWatch ax fun w => { w with blind := 0 }).mva ax =
        { s.dev.mva ax with watch := { (s.dev.mva ax).watch with blind := 0 } } := Dev.mva_modMva _ _ _
    unfold Dev.slcBlind
    rw [if_neg (by omega)]
    refine ⟨Dev.hw_stick_same _ _ _ (by decide) rfl, hmva, ⟨fun _ _ => rfl, fun n hn => ?_⟩, rfl,
      ((Dev.regsBut_refl s.dev _).of_regs rfl).setHw _ _ _ (List.mem_singleton_self _)⟩
    exact (Dev.setHw_mva _ _ _ _ n).trans (Dev.mva_modMva_other _ _ (by simpa using hn))
  · show Host.Outcome.next { s with dev := Dev.slcBlind ax s.dev } = _
    unfold Dev.slcBlind
    rw [if_pos h]

/-- Settles O47: each function is the marks that it makes, then the source that it raises. -/
theorem safetyFunctions : Obligations.SafetyFunctions := by
  unfold Obligations.SafetyFunctions
  refine ⟨fun s ax c hf hd => ⟨Dev.ss1Trip ax c s.dev, rfl, ?_⟩, fun s ax b hon hn => ⟨Dev.slsOver ax b s.dev, rfl, ?_⟩,
    fun s m j ax hax hon hblind hdis => ⟨Dev.slsDiffer (8 * m.val + j.val) s.dev, rfl, ?_⟩,
    fun s ax l hmv hon hhigh => ⟨Dev.slcOver ax l s.dev, rfl, ?_⟩, fun s c => ⟨Dev.escFault c s.dev, rfl, ?_⟩,
    fun s hrel hok => ⟨⟨Dev.selftestEnd true s.dev, rfl, ?_⟩, ⟨Dev.selftestEnd false s.dev, rfl, ?_⟩⟩⟩
  · rw [Dev.ss1Trip_due _ _ _ hf hd]
    obtain ⟨hhold, hss1⟩ := Dev.hw_stoAxis_same ax (Dev.ss1Marked ax s.dev)
    refine ⟨hss1, hhold, Dev.stoAxis_drive ax _, ?_, ⟨fun _ _ => ?_, fun n hn => ?_⟩, ?_, fun n hn => ?_, ?_⟩
    · rw [show Dev.mv (Dev.addReq _ _ _) (ax.val / 8) = _ from Dev.mv_setMv _ _ _]
      exact ⟨_, List.mem_append_right _ (List.mem_singleton_self _), rfl, rfl⟩
    · show (Dev.stickAxis _ _ _ _ _).axis _ = _
      rw [Dev.stickAxis_frame]
      rfl
    · exact (Dev.mva_stoAxis_other _ (by simpa using hn)).trans (Dev.mva_ss1Marked ax n s.dev)
    · show 3 ≤ bits ((Dev.stoAxis ax _).flagsAt (ax.val / 8) ax) 29 3
      rw [Dev.flagsAt_stoAxis, Dev.flagsAt_ss1Marked, if_pos rfl]
      exact Dev.bits_flagWord_cls 31 3 _ (by decide)
    · show (Dev.stoAxis ax _).flagsAt (ax.val / 8) n = _
      rw [Dev.flagsAt_stoAxis, Dev.flagsAt_ss1Marked, if_neg hn]
    · unfold Dev.ss1Marked
      rw [Dev.stickAxis_frame]
      rfl
  · unfold Dev.slsOver
    rw [if_neg]
    · exact Dev.safetyFn_spec _ ax _ s.dev rfl rfl
    · simpa only [hon, Bool.not_true, Bool.false_or, decide_eq_true_eq, not_lt] using hn
  · rw [← hax]
    unfold Dev.slsDiffer
    rw [if_pos (by simp [hon, hblind, hdis])]
    exact Dev.safetyFn_spec _ ax _ s.dev rfl rfl
  · unfold Dev.slcOver
    rw [if_pos (by simp [hmv, hon, hhigh])]
    exact Dev.safetyFn_spec _ ax _ s.dev rfl rfl
  · obtain ⟨hheld, hreact, hhax⟩ := Dev.escFault_spec c s.dev
    refine ⟨hheld, hreact, ?_, ?_, ?_, hhax⟩
    · rintro rfl
      exact (Dev.hw_escFault .clock s.dev _ rfl).trans (Dev.hw_setHw_same _ _ _ _ (by decide))
    · rintro rfl
      exact (Dev.hw_escFault .tick s.dev _ rfl).trans (Dev.hw_setHw_same _ _ _ _ (by decide))
    · rintro rfl
      exact (Dev.hw_escFault .readback s.dev _ rfl).trans (Dev.hw_setHw_same _ _ _ _ (by decide))
  · have hwait : ∀ n, (s.dev.setHw Fl.escStatusSelftestOk 0 1).gatesWait n = s.dev.gatesWait n := fun n => by
      unfold Dev.gatesWait Dev.mvRuns Dev.mvOn
      rw [Dev.hw_setHw_reg _ _ _ _ _ _ (by decide)]
      rfl
    unfold Dev.selftestEnd
    rw [if_neg (by simp [hrel, Dev.flag, hok])]
    dsimp only
    rw [if_pos rfl]
    obtain ⟨hlegs, hframe⟩ := Dev.each_modesAt
      ((span 0 64).filter fun n => (s.dev.setHw Fl.escStatusSelftestOk 0 1).gatesWait n) (s.dev.setHw Fl.escStatusSelftestOk 0 1)
    refine ⟨?_, fun n => (hlegs n).1, fun n hn => (hlegs n).2 (by simp [hwait, hn]), ?_, ?_⟩
    · rw [hframe]
      exact Dev.hw_setHw_same _ _ _ _ (by decide)
    · rw [hframe]
      rfl
    · rw [hframe]
      exact ((Dev.regsBut_refl s.dev _).setHw Fl.escStatusSelftestOk 0 1 (List.mem_singleton_self _)).of_regs rfl
  · unfold Dev.selftestEnd
    rw [if_neg (by simp [hrel, Dev.flag, hok])]
    rw [if_neg (by decide)]
    obtain ⟨hheld, hreact, -⟩ := Dev.escFault_spec .selftest s.dev
    exact ⟨(Dev.hw_escFault .selftest s.dev _ rfl).trans hok, hheld, hreact⟩

end Sys2Proof.Proofs
end

section
/-! Refutations by a hub domain that becomes ready with the write (R508).

A write of the host is taken at its instant, and a hub domain that is due by then is on for it: PWR_STATUS shows it, and it no longer
waits. A statement that says that such a write changes its own registers and nothing else takes the domains as they were before
the command, so a domain that is coming up refutes it, as it refutes O59. -/

namespace Sys2Proof.Proofs

open Sys2Proof.Machine

/-- The domains that wait for their instant after a command. -/
def waitingAfter (o : Host.Outcome State Fault Refusal) : List (Nat × Nat) :=
  match o with
  | .next t => t.dev.sys.hubAt
  | _ => []

/-- Writes of the host 8,000 hub clocks (20 µs) into the tick, whose statements frame what they change. -/
def framedWrites : List Instr :=
  [.doorbellEnable 1 8000, .hifKick 0 8000, .unitRefWrite 64 0 8000, .fltAck 0 8000, .monUrgent 0 8000, .flush 0 0 8000,
    .password 0 8000, .nvsRead 0 8000, .tickRateChange 0 8000]

/-- At each of these writes the MOTION domain that was coming up is ready, and waits no longer. -/
theorem waitingAfter_framedWrites : ∀ c ∈ framedWrites, waitingAfter (exec c motionComing) = [] := by decide +kernel

/-- None of these writes leaves `sys`, where the domain waits, as it was. -/
theorem sys_ne_of_framedWrite {c : Instr} {d : Dev} (hc : c ∈ framedWrites)
    (hd : exec c motionComing = .next { motionComing with dev := d }) : d.sys ≠ motionComing.dev.sys := by
  intro hsys
  have hnone : d.sys.hubAt = [] := by
    have h := waitingAfter_framedWrites c hc
    rwa [hd] at h
  obtain ⟨-, -, hwaits⟩ := motionComing_off
  rw [hsys, hwaits] at hnone
  exact List.cons_ne_nil _ _ hnone

/-- What the statements' clauses ask of the state before the write. -/
theorem motionComing_ready :
    motionComing.dev.barOpen = true ∧ motionComing.dev.serves .hifCfg (Reg.offset .hifCfg 0) = true ∧ motionComing.dev.hubOn 0 = true ∧
      motionComing.dev.hubOn 3 = true ∧ motionComing.dev.hubOn 4 = true ∧ motionComing.dev.hubOn 5 = true ∧
      motionComing.dev.lock.run = none ∧ ∀ n < 64, (motionComing.dev.axis n).armed = false := by decide +kernel

/-- Refutes O33: DB_EN is written at the instant at which the MOTION domain is ready, and PWR_STATUS and the waiting domain change. -/
theorem not_enableWritesWait : ¬ Obligations.EnableWritesWait := by
  unfold Obligations.EnableWritesWait
  intro h
  obtain ⟨hbar, hserves, -⟩ := motionComing_ready
  obtain ⟨d, hd, -, -, -, hframe⟩ := h motionComing (.doorbellEnable 1 8000) .hifCfg 0 0 8000 true rfl hbar hserves
  have hsys := congrArg Dev.sys hframe
  dsimp only at hsys
  exact sys_ne_of_framedWrite (by simp [framedWrites]) hd hsys

/-- Refutes O35: a kick at the instant at which the MOTION domain is ready changes more than the host interface. -/
theorem not_hostActivityAndMessages : ¬ Obligations.HostActivityAndMessages := by
  unfold Obligations.HostActivityAndMessages
  rintro ⟨hkick, -⟩
  obtain ⟨hbar, -⟩ := motionComing_ready
  obtain ⟨d, hd, -, -, -, -, hframe⟩ := hkick motionComing 0 8000 hbar
  have hsys := congrArg Dev.sys hframe
  dsimp only at hsys
  exact sys_ne_of_framedWrite (by simp [framedWrites]) hd hsys

/-- Refutes O37: a write of UNIT_REF at the instant at which the MOTION domain is ready changes more than registers. -/
theorem not_unitsBindAndUnbind : ¬ Obligations.UnitsBindAndUnbind := by
  unfold Obligations.UnitsBindAndUnbind
  rintro ⟨-, -, -, href, -⟩
  obtain ⟨hbar, -, hdisp, -⟩ := motionComing_ready
  obtain ⟨d, hd, -, -, -, -, hframe⟩ := href motionComing 64 0 8000 (by decide) hbar hdisp
  have hsys := congrArg Dev.sys hframe
  dsimp only at hsys
  exact sys_ne_of_framedWrite (by simp [framedWrites]) hd hsys

/-- Refutes O45: an acknowledge at the instant at which the MOTION domain is ready changes more than the collector and its registers. -/
theorem not_faultWritesAndPairs : ¬ Obligations.FaultWritesAndPairs := by
  unfold Obligations.FaultWritesAndPairs
  rintro ⟨hack, -⟩
  obtain ⟨hbar, -⟩ := motionComing_ready
  obtain ⟨d, hd, hframe, -⟩ := hack motionComing 0 8000 hbar
  have hsys := congrArg Dev.sys hframe
  dsimp only at hsys
  exact sys_ne_of_framedWrite (by simp [framedWrites]) hd hsys

/-- Refutes O51: a write of MON_URGENT at the instant at which the MOTION domain is ready changes more than the monitor bank. -/
theorem not_monitorBank : ¬ Obligations.MonitorBank := by
  unfold Obligations.MonitorBank
  rintro ⟨-, hurgent, -⟩
  obtain ⟨hbar, -, -, -, hmon, -⟩ := motionComing_ready
  obtain ⟨d, hd, hframe, -⟩ := hurgent motionComing 0 8000 hbar hmon
  have hsys := congrArg Dev.sys hframe
  dsimp only at hsys
  exact sys_ne_of_framedWrite (by simp [framedWrites]) hd hsys

/-- Refutes O53: a FLUSH at the instant at which the MOTION domain is ready changes more than its controller. -/
theorem not_canErrors : ¬ Obligations.CanErrors := by
  unfold Obligations.CanErrors
  rintro ⟨-, -, -, -, -, -, hflush⟩
  obtain ⟨hbar, -, -, hbus, -⟩ := motionComing_ready
  obtain ⟨d, hd, -, -, -, -, hframe⟩ := hflush motionComing 0 0 8000 hbar hbus
  have hsys := congrArg Dev.sys hframe
  dsimp only at hsys
  exact sys_ne_of_framedWrite (by simp [framedWrites]) hd hsys

/-- Refutes O54: PASSWORD at the instant at which the MOTION domain is ready changes more than the lock. -/
theorem not_lockCommands : ¬ Obligations.LockCommands := by
  unfold Obligations.LockCommands
  rintro ⟨hstart, -⟩
  obtain ⟨hbar, -, -, -, -, -, hidle, -⟩ := motionComing_ready
  obtain ⟨d, hd, -, -, -, -, hframe⟩ := hstart motionComing 0 8000 0 (.password 0 8000) (by simp) hbar hidle
  obtain ⟨hframe, -⟩ := hframe (by decide)
  have hsys := congrArg Dev.sys hframe
  dsimp only at hsys
  exact sys_ne_of_framedWrite (by simp [framedWrites]) hd hsys

/-- Refutes O55: NVS_READ at the instant at which the MOTION domain is ready changes more than the store's registers. -/
theorem not_storeCommands : ¬ Obligations.StoreCommands := by
  unfold Obligations.StoreCommands
  rintro ⟨hstart, -⟩
  obtain ⟨hbar, -, -, -, -, hnvs, -⟩ := motionComing_ready
  obtain ⟨d, hd, -, -, hframe, -⟩ := hstart motionComing 0 8000 0 (.nvsRead 0 8000) (by simp) hbar hnvs
  have hsys := congrArg Dev.sys hframe
  dsimp only at hsys
  exact sys_ne_of_framedWrite (by simp [framedWrites]) hd hsys

/-- Refutes O58: a write of TICK_CFG at the instant at which the MOTION domain is ready changes more than registers. -/
theorem not_powerAndRateWrites : ¬ Obligations.PowerAndRateWrites := by
  unfold Obligations.PowerAndRateWrites
  rintro ⟨-, -, -, hrate, -⟩
  obtain ⟨hbar, -, -, -, -, -, -, hunarmed⟩ := motionComing_ready
  obtain ⟨d, hd, -, -, -, hframe⟩ := hrate motionComing 0 8000 hbar hunarmed (by decide)
  have hsys := congrArg Dev.sys hframe
  dsimp only at hsys
  exact sys_ne_of_framedWrite (by simp [framedWrites]) hd hsys

/-- PWR_CTRL has switched the SIGN domain off and on again at the start of the tick; MOTION, which a rebase needs, is on. -/
def signComing : State :=
  (operating.write (Reg.offset .pwrCtrl 0) 0x3BFF 0).write (Reg.offset .pwrCtrl 0) 0x3FFF 0

theorem signComing_waits :
    signComing.dev.barOpen = true ∧ signComing.dev.hubOn 1 = true ∧ signComing.dev.sys.hubAt = [(2, 8000)] ∧
      waitingAfter (exec (.rebase 0 0 8000) signComing) = [] := by decide +kernel

/-- Refutes O40: a rebase at the instant at which the SIGN domain is ready changes more than registers. -/
theorem not_commandPins : ¬ Obligations.CommandPins := by
  unfold Obligations.CommandPins
  rintro ⟨-, -, -, -, hrebase⟩
  obtain ⟨hbar, hmotion, hwaits, hnone⟩ := signComing_waits
  obtain ⟨d, hd, -, -, -, -, -, hframe⟩ := hrebase signComing 0 0 8000 hbar hmotion
  rw [hd] at hnone
  have hsys := congrArg Dev.sys hframe
  dsimp only at hsys
  exact List.cons_ne_nil _ _ (hwaits.symm.trans ((congrArg Sys.hubAt hsys).symm.trans hnone))

/-- The block in operation with the MOTION domain due at the instant at which the tick starts. -/
def motionDue : State :=
  { operating with dev := { operating.dev with sys := { operating.dev.sys with hubAt := [(1, 0)] } } }

/-- An offset between the pages of the map. -/
def offMap : BitVec 20 := 0x0FFFC

/-- An unmapped write, whose event carries no instant, is taken at the start of the tick: the domain that is due is ready for it. -/
theorem motionDue_waits :
    motionDue.dev.barOpen = true ∧ decodeOffset offMap.toNat = none ∧ motionDue.dev.sys.hubAt = [(1, 0)] ∧
      waitingAfter (exec (.unmappedAccess true offMap) motionDue) = [] := by decide +kernel

/-- Refutes O60: an unmapped write at the instant at which the MOTION domain is ready changes more than registers. -/
theorem not_unmappedAndConfiguration : ¬ Obligations.UnmappedAndConfiguration := by
  unfold Obligations.UnmappedAndConfiguration
  rintro ⟨hunmapped, -⟩
  obtain ⟨hbar, hnoreg, hwaits, hnone⟩ := motionDue_waits
  obtain ⟨d, hd, -, -, -, hframe⟩ := hunmapped motionDue true offMap hbar (by decide) hnoreg
  rw [hd] at hnone
  have hsys := congrArg Dev.sys hframe
  dsimp only at hsys
  exact List.cons_ne_nil _ _ (hwaits.symm.trans ((congrArg Sys.hubAt hsys).symm.trans hnone))

end Sys2Proof.Proofs
end

section
/-! What a stop can change (R129, R131, R139): the hub's side of the axes, the command pins and their registers, a waiting reopen. -/

namespace Sys2Proof.Machine.Dev

/-! ## The parts that a stop touches -/

/-- t is d but for the hub's axes, the command pins, the signatures and register values. -/
def stopOnly (d t : Dev) : Prop :=
  t = { d with hax := t.hax, cmds := t.cmds, signs := t.signs,
               regs := { d.regs with acc := t.regs.acc, force := t.regs.force, hw := t.regs.hw } }

theorem stopOnly_refl (d : Dev) : d.stopOnly d := rfl

theorem stopOnly.trans {d t u : Dev} (h : d.stopOnly t) (k : t.stopOnly u) : d.stopOnly u := by
  unfold stopOnly at *
  rw [k, h]

theorem stopOnly.time {d t : Dev} (h : d.stopOnly t) : t.time = d.time := by rw [h]
theorem stopOnly.hif {d t : Dev} (h : d.stopOnly t) : t.hif = d.hif := by rw [h]
theorem stopOnly.units {d t : Dev} (h : d.stopOnly t) : t.units = d.units := by rw [h]
theorem stopOnly.acts {d t : Dev} (h : d.stopOnly t) : t.acts = d.acts := by rw [h]
theorem stopOnly.mvax {d t : Dev} (h : d.stopOnly t) : t.mvax = d.mvax := by rw [h]
theorem stopOnly.mvs {d t : Dev} (h : d.stopOnly t) : t.mvs = d.mvs := by rw [h]
theorem stopOnly.strikes {d t : Dev} (h : d.stopOnly t) : t.strikes = d.strikes := by rw [h]
theorem stopOnly.flt {d t : Dev} (h : d.stopOnly t) : t.flt = d.flt := by rw [h]
theorem stopOnly.lock {d t : Dev} (h : d.stopOnly t) : t.lock = d.lock := by rw [h]
theorem stopOnly.sys {d t : Dev} (h : d.stopOnly t) : t.sys = d.sys := by rw [h]

theorem stopOnly_each (f : Nat → Dev → Dev) (l : List Nat) (d : Dev) (h : ∀ n t, stopOnly t (f n t)) :
    d.stopOnly (each l f d) :=
  each_keeps (fun t => d.stopOnly t) f l d (fun n _ t ht => ht.trans (h n t)) (stopOnly_refl d)

theorem stopOnly_modAxis (d : Dev) (n : Nat) (f : HubAxis → HubAxis) : d.stopOnly (d.modAxis n f) := rfl
theorem stopOnly_setHw (d : Dev) (f : Fld) (i v : Nat) : d.stopOnly (d.setHw f i v) := rfl


/-- The brake to standstill with which an immediate stop begins in RAMP (R234). -/
def rampBrake (imm : Bool) (n : Nat) (d : Dev) : Dev :=
  if imm && d.sensorless n && (d.axis n).lat.phase == 4 &&
      ((d.axis n).cmd == .openloop || (d.axis n).cmd == .field || (d.axis n).cmd == .hold) then
    d.modAxis n fun x => { x with cmd := .brake, seqOff := true, brakeHold := true }
  else d

/-- The stop in progress once a further one has joined it (R131). -/
def joinedStop (d : Dev) (n : Nat) (imm : Bool) (decel : Word) (join : Option Nat) (s : Stop) : Stop :=
  let inUse := if s.decel = 0 then BitVec.ofInt 32 ((d.params n).dec (d.axis n).mot.v) else s.decel
  { s with immediate := s.immediate || imm
           decel := if !imm && !s.immediate && decel ≠ 0 && inUse.toNat < decel.toNat then decel else s.decel
           joined := s.joined ++ join.toList }

/-- An axis at the beginning of its stop: the stop, and what the mode leaves behind (R129, R234). -/
def begunStop (d : Dev) (n : Nat) (imm : Bool) (decel : Word) (cause : StopCause) (join : Option Nat) (x : HubAxis) : HubAxis :=
  let y := d.axis n
  let short := y.mot.wait && d.sensorless n && (y.lat.phase == 2 || y.lat.phase == 5)
  let dropped := y.mot.wait && (y.seq.isSome || !([1, 4, 6, 7, 8, 9].contains y.lat.phase))
  { x with stop := some { immediate := imm, decel := decel, cause := cause, joined := join.toList, disarm := false,
                          keep := y.mot.mode == .profile }
           seqOff := x.seqOff || dropped
           cmd := if short then .brake else x.cmd
           brakeHold := x.brakeHold || x.mot.rev || short
           mot := { x.mot with queue := [], seg := none, rev := false, pin := none, v := if dropped then 0 else x.mot.v } }

/-- An axis that does not move takes no stop. -/
theorem stopAxis_still (n : Nat) (imm : Bool) (decel : Word) (cause : StopCause) (join : Option Nat) (d : Dev)
    (h : (d.axis n).st ≠ .moving) : stopAxis n imm decel cause join d = d := if_pos h

/-- A stop joins the one in progress. -/
theorem stopAxis_joins (n : Nat) (imm : Bool) (decel : Word) (cause : StopCause) (join : Option Nat) (d : Dev) (s : Stop)
    (h : (d.axis n).st = .moving) (hs : (d.axis n).stop = some s) :
    stopAxis n imm decel cause join d =
      (rampBrake imm n d).modAxis n fun x => { x with stop := some (joinedStop (rampBrake imm n d) n imm decel join s) } := by
  unfold stopAxis
  dsimp only
  rw [if_neg (not_not.mpr h), hs]
  have hv : ((rampBrake imm n d).axis n).mot.v = (d.axis n).mot.v := by
    unfold rampBrake
    split
    · rw [axis_modAxis]
    · rfl
  unfold joinedStop
  rw [hv]
  rfl

/-- A stop begins. -/
theorem stopAxis_begins (n : Nat) (imm : Bool) (decel : Word) (cause : StopCause) (join : Option Nat) (d : Dev)
    (h : (d.axis n).st = .moving) (hs : (d.axis n).stop = none) :
    stopAxis n imm decel cause join d =
      ((if imm then rampBrake imm n d else torqueSpeed n (rampBrake imm n d)).modAxis n
        (begunStop d n imm decel cause join)).setHw Fl.axisStatusRevBraking n 0 := by
  unfold stopAxis
  dsimp only
  rw [if_neg (not_not.mpr h), hs]
  have hsl : (rampBrake imm n d).sensorless n = d.sensorless n := by
    unfold rampBrake
    split <;> rfl
  unfold begunStop
  conv_rhs => rw [← hsl]
  rfl

/-- The three things that a stop of one axis can be. -/
theorem stopAxis_cases (n : Nat) (imm : Bool) (decel : Word) (cause : StopCause) (join : Option Nat) (d : Dev) :
    ((d.axis n).st ≠ .moving ∧ stopAxis n imm decel cause join d = d) ∨
      (∃ s, (d.axis n).st = .moving ∧ (d.axis n).stop = some s ∧ stopAxis n imm decel cause join d =
        (rampBrake imm n d).modAxis n fun x => { x with stop := some (joinedStop (rampBrake imm n d) n imm decel join s) }) ∨
      ((d.axis n).st = .moving ∧ (d.axis n).stop = none ∧ stopAxis n imm decel cause join d =
        ((if imm then rampBrake imm n d else torqueSpeed n (rampBrake imm n d)).modAxis n
          (begunStop d n imm decel cause join)).setHw Fl.axisStatusRevBraking n 0) := by
  by_cases h : (d.axis n).st = .moving
  · cases hs : (d.axis n).stop with
    | some s => exact Or.inr (Or.inl ⟨s, h, rfl, stopAxis_joins n imm decel cause join d s h hs⟩)
    | none => exact Or.inr (Or.inr ⟨h, rfl, stopAxis_begins n imm decel cause join d h hs⟩)
  · exact Or.inl ⟨h, stopAxis_still n imm decel cause join d h⟩

/-- What the brake, the latched speed and the stop itself each keep of the block, a stop of one axis keeps. -/
theorem stopAxis_keeps (P : Dev → Prop) (n : Nat) (imm : Bool) (decel : Word) (cause : StopCause) (join : Option Nat) (d : Dev)
    (hmod : ∀ (f : HubAxis → HubAxis) (t : Dev), P t → P (t.modAxis n f))
    (hflag : ∀ t : Dev, P t → P (t.setHw Fl.axisStatusRevBraking n 0)) (hd : P d) : P (stopAxis n imm decel cause join d) := by
  have hramp : P (rampBrake imm n d) := by
    unfold rampBrake
    split
    · exact hmod _ d hd
    · exact hd
  have htorque : ∀ t : Dev, P t → P (torqueSpeed n t) := by
    intro t ht
    unfold torqueSpeed
    dsimp only
    split
    · exact ht
    · exact hmod _ t ht
  obtain ⟨-, he⟩ | ⟨s, -, -, he⟩ | ⟨-, -, he⟩ := stopAxis_cases n imm decel cause join d
  · rw [he]; exact hd
  · rw [he]; exact hmod _ _ hramp
  · rw [he]
    refine hflag _ (hmod _ _ ?_)
    split
    · exact hramp
    · exact htorque _ hramp

theorem stopAxis_stopOnly (n : Nat) (imm : Bool) (decel : Word) (cause : StopCause) (join : Option Nat) (d : Dev) :
    d.stopOnly (stopAxis n imm decel cause join d) :=
  stopAxis_keeps (fun t => d.stopOnly t) n imm decel cause join d (fun _ _ h => h.trans rfl) (fun _ h => h.trans rfl) rfl

theorem stopPin_stopOnly (c : Nat) (d : Dev) : d.stopOnly (stopPin c d) :=
  (stopOnly_each _ (d.cmd c).axes d fun n t => stopAxis_stopOnly n false 0 .stop none t).trans rfl

theorem stop_stopOnly (n : Nat) (imm : Bool) (decel : Word) (cause : StopCause) (join : Option Nat) (d : Dev) :
    d.stopOnly (stop n imm decel cause join d) := by
  unfold stop
  dsimp only
  have h := stopAxis_stopOnly n imm decel cause join d
  split
  · split
    · exact h.trans (stopPin_stopOnly _ _)
    · exact h
  · exact h

theorem unarm_stopOnly (n : Nat) (d : Dev) : d.stopOnly (d.unarm n) := by
  unfold unarm
  split <;> rfl

theorem dropReopen_stopOnly (n : Nat) (d : Dev) : d.stopOnly (d.dropReopen n) := by
  unfold dropReopen
  split <;> rfl

theorem disarmAxis_stopOnly (ramp : Bool) (n : Nat) (d : Dev) : d.stopOnly (disarmAxis ramp n d) := by
  unfold disarmAxis
  dsimp only
  split
  · rfl
  · split
    · refine (dropReopen_stopOnly n d).trans ?_
      split
      · exact (stop_stopOnly n _ _ _ _ _).trans rfl
      · exact ((stop_stopOnly n _ _ _ _ _).trans (unarm_stopOnly n _)).trans rfl
    · exact (unarm_stopOnly n d).trans rfl

/-! ## Device-driven fields that a stop leaves

The engagement bits of a pin and the flags of an axis are the fields that a stop clears. A field of the hub's registers, below the
pages of the axes, stays where it does not hold bit 14, the place of ENGAGED in CMD_CFG. -/

/-- The word of a register has been written since reset, so that it no longer reads as the reset word of its row. -/
def hwWritten (d : Dev) (f : Fld) (i : Nat) : Prop := (SMap.find d.regs.hw (f.reg.offset i)).isSome = true

theorem hwWritten_setHw (d : Dev) (f g : Fld) (i j v : Nat) (h : d.hwWritten g j) : (d.setHw f i v).hwWritten g j := by
  unfold hwWritten at h ⊢
  rw [setHw_hw, fldSet, SMap.find_set]
  split
  · rfl
  · exact h

theorem hwWritten_setHw_same (d : Dev) (f : Fld) (i v : Nat) : (d.setHw f i v).hwWritten f i := by
  unfold hwWritten
  rw [setHw_hw, fldSet, SMap.find_set_same]
  rfl

/-- A field that has been written stays where another is set that lies at another offset or on other bits. -/
theorem hw_setHw_apart (d : Dev) (f g : Fld) (i j v : Nat) (hf : f.lo + f.width ≤ 32) (hg : d.hwWritten g j)
    (h : g.reg.offset j ≠ f.reg.offset i ∨ g.lo + g.width ≤ f.lo ∨ f.lo + f.width ≤ g.lo) :
    (d.setHw f i v).hw g j = d.hw g j := by
  by_cases ho : g.reg.offset j = f.reg.offset i
  · have hd := h.resolve_left (not_not.mpr ho)
    obtain ⟨w, hw⟩ := Option.isSome_iff_exists.mp hg
    rw [ho] at hw
    simp only [Dev.hw, fldOf, setHw_hw, fldSet, regWord, ho, SMap.find_set_same, Option.getD_some, hw]
    exact bits_putBits_other _ _ _ _ _ _ hf hd
  · exact hw_setHw_reg d f g i j v ho

/-- A register of an axis page that is not FLT_STICKY. -/
def ownPage (a : Nat) : Prop := 0x10000 ≤ a ∧ a % 0x400 ≠ 0x240

/-- Field f at index i lies below the pages of the axes, or in a FLT_STICKY, and beside bit 14. -/
def offStop (f : Fld) (i : Nat) : Prop := ¬ ownPage (f.reg.offset i) ∧ (f.lo + f.width ≤ 14 ∨ 15 ≤ f.lo)

/-- t shows a written field f at index i as d does. -/
def sameField (f : Fld) (i : Nat) (d t : Dev) : Prop := d.hwWritten f i → t.hwWritten f i ∧ t.hw f i = d.hw f i

theorem sameField_refl (f : Fld) (i : Nat) (d : Dev) : sameField f i d d := fun h => ⟨h, rfl⟩

theorem sameField.trans {f : Fld} {i : Nat} {d t u : Dev} (h : sameField f i d t) (k : sameField f i t u) : sameField f i d u :=
  fun hd => ⟨(k (h hd).1).1, (k (h hd).1).2.trans (h hd).2⟩

/-- Device-driven registers that stay show the field as it was. -/
theorem sameField_of_hw {f : Fld} {i : Nat} {d t : Dev} (h : t.regs.hw = d.regs.hw) : sameField f i d t := by
  unfold sameField hwWritten Dev.hw
  rw [h]
  exact fun hd => ⟨hd, rfl⟩

theorem sameField_each {f : Fld} {i : Nat} (g : Nat → Dev → Dev) (l : List Nat) (d : Dev) (h : ∀ n t, sameField f i t (g n t)) :
    sameField f i d (each l g d) :=
  each_keeps (fun t => sameField f i d t) g l d (fun n _ t ht => ht.trans (h n t)) (sameField_refl f i d)

section
variable {f : Fld} {i : Nat} (hf : offStop f i)
include hf

theorem sameField_engaged (c v : Nat) (d : Dev) : sameField f i d (d.setHw Fl.cmdCfgEngaged c v) := by
  intro hd
  obtain ⟨-, hbits⟩ := hf
  refine ⟨hwWritten_setHw _ _ _ _ _ _ hd, hw_setHw_apart d _ _ _ _ _ (by decide) hd (Or.inr ?_)⟩
  simpa [Fl.cmdCfgEngaged] using hbits

/-- A field on the pages of the axes leaves it. -/
theorem sameField_page (g : Fld) (n v : Nat) (d : Dev) (hg : ownPage (g.reg.offset n)) : sameField f i d (d.setHw g n v) :=
  fun hd => ⟨hwWritten_setHw _ _ _ _ _ _ hd, hw_setHw_reg d _ _ _ _ _ fun he => hf.1 (he ▸ hg)⟩

theorem sameField_revBraking (n v : Nat) (d : Dev) : sameField f i d (d.setHw Fl.axisStatusRevBraking n v) :=
  sameField_page hf _ n v d (by simp only [ownPage, Reg.offset, Reg.place]; omega)

theorem sameField_offtPassed (n v : Nat) (d : Dev) : sameField f i d (d.setHw Fl.offtStatusPassed n v) :=
  sameField_page hf _ n v d (by simp only [ownPage, Reg.offset, Reg.place]; omega)

theorem stopAxis_sameField (n : Nat) (imm : Bool) (decel : Word) (cause : StopCause) (join : Option Nat) (d : Dev) :
    sameField f i d (stopAxis n imm decel cause join d) :=
  stopAxis_keeps (fun t => sameField f i d t) n imm decel cause join d (fun _ _ h => h.trans (sameField_of_hw rfl))
    (fun t h => h.trans (sameField_revBraking hf n 0 t)) (sameField_refl f i d)

theorem stopPin_sameField (c : Nat) (d : Dev) : sameField f i d (stopPin c d) := by
  refine sameField.trans ?_ (sameField_engaged hf c 0 _)
  exact (sameField_each _ (d.cmd c).axes d fun n t => stopAxis_sameField hf n false 0 .stop none t).trans (sameField_of_hw rfl)

theorem stop_sameField (n : Nat) (imm : Bool) (decel : Word) (cause : StopCause) (join : Option Nat) (d : Dev) :
    sameField f i d (stop n imm decel cause join d) := by
  unfold stop
  dsimp only
  have h := stopAxis_sameField hf n imm decel cause join d
  split
  · split
    · exact h.trans (stopPin_sameField hf _ _)
    · exact h
  · exact h

theorem unarm_sameField (n : Nat) (d : Dev) : sameField f i d (d.unarm n) := by
  unfold unarm
  split
  · exact (sameField_of_hw rfl).trans (sameField_offtPassed hf n 0 _)
  · exact sameField_refl f i d

theorem disarmAxis_sameField (ramp : Bool) (n : Nat) (d : Dev) : sameField f i d (disarmAxis ramp n d) := by
  have hdrop : sameField f i d (d.dropReopen n) := by
    unfold dropReopen
    split <;> exact sameField_of_hw rfl
  unfold disarmAxis
  dsimp only
  split
  · exact sameField_refl f i d
  · split
    · refine hdrop.trans ?_
      split
      · exact (stop_sameField hf n _ _ _ _ _).trans (sameField_of_hw rfl)
      · exact ((stop_sameField hf n _ _ _ _ _).trans (unarm_sameField hf n _)).trans (sameField_of_hw rfl)
    · exact (unarm_sameField hf n d).trans (sameField_of_hw rfl)

end

end Sys2Proof.Machine.Dev
end

section
/-! Proofs for clocks and the mains time base (chapters 1 and 17). -/

namespace Sys2Proof.Machine.Dev

/-! ## A movement comes up (R511, R518) -/

/-- The axes of an orphan stay without torque in a state that comes up (R511). -/
def orphanStays (m : Nat) (d : Dev) : Dev :=
  if d.orphan m then each (localAxes m) (fun n d => d.modMva n fun x => { x with drive := .orphanSto }) d else d

theorem each_modMva_frame (f : MvAxis → MvAxis) (l : List Nat) (d : Dev) :
    each l (fun n d => d.modMva n f) d = { d with mvax := (each l (fun n d => d.modMva n f) d).mvax } := by
  induction l generalizing d with
  | nil => rfl
  | cons n r ih => rw [each_cons, ih]; rfl

theorem orphanStays_frame (m : Nat) (d : Dev) : orphanStays m d = { d with mvax := (orphanStays m d).mvax } := by
  unfold orphanStays
  split
  · exact each_modMva_frame _ _ _
  · rfl

/-- A movement shown as on, with VCL valid. -/
def shownOn (m : Nat) (d : Dev) : Dev := (d.setBit Fl.pwrStatusVclOk m true).setBit Fl.pwrStatusMvOn m true

/-- Every axis of a movement is unarmed. -/
def allDisarmed (m : Nat) (d : Dev) : Dev := each (localAxes m) (disarmAxis false) d

theorem allDisarmed_stopOnly (m : Nat) (d : Dev) : d.stopOnly (allDisarmed m d) :=
  stopOnly_each _ _ _ fun n t => disarmAxis_stopOnly false n t

theorem allDisarmed_sameField {f : Fld} {i : Nat} (hf : offStop f i) (m : Nat) (d : Dev) : sameField f i d (allDisarmed m d) :=
  sameField_each _ _ _ fun n t => disarmAxis_sameField hf false n t

/-- The steps of a movement that comes up. -/
theorem mvUp_eq (m : Nat) (d : Dev) :
    mvUp m d = orphanStays m ((allDisarmed m (shownOn m d)).modMv m fun x =>
      { x with load := true, rate := (allDisarmed m (shownOn m d)).time.rate }) := by
  unfold mvUp orphanStays allDisarmed shownOn
  generalize localAxes m = l
  rfl

theorem orphanStays_regs (m : Nat) (d : Dev) : (orphanStays m d).regs = d.regs := by rw [orphanStays_frame]
theorem orphanStays_sys (m : Nat) (d : Dev) : (orphanStays m d).sys = d.sys := by rw [orphanStays_frame]

theorem mvUp_regs (m : Nat) (d : Dev) : (mvUp m d).regs = (allDisarmed m (shownOn m d)).regs := by
  rw [mvUp_eq]
  generalize allDisarmed m (shownOn m d) = t
  exact orphanStays_regs m _

theorem mvUp_sys (m : Nat) (d : Dev) : (mvUp m d).sys = d.sys := by
  have h := stopOnly.sys (allDisarmed_stopOnly m (shownOn m d))
  rw [mvUp_eq]
  generalize allDisarmed m (shownOn m d) = t at h ⊢
  exact (orphanStays_sys m _).trans h

/-- A field of the hub that stops leave stays from where the movement is shown as on. -/
theorem sameField_mvUp {f : Fld} {i : Nat} (hf : offStop f i) (m : Nat) (d : Dev) : sameField f i (shownOn m d) (mvUp m d) :=
  (allDisarmed_sameField hf m _).trans (sameField_of_hw (congrArg Regs.hw (mvUp_regs m d)))

theorem mvOn_shownOn (m k : Nat) (hm : m < 8) (d : Dev) : (shownOn m d).mvOn k = (decide (k = m) || d.mvOn k) := by
  have hset := testBit_hw_setBit (d.setBit Fl.pwrStatusVclOk m true) Fl.pwrStatusMvOn m true k (by decide) hm
  rw [hw_setBit_beside d Fl.pwrStatusVclOk Fl.pwrStatusMvOn m true rfl (by decide) (by decide)] at hset
  refine hset.trans ?_
  unfold mvOn
  by_cases h : k = m <;> simp [h]

/-- Once a movement is up, the movements that were on are on, and so is it (R510). -/
theorem mvOn_mvUp (m k : Nat) (hm : m < 8) (d : Dev) : (mvUp m d).mvOn k = (decide (k = m) || d.mvOn k) := by
  obtain ⟨-, hsame⟩ := sameField_mvUp (f := Fl.pwrStatusMvOn) (i := 0) (by unfold offStop ownPage; decide) m d (hwWritten_setHw_same _ _ _ _)
  exact (congrArg (·.testBit k) hsame).trans (mvOn_shownOn m k hm d)

/-- A movement that comes up leaves what the clock shows. -/
theorem mvUp_pllLock (m : Nat) (d : Dev) : sameField Fl.clkStatusPllLock 0 d (mvUp m d) := by
  have hset : ∀ (f : Fld) (v : Nat) (t : Dev), f.reg = .pwrStatus → sameField Fl.clkStatusPllLock 0 t (t.setHw f 0 v) :=
    fun f v t hf ht => ⟨hwWritten_setHw _ _ _ _ _ _ ht, hw_setHw_reg t _ _ _ _ _ (by rw [hf]; decide)⟩
  exact ((hset Fl.pwrStatusVclOk _ d rfl).trans (hset Fl.pwrStatusMvOn _ _ rfl)).trans
    (sameField_mvUp (by unfold offStop ownPage; decide) m d)

/-- After a round of movements that come up, those that were on and those of the round are on. -/
theorem mvOn_each_mvUp (l : List Nat) (hl : ∀ m ∈ l, m < 8) (k : Nat) (d : Dev) :
    (each l mvUp d).mvOn k = (decide (k ∈ l) || d.mvOn k) := by
  induction l generalizing d with
  | nil => rfl
  | cons m r ih =>
    rw [each_cons, ih (fun j hj => hl j (List.mem_cons_of_mem m hj)), mvOn_mvUp m k (hl m (by simp))]
    by_cases h : k = m <;> simp [h]

theorem mvsUp_sys (d : Dev) : (mvsUp d).sys = d.sys := each_same Dev.sys _ _ d fun m _ t => mvUp_sys m t

theorem mvsUp_pllLock (d : Dev) : sameField Fl.clkStatusPllLock 0 d (mvsUp d) := sameField_each _ _ d mvUp_pllLock

/-- The movements that are switched on and whose VCL is valid come up (R518). -/
theorem mvOn_mvsUp (d : Dev) (m : Fin 8) :
    (mvsUp d).mvOn m = (d.mvOn m || (d.sys.mvSw.getLsbD m && (d.hw Fl.pwrStatusVclOk 0).testBit m)) := by
  unfold mvsUp
  rw [mvOn_each_mvUp _ (fun k hk => ((mem_span 0 8 k).mp (List.mem_of_mem_filter hk)).2), Bool.or_comm]
  congr 1
  rw [Bool.eq_iff_iff, decide_eq_true_eq, List.mem_filter, mem_span]
  exact and_iff_right ⟨Nat.zero_le _, by omega⟩

/-- The block of a first lock before its movements come up: locked, its tick generator started (R518). -/
def startTicks (d : Dev) : Dev :=
  { d.setHw Fl.clkStatusPllLock 0 1 with sys := { d.sys with ticking := true, first := true } }

theorem pllLocked_eq (d : Dev) (hrel : d.sys.released = true) (hlock : d.flag Fl.clkStatusPllLock 0 = false) :
    pllLocked d = if d.sys.ticking then d.setHw Fl.clkStatusPllLock 0 1 else mvsUp d.startTicks :=
  if_neg (by rw [hrel, hlock]; decide)

/-- A field of the power status is not that of the clock's. -/
theorem hw_startTicks (d : Dev) (f : Fld) (hf : f.reg = .pwrStatus) : d.startTicks.hw f 0 = d.hw f 0 :=
  hw_setHw_reg d _ _ _ _ _ (by rw [hf]; decide)

theorem mvOn_startTicks (d : Dev) (m : Nat) : d.startTicks.mvOn m = d.mvOn m :=
  congrArg (·.testBit m) (hw_startTicks d Fl.pwrStatusMvOn rfl)

/-! ## The mains time base (R21) -/

/-- The 30 ms are not over: the mains time base stays. -/
theorem mainsGone_not (t : Nat) (d : Dev) (h : d.time.mainsValid = false ∨ t < d.time.mainsLast + 12000000) : mainsGone t d = d := by
  unfold mainsGone
  rw [if_neg]
  rw [Bool.and_eq_true, decide_eq_true_eq]
  rintro ⟨hv, hle⟩
  obtain h | h := h
  · rw [h] at hv; cases hv
  · omega

/-- The 30 ms are over: the mains time base is no longer valid and has no reference. -/
theorem mainsGone_over (t : Nat) (d : Dev) (hv : d.time.mainsValid = true) (h : d.time.mainsLast + 12000000 ≤ t) :
    mainsGone t d = { d with time := { d.time with mainsValid := false, mainsRef := none } } := by
  unfold mainsGone
  rw [if_pos (by rw [hv, decide_eq_true h]; rfl)]

/-- An edge whose levels have not held for 10 µs only lets the 30 ms pass (R566). -/
theorem mainsEdge_short (low high off : Nat) (d : Dev) (h : low < 10000 ∨ high < 10000) :
    mainsEdge ⟨low, high, off⟩ d = mainsGone (d.time.start + off) d := by
  unfold mainsEdge
  exact if_pos h

/-- An edge without a reference becomes it. -/
theorem mainsEdge_first (low high off : Nat) (d : Dev) (hl : 10000 ≤ low) (hh : 10000 ≤ high)
    (href : (mainsGone (d.time.start + off) d).time.mainsRef = none) :
    mainsEdge ⟨low, high, off⟩ d =
      (let t := mainsGone (d.time.start + off) d
       { t with time := { t.time with mainsRef := some (d.time.start + off) } }) := by
  unfold mainsEdge
  dsimp only
  rw [if_neg (by omega), href]

/-- An edge behind a reference, within the 30 ms. -/
theorem mainsEdge_behind (low high off r : Nat) (d : Dev) (hl : 10000 ≤ low) (hh : 10000 ≤ high)
    (hin : d.time.mainsValid = false ∨ d.time.start + off < d.time.mainsLast + 12000000) (href : d.time.mainsRef = some r) :
    mainsEdge ⟨low, high, off⟩ d =
      (let t := d.time.start + off
       if t - r < 5720000 then d
       else if t - r ≤ 10000000 then
         { d with time := { d.time with mainsRef := some t, mainsLast := t, mainsCount := d.time.mainsCount + 1,
                                        mainsPeriod := BitVec.ofNat 31 (t - r), mainsValid := true } }
       else { d with time := { d.time with mainsRef := some t } }) := by
  unfold mainsEdge
  dsimp only
  rw [if_neg (by omega), mainsGone_not _ _ hin, href]

end Sys2Proof.Machine.Dev

namespace Sys2Proof.Proofs

open Sys2Proof.Machine

/-- Settles O49: the time base by the cases of an edge, the lock by the movements of its round. -/
theorem clocksAndMains : Obligations.ClocksAndMains := by
  unfold Obligations.ClocksAndMains
  refine ⟨?lost, ?lock, ?short, ?first, ?early, ?counts, ?late, ?overdue, ?timeout⟩
  case lost =>
    intro s hlock
    have hd : Dev.pllLost s.dev =
        ((s.dev.setHw Fl.clkStatusPllLock 0 0).stick Fl.clkStatusPllLost 0).lockBlind := if_pos hlock
    refine ⟨Dev.pllLost s.dev, rfl, ?_⟩
    have hsplit : ∀ t : Dev, t.lockBlind = { t with lock := { t.lock with blind := t.lockBlind.lock.blind } } := fun t => by
      unfold Dev.lockBlind
      split <;> rfl
    have hd' := hd.trans (hsplit _)
    have hregs : (Dev.pllLost s.dev).regs = ((s.dev.setHw Fl.clkStatusPllLock 0 0).stick Fl.clkStatusPllLost 0).regs :=
      hd.symm ▸ (by unfold Dev.lockBlind; split <;> rfl)
    have hzero : (Dev.pllLost s.dev).hw Fl.clkStatusPllLock 0 = 0 := by
      rw [hd']
      exact (Dev.hw_setHw_beside (s.dev.setHw Fl.clkStatusPllLock 0 0) Fl.clkStatusPllLost Fl.clkStatusPllLock 0 1 rfl (by decide)
        (by decide)).trans (Dev.hw_setHw_same s.dev Fl.clkStatusPllLock 0 0 (by decide))
    refine ⟨hzero, ?_, ?_, ?_, ?_, ?_⟩
    · rw [hd']
      exact Dev.hw_setHw_same _ Fl.clkStatusPllLost 0 1 (by decide)
    · have hflag : (Dev.pllLost s.dev).flag Fl.clkStatusPllLock 0 = false := decide_eq_false (not_not.mpr hzero)
      unfold Dev.tickRuns
      rw [hflag, Bool.and_false, Bool.false_and]
    · rw [hd']
      rfl
    · rw [hd']
      rfl
    · exact (((Dev.regsBut_refl s.dev _).setHw Fl.clkStatusPllLock 0 0 (List.mem_singleton.mpr rfl)).setHw Fl.clkStatusPllLost 0 1
        (List.mem_singleton.mpr rfl)).of_regs hregs
  case lock =>
    intro s hrel hlock
    have hone : (s.dev.setHw Fl.clkStatusPllLock 0 1).hw Fl.clkStatusPllLock 0 = 1 :=
      Dev.hw_setHw_same s.dev Fl.clkStatusPllLock 0 1 (by decide)
    refine ⟨Dev.pllLocked s.dev, rfl, ?_⟩
    rw [Dev.pllLocked_eq s.dev hrel hlock]
    cases htick : s.dev.sys.ticking with
    | true =>
      rw [if_pos rfl]
      refine ⟨hone, htick, fun _ => ⟨rfl, ?_⟩, fun h => Bool.noConfusion h⟩
      exact (Dev.regsBut_refl s.dev _).setHw Fl.clkStatusPllLock 0 1 (List.mem_singleton.mpr rfl)
    | false =>
      rw [if_neg Bool.false_ne_true]
      have hsys := Dev.mvsUp_sys s.dev.startTicks
      obtain ⟨-, hsame⟩ := Dev.mvsUp_pllLock s.dev.startTicks (Dev.hwWritten_setHw_same s.dev Fl.clkStatusPllLock 0 1)
      refine ⟨hsame.trans hone, congrArg Sys.ticking hsys, fun h => Bool.noConfusion h, fun _ => ⟨congrArg Sys.first hsys, fun m => ?_⟩⟩
      rw [Dev.mvOn_mvsUp, Dev.mvOn_startTicks, Dev.hw_startTicks _ _ rfl]
      rfl
  case short =>
    intro s off low high hshort
    have hd := Dev.mainsEdge_short low high off s.dev hshort
    refine ⟨fun hin => ?_, fun hv hle => ?_⟩
    · show Host.Outcome.next { s with dev := Dev.mainsEdge _ s.dev } = _
      rw [hd, Dev.mainsGone_not _ _ hin]
    · show Host.Outcome.next { s with dev := Dev.mainsEdge _ s.dev } = _
      rw [hd, Dev.mainsGone_over _ _ hv hle]
  case first =>
    intro s off low high hl hh hin href
    have hg := Dev.mainsGone_not _ _ hin
    show Host.Outcome.next { s with dev := Dev.mainsEdge _ s.dev } = _
    rw [Dev.mainsEdge_first _ _ _ _ hl hh (hg.symm ▸ href), hg]
  case early =>
    intro s off low high r hl hh hin href hdist
    show Host.Outcome.next { s with dev := Dev.mainsEdge _ s.dev } = _
    rw [Dev.mainsEdge_behind _ _ _ _ _ hl hh hin href]
    dsimp only
    rw [if_pos hdist]
  case counts =>
    intro s off low high r hl hh hin href hmin hmax
    show Host.Outcome.next { s with dev := Dev.mainsEdge _ s.dev } = _
    rw [Dev.mainsEdge_behind _ _ _ _ _ hl hh hin href]
    dsimp only
    rw [if_neg (by omega), if_pos hmax]
  case late =>
    intro s off low high r hl hh hin href hdist
    show Host.Outcome.next { s with dev := Dev.mainsEdge _ s.dev } = _
    rw [Dev.mainsEdge_behind _ _ _ _ _ hl hh hin href]
    dsimp only
    rw [if_neg (by omega), if_neg (by omega)]
  case overdue =>
    intro s off low high hl hh hv hle
    have hg := Dev.mainsGone_over _ _ hv hle
    show Host.Outcome.next { s with dev := Dev.mainsEdge _ s.dev } = _
    rw [Dev.mainsEdge_first _ _ _ _ hl hh (by rw [hg]), hg]
  case timeout =>
    intro s hv hle
    show Host.Outcome.next { s with dev := Dev.mainsGone _ s.dev } = _
    rw [Dev.mainsGone_over _ _ hv hle]

end Sys2Proof.Proofs
end

section
/-! Axes under a stop (R129, R131, R187): which of their fields a stop takes, and which axes it reaches. -/

namespace Sys2Proof.Machine.Dev

/-! ## The fields of an axis that a stop leaves -/

/-- An axis without the fields that a stop takes. -/
def beyondStop (x : HubAxis) : HubAxis :=
  { x with stop := none, cmd := .off, seqOff := false, brakeHold := false,
           mot := { x.mot with queue := [], seg := none, rev := false, pin := none, v := 0, p := 0, dir := 0 } }

/-- Every axis is, beyond the fields that a stop takes, as it was. -/
def axesBeyondStop (d t : Dev) : Prop := ∀ k, beyondStop (t.axis k) = beyondStop (d.axis k)

theorem axesBeyondStop_refl (d : Dev) : d.axesBeyondStop d := fun _ => rfl

theorem axesBeyondStop.trans {d t u : Dev} (h : d.axesBeyondStop t) (k : t.axesBeyondStop u) : d.axesBeyondStop u :=
  fun n => (k n).trans (h n)

theorem axesBeyondStop.st {d t : Dev} (h : d.axesBeyondStop t) (k : Nat) : (t.axis k).st = (d.axis k).st := by
  have hk := congrArg HubAxis.st (h k)
  exact hk
theorem axesBeyondStop.armed {d t : Dev} (h : d.axesBeyondStop t) (k : Nat) : (t.axis k).armed = (d.axis k).armed := by
  have hk := congrArg HubAxis.armed (h k)
  exact hk
theorem axesBeyondStop.lat {d t : Dev} (h : d.axesBeyondStop t) (k : Nat) : (t.axis k).lat = (d.axis k).lat := by
  have hk := congrArg HubAxis.lat (h k)
  exact hk
theorem axesBeyondStop.target {d t : Dev} (h : d.axesBeyondStop t) (k : Nat) : (t.axis k).mot.target = (d.axis k).mot.target := by
  have hk := congrArg (fun x : HubAxis => x.mot.target) (h k)
  exact hk

theorem axesBeyondStop_modAxis (d : Dev) (n : Nat) (f : HubAxis → HubAxis) (hf : ∀ x, beyondStop (f x) = beyondStop x) :
    d.axesBeyondStop (d.modAxis n f) := by
  intro k
  by_cases hk : k = n
  · subst hk
    rw [axis_modAxis, hf]
  · rw [axis_modAxis_other _ _ hk]

theorem axesBeyondStop_each (f : Nat → Dev → Dev) (l : List Nat) (d : Dev) (h : ∀ n t, axesBeyondStop t (f n t)) :
    d.axesBeyondStop (each l f d) :=
  each_keeps (fun t => d.axesBeyondStop t) f l d (fun n _ t ht => ht.trans (h n t)) (axesBeyondStop_refl d)

theorem rampBrake_beyondStop (imm : Bool) (n : Nat) (d : Dev) : d.axesBeyondStop (rampBrake imm n d) := by
  unfold rampBrake
  split
  · exact axesBeyondStop_modAxis d n _ fun _ => rfl
  · exact axesBeyondStop_refl d

theorem torqueSpeed_beyondStop (n : Nat) (d : Dev) : d.axesBeyondStop (torqueSpeed n d) := by
  unfold torqueSpeed
  dsimp only
  split
  · exact axesBeyondStop_refl d
  · exact axesBeyondStop_modAxis d n _ fun _ => rfl

theorem stopAxis_beyondStop (n : Nat) (imm : Bool) (decel : Word) (cause : StopCause) (join : Option Nat) (d : Dev) :
    d.axesBeyondStop (stopAxis n imm decel cause join d) := by
  have hramp := rampBrake_beyondStop imm n d
  obtain ⟨-, he⟩ | ⟨s, -, -, he⟩ | ⟨-, -, he⟩ := stopAxis_cases n imm decel cause join d
  · rw [he]; exact axesBeyondStop_refl d
  · rw [he]; exact hramp.trans (axesBeyondStop_modAxis _ n _ fun _ => rfl)
  · rw [he]
    refine axesBeyondStop.trans ?_ (axesBeyondStop_modAxis _ n _ fun _ => rfl)
    split
    · exact hramp
    · exact hramp.trans (torqueSpeed_beyondStop n _)

theorem stopPin_beyondStop (c : Nat) (d : Dev) : d.axesBeyondStop (stopPin c d) :=
  axesBeyondStop_each _ _ d fun n t => stopAxis_beyondStop n false 0 .stop none t

theorem stop_beyondStop (n : Nat) (imm : Bool) (decel : Word) (cause : StopCause) (join : Option Nat) (d : Dev) :
    d.axesBeyondStop (stop n imm decel cause join d) := by
  unfold stop
  dsimp only
  have h := stopAxis_beyondStop n imm decel cause join d
  split
  · split
    · exact h.trans (stopPin_beyondStop _ _)
    · exact h
  · exact h

/-! ## The axes that a stop reaches -/

/-- A stop of one axis leaves every other. -/
theorem axis_stopAxis_other (imm : Bool) (decel : Word) (cause : StopCause) (join : Option Nat) (d : Dev) {n k : Nat} (h : k ≠ n) :
    (stopAxis n imm decel cause join d).axis k = d.axis k :=
  stopAxis_keeps (fun t => t.axis k = d.axis k) n imm decel cause join d (fun f _ ht => (axis_modAxis_other _ f h).trans ht)
    (fun _ ht => ht) rfl

/-- A stop reaches no axis that does not move. -/
theorem axis_stopAxis_still (n : Nat) (imm : Bool) (decel : Word) (cause : StopCause) (join : Option Nat) (d : Dev) {k : Nat}
    (h : (d.axis k).st ≠ .moving) : (stopAxis n imm decel cause join d).axis k = d.axis k := by
  by_cases hk : k = n
  · subst hk
    rw [stopAxis_still _ _ _ _ _ _ h]
  · exact axis_stopAxis_other _ _ _ _ _ hk

/-- Every moving axis that is stopped is under a stop. -/
theorem stop_isSome_stopAxis (n : Nat) (imm : Bool) (decel : Word) (cause : StopCause) (join : Option Nat) (d : Dev)
    (h : (d.axis n).st = .moving) : ((stopAxis n imm decel cause join d).axis n).stop.isSome = true := by
  obtain ⟨hs, -⟩ | ⟨s, -, -, he⟩ | ⟨-, -, he⟩ := stopAxis_cases n imm decel cause join d
  · exact absurd h hs
  · rw [he, axis_modAxis]; rfl
  · rw [he, setHw_axis, axis_modAxis]; rfl

theorem axis_stopPin_still (c : Nat) (d : Dev) {k : Nat} (h : (d.axis k).st ≠ .moving) : (stopPin c d).axis k = d.axis k :=
  each_keeps (fun t => t.axis k = d.axis k) _ (d.cmd c).axes d
    (fun n _ t ht => (axis_stopAxis_still n _ _ _ _ t (ht.symm ▸ h)).trans ht) rfl

/-- A stop reaches beside its axis only moving axes, and those only through the pin that drives it. -/
theorem axis_stop_still (n : Nat) (imm : Bool) (decel : Word) (cause : StopCause) (join : Option Nat) (d : Dev) {k : Nat}
    (h : (d.axis k).st ≠ .moving) : (stop n imm decel cause join d).axis k = d.axis k := by
  have ha := axis_stopAxis_still n imm decel cause join d h
  unfold stop
  dsimp only
  split
  · split
    · exact (axis_stopPin_still _ _ (ha.symm ▸ h)).trans ha
    · exact ha
  · exact ha

/-- Where no pin drives the axis, its stop is a stop of that axis alone. -/
theorem stop_of_no_pin (n : Nat) (imm : Bool) (decel : Word) (cause : StopCause) (join : Option Nat) (d : Dev)
    (h : (d.axis n).mot.pin = none) : stop n imm decel cause join d = stopAxis n imm decel cause join d := by
  unfold stop
  dsimp only
  rw [h]

/-! ## Unarming (R187) -/

theorem axis_unarm_same (n : Nat) (d : Dev) : (d.unarm n).axis n = { d.axis n with armed := false } := by
  unfold unarm
  split
  · rw [setHw_axis, axis_modAxis]
  · rename_i h
    rw [Bool.not_eq_true] at h
    rw [← h]

theorem axis_unarm_other (d : Dev) {n k : Nat} (h : k ≠ n) : (d.unarm n).axis k = d.axis k := by
  unfold unarm
  split
  · rw [setHw_axis, axis_modAxis_other _ _ h]
  · rfl

theorem axis_dropReopen (n k : Nat) (d : Dev) : (d.dropReopen n).axis k = d.axis k := by
  unfold dropReopen
  split <;> rfl

/-- A DISARM at once leaves its axis unarmed, unless that is safe. -/
theorem armed_disarmAxis (n : Nat) (d : Dev) :
    ((disarmAxis false n d).axis n).armed = false ∨ ((disarmAxis false n d).axis n).st = .safe := by
  unfold disarmAxis
  dsimp only
  split
  · rename_i h
    obtain h | h := h
    · exact Or.inr h
    · exact Or.inl (by simpa using h)
  · left
    split
    · rw [if_neg Bool.false_ne_true, axis_modAxis, axis_unarm_same]
    · rw [axis_modAxis, axis_unarm_same]

theorem st_disarmAxis (n k : Nat) (d : Dev) : ((disarmAxis false n d).axis k).st = (d.axis k).st := by
  have hun : ∀ t : Dev, ((t.unarm n).axis k).st = (t.axis k).st := by
    intro t
    by_cases hk : k = n
    · subst hk; rw [axis_unarm_same]
    · rw [axis_unarm_other _ hk]
  have hmod : ∀ (f : HubAxis → HubAxis) (t : Dev), (∀ x, (f x).st = x.st) → ((t.modAxis n f).axis k).st = (t.axis k).st := by
    intro f t hf
    by_cases hk : k = n
    · subst hk; rw [axis_modAxis, hf]
    · rw [axis_modAxis_other _ _ hk]
  unfold disarmAxis
  dsimp only
  split
  · rfl
  · split
    · rw [if_neg Bool.false_ne_true]
      refine (hmod _ _ ?_).trans ?_
      · intro x; rfl
      · rw [hun, (stop_beyondStop n _ _ _ _ _).st k, axis_dropReopen]
    · refine (hmod _ _ ?_).trans (hun _)
      intro x; rfl

/-- A DISARM at once changes no other axis that does not move. -/
theorem axis_disarmAxis_still (ramp : Bool) (d : Dev) {n k : Nat} (hk : k ≠ n) (h : (d.axis k).st ≠ .moving) :
    (disarmAxis ramp n d).axis k = d.axis k := by
  unfold disarmAxis
  dsimp only
  split
  · rfl
  · split
    · have hs : ∀ imm, (stop n imm 0 .stop none (d.dropReopen n)).axis k = d.axis k := fun imm =>
        (axis_stop_still n imm _ _ _ _ ((axis_dropReopen n k d).symm ▸ h)).trans (axis_dropReopen n k d)
      split
      · exact (axis_modAxis_other _ _ hk).trans (hs false)
      · exact (axis_modAxis_other _ _ hk).trans ((axis_unarm_other _ hk).trans (hs true))
    · exact (axis_modAxis_other _ _ hk).trans (axis_unarm_other _ hk)

/-- A DISARM at once arms no axis. -/
theorem disarmAxis_disarmed (n k : Nat) (d : Dev) (h : (d.axis k).armed = false) : ((disarmAxis false n d).axis k).armed = false := by
  by_cases hk : k = n
  · subst hk
    unfold disarmAxis
    rw [if_pos (Or.inr (by rw [h]; rfl))]
    exact h
  · have hun : ∀ t : Dev, ((t.unarm n).axis k).armed = (t.axis k).armed := fun t => by rw [axis_unarm_other _ hk]
    have hmod : ∀ (f : HubAxis → HubAxis) (t : Dev), ((t.modAxis n f).axis k).armed = (t.axis k).armed :=
      fun f t => by rw [axis_modAxis_other _ _ hk]
    unfold disarmAxis
    dsimp only
    split
    · exact h
    · split
      · rw [if_neg Bool.false_ne_true, hmod, hun, (stop_beyondStop n _ _ _ _ _).armed k, axis_dropReopen, h]
      · rw [hmod, hun, h]

/-- Once all axes of a movement are unarmed, each of them that is not safe is so. -/
theorem armed_allDisarmed (m : Nat) (d : Dev) {n : Nat} (hn : n ∈ localAxes m) :
    ((allDisarmed m d).axis n).armed = false ∨ (d.axis n).st = .safe := by
  have hst : ((allDisarmed m d).axis n).st = (d.axis n).st := each_same (fun t => (t.axis n).st) _ _ d fun k _ t => st_disarmAxis k n t
  rw [← hst]
  refine each_does (fun t => (t.axis n).armed = false ∨ (t.axis n).st = .safe) _ _ d n hn (armed_disarmAxis n) ?_
  intro k _ _ t ht
  obtain ht | ht := ht
  · exact Or.inl (disarmAxis_disarmed k n t ht)
  · exact Or.inr ((st_disarmAxis k n t).trans ht)

/-- Unarming a movement changes no axis of another that does not move. -/
theorem axis_allDisarmed_still (m : Nat) (d : Dev) {k : Nat} (hk : k ∉ localAxes m) (h : (d.axis k).st ≠ .moving) :
    (allDisarmed m d).axis k = d.axis k :=
  each_keeps (fun t => t.axis k = d.axis k) _ _ d
    (fun n hn t ht => (axis_disarmAxis_still false t (fun e : k = n => hk (e.symm ▸ hn)) (ht.symm ▸ h)).trans ht) rfl

end Sys2Proof.Machine.Dev
end

section
/-! Proofs for movements that go off and come back (chapter 17). -/

namespace Sys2Proof.Machine

/-- Entries taken out by their key: those that stay are found as before. -/
theorem SMap.find_filter_key {α : Type} (m : SMap α) (p : Nat → Bool) {k : Nat} (h : p k = true) :
    SMap.find (m.filter fun e => p e.1) k = SMap.find m k := by
  induction m with
  | nil => rfl
  | cons e r ih =>
    obtain ⟨k', v⟩ := e
    by_cases hk : k' = k
    · subst hk
      rw [List.filter_cons_of_pos (by exact h), SMap.find_cons, SMap.find_cons, if_pos rfl, if_pos rfl]
    · rw [SMap.find_cons, if_neg hk, ← ih, List.filter_cons]
      split
      · rw [SMap.find_cons, if_neg hk]
      · rfl

/-- The registers below the pages of the movements live in the hub. -/
theorem Dev.inMv_of_lt (m a : Nat) (h : a < 0xE000) : Dev.inMv m a = false := by
  unfold Dev.inMv Dev.pageMv
  rw [if_neg (by omega), if_neg (by omega)]
  rfl

namespace Dev

theorem mem_localAxes (m n : Nat) : n ∈ localAxes m ↔ n / 8 = m := by
  unfold localAxes
  rw [mem_span]
  omega

/-! ## The steps of a movement that goes off (R510, R516, R517) -/

/-- t shows the power status as d does. -/
def samePower (d t : Dev) : Prop := SMap.find t.regs.hw (Reg.offset .pwrStatus 0) = SMap.find d.regs.hw (Reg.offset .pwrStatus 0)

theorem samePower_setHw (d : Dev) (f : Fld) (i v : Nat) (h : Reg.offset .pwrStatus 0 ≠ f.reg.offset i) : d.samePower (d.setHw f i v) := by
  unfold samePower
  rw [setHw_hw, fldSet, SMap.find_set_other _ _ h]

theorem samePower.trans {d t u : Dev} (h : d.samePower t) (k : t.samePower u) : d.samePower u := Eq.trans k h

theorem samePower_each (f : Nat → Dev → Dev) (l : List Nat) (d : Dev) (h : ∀ n t, samePower t (f n t)) : d.samePower (each l f d) :=
  each_keeps (fun t => d.samePower t) f l d (fun n _ _ ht => ht.trans (h n _)) rfl

theorem samePower.hw {d t : Dev} (h : d.samePower t) (f : Fld) (hf : f.reg = .pwrStatus) : t.hw f 0 = d.hw f 0 :=
  hw_congr d t f 0 (hf.symm ▸ h)

/-- The tests of a movement's axes and its calibration are abandoned. -/
def testsGone (m : Nat) (d : Dev) : Dev := (each (localAxes m) offtGone d).setHw Fl.isenseCalStatusRunning m 0

/-- A movement's registers are wiped, its sensors unknown. -/
def sensorsOff (m : Nat) (d : Dev) : Dev := each (span (6 * m) 6) (fun s d => d.setHw Fl.tempOff s 1) (wipeMv m d)

/-- An axis loses its contents in the movement, and shows that in the hub. -/
def axisGone (n : Nat) (d : Dev) : Dev := axisOff n (d.modMva n fun x => { offtEnd := x.offtEnd })

/-- All axes of a movement lose their contents. -/
def axesGone (m : Nat) (d : Dev) : Dev := each (localAxes m) axisGone d

/-- The flags that a movement holds of its axes are gone, and its record is new. -/
def recordGone (m : Nat) (gone : List (Nat × Nat × Bool)) (d : Dev) : Dev :=
  ({ d with flt := { d.flt with mvFlags := d.flt.mvFlags.filter fun e => decide (e.1 / 8 ≠ m) } } : Dev).modMv m fun _ => { calGone := gone }

/-- A movement shown as off. -/
def shownOff (m : Nat) (d : Dev) : Dev :=
  ((d.setBit Fl.pwrStatusMvOn m false).setBit Fl.pwrStatusParked m false).setHw Fl.linkStatusTrained m 0

/-- The safety hold that the hub keeps for a movement that goes off. -/
def holdKept (m : Nat) (d : Dev) : Dev :=
  let bit : BitVec 8 := BitVec.ofNat 8 (2 ^ m)
  { d with sys := { d.sys with holdHeld := if d.safehold m then d.sys.holdHeld ||| bit else d.sys.holdHeld &&& ~~~ bit } }

theorem mvDown_eq (m : Nat) (d : Dev) (h : d.mvOn m = true) :
    mvDown m d = shownOff m (recordGone m ((d.mv m).calGone ++ (d.mv m).calActs ++ (d.mv m).calNext)
      (axesGone m (sensorsOff m (testsGone m (holdKept m d))))) := by
  unfold mvDown shownOff recordGone axesGone axisGone sensorsOff testsGone holdKept
  rw [if_neg (by rw [h]; decide)]
  generalize localAxes m = l
  generalize span (6 * m) 6 = k
  rfl

/-! ### What each step leaves -/

theorem offtGone_frame (n : Nat) (d : Dev) :
    offtGone n d = { d with mvax := (offtGone n d).mvax, regs := { d.regs with hw := (offtGone n d).regs.hw } } := by
  unfold offtGone offtDrop
  split <;> rfl

theorem offtGone_mva_other (d : Dev) {n k : Nat} (h : k ≠ n) : (offtGone n d).mva k = d.mva k := by
  unfold offtGone offtDrop
  split
  · rfl
  · exact mva_setMva_other d _ h

theorem offtGone_samePower (n : Nat) (d : Dev) : d.samePower (offtGone n d) := by
  have hne : ∀ f : Fld, f.reg ∈ [Reg.offtStatus] → Reg.offset .pwrStatus 0 ≠ f.reg.offset n := by
    intro f hf
    rw [List.mem_singleton.mp hf]
    simp only [Reg.offset, Reg.place]
    omega
  unfold offtGone offtDrop
  split
  · rfl
  · exact ((samePower_setHw (d.modMva n _) Fl.offtStatusVerdict n 0x1000 (hne _ (List.mem_singleton.mpr rfl))).trans
      (samePower_setHw _ Fl.offtStatusRunning n 0 (hne _ (List.mem_singleton.mpr rfl)))).trans
      (samePower_setHw _ Fl.offtStatusPassed n 0 (hne _ (List.mem_singleton.mpr rfl)))

theorem testsGone_axis (m n : Nat) (d : Dev) : (testsGone m d).axis n = d.axis n :=
  (setHw_axis _ _ _ _ _).trans <| each_same (fun t : Dev => t.axis n) offtGone _ d fun k _ t => by rw [offtGone_frame]; rfl

theorem testsGone_mvs (m : Nat) (d : Dev) : (testsGone m d).mvs = d.mvs :=
  (setHw_mvs _ _ _ _).trans <| each_same (fun t : Dev => t.mvs) offtGone _ d fun k _ t => by rw [offtGone_frame]

theorem testsGone_mva_other (m : Nat) (d : Dev) {n : Nat} (h : n / 8 ≠ m) : (testsGone m d).mva n = d.mva n :=
  (setHw_mva _ _ _ _ _).trans <| each_same (fun t : Dev => t.mva n) offtGone _ d fun k hk t => offtGone_mva_other t fun e : n = k => h (e.symm ▸ (mem_localAxes m k).mp hk)

theorem testsGone_samePower (m : Nat) (d : Dev) : d.samePower (testsGone m d) := by
  refine (samePower_each offtGone (localAxes m) d offtGone_samePower).trans (samePower_setHw _ _ _ _ ?_)
  simp only [Reg.offset, Reg.place]
  omega

theorem wipeMv_samePower (m : Nat) (d : Dev) : d.samePower (wipeMv m d) := by
  have hkeep : (!inMv m (Reg.offset .pwrStatus 0)) = true := by rw [inMv_of_lt m _ (by decide)]; rfl
  exact SMap.find_filter_key d.regs.hw (fun a => !inMv m a) hkeep

theorem sensorsOff_frame (m : Nat) (d : Dev) : sensorsOff m d = { d with regs := (sensorsOff m d).regs } := by
  unfold sensorsOff
  generalize span (6 * m) 6 = l
  have h : ∀ t : Dev, each l (fun s d => d.setHw Fl.tempOff s 1) t =
      { t with regs := (each l (fun s d => d.setHw Fl.tempOff s 1) t).regs } := by
    induction l with
    | nil => intro t; rfl
    | cons s r ih => intro t; rw [each_cons, ih]; rfl
  exact (h _).trans rfl

theorem sensorsOff_axis (m n : Nat) (d : Dev) : (sensorsOff m d).axis n = d.axis n := by
  rw [sensorsOff_frame]
  rfl
theorem sensorsOff_mva (m n : Nat) (d : Dev) : (sensorsOff m d).mva n = d.mva n := by
  rw [sensorsOff_frame]
  rfl
theorem sensorsOff_mvs (m : Nat) (d : Dev) : (sensorsOff m d).mvs = d.mvs := by rw [sensorsOff_frame]

theorem sensorsOff_samePower (m : Nat) (d : Dev) : d.samePower (sensorsOff m d) := by
  refine (wipeMv_samePower m d).trans (samePower_each _ _ _ fun s t => samePower_setHw t _ s 1 ?_)
  simp only [Reg.offset, Reg.place]
  omega

theorem axisGone_frame (n : Nat) (d : Dev) :
    axisGone n d = { d with hax := (axisGone n d).hax, mvax := (axisGone n d).mvax,
                            regs := { d.regs with hw := (axisGone n d).regs.hw } } := rfl

theorem axisGone_mva (n : Nat) (d : Dev) : (axisGone n d).mva n = { offtEnd := (d.mva n).offtEnd } := mva_setMva d n _
theorem axisGone_mva_other (d : Dev) {n k : Nat} (h : k ≠ n) : (axisGone n d).mva k = d.mva k := mva_setMva_other d _ h
theorem axisGone_axis (n : Nat) (d : Dev) :
    (axisGone n d).axis n = { d.axis n with lat := { pos := (d.axis n).lat.pos }, ss1 := false } :=
  axis_setAxis (d.modMva n _) n _
theorem axisGone_axis_other (d : Dev) {n k : Nat} (h : k ≠ n) : (axisGone n d).axis k = d.axis k :=
  axis_setAxis_other (d.modMva n _) _ h

theorem axisGone_samePower (n : Nat) (d : Dev) : d.samePower (axisGone n d) := by
  refine samePower.trans (t := (d.modMva n fun x => { offtEnd := x.offtEnd }).modAxis n fun x => { x with lat := { pos := x.lat.pos }, ss1 := false })
    rfl (samePower_setHw _ Fl.motionStatusPosUnverified n 1 ?_)
  simp only [Reg.offset, Reg.place]
  omega

theorem axesGone_mvs (m : Nat) (d : Dev) : (axesGone m d).mvs = d.mvs := each_same (fun t : Dev => t.mvs) axisGone _ d fun _ _ _ => rfl

theorem axesGone_samePower (m : Nat) (d : Dev) : d.samePower (axesGone m d) := samePower_each _ _ _ axisGone_samePower

theorem axesGone_mva_other (m : Nat) (d : Dev) {n : Nat} (h : n / 8 ≠ m) : (axesGone m d).mva n = d.mva n :=
  each_same (fun t : Dev => t.mva n) axisGone _ d fun k hk t => axisGone_mva_other t fun e : n = k => h (e.symm ▸ (mem_localAxes m k).mp hk)

theorem axesGone_axis_other (m : Nat) (d : Dev) {n : Nat} (h : n / 8 ≠ m) : (axesGone m d).axis n = d.axis n :=
  each_same (fun t : Dev => t.axis n) axisGone _ d fun k hk t => axisGone_axis_other t fun e : n = k => h (e.symm ▸ (mem_localAxes m k).mp hk)

/-- Every axis of the movement is without drive, in the movement and in the hub, and shows an unverified position. -/
theorem axesGone_local (m : Nat) (d : Dev) {n : Nat} (h : n / 8 = m) :
    ((axesGone m d).mva n).drive = .off ∧ ((axesGone m d).axis n).lat.drive = .off ∧
      (axesGone m d).hw Fl.motionStatusPosUnverified n = 1 := by
  refine each_does (fun t => (t.mva n).drive = .off ∧ (t.axis n).lat.drive = .off ∧ t.hw Fl.motionStatusPosUnverified n = 1)
    axisGone _ d n ((mem_localAxes m n).mpr h) ?_ ?_
  · intro t
    rw [axisGone_mva, axisGone_axis]
    exact ⟨rfl, rfl, hw_setHw_same _ Fl.motionStatusPosUnverified n 1 (by decide)⟩
  · rintro k - hk t ⟨hdrive, hlat, hunver⟩
    rw [axisGone_mva_other t hk.symm, axisGone_axis_other t hk.symm]
    refine ⟨hdrive, hlat, (hw_setHw_reg _ _ _ _ _ _ ?_).trans hunver⟩
    simp only [Reg.offset, Reg.place]
    omega

/-- The hub keeps the position of each. -/
theorem axesGone_pos (m n : Nat) (d : Dev) : ((axesGone m d).axis n).lat.pos = (d.axis n).lat.pos := by
  refine each_same (fun t : Dev => (t.axis n).lat.pos) axisGone _ d fun k _ t => ?_
  by_cases hk : n = k
  · subst hk
    rw [axisGone_axis]
  · rw [axisGone_axis_other t hk]

/-! ### The record and what PWR_STATUS and LINK_STATUS show -/

theorem recordGone_regs (m : Nat) (gone : List (Nat × Nat × Bool)) (d : Dev) : (recordGone m gone d).regs = d.regs := rfl
theorem recordGone_hax (m : Nat) (gone : List (Nat × Nat × Bool)) (d : Dev) : (recordGone m gone d).hax = d.hax := rfl
theorem recordGone_mvax (m : Nat) (gone : List (Nat × Nat × Bool)) (d : Dev) : (recordGone m gone d).mvax = d.mvax := rfl
theorem recordGone_mv_other (gone : List (Nat × Nat × Bool)) (d : Dev) {m k : Nat} (h : k ≠ m) : (recordGone m gone d).mv k = d.mv k :=
  mv_setMv_other _ _ h

theorem shownOff_frame (m : Nat) (d : Dev) :
    shownOff m d = { d with regs := { d.regs with hw := (shownOff m d).regs.hw } } := rfl

theorem shownOff_mv (m k : Nat) (d : Dev) : (shownOff m d).mv k = d.mv k := rfl

theorem shownOff_mva (m n : Nat) (d : Dev) : (shownOff m d).mva n = d.mva n := rfl
theorem shownOff_axis (m n : Nat) (d : Dev) : (shownOff m d).axis n = d.axis n := rfl
theorem recordGone_mva (m n : Nat) (gone : List (Nat × Nat × Bool)) (d : Dev) : (recordGone m gone d).mva n = d.mva n := rfl
theorem recordGone_axis (m n : Nat) (gone : List (Nat × Nat × Bool)) (d : Dev) : (recordGone m gone d).axis n = d.axis n := rfl
theorem recordGone_hw (m n : Nat) (gone : List (Nat × Nat × Bool)) (d : Dev) (f : Fld) : (recordGone m gone d).hw f n = d.hw f n := rfl

theorem shownOff_trained (m : Nat) (d : Dev) : (shownOff m d).hw Fl.linkStatusTrained m = 0 :=
  hw_setHw_same _ Fl.linkStatusTrained m 0 (by decide)

/-- The registers of links and those of the power status are not the same. -/
theorem pwrStatus_ne_link (m : Nat) : Reg.offset .pwrStatus 0 ≠ Reg.offset .linkStatus m := by
  simp only [Reg.offset, Reg.place]
  omega

theorem shownOff_mvOn (m k : Nat) (hm : m < 8) (d : Dev) : (shownOff m d).mvOn k = (decide (k ≠ m) && d.mvOn k) := by
  have hlink := hw_setHw_reg ((d.setBit Fl.pwrStatusMvOn m false).setBit Fl.pwrStatusParked m false) Fl.linkStatusTrained
    Fl.pwrStatusMvOn m 0 0 (pwrStatus_ne_link m)
  rw [hw_setBit_beside _ Fl.pwrStatusParked Fl.pwrStatusMvOn _ _ rfl (by decide) (by decide)] at hlink
  refine (congrArg (·.testBit k) hlink).trans ((testBit_hw_setBit d Fl.pwrStatusMvOn m false k (by decide) hm).trans ?_)
  by_cases h : k = m
  · subst h; simp
  · simp [h, mvOn]

/-- A field of a register of the hub's that is neither PWR_STATUS nor of this link. -/
theorem shownOff_hw (m n : Nat) (d : Dev) (f : Fld) (hp : f.reg.offset n ≠ Reg.offset .pwrStatus 0)
    (hl : f.reg.offset n ≠ Reg.offset .linkStatus m) : (shownOff m d).hw f n = d.hw f n :=
  (hw_setHw_reg _ _ _ _ _ _ hl).trans ((hw_setHw_reg _ _ _ _ _ _ hp).trans (hw_setHw_reg _ _ _ _ _ _ hp))

/-! ### A movement that goes off -/

/-- The axes and records as a movement goes off, and its bits in PWR_STATUS and LINK_STATUS. -/
structure goneOff (m : Nat) (d t : Dev) : Prop where
  trained : t.hw Fl.linkStatusTrained m = 0
  mvOn : ∀ k, t.mvOn k = (decide (k ≠ m) && d.mvOn k)
  local_ : ∀ n, n / 8 = m → (t.mva n).drive = .off ∧ (t.axis n).lat.drive = .off ∧ (t.axis n).lat.pos = (d.axis n).lat.pos ∧
    t.hw Fl.motionStatusPosUnverified n = 1
  other : ∀ n, n / 8 ≠ m → t.mva n = d.mva n ∧ t.axis n = d.axis n
  mv : ∀ k, k ≠ m → t.mv k = d.mv k

theorem motionStatus_ne_hub (n a : Nat) (h : a < 0x10000) : Reg.offset .motionStatus n ≠ a := by
  simp only [Reg.offset, Reg.place]
  omega

theorem mvDown_goneOff (m : Nat) (hm : m < 8) (d : Dev) (h : d.mvOn m = true) : goneOff m d (mvDown m d) := by
  rw [mvDown_eq m d h]
  generalize (d.mv m).calGone ++ (d.mv m).calActs ++ (d.mv m).calNext = gone
  have haxis : ∀ n, (sensorsOff m (testsGone m (holdKept m d))).axis n = d.axis n := fun n =>
    (sensorsOff_axis m n _).trans (testsGone_axis m n (holdKept m d))
  have hmva : ∀ n, n / 8 ≠ m → (sensorsOff m (testsGone m (holdKept m d))).mva n = d.mva n := fun n hn =>
    (sensorsOff_mva m n _).trans (testsGone_mva_other m (holdKept m d) hn)
  have hmvs : (sensorsOff m (testsGone m (holdKept m d))).mvs = d.mvs :=
    (sensorsOff_mvs m _).trans (testsGone_mvs m (holdKept m d))
  have hpower : d.samePower (sensorsOff m (testsGone m (holdKept m d))) :=
    (testsGone_samePower m (holdKept m d)).trans (sensorsOff_samePower m _)
  generalize sensorsOff m (testsGone m (holdKept m d)) = t at haxis hmva hmvs hpower
  have hpower' : d.samePower (axesGone m t) := hpower.trans (axesGone_samePower m t)
  refine ⟨shownOff_trained m _, fun k => ?_, fun n hn => ?_, fun n hn => ⟨?_, ?_⟩, fun k hk => ?_⟩
  · rw [shownOff_mvOn m k hm]
    refine congrArg (fun b => decide (k ≠ m) && b) ?_
    exact congrArg (·.testBit k) (hpower'.hw Fl.pwrStatusMvOn rfl)
  · obtain ⟨hdrive, hlat, hunver⟩ := axesGone_local m t hn
    have hpos := (axesGone_pos m n t).trans (congrArg (·.lat.pos) (haxis n))
    rw [shownOff_mva, recordGone_mva, shownOff_axis, recordGone_axis]
    refine ⟨hdrive, hlat, hpos, ?_⟩
    rw [shownOff_hw m n _ Fl.motionStatusPosUnverified (motionStatus_ne_hub n _ (by decide)) (motionStatus_ne_hub n _ ?_), recordGone_hw]
    · exact hunver
    · simp only [Reg.offset, Reg.place]
      omega
  · rw [shownOff_mva, recordGone_mva]
    exact (axesGone_mva_other m t hn).trans (hmva n hn)
  · rw [shownOff_axis, recordGone_axis]
    exact (axesGone_axis_other m t hn).trans (haxis n)
  · refine (shownOff_mv m k _).trans ((recordGone_mv_other gone (axesGone m t) hk).trans ?_)
    unfold Dev.mv
    rw [axesGone_mvs, hmvs]

theorem pinsActive_frame (m : Nat) (d : Dev) :
    pinsActive m d = { d with regs := { d.regs with hw := (pinsActive m d).regs.hw } } := rfl

theorem mv_modMv_other (d : Dev) (f : Mv → Mv) {m k : Nat} (h : k ≠ m) : (d.modMv m f).mv k = d.mv k := mv_setMv_other d _ h
theorem modMv_hw (d : Dev) (m : Nat) (f : Mv → Mv) (g : Fld) (i : Nat) : (d.modMv m f).hw g i = d.hw g i := rfl
theorem modMv_mva (d : Dev) (m n : Nat) (f : Mv → Mv) : (d.modMv m f).mva n = d.mva n := rfl
theorem modMv_axis (d : Dev) (m n : Nat) (f : Mv → Mv) : (d.modMv m f).axis n = d.axis n := rfl
theorem pinsActive_mva (m n : Nat) (d : Dev) : (pinsActive m d).mva n = d.mva n := rfl
theorem pinsActive_axis (m n : Nat) (d : Dev) : (pinsActive m d).axis n = d.axis n := rfl
theorem pinsActive_mv (m k : Nat) (d : Dev) : (pinsActive m d).mv k = d.mv k := rfl

/-- Both pins of the movement are shown as active. -/
theorem pinsActive_pins (m : Nat) (hm : m < 8) (d : Dev) :
    ((pinsActive m d).hw Fl.stoStatusPinA 0).testBit m = true ∧ ((pinsActive m d).hw Fl.stoStatusPinB 0).testBit m = true := by
  unfold pinsActive
  constructor
  · rw [hw_setBit_beside _ Fl.stoStatusPathB Fl.stoStatusPinA _ _ rfl (by decide) (by decide),
      hw_setBit_beside _ Fl.stoStatusPathA Fl.stoStatusPinA _ _ rfl (by decide) (by decide),
      hw_setBit_beside _ Fl.stoStatusPinB Fl.stoStatusPinA _ _ rfl (by decide) (by decide),
      testBit_hw_setBit _ _ _ _ _ (by decide) hm, if_pos rfl]
  · rw [hw_setBit_beside _ Fl.stoStatusPathB Fl.stoStatusPinB _ _ rfl (by decide) (by decide),
      hw_setBit_beside _ Fl.stoStatusPathA Fl.stoStatusPinB _ _ rfl (by decide) (by decide),
      testBit_hw_setBit _ _ _ _ _ (by decide) hm, if_pos rfl]

theorem pinsActive_hw (m n : Nat) (d : Dev) (f : Fld) (h : f.reg.offset n ≠ Reg.offset .stoStatus 0) :
    (pinsActive m d).hw f n = d.hw f n :=
  (hw_setHw_reg _ _ _ _ _ _ h).trans ((hw_setHw_reg _ _ _ _ _ _ h).trans
    ((hw_setHw_reg _ _ _ _ _ _ h).trans (hw_setHw_reg _ _ _ _ _ _ h)))

/-- VCL of a movement that is on falls. -/
theorem vclDown_eq (m : Nat) (d : Dev) (h : d.mvOn m = true) :
    vclDown m d = (pinsActive m ((mvDown m d).setBit Fl.pwrStatusVclOk m false)).modMv m fun x =>
      { x with lost := d.trained m, latMiss := (d.mv m).latMiss } := by
  unfold vclDown
  dsimp only
  rw [if_pos h, h]
  rfl

theorem vclDown_goneOff (m : Nat) (hm : m < 8) (d : Dev) (h : d.mvOn m = true) : goneOff m d (vclDown m d) := by
  obtain ⟨htrained, hon, hlocal, hother, hmv⟩ := mvDown_goneOff m hm d h
  rw [vclDown_eq m d h]
  generalize mvDown m d = t at htrained hon hlocal hother hmv
  have hlink : Reg.offset .linkStatus m ≠ Reg.offset .stoStatus 0 ∧ Reg.offset .linkStatus m ≠ Reg.offset .pwrStatus 0 := by
    simp only [Reg.offset, Reg.place]
    omega
  refine ⟨?_, fun k => ?_, fun n hn => ?_, fun n hn => ?_, fun k hk => ?_⟩
  · rw [modMv_hw, pinsActive_hw m m _ Fl.linkStatusTrained hlink.1]
    exact (hw_setHw_reg t _ _ _ _ _ hlink.2).trans htrained
  · rw [← hon k]
    unfold mvOn
    rw [modMv_hw, pinsActive_hw m 0 _ Fl.pwrStatusMvOn (by decide),
      hw_setBit_beside t Fl.pwrStatusVclOk Fl.pwrStatusMvOn m false rfl (by decide) (by decide)]
  · obtain ⟨hdrive, hlat, hpos, hunver⟩ := hlocal n hn
    rw [modMv_mva, modMv_axis, pinsActive_mva, pinsActive_axis]
    refine ⟨hdrive, hlat, hpos, ?_⟩
    rw [modMv_hw, pinsActive_hw m n _ Fl.motionStatusPosUnverified (motionStatus_ne_hub n _ (by decide))]
    exact (hw_setHw_reg t _ _ _ _ _ (motionStatus_ne_hub n _ (by decide))).trans hunver
  · rw [modMv_mva, modMv_axis, pinsActive_mva, pinsActive_axis]
    exact hother n hn
  · rw [mv_modMv_other _ _ hk, pinsActive_mv]
    exact hmv k hk

/-! ## A movement that comes back (R511) -/

/-- A movement that waits in reset without being switched on, or before the first tick, only shows its VCL. -/
theorem mvRelease_waits (m : Nat) (d : Dev) (hrel : d.sys.released = true) (hoff : d.mvOn m = false)
    (h : d.sys.ticking = false ∨ d.sys.mvSw.getLsbD m = false) : mvRelease m d = d.setBit Fl.pwrStatusVclOk m true := by
  unfold mvRelease
  rw [if_neg (by rw [hrel, hoff]; decide), if_neg]
  obtain h | h := h <;> rw [h] <;> simp

theorem mvRelease_up (m : Nat) (d : Dev) (hrel : d.sys.released = true) (hoff : d.mvOn m = false) (htick : d.sys.ticking = true)
    (hsw : d.sys.mvSw.getLsbD m = true) : mvRelease m d = mvUp m d := by
  unfold mvRelease
  rw [if_neg (by rw [hrel, hoff]; decide), if_pos (by rw [htick, hsw]; rfl)]

theorem orphanStays_hax (m : Nat) (d : Dev) : (orphanStays m d).hax = d.hax := by rw [orphanStays_frame]
theorem orphanStays_mvs (m : Nat) (d : Dev) : (orphanStays m d).mvs = d.mvs := by rw [orphanStays_frame]

theorem axis_mvUp (m n : Nat) (d : Dev) : (mvUp m d).axis n = (allDisarmed m (shownOn m d)).axis n := by
  rw [mvUp_eq]
  generalize allDisarmed m (shownOn m d) = t
  unfold Dev.axis
  rw [orphanStays_hax]
  rfl

/-- The record of a movement that comes up takes the tick rate in force and waits for its first boundary. -/
theorem mv_mvUp (m : Nat) (d : Dev) : (mvUp m d).mv m = { d.mv m with load := true, rate := d.time.rate } := by
  have h := allDisarmed_stopOnly m (shownOn m d)
  have hmvs := h.mvs
  have htime := h.time
  rw [mvUp_eq]
  generalize allDisarmed m (shownOn m d) = t at hmvs htime
  have hmv : t.mv m = d.mv m := by unfold Dev.mv; rw [hmvs]; rfl
  unfold Dev.mv
  rw [orphanStays_mvs]
  refine (SMap.get_set_same t.mvs m _ _).trans ?_
  rw [hmv, htime]
  rfl

theorem mv_mvUp_other (d : Dev) {m k : Nat} (hk : k ≠ m) : (mvUp m d).mv k = d.mv k := by
  have hmvs := (allDisarmed_stopOnly m (shownOn m d)).mvs
  rw [mvUp_eq]
  generalize allDisarmed m (shownOn m d) = t at hmvs
  unfold Dev.mv
  rw [orphanStays_mvs]
  refine (SMap.get_set_other t.mvs _ _ hk).trans ?_
  rw [hmvs]
  rfl

theorem vclOk_mvUp (m : Nat) (hm : m < 8) (d : Dev) : ((mvUp m d).hw Fl.pwrStatusVclOk 0).testBit m = true := by
  obtain ⟨-, hsame⟩ := sameField_mvUp (f := Fl.pwrStatusVclOk) (i := 0) (by unfold offStop ownPage; decide) m d
    (hwWritten_setHw _ _ _ _ _ _ (hwWritten_setHw_same _ _ _ _))
  rw [hsame]
  unfold shownOn
  rw [hw_setBit_beside _ Fl.pwrStatusMvOn Fl.pwrStatusVclOk _ _ rfl (by decide) (by decide),
    testBit_hw_setBit _ _ _ _ _ (by decide) hm, if_pos rfl]

end Dev
end Sys2Proof.Machine

namespace Sys2Proof.Proofs

open Sys2Proof.Machine

/-- Settles O57: the steps of a movement that goes off and of one that comes up, each with what it leaves. -/
theorem movementResets : Obligations.MovementResets := by
  unfold Obligations.MovementResets
  refine ⟨?down, ?waits, ?up⟩
  case down =>
    intro s m hon
    obtain ⟨htrained, hoff, hlocal, hother, hmv⟩ := Dev.vclDown_goneOff m m.isLt s.dev hon
    have hpins := Dev.pinsActive_pins m m.isLt ((Dev.mvDown m s.dev).setBit Fl.pwrStatusVclOk m false)
    have hvcl : ((Dev.vclDown m s.dev).hw Fl.pwrStatusVclOk 0).testBit m = false := by
      rw [Dev.vclDown_eq m s.dev hon]
      generalize Dev.mvDown m s.dev = t
      refine (congrArg (·.testBit m.val) (Dev.pinsActive_hw m 0 _ Fl.pwrStatusVclOk (by decide))).trans ?_
      rw [Dev.testBit_hw_setBit _ _ _ _ _ (by decide) m.isLt, if_pos rfl]
    have hregs : ∀ f, (Dev.vclDown m s.dev).hw f 0 =
        (Dev.pinsActive m ((Dev.mvDown m s.dev).setBit Fl.pwrStatusVclOk m false)).hw f 0 := fun f => by
      rw [Dev.vclDown_eq m s.dev hon]
      generalize Dev.mvDown m s.dev = t
      rfl
    refine ⟨Dev.vclDown m s.dev, rfl, ?_, hvcl, htrained, ?_, ?_, fun j => hlocal _ (by omega), hother, fun k hk => ⟨?_, ?_⟩⟩
    · rw [hoff]
      simp
    · rw [hregs]
      exact hpins.1
    · rw [hregs]
      exact hpins.2
    · rw [hoff, decide_eq_true (show k.val ≠ m.val from fun h => hk (Fin.ext h)), Bool.true_and]
    · exact hmv k fun h => hk (Fin.ext h)
  case waits =>
    intro s m hrel hoff hwait
    refine ⟨s.dev.setBit Fl.pwrStatusVclOk m true, ?_, ?_, fun k hk => ?_, fun k => ?_, rfl, ?_⟩
    · show Host.Outcome.next { s with dev := Dev.mvRelease m s.dev } = _
      rw [Dev.mvRelease_waits m s.dev hrel hoff hwait]
    · rw [Dev.testBit_hw_setBit _ _ _ _ _ (by decide) m.isLt, if_pos rfl]
    · rw [Dev.testBit_hw_setBit _ _ _ _ _ (by decide) m.isLt, if_neg fun h => hk (Fin.ext h)]
    · exact congrArg (·.testBit k.val) (Dev.hw_setBit_beside s.dev Fl.pwrStatusVclOk Fl.pwrStatusMvOn m true rfl (by decide) (by decide))
    · exact (Dev.regsBut_refl s.dev _).setBit Fl.pwrStatusVclOk m true (List.mem_singleton.mpr rfl)
  case up =>
    intro s m hrel htick hoff hsw
    refine ⟨Dev.mvUp m s.dev, ?_, ?_, Dev.vclOk_mvUp m m.isLt s.dev, ?_, ?_, fun j => ?_, fun n hn hstill => ?_, fun k hk => ⟨?_, ?_⟩⟩
    · show Host.Outcome.next { s with dev := Dev.mvRelease m s.dev } = _
      rw [Dev.mvRelease_up m s.dev hrel hoff htick hsw]
    · rw [Dev.mvOn_mvUp m m m.isLt, decide_eq_true rfl, Bool.true_or]
    · rw [Dev.mv_mvUp]
    · rw [Dev.mv_mvUp]
    · rw [Dev.axis_mvUp]
      exact Dev.armed_allDisarmed m (Dev.shownOn m s.dev) ((Dev.mem_localAxes m _).mpr (by omega))
    · rw [Dev.axis_mvUp]
      exact Dev.axis_allDisarmed_still m (Dev.shownOn m s.dev) (fun h => hn ((Dev.mem_localAxes m n).mp h)) hstill
    · rw [Dev.mvOn_mvUp m k m.isLt, decide_eq_false (show ¬ k.val = m.val from fun h => hk (Fin.ext h)), Bool.false_or]
    · exact Dev.mv_mvUp_other s.dev fun h => hk (Fin.ext h)

end Sys2Proof.Proofs
end

section
/-! Proofs for the resets of the device (chapter 17). -/

namespace Sys2Proof.Machine.Dev

/-- A field of another register, or on other bits of the same one, is left by a field that is set: what `decide` can see. -/
def fieldApart (f : Fld) (i : Nat) (g : Fld) (j : Nat) : Prop :=
  g.reg.offset j ≠ f.reg.offset i ∨
    (g.reg = f.reg ∧ j = i ∧ f.lo + f.width ≤ 32 ∧ (g.lo + g.width ≤ f.lo ∨ f.lo + f.width ≤ g.lo))

theorem hw_setHw_of_apart (d : Dev) (f g : Fld) (i j v : Nat) (h : fieldApart f i g j) : (d.setHw f i v).hw g j = d.hw g j := by
  obtain h | ⟨hr, rfl, hf, hd⟩ := h
  · exact hw_setHw_reg d f g i j v h
  · exact hw_setHw_beside d f g j v hr hf hd

theorem hw_setFlag_of_apart (d : Dev) (f g : Fld) (i j : Nat) (b : Bool) (h : fieldApart f i g j) :
    (d.setFlag f i b).hw g j = d.hw g j := hw_setHw_of_apart d f g i j _ h

/-! ## Power-on reset (R517, R518) -/

/-- The registers that a reset leaves beside their reset values. -/
theorem cold_vclOk (vcl : BitVec 8) (d : Dev) : (cold vcl d).hw Fl.pwrStatusVclOk 0 = vcl.toNat := by
  unfold cold
  dsimp only
  rw [hw_setFlag_of_apart _ _ _ _ _ _ (by unfold fieldApart; decide), hw_setHw_of_apart _ _ _ _ _ _ (by unfold fieldApart; decide),
    hw_setHw_same _ _ _ _ (by decide)]
  exact Nat.mod_eq_of_lt vcl.isLt

theorem cold_hw (vcl : BitVec 8) (d : Dev) (f : Fld) (hp : fieldApart Fl.pwrStatusVclOk 0 f 0) (hh : fieldApart Fl.pwrStatusHubOn 0 f 0)
    (hl : fieldApart Fl.lockStatusPwSet 0 f 0) : (cold vcl d).hw f 0 = bits (resetWord f.reg 0) f.lo f.width := by
  unfold cold
  dsimp only
  rw [hw_setFlag_of_apart _ _ _ _ _ _ hl, hw_setHw_of_apart _ _ _ _ _ _ hh, hw_setHw_of_apart _ _ _ _ _ _ hp]
  rfl

/-! ## The block that a device reset leaves before its movements come up (R463, R517, R521, R532) -/

/-- What outlasts a device reset, with its cause. -/
def resetKept (cause : ResetCause) (vcl : BitVec 8) (old : Dev) : Dev :=
  let d := keepLockout old (keepMirror old (cold vcl old))
  (if cause = .rstCmd then keepLink old d else d).setHw Fl.rstStatusCause 0 (causeCode cause)

theorem deviceReset_eq (cause : ResetCause) (vcl : BitVec 8) (d : Dev) :
    deviceReset cause vcl d =
      if !d.flag Fl.clkStatusPllLock 0 then resetKept cause vcl d else mvsUp (resetKept cause vcl d).startTicks := rfl

/-- The mirror keeps positions, and nothing else of the block changes. -/
theorem keepMirror_frame (old d : Dev) : keepMirror old d = { d with hax := (keepMirror old d).hax } := by
  unfold keepMirror
  generalize span 0 64 = l
  induction l generalizing d with
  | nil => rfl
  | cons n r ih =>
    rw [each_cons, ih]
    split <;> rfl

/-- An axis of the mirror as a reset leaves it: its latched position and nothing else. -/
theorem axis_keepMirror (old d : Dev) (hd : d.hax = []) {n : Nat} (hn : n < 64) :
    (keepMirror old d).axis n = { lat := { pos := (old.axis n).lat.pos } } := by
  have hstep : ∀ k t, k ≠ n →
      (if (old.axis k).lat.pos = 0 then t else Dev.setAxis t k { lat := { pos := (old.axis k).lat.pos } }).axis n = t.axis n := by
    intro k t hk
    split
    · rfl
    · exact axis_setAxis_other _ _ hk.symm
  by_cases hp : (old.axis n).lat.pos = 0
  · have hkeep : (keepMirror old d).axis n = d.axis n := by
      refine each_same (fun t : Dev => t.axis n) _ (span 0 64) d fun k _ t => ?_
      by_cases hk : k = n
      · subst hk; rw [if_pos hp]
      · exact hstep k t hk
    rw [hkeep, hp]
    unfold Dev.axis
    rw [hd]
    rfl
  · refine each_does (fun t : Dev => t.axis n = { lat := { pos := (old.axis n).lat.pos } }) _ (span 0 64) d n
      ((mem_span 0 64 n).mpr (by omega)) (fun t => ?_) (fun k _ hk t ht => (hstep k t hk).trans ht)
    rw [if_neg hp, axis_setAxis]

/-- No axis is armed. -/
def allUnarmed (d : Dev) : Prop := ∀ n, (d.axis n).armed = false

theorem allUnarmed_keepMirror (old d : Dev) (hd : d.hax = []) : allUnarmed (keepMirror old d) := by
  intro n
  refine each_keeps (fun t : Dev => (t.axis n).armed = false) _ (span 0 64) d (fun k _ t ht => ?_) ?_
  · split
    · exact ht
    · by_cases hk : n = k
      · subst hk; rw [axis_setAxis]
      · rw [axis_setAxis_other _ _ hk]; exact ht
  · unfold Dev.axis
    rw [hd]
    rfl

/-! ## Movements that come up with every axis unarmed -/

/-- t is d but for the records of the movements, the axes in them, and PWR_STATUS. -/
def upOnly (d t : Dev) : Prop :=
  t = { d with mvs := t.mvs, mvax := t.mvax, regs := { d.regs with hw := t.regs.hw } } ∧
    ∀ a, a ≠ Reg.offset .pwrStatus 0 → SMap.find t.regs.hw a = SMap.find d.regs.hw a

theorem upOnly_refl (d : Dev) : d.upOnly d := ⟨rfl, fun _ _ => rfl⟩

theorem upOnly.trans {d t u : Dev} (h : d.upOnly t) (k : t.upOnly u) : d.upOnly u := by
  obtain ⟨h1, h2⟩ := h
  obtain ⟨k1, k2⟩ := k
  refine ⟨?_, fun a ha => (k2 a ha).trans (h2 a ha)⟩
  rw [k1, h1]

theorem upOnly.hax {d t : Dev} (h : d.upOnly t) : t.hax = d.hax := by rw [h.1]
theorem upOnly.hw {d t : Dev} (h : d.upOnly t) (f : Fld) (i : Nat) (ha : f.reg.offset i ≠ Reg.offset .pwrStatus 0) :
    t.hw f i = d.hw f i := hw_congr d t f i (h.2 _ ha)

theorem disarmAxis_unarmed (n : Nat) (d : Dev) (h : (d.axis n).armed = false) : disarmAxis false n d = d :=
  if_pos (Or.inr (by rw [h]; rfl))

theorem allDisarmed_unarmed (m : Nat) (d : Dev) (h : allUnarmed d) : allDisarmed m d = d :=
  each_keeps (fun t => t = d) _ (localAxes m) d (fun n _ t ht => by rw [ht]; exact disarmAxis_unarmed n d (h n)) rfl

theorem shownOn_upOnly (m : Nat) (d : Dev) : d.upOnly (shownOn m d) := by
  refine ⟨rfl, fun a ha => ?_⟩
  exact (SMap.find_set_other _ _ ha).trans (SMap.find_set_other _ _ ha)

theorem mvUp_upOnly (m : Nat) (d : Dev) (h : allUnarmed d) : d.upOnly (mvUp m d) := by
  have hup := shownOn_upOnly m d
  have hun : allUnarmed (shownOn m d) := h
  rw [mvUp_eq, allDisarmed_unarmed m _ hun]
  generalize shownOn m d = t at hup
  refine hup.trans ?_
  have hframe := orphanStays_frame m (t.modMv m fun x => { x with load := true, rate := t.time.rate })
  generalize orphanStays m (t.modMv m fun x => { x with load := true, rate := t.time.rate }) = u at hframe ⊢
  rw [hframe]
  exact ⟨rfl, fun _ _ => rfl⟩

theorem mvsUp_upOnly (d : Dev) (h : allUnarmed d) : d.upOnly (mvsUp d) := by
  refine each_keeps (fun t => d.upOnly t) mvUp _ d (fun m _ t ht => ht.trans (mvUp_upOnly m t ?_)) (upOnly_refl d)
  intro n
  unfold Dev.axis
  rw [ht.hax]
  exact h n

/-! ### What the block shows after a device reset -/

theorem keepLink_hax (old d : Dev) : (keepLink old d).hax = d.hax := rfl

theorem resetKept_hax (cause : ResetCause) (vcl : BitVec 8) (d : Dev) :
    (resetKept cause vcl d).hax = (keepMirror d (cold vcl d)).hax := by
  unfold resetKept
  generalize keepMirror d (cold vcl d) = t
  dsimp only
  split <;> rfl

/-- The parts of the block that a device reset empties, and the verifier, which it keeps. -/
theorem resetKept_parts (cause : ResetCause) (vcl : BitVec 8) (d : Dev) :
    (resetKept cause vcl d).strikes = [] ∧ (resetKept cause vcl d).hif.sqs = [] ∧ (resetKept cause vcl d).units = [] ∧
      (resetKept cause vcl d).lock.verifier = d.lock.verifier := by
  have hframe := keepMirror_frame d (cold vcl d)
  unfold resetKept keepLockout
  generalize keepMirror d (cold vcl d) = t at hframe
  dsimp only
  rw [hframe]
  split <;> exact ⟨rfl, rfl, rfl, rfl⟩

/-- A field that is no register of the lock's or of the reset's reads as the mirror's block does. -/
theorem resetKept_hw (cause : ResetCause) (vcl : BitVec 8) (d : Dev) (f : Fld) (hc : fieldApart Fl.rstStatusCause 0 f 0) :
    (resetKept cause vcl d).hw f 0 = (keepLockout d (cold vcl d)).hw f 0 := by
  have hframe := keepMirror_frame d (cold vcl d)
  unfold resetKept
  dsimp only
  rw [hw_setHw_of_apart _ _ _ _ _ _ hc]
  unfold keepLockout
  generalize keepMirror d (cold vcl d) = t at hframe
  dsimp only
  rw [hframe]
  split <;> rfl

theorem causeCode_lt (cause : ResetCause) : causeCode cause < 8 := by cases cause <;> decide

theorem resetKept_cause (cause : ResetCause) (vcl : BitVec 8) (d : Dev) :
    (resetKept cause vcl d).hw Fl.rstStatusCause 0 = causeCode cause :=
  (hw_setHw_same _ Fl.rstStatusCause 0 _ (by decide)).trans (Nat.mod_eq_of_lt (causeCode_lt cause))

/-- FAILS outlasts a device reset (R463). -/
theorem resetKept_fails (cause : ResetCause) (vcl : BitVec 8) (d : Dev) :
    (resetKept cause vcl d).hw Fl.lockStatusFails 0 = d.hw Fl.lockStatusFails 0 := by
  rw [resetKept_hw _ _ _ _ (by unfold fieldApart; decide)]
  unfold keepLockout
  dsimp only
  rw [hw_setHw_of_apart _ _ _ _ _ _ (by unfold fieldApart; decide), hw_setHw_of_apart _ _ _ _ _ _ (by unfold fieldApart; decide),
    hw_setHw_same _ _ _ _ (by decide)]
  exact Nat.mod_eq_of_lt (hw_lt d Fl.lockStatusFails 0)

/-- Every scope is closed. -/
theorem resetKept_scopes (cause : ResetCause) (vcl : BitVec 8) (d : Dev) : (resetKept cause vcl d).hw Fl.lockStatusScopes 0 = 0 := by
  rw [resetKept_hw _ _ _ _ (by unfold fieldApart; decide)]
  unfold keepLockout
  dsimp only
  rw [hw_setHw_of_apart _ _ _ _ _ _ (by unfold fieldApart; decide), hw_setHw_of_apart _ _ _ _ _ _ (by unfold fieldApart; decide),
    hw_setHw_of_apart _ _ _ _ _ _ (by unfold fieldApart; decide)]
  refine (cold_hw vcl d Fl.lockStatusScopes (by unfold fieldApart; decide) (by unfold fieldApart; decide)
    (by unfold fieldApart; decide)).trans ?_
  decide

/-- After a device reset the block is what has been kept, with the clock and the movements that come up at once. -/
theorem deviceReset_upOnly (cause : ResetCause) (vcl : BitVec 8) (d : Dev) :
    ∃ t : Dev, t.upOnly (deviceReset cause vcl d) ∧ t.hax = (resetKept cause vcl d).hax ∧
      (∀ f, f.reg.offset 0 ≠ Reg.offset .clkStatus 0 → t.hw f 0 = (resetKept cause vcl d).hw f 0) ∧
      t.strikes = [] ∧ t.hif.sqs = [] ∧ t.units = [] ∧ t.lock.verifier = d.lock.verifier := by
  have hparts := resetKept_parts cause vcl d
  have hun : allUnarmed (resetKept cause vcl d) := by
    intro n
    unfold Dev.axis
    rw [resetKept_hax]
    exact allUnarmed_keepMirror d (cold vcl d) rfl n
  rw [deviceReset_eq]
  generalize resetKept cause vcl d = u at hparts hun ⊢
  split
  · exact ⟨u, upOnly_refl u, rfl, fun _ _ => rfl, hparts⟩
  · exact ⟨u.startTicks, mvsUp_upOnly _ hun, rfl, fun f hf => hw_setHw_reg u _ _ _ _ _ hf, hparts⟩

/-! ## The end of the image load (R522, R526, R555) -/

/-- The messages that go out change neither registers nor axes nor the state of the reset. -/
theorem msixGo_frame (d : Dev) : msixGo d = { d with hif := (msixGo d).hif, out := (msixGo d).out } := by
  unfold msixGo
  generalize span 0 72 = l
  induction l generalizing d with
  | nil => rfl
  | cons v r ih =>
    rw [each_cons, ih]
    split <;> rfl

theorem msixGo_regs (d : Dev) : (msixGo d).regs = d.regs := by rw [msixGo_frame]
theorem msixGo_sys (d : Dev) : (msixGo d).sys = d.sys := by rw [msixGo_frame]
theorem msixGo_hax (d : Dev) : (msixGo d).hax = d.hax := by rw [msixGo_frame]

/-- IMG_STATUS with the slots that are bad and the count of skipped records. -/
def slotsShown (bad0 bad1 : Bool) (skipped : Nat) (d : Dev) : Dev :=
  ((d.setFlag Fl.imgStatusSlot0Bad 0 bad0).setFlag Fl.imgStatusSlot1Bad 0 bad1).setHw Fl.imgStatusSkipped 0 (min 255 skipped)

/-- NVS_IMAGE where the image has a fault. -/
def imageRaised (b : Bool) (d : Dev) : Dev := if b then d.raise1 .nvsImage 0 0 presStore else d

/-- The load is over, and so is a reset by RST_CMD. -/
def loadClosed (d : Dev) : Dev := { d.setHw Fl.imgStatusDone 0 1 with sys := { d.sys with rstCmd := false } }

/-- A slot carries the magic, but no valid image (R535). -/
def slotBad (m : List Host.Cell) (d : Dev) (slot : Nat) : Bool := hasMagic m slot && (slotRecords m d.sys.badSlots slot).isNone

theorem imgEnd_eq (m : List Host.Cell) (skipped : Nat) (d : Dev) :
    imgEnd m skipped d = msixGo (loadClosed (imageRaised (slotBad m d 0 || slotBad m d 1 || skipped ≠ 0)
      (slotsShown (slotBad m d 0) (slotBad m d 1) skipped d))) := rfl

theorem imgEnd_done (m : List Host.Cell) (skipped : Nat) (d : Dev) :
    (imgEnd m skipped d).hw Fl.imgStatusDone 0 = 1 ∧ (imgEnd m skipped d).sys.rstCmd = false := by
  rw [imgEnd_eq]
  generalize imageRaised _ _ = t
  refine ⟨?_, by rw [msixGo_sys]; rfl⟩
  unfold Dev.hw
  rw [msixGo_regs]
  exact hw_setHw_same t Fl.imgStatusDone 0 1 (by decide)

/-- A raise of NVS_IMAGE leaves accepted values, values in force, the hub's axes and IMG_STATUS. -/
theorem imageRaised_leaves (b : Bool) (d : Dev) :
    (imageRaised b d).regs.acc = d.regs.acc ∧ (imageRaised b d).regs.force = d.regs.force ∧ (imageRaised b d).hax = d.hax ∧
      ∀ f : Fld, f.reg = .imgStatus → (imageRaised b d).hw f 0 = d.hw f 0 := by
  cases b with
  | false => exact ⟨rfl, rfl, rfl, fun _ _ => rfl⟩
  | true =>
    have hframe := raise1_faultOnly d .nvsImage 0 0 presStore
    refine ⟨?_, ?_, raise1_hax d _ _ _ _, fun f hf => hw_raise1 d _ _ _ _ f 0 (offRaise_of_lt _ ?_ ?_)⟩
    · show (d.raise1 .nvsImage 0 0 presStore).regs.acc = _
      rw [hframe]
    · show (d.raise1 .nvsImage 0 0 presStore).regs.force = _
      rw [hframe]
    · rw [hf]; decide
    · rw [hf]; decide

/-- Shown, raised and closed, a load leaves accepted values, values in force, the hub's axes and the slot that it has shown. -/
theorem loadClosed_leaves (b bad0 bad1 : Bool) (skipped : Nat) (d u : Dev)
    (hu : u = msixGo (loadClosed (imageRaised b (slotsShown bad0 bad1 skipped d)))) :
    u.regs.acc = d.regs.acc ∧ u.regs.force = d.regs.force ∧ u.hax = d.hax ∧
      u.hw Fl.imgStatusSlot 0 = d.hw Fl.imgStatusSlot 0 := by
  rw [hu]
  have hshown : (slotsShown bad0 bad1 skipped d).hw Fl.imgStatusSlot 0 = d.hw Fl.imgStatusSlot 0 := by
    unfold slotsShown
    rw [hw_setHw_of_apart _ _ _ _ _ _ (by unfold fieldApart; decide), hw_setFlag_of_apart _ _ _ _ _ _ (by unfold fieldApart; decide),
      hw_setFlag_of_apart _ _ _ _ _ _ (by unfold fieldApart; decide)]
  obtain ⟨hacc, hforce, hhax, hhw⟩ := imageRaised_leaves b (slotsShown bad0 bad1 skipped d)
  generalize imageRaised b (slotsShown bad0 bad1 skipped d) = t at hacc hforce hhax hhw
  refine ⟨?_, ?_, ?_, ?_⟩
  · rw [msixGo_regs]; exact hacc
  · rw [msixGo_regs]; exact hforce
  · rw [msixGo_hax]; exact hhax
  · have hclosed : (loadClosed t).hw Fl.imgStatusSlot 0 = t.hw Fl.imgStatusSlot 0 :=
      hw_setHw_of_apart t _ _ _ _ _ (by unfold fieldApart; decide)
    rw [← hshown, ← hhw _ rfl, ← hclosed]
    unfold Dev.hw
    rw [msixGo_regs]

theorem imgEnd_leaves (m : List Host.Cell) (skipped : Nat) (d : Dev) :
    (imgEnd m skipped d).regs.acc = d.regs.acc ∧ (imgEnd m skipped d).regs.force = d.regs.force ∧
      (imgEnd m skipped d).hax = d.hax ∧ (imgEnd m skipped d).hw Fl.imgStatusSlot 0 = d.hw Fl.imgStatusSlot 0 :=
  loadClosed_leaves _ _ _ skipped d _ (imgEnd_eq m skipped d)

/-- A load ends once every movement that is on has trained or shows TRAIN_FAIL (R555). -/
theorem imgReady_iff (d : Dev) : d.imgReady = true ↔ d.sys.released = true ∧ d.flag Fl.clkStatusPllLock 0 = true ∧
    d.flag Fl.imgStatusDone 0 = false ∧
    ∀ m : Fin 8, d.mvOn m = true → d.trained m = true ∨ (d.hw Fl.pwrEvtTrainFail 0).testBit m = true := by
  unfold imgReady
  simp only [Bool.and_eq_true, Bool.not_eq_true', List.all_eq_true, mem_span, Bool.or_eq_true, and_assoc]
  refine and_congr_right fun _ => and_congr_right fun _ => and_congr_right fun _ => ⟨fun h m hon => ?_, fun h m hm => ?_⟩
  · obtain (hoff | h) | h := h m ⟨Nat.zero_le _, by omega⟩
    · rw [hon] at hoff; cases hoff
    · exact Or.inl h
    · exact Or.inr h
  · cases hon : d.mvOn m with
    | false => exact Or.inl (Or.inl rfl)
    | true =>
      obtain h | h := h ⟨m, by omega⟩ hon
      · exact Or.inl (Or.inr h)
      · exact Or.inr h

/-- A load always ends with DONE. -/
theorem imgLoad_done (m : List Host.Cell) (d : Dev) (h : d.imgReady = true) :
    (imgLoad m d).hw Fl.imgStatusDone 0 = 1 ∧ (imgLoad m d).sys.rstCmd = false := by
  refine imgLoad.fun_cases_unfolding m d (fun t => t.hw Fl.imgStatusDone 0 = 1 ∧ t.sys.rstCmd = false) ?_ ?_ ?_
  · intro hnot
    rw [h] at hnot
    cases hnot
  · intro _ _ _
    exact imgEnd_done m 0 _
  · intro _ _ _ _ _ _ _ n t _
    exact imgEnd_done m n t

/-- A load without a valid slot. -/
theorem imgLoad_none (m : List Host.Cell) (d : Dev) (h : d.imgReady = true) (hp : pickSlot m d.sys.badSlots = none) :
    imgLoad m d = imgEnd m 0 (d.idsReset.setHw Fl.imgStatusSlot 0 2) := by
  refine imgLoad.fun_cases_unfolding m d (fun t => t = imgEnd m 0 (d.idsReset.setHw Fl.imgStatusSlot 0 2)) ?_ ?_ ?_
  · intro hnot
    rw [h] at hnot
    cases hnot
  · intro _ _ _
    rfl
  · intro _ t slot recs hsome
    exact absurd (hp.symm.trans hsome) (Option.some_ne_none _).symm

end Sys2Proof.Machine.Dev

namespace Sys2Proof.Proofs

open Sys2Proof.Machine

/-- A reset while no command of the store runs leaves it (R527). -/
theorem storeAfterReset_idle (d : Dev) (m : List Host.Cell) (h : d.nvs = none) : storeAfterReset d m = m :=
  Dev.storeAfterReset_none d m (by unfold Dev.openPage; rw [h])

/-- What a reset keeps does not see the free values that it has used. -/
theorem skipFresh_frame (d : Dev) : d.skipFresh = { d with fresh := d.skipFresh.fresh } := by
  unfold Dev.skipFresh
  split <;> rfl

/-- Settles O56: the block of a reset field by field, the movements that come up, and the end of the image load. -/
theorem deviceResets : Obligations.DeviceResets := by
  unfold Obligations.DeviceResets
  refine ⟨?power, ?device, ?refused, ?load, ?notReady⟩
  case power =>
    intro s vcl
    refine ⟨Dev.powerOn vcl s.dev.skipFresh, storeAfterReset s.dev s.store, rfl, rfl, rfl, rfl, rfl, rfl, rfl, rfl, rfl, ?_, ?_, ?_, ?_,
      storeAfterReset_idle s.dev s.store⟩
    · exact Dev.cold_vclOk vcl _
    · exact (Dev.cold_hw vcl s.dev.skipFresh Fl.lockStatusScopes (by unfold Dev.fieldApart; decide) (by unfold Dev.fieldApart; decide)
        (by unfold Dev.fieldApart; decide)).trans (by decide)
    · rfl
    · rw [skipFresh_frame]
      rfl
  case device =>
    intro s cause vcl hcan
    obtain ⟨t, hup, hhax, hhw, hstrikes, hsqs, hunits, hver⟩ := Dev.deviceReset_upOnly cause vcl s.dev.skipFresh
    have hskip := skipFresh_frame s.dev
    refine ⟨Dev.deviceReset cause vcl s.dev.skipFresh, storeAfterReset s.dev s.store, ?_, ?_, ?_, ?_, ?_, fun n hn => ?_, ?_, ?_, ?_,
      storeAfterReset_idle s.dev s.store⟩
    · exact if_neg (by rw [hcan]; decide)
    · rw [hup.hw _ 0 (by decide), hhw _ (by decide), Dev.resetKept_cause]
    · rw [hup.hw _ 0 (by decide), hhw _ (by decide), Dev.resetKept_scopes]
    · rw [hup.hw _ 0 (by decide), hhw _ (by decide), Dev.resetKept_fails, hskip]
      rfl
    · rw [hup.1]
      exact hver.trans (by rw [hskip])
    · have haxis := Dev.axis_keepMirror s.dev.skipFresh (Dev.cold vcl s.dev.skipFresh) rfl hn
      unfold Dev.axis at haxis ⊢
      rw [hup.hax, hhax, Dev.resetKept_hax]
      refine haxis.trans ?_
      rw [hskip]
    · rw [hup.1]; exact hstrikes
    · rw [hup.1]; exact hsqs
    · rw [hup.1]; exact hunits
  case refused =>
    intro s cause vcl hcan
    exact if_pos (by rw [hcan]; rfl)
  case load =>
    intro s hrel hlock hdone hall
    have hready := (Dev.imgReady_iff s.dev).mpr ⟨hrel, hlock, hdone, hall⟩
    obtain ⟨hend, hrst⟩ := Dev.imgLoad_done s.store s.dev hready
    refine ⟨Dev.imgLoad s.store s.dev, rfl, hend, hrst, fun hnone => ?_⟩
    rw [Dev.imgLoad_none s.store s.dev hready hnone]
    obtain ⟨hacc, hforce, hhax, hslot⟩ := Dev.imgEnd_leaves s.store 0 (s.dev.idsReset.setHw Fl.imgStatusSlot 0 2)
    exact ⟨hslot.trans (Dev.hw_setHw_same _ Fl.imgStatusSlot 0 2 (by decide)), hacc, hforce, hhax⟩
  case notReady =>
    intro s m hon htrained hfail
    have hnot : s.dev.imgReady ≠ true := by
      rw [Ne, Dev.imgReady_iff]
      rintro ⟨-, -, -, hall⟩
      obtain h | h := hall m hon
      · rw [htrained] at h; cases h
      · rw [hfail] at h; cases h
    show Host.Outcome.next { s with dev := Dev.imgLoad s.store s.dev } = _
    have hsame : Dev.imgLoad s.store s.dev = s.dev := if_pos (by simpa using hnot)
    rw [hsame]

end Sys2Proof.Proofs
end

section
/-! Proofs for temperatures, bus comparators and supply rails (chapter 16). -/

namespace Sys2Proof.Machine

namespace Dev

/-! ## The steps of a movement's measurement (R477 to R480) -/

/-- t is d as far as a measurement of movement m goes on: the values in force, the hub's axes, the readings that wait for the latch
frame, and the fields of THERM_STATUS in fs. -/
structure measures (m : Nat) (fs : List Fld) (d t : Dev) : Prop where
  force : t.regs.force = d.regs.force
  hax : t.hax = d.hax
  temps : (t.mv m).temps = (d.mv m).temps
  shown : ∀ f ∈ fs, t.hw f m = d.hw f m

theorem measures.trans {m : Nat} {fs : List Fld} {d t u : Dev} (h : measures m fs d t) (k : measures m fs t u) : measures m fs d u :=
  ⟨k.force.trans h.force, k.hax.trans h.hax, k.temps.trans h.temps, fun f hf => (k.shown f hf).trans (h.shown f hf)⟩

theorem measures_refl (m : Nat) (fs : List Fld) (d : Dev) : measures m fs d d := ⟨rfl, rfl, rfl, fun _ _ => rfl⟩

theorem measures.mono {m : Nat} {fs gs : List Fld} {d t : Dev} (h : measures m fs d t) (hsub : ∀ f ∈ gs, f ∈ fs) : measures m gs d t :=
  ⟨h.force, h.hax, h.temps, fun f hf => h.shown f (hsub f hf)⟩

/-- A field of THERM_STATUS that is set leaves those beside it. -/
theorem measures_setHw (m : Nat) (fs : List Fld) (d : Dev) (f : Fld) (v : Nat) (h : ∀ g ∈ fs, fieldApart f m g m) :
    measures m fs d (d.setHw f m v) := ⟨rfl, rfl, rfl, fun g hg => hw_setHw_of_apart d f g m m v (h g hg)⟩

/-- The registers of the thermal chapter are not those that a raise sets. -/
theorem offRaise_thermStatus (m : Nat) (h : m < 8) : offRaise (Reg.offset .thermStatus m) := by
  have hall : ∀ k : Fin 8, Reg.offset .thermStatus k < 0x10000 ∧ Reg.offset .thermStatus k ≠ 0x524 := by decide
  exact offRaise_of_lt _ (hall ⟨m, h⟩).1 (hall ⟨m, h⟩).2

/-- A source raised by the movement leaves the measurement. -/
theorem measures_raise (m : Nat) (hm : m < 8) (fs : List Fld) (hfs : ∀ f ∈ fs, f.reg = .thermStatus) (d : Dev) (s : Src)
    (place sub pres : Nat) : measures m fs d (d.raise s place sub pres) := by
  have hframe := raiseAs_faultOnly d s place sub pres (d.classOf s) .stoppedFault
  refine ⟨?_, ?_, ?_, fun f hf => ?_⟩
  · show (d.raiseAs s place sub pres (d.classOf s) .stoppedFault).regs.force = _
    rw [hframe]
  · show (d.raiseAs s place sub pres (d.classOf s) .stoppedFault).hax = _
    rw [hframe]
  · obtain ⟨q, n, h⟩ := mv_raiseAs d s place sub pres (d.classOf s) .stoppedFault m
    have htemps := congrArg Mv.temps h
    exact htemps
  · exact hw_congr _ _ f m (find_hw_raiseAs d s place sub pres _ _ (by rw [hfs f hf]; exact offRaise_thermStatus m hm))

theorem setFast_measures (m : Nat) (hm : m < 8) (l : List Int) (d : Dev) :
    measures m [Fl.thermStatusTemp, Fl.thermStatusValid, Fl.thermStatusTrip] d (setFast m l d) := by
  have hset : ∀ v, measures m [Fl.thermStatusTemp, Fl.thermStatusValid, Fl.thermStatusTrip] d (d.setHw Fl.thermStatusFast m v) := by
    intro v
    refine measures_setHw m _ d _ v fun g hg => Or.inr ?_
    fin_cases hg <;> exact ⟨rfl, rfl, by decide, by decide⟩
  unfold setFast dieRegs
  rw [if_pos hm]
  dsimp only
  split
  · exact hset 1
  · split
    · exact hset 0
    · exact measures_refl m _ d

theorem setFast_trip (m k : Nat) (l : List Int) (d : Dev) : (setFast m l d).mv k = d.mv k := by
  unfold setFast
  dsimp only
  split
  · rfl
  · split <;> rfl

theorem warnCheck_measures (m : Nat) (hm : m < 8) (t : Int) (d : Dev) :
    measures m [Fl.thermStatusTemp, Fl.thermStatusValid, Fl.thermStatusTrip] d (warnCheck m t d) := by
  have hset : ∀ v, measures m [Fl.thermStatusTemp, Fl.thermStatusValid, Fl.thermStatusTrip] d (d.setHw Fl.thermStatusWarn m v) := by
    intro v
    refine measures_setHw m _ d _ v fun g hg => Or.inr ?_
    fin_cases hg <;> exact ⟨rfl, rfl, by decide, by decide⟩
  have hregs : ∀ f ∈ [Fl.thermStatusTemp, Fl.thermStatusValid, Fl.thermStatusTrip], f.reg = .thermStatus := by decide
  unfold warnCheck dieRegs
  rw [if_pos hm]
  dsimp only
  split
  · split
    · exact hset 0
    · exact measures_refl m _ d
  · split
    · exact (hset 1).trans (measures_raise m hm _ hregs _ _ _ _ _)
    · exact measures_refl m _ d

theorem warnCheck_trip (m : Nat) (hm : m < 8) (t : Int) (d : Dev) : ((warnCheck m t d).mv m).trip = (d.mv m).trip := by
  unfold warnCheck dieRegs
  rw [if_pos hm]
  dsimp only
  split
  · split <;> rfl
  · split
    · obtain ⟨q, n, h⟩ := mv_raiseAs (d.setHw Fl.thermStatusWarn m 1) .mvTempWarn m m m
        ((d.setHw Fl.thermStatusWarn m 1).classOf .mvTempWarn) .stoppedFault m
      have htrip := congrArg Mv.trip h
      exact htrip
    · rfl

theorem setTripRun_measures (m n : Nat) (fs : List Fld) (d : Dev) : measures m fs d (setTripRun m n d) := by
  unfold setTripRun
  split
  · exact ⟨rfl, rfl, by rw [show (d.modMv m fun x => { x with trip := n }).mv m = _ from mv_setMv _ _ _], fun _ _ => rfl⟩
  · exact ⟨rfl, rfl, rfl, fun _ _ => rfl⟩

theorem tripCheck_measures (m : Nat) (hm : m < 8) (t : Int) (blind : Bool) (d : Dev) :
    measures m [Fl.thermStatusTemp, Fl.thermStatusValid] d (tripCheck m t blind d) := by
  have hset : ∀ (v : Nat) (u : Dev), measures m [Fl.thermStatusTemp, Fl.thermStatusValid] u (u.setHw Fl.thermStatusTrip m v) := by
    intro v u
    refine measures_setHw m _ u _ v fun g hg => Or.inr ?_
    fin_cases hg <;> exact ⟨rfl, rfl, by decide, by decide⟩
  have hregs : ∀ f ∈ [Fl.thermStatusTemp, Fl.thermStatusValid], f.reg = .thermStatus := by decide
  unfold tripCheck dieRegs
  rw [if_pos hm]
  dsimp only
  generalize (if blind = true then 2 else if 16 * min (165 : Int) (d.cfg Fl.thermCfgTrip m) ≤ t then min 2 (d.tripRun m + 1) else 0) = n
  refine (setTripRun_measures m n _ d).trans ?_
  generalize setTripRun m n d = u
  split
  · split
    · exact hset 0 u
    · exact measures_refl m _ u
  · split
    · exact (hset 1 u).trans (measures_raise m hm _ hregs _ _ _ _ _)
    · exact measures_refl m _ u

/-- What is in force goes by the accepted set-up alone. -/
theorem cfg_congr {d t : Dev} (h : t.regs.force = d.regs.force) (f : Fld) (i : Nat) : t.cfg f i = d.cfg f i := by
  unfold cfg
  rw [h]

theorem setTripRun_flag (m n : Nat) (d : Dev) (f : Fld) (i : Nat) : (setTripRun m n d).flag f i = d.flag f i := by
  unfold setTripRun
  split <;> rfl

/-- In the second measurement in a row at or above the limit, a movement that has not tripped trips (R479). -/
theorem tripCheck_trips (m : Nat) (hm : m < 8) (t : Int) (blind : Bool) (d : Dev) (hflag : d.flag Fl.thermStatusTrip m = false)
    (hrun : 1 ≤ (d.mv m).trip) (ht : 16 * (min 165 (d.cfg Fl.thermCfgTrip m) : Int) ≤ t) :
    (tripCheck m t blind d).hw Fl.thermStatusTrip m = 1 ∧ d.reacted (tripCheck m t blind d) .mvOvertemp m m := by
  have hrun2 : min 2 (d.tripRun m + 1) = 2 := by
    rw [show d.tripRun m = (d.mv m).trip from if_pos hm]
    omega
  have hraise : tripCheck m t blind d = ((setTripRun m 2 d).setHw Fl.thermStatusTrip m 1).raise .mvOvertemp m m m := by
    unfold tripCheck dieRegs
    rw [if_pos hm]
    dsimp only
    rw [if_pos hm, setTripRun_flag, hflag, hrun2]
    have htwo : (if blind = true then 2 else if 16 * min (165 : Int) (d.cfg Fl.thermCfgTrip m) ≤ t then 2 else 0) = 2 := by
      rw [if_pos ht, ite_self]
    rw [show ((165 : Nat) : Int) = 165 from rfl, htwo, if_neg Bool.false_ne_true, if_pos rfl]
  rw [hraise]
  refine ⟨?_, (raiseAs_reacted _ .mvOvertemp m m m .stoppedFault).from ?_⟩
  · exact (hw_congr _ _ _ m (find_hw_raiseAs _ .mvOvertemp m m m _ _ (offRaise_thermStatus m hm))).trans (hw_setHw_same _ _ m 1 (by decide))
  · unfold setTripRun
    split <;> rfl

/-! ## A movement's measurement -/

/-- The reported value and its mark, before the limits are looked at. -/
def reported (m : Nat) (rep : Option Int) (d : Dev) : Dev :=
  (d.setHw Fl.thermStatusTemp m (BitVec.ofInt 16 (rep.getD 0x7FFF)).toNat).setFlag Fl.thermStatusValid m rep.isSome

theorem reported_temp (m : Nat) (rep : Option Int) (d : Dev) :
    (reported m rep d).hw Fl.thermStatusTemp m = (BitVec.ofInt 16 (rep.getD 0x7FFF)).toNat := by
  have hbeside : fieldApart Fl.thermStatusValid m Fl.thermStatusTemp m := Or.inr ⟨rfl, rfl, by decide, by decide⟩
  refine (hw_setHw_of_apart _ _ _ m m _ hbeside).trans ((hw_setHw_same _ _ m _ (by decide)).trans ?_)
  exact Nat.mod_eq_of_lt (BitVec.isLt _)

theorem reported_valid (m : Nat) (rep : Option Int) (d : Dev) :
    (reported m rep d).hw Fl.thermStatusValid m = if rep.isSome then 1 else 0 := by
  refine (hw_setHw_same _ _ m _ (by decide)).trans ?_
  cases rep <;> rfl

theorem reported_measures (m : Nat) (rep : Option Int) (d : Dev) : measures m [Fl.thermStatusTrip] d (reported m rep d) := by
  refine (measures_setHw m _ d _ _ fun g hg => Or.inr ?_).trans (measures_setHw m _ _ _ _ fun g hg => Or.inr ?_)
  · fin_cases hg; exact ⟨rfl, rfl, by decide, by decide⟩
  · fin_cases hg; exact ⟨rfl, rfl, by decide, by decide⟩

/-- The interval and the limits of a reported value. -/
def checked (m : Nat) (t : Int) (blind : Bool) (us : List Int) (d : Dev) : Dev :=
  (tripCheck m t blind (warnCheck m t (setFast m us d))).settle

theorem checked_measures (m : Nat) (hm : m < 8) (t : Int) (blind : Bool) (us : List Int) (d : Dev) :
    measures m [Fl.thermStatusTemp, Fl.thermStatusValid] d (checked m t blind us d) := by
  have hsub : ∀ f ∈ [Fl.thermStatusTemp, Fl.thermStatusValid], f ∈ [Fl.thermStatusTemp, Fl.thermStatusValid, Fl.thermStatusTrip] := by decide
  have hsettle : ∀ u : Dev, measures m [Fl.thermStatusTemp, Fl.thermStatusValid] u u.settle := by
    intro u
    rw [settle_frame]
    exact ⟨rfl, rfl, rfl, fun _ _ => rfl⟩
  exact ((((setFast_measures m hm us d).trans (warnCheck_measures m hm t _)).mono hsub).trans
    (tripCheck_measures m hm t blind _)).trans (hsettle _)

theorem checked_trips (m : Nat) (hm : m < 8) (t : Int) (blind : Bool) (us : List Int) (d : Dev)
    (hflag : d.flag Fl.thermStatusTrip m = false) (hrun : 1 ≤ (d.mv m).trip)
    (ht : 16 * (min 165 (d.cfg Fl.thermCfgTrip m) : Int) ≤ t) :
    (checked m t blind us d).hw Fl.thermStatusTrip m = 1 ∧ d.reacted (checked m t blind us d) .mvOvertemp m m := by
  have hwarn := (setFast_measures m hm us d).trans (warnCheck_measures m hm t _)
  have htrip : ((warnCheck m t (setFast m us d)).mv m).trip = (d.mv m).trip := by rw [warnCheck_trip m hm, setFast_trip]
  obtain ⟨hshown, hreacted⟩ := tripCheck_trips m hm t blind (warnCheck m t (setFast m us d))
    (by unfold flag at hflag ⊢; rw [hwarn.shown _ (by decide)]; exact hflag) (by rw [htrip]; exact hrun)
    (by rw [show (warnCheck m t (setFast m us d)).cfg Fl.thermCfgTrip m = _ from cfg_congr hwarn.force _ _]; exact ht)
  refine ⟨?_, (hreacted.from hwarn.force).keep (keepsReaction_settle m _)⟩
  unfold checked
  rw [settle_frame]
  exact hshown

/-- The readings that a movement hands to its latch frame. -/
def handed (m : Nat) (rs : List TempReading) (d : Dev) : List (Nat × BitVec 16 × Bool) :=
  (((sensorsOf m).zip rs).filter fun e => d.sensorEnabled e.1).map fun e => (e.1, e.2.value, outside e.2)

theorem sensorEnabled_congr {d t : Dev} (h : t.regs.force = d.regs.force) (s : Nat) : t.sensorEnabled s = d.sensorEnabled s := by
  unfold sensorEnabled on
  rw [cfg_congr h, cfg_congr h]

/-- The measurement of a movement that runs. -/
theorem temperature_of_runs (m : Nat) (hm : m < 8) (l : List TempSample) (d : Dev) (hruns : d.mvRuns m = true) (rep : Option Int)
    (hrep : rep = maxInt (((d.usableReadings m (d.tempsOf m l)).filter fun e => (d.cfg Fl.thermCfgSel m).testBit (e.1 % 6)).map (·.2))) :
    ∃ blind us, ∀ c, c = checked m (rep.getD 0x7FFF) blind us (reported m rep d) →
      temperature m l d = c.modMv m fun x => { x with temps := x.temps ++ handed m (d.tempsOf m l) c } := by
  have hon : d.dieOn m = true := by
    unfold mvRuns at hruns
    unfold dieOn
    rw [if_pos hm]
    simp_all
  refine ⟨!d.flag Fl.thermStatusValid m && rep.isNone, (d.usableReadings m (d.tempsOf m l)).map (·.2), fun c hc => ?_⟩
  unfold temperature dieRegs
  simp only [hon, hruns, if_pos hm, Bool.not_true, Bool.false_or, Bool.and_false, Bool.false_eq_true, if_false]
  rw [← hrep, hc]
  unfold checked reported handed
  rfl

theorem handed_enabled (m : Nat) (rs : List TempReading) (d : Dev) (e : Nat × BitVec 16 × Bool) (he : e ∈ handed m rs d) :
    e.1 ∈ sensorsOf m ∧ d.sensorEnabled e.1 = true := by
  obtain ⟨x, hx, rfl⟩ := List.mem_map.mp he
  obtain ⟨hzip, hon⟩ := List.mem_filter.mp hx
  exact ⟨(List.of_mem_zip hzip).1, hon⟩

end Dev

/-- The measurement of a movement (R477 to R480). -/
theorem movement_measures (s : State) (m : Fin 9) (rs : List TempSample) (rep : Option Int) (hm : m.val < 8)
    (hruns : s.dev.mvRuns m = true)
    (hrep : rep = Dev.maxInt (((s.dev.usableReadings m (s.dev.tempsOf m rs)).filter
      fun e => (s.dev.cfg Fl.thermCfgSel m).testBit (e.1 % 6)).map (·.2))) :
    ∃ d, exec (.tempMeasurement m rs) s = .next { s with dev := d } ∧
      d.hw Fl.thermStatusValid m = (if rep.isSome then 1 else 0) ∧
      d.hw Fl.thermStatusTemp m = (BitVec.ofInt 16 (rep.getD 0x7FFF)).toNat ∧
      (∃ l, (d.mv m).temps = (s.dev.mv m).temps ++ l ∧
        ∀ e ∈ l, e.1 ∈ Dev.sensorsOf m ∧ s.dev.sensorEnabled e.1 = true) ∧
      (s.dev.flag Fl.thermStatusTrip m = false → 1 ≤ (s.dev.mv m).trip →
        16 * (min 165 (s.dev.cfg Fl.thermCfgTrip m) : Int) ≤ rep.getD 0x7FFF →
        d.hw Fl.thermStatusTrip m = 1 ∧ s.dev.reacted d .mvOvertemp m m) ∧
      d.hax = s.dev.hax := by
  obtain ⟨blind, us, htemp⟩ := Dev.temperature_of_runs m hm rs s.dev hruns rep hrep
  have hfirst := Dev.reported_measures m rep s.dev
  have hchecked := Dev.checked_measures m hm (rep.getD 0x7FFF) blind us (Dev.reported m rep s.dev)
  have htrips := Dev.checked_trips m hm (rep.getD 0x7FFF) blind us (Dev.reported m rep s.dev)
  have heq := htemp _ rfl
  generalize Dev.checked m (rep.getD 0x7FFF) blind us (Dev.reported m rep s.dev) = c at hchecked htrips heq
  have hforce : c.regs.force = s.dev.regs.force := hchecked.force.trans hfirst.force
  have hmv : ∀ g : Mv → Mv, (c.modMv m g).mv m = g (c.mv m) := fun g => Dev.mv_setMv _ _ _
  refine ⟨Dev.temperature m rs s.dev, rfl, ?_, ?_, ⟨Dev.handed m (s.dev.tempsOf m rs) c, ?_, fun e he => ?_⟩, fun hflag hrun ht => ?_, ?_⟩
  · rw [heq]
    exact (hchecked.shown _ (by decide)).trans (Dev.reported_valid m rep s.dev)
  · rw [heq]
    exact (hchecked.shown _ (by decide)).trans (Dev.reported_temp m rep s.dev)
  · rw [heq, hmv]
    dsimp only
    rw [hchecked.temps.trans hfirst.temps]
  · obtain ⟨hsensor, hon⟩ := Dev.handed_enabled _ _ _ e he
    exact ⟨hsensor, (Dev.sensorEnabled_congr hforce _).symm.trans hon⟩
  · have hkept : (Dev.reported m rep s.dev).hw Fl.thermStatusTrip m = s.dev.hw Fl.thermStatusTrip m := hfirst.shown _ (by decide)
    obtain ⟨hset, hreacted⟩ := htrips (by unfold Dev.flag at hflag ⊢; rw [hkept]; exact hflag) hrun
      (by rw [Dev.cfg_congr hfirst.force]; exact ht)
    refine ⟨by rw [heq]; exact hset, (hreacted.from hfirst.force).keep ?_⟩
    rw [heq]
    exact Dev.keepsReaction_of_eq rfl rfl (by rw [hmv]) (fun _ => rfl) rfl fun _ => rfl
  · rw [heq]
    exact hchecked.hax.trans hfirst.hax

/-! ## Bus comparators and rails (R488, R489) -/

namespace Dev

theorem offRaise_vbusStatus (m : Fin 8) : offRaise (Reg.offset .vbusStatus m) := by
  have hall : ∀ k : Fin 8, Reg.offset .vbusStatus k < 0x10000 ∧ Reg.offset .vbusStatus k ≠ 0x524 := by decide
  exact offRaise_of_lt _ (hall m).1 (hall m).2

theorem vbsOf_lt (d : Dev) (m : Nat) (v : BitVec 12) : d.vbsOf m v < 2 ^ 12 := by
  unfold vbsOf
  omega

/-- A comparator that trips shows the bus and its condition, and raises its source. -/
theorem tripped_bus (d : Dev) (f : Fld) (hf : f = Fl.vbusStatusOvNow ∨ f = Fl.vbusStatusUvNow) (m : Fin 8) (v : Nat) (hv : v < 2 ^ 12)
    (s : Src) (t : Dev) (ht : t = ((d.setHw Fl.vbusStatusVbs m v).setHw f m 1).raise1 s m m m) :
    t.hw f m = 1 ∧ t.hw Fl.vbusStatusVbs m = v ∧ d.reacted t s m m ∧ t.hax = d.hax := by
  subst ht
  have hreg : f.reg = .vbusStatus ∧ f.lo + f.width ≤ 32 ∧ 1 % 2 ^ f.width = 1 ∧ 12 ≤ f.lo := by
    rcases hf with rfl | rfl <;> exact ⟨rfl, by decide, rfl, by decide⟩
  obtain ⟨hreg, hwidth, hone, hlo⟩ := hreg
  refine ⟨?_, ?_, (raise1_reacted _ s m m m).from rfl, raise1_hax _ s m m m⟩
  · rw [hw_raise1 _ s m m m f m (by rw [hreg]; exact offRaise_vbusStatus m), hw_setHw_same _ _ _ _ hwidth, hone]
  · rw [hw_raise1 _ s m m m _ m (offRaise_vbusStatus m), hw_setHw_beside _ f Fl.vbusStatusVbs _ _ hreg.symm hwidth (.inl hlo),
      hw_setHw_same _ _ _ _ (by decide), Nat.mod_eq_of_lt hv]

end Dev

/-- Settles O50: the two clauses of the bus comparators are one lemma, the measurement keeps its registers through its limits. -/
theorem thermalAndSupplies : Obligations.ThermalAndSupplies := by
  unfold Obligations.ThermalAndSupplies
  refine ⟨movement_measures, fun s m v hon hover hnow => ?_, fun s m v hon harmed hunder hnow => ?_, fun s m v hun => ?_,
    fun s r mv hgone => ?_, fun s r mv hnear hout => ?_⟩
  · have heq : Dev.busOver m v s.dev =
        ((s.dev.setHw Fl.vbusStatusVbs m (s.dev.vbsOf m v)).setHw Fl.vbusStatusOvNow m 1).raise1 .vbusOv m m m := by
      unfold Dev.busOver
      dsimp only
      rw [hon, hnow, decide_eq_false (Nat.not_le.mpr hover)]
      rfl
    exact ⟨Dev.busOver m v s.dev, rfl, Dev.tripped_bus s.dev _ (.inl rfl) m _ (Dev.vbsOf_lt _ _ _) .vbusOv _ heq⟩
  · have heq : Dev.busUnder m v s.dev = (((s.dev.modMv m fun x => { x with uvNew := false }).setHw Fl.vbusStatusVbs m
        (s.dev.vbsOf m v)).setHw Fl.vbusStatusUvNow m 1).raise1 .vbusUv m m m := by
      have hcond : (s.dev.flag Fl.vbusStatusUvNow m && !(s.dev.mv m).uvNew) = false := by
        rcases hnow with h | h <;> simp [h]
      unfold Dev.busUnder
      simp only [hon, harmed, hcond]
      rw [if_neg]
      simp only [Bool.not_true, Bool.false_or, Bool.or_false, Bool.or_eq_true, decide_eq_true_eq]
      omega
    obtain ⟨hset, hvbs, hreacted, hhax⟩ :=
      Dev.tripped_bus (s.dev.modMv m fun x => { x with uvNew := false }) _ (.inr rfl) m _ (Dev.vbsOf_lt s.dev m v) .vbusUv _ heq
    refine ⟨Dev.busUnder m v s.dev, rfl, ?_, hset, hvbs, hreacted.from rfl, hhax⟩
    obtain ⟨q, n, hmv⟩ := Dev.mv_raise1 (((s.dev.modMv m fun x => { x with uvNew := false }).setHw Fl.vbusStatusVbs m
        (s.dev.vbsOf m v)).setHw Fl.vbusStatusUvNow m 1) .vbusUv m m m m
    rw [heq, hmv]
    have hown : ∀ g : Mv → Mv, (s.dev.modMv m g).mv m = g (s.dev.mv m) := fun g => Dev.mv_setMv _ _ _
    have huv := congrArg Mv.uvNew (hown fun x => { x with uvNew := false })
    exact huv
  · have heq : Dev.busUnder m v s.dev = s.dev := by
      unfold Dev.busUnder
      simp [hun]
    show s.onDev (Dev.busUnder m v) = _
    unfold State.onDev
    rw [heq]
  · refine ⟨Dev.heldReset r s.dev.skipFresh, storeAfterReset s.dev s.store, ?_, rfl, rfl, rfl, rfl, rfl, rfl, rfl, rfl, rfl, rfl, ?_,
      Sys2Proof.Proofs.storeAfterReset_idle s.dev s.store⟩
    · show execSupplyFault ⟨r, mv⟩ s = _
      unfold execSupplyFault
      exact if_pos (decide_eq_true hgone)
    · unfold Dev.heldReset Dev.skipFresh
      split <;> rfl
  · have heq : Dev.supplyFault r mv s.dev =
        ((s.dev.setBit Fl.supplyStatusNow r true).setBit Fl.supplyStatusSeen r true).raise1 .supplyFault 0 r presSupply := by
      unfold Dev.supplyFault
      rw [if_neg hout]
    have hoff : ∀ f : Fld, f.reg = .supplyStatus → Dev.offRaise (f.reg.offset 0) := by
      rintro f hf
      rw [hf]
      exact Dev.offRaise_of_lt _ (by decide) (by decide)
    refine ⟨Dev.supplyFault r mv s.dev, ?_, ?_, ?_, ?_, ?_⟩
    · show execSupplyFault ⟨r, mv⟩ s = _
      unfold execSupplyFault
      rw [if_neg (by simpa [Dev.railGone] using hnear)]
      rfl
    · rw [heq, Dev.hw_raise1 _ _ _ _ _ _ _ (hoff _ rfl),
        Dev.hw_setBit_beside _ Fl.supplyStatusSeen Fl.supplyStatusNow _ _ rfl (by decide) (by decide),
        Dev.testBit_hw_setBit _ _ _ _ _ (by decide) r.isLt, if_pos rfl]
    · rw [heq, Dev.hw_raise1 _ _ _ _ _ _ _ (hoff _ rfl), Dev.testBit_hw_setBit _ _ _ _ _ (by decide) r.isLt, if_pos rfl]
    · rw [heq]
      exact (Dev.raise1_reacted _ .supplyFault 0 r presSupply).from rfl
    · rw [heq]
      exact Dev.raise1_hax _ _ _ _ _

end Sys2Proof.Machine
end

section
/-! What the operations on one axis of a movement leave, and proofs for orphans and the training of links (chapters 1 and 15). -/

namespace Sys2Proof.Machine

namespace Dev

/-! ## Operations on axes in their movements -/

/-- t is d but for the movement's side of the axes of l, and device-driven registers of axis pages beside the sticky flags. -/
structure axesOnly (l : List Nat) (d t : Dev) : Prop where
  frame : t = { d with mvax := t.mvax, regs := { d.regs with hw := t.regs.hw } }
  other : ∀ k, k ∉ l → t.mva k = d.mva k
  hub : ∀ a, ¬ ownPage a → SMap.find t.regs.hw a = SMap.find d.regs.hw a

theorem axesOnly_refl (l : List Nat) (d : Dev) : axesOnly l d d := ⟨rfl, fun _ _ => rfl, fun _ _ => rfl⟩

theorem axesOnly.trans {l : List Nat} {d t u : Dev} (h : axesOnly l d t) (k : axesOnly l t u) : axesOnly l d u where
  frame := by
    have hu := k.frame
    rw [h.frame] at hu
    exact hu
  other n hn := (k.other n hn).trans (h.other n hn)
  hub a ha := (k.hub a ha).trans (h.hub a ha)

theorem axesOnly.mono {l r : List Nat} {d t : Dev} (h : axesOnly l d t) (hsub : ∀ n ∈ l, n ∈ r) : axesOnly r d t :=
  ⟨h.frame, fun n hn => h.other n fun hl => hn (hsub n hl), h.hub⟩

theorem axesOnly_modMva (n : Nat) (d : Dev) (f : MvAxis → MvAxis) : axesOnly [n] d (d.modMva n f) :=
  ⟨rfl, fun _ hk => mva_modMva_other d f (List.ne_of_not_mem_cons hk), fun _ _ => rfl⟩

theorem axesOnly_setHw (l : List Nat) (d : Dev) (f : Fld) (i v : Nat) (h : ownPage (f.reg.offset i)) : axesOnly l d (d.setHw f i v) :=
  ⟨rfl, fun _ _ => rfl, fun _ ha => SMap.find_set_other _ _ fun he => ha (he ▸ h)⟩

/-- The register of an axis page lies there for every axis, by its place within the page. -/
theorem ownPage_of {a n : Nat} (c : Nat) (h : a = 0x10000 + 0x400 * n + c) (hc : c < 0x400) (hs : c ≠ 0x240) : ownPage a := by
  subst h
  constructor <;> omega

theorem ownPage_axisStatus (n : Nat) : ownPage (Reg.offset .axisStatus n) :=
  ownPage_of 0x60 (n := n) (by simp only [Reg.offset, Reg.place]; omega) (by decide) (by decide)
theorem ownPage_offtStatus (n : Nat) : ownPage (Reg.offset .offtStatus n) :=
  ownPage_of 0x148 (n := n) (by simp only [Reg.offset, Reg.place]; omega) (by decide) (by decide)

theorem setFlag_mva (d : Dev) (f : Fld) (i : Nat) (b : Bool) (n : Nat) : (d.setFlag f i b).mva n = d.mva n := rfl

theorem seqDrop_axesOnly (n : Nat) (d : Dev) : axesOnly [n] d (seqDrop n d) := by
  unfold seqDrop loseAngle unverified modSl
  dsimp only
  split
  · exact ((axesOnly_modMva n d _).trans (axesOnly_modMva n _ _)).trans (axesOnly_modMva n _ _)
  · exact axesOnly_modMva n d _

theorem setDrive_axesOnly (n : Nat) (k : Drive) (d : Dev) : axesOnly [n] d (setDrive n k d) := by
  unfold setDrive
  split
  · exact axesOnly_refl [n] d
  · exact (axesOnly_modMva n d _).trans (axesOnly_setHw [n] _ _ _ _ (ownPage_axisStatus n))

/-- The drive that an axis is given is its drive. -/
@[simp] theorem drive_setDrive (n : Nat) (k : Drive) (d : Dev) : ((setDrive n k d).mva n).drive = k := by
  unfold setDrive
  split
  · assumption
  · dsimp only
    rw [setFlag_mva, mva_modMva]

theorem offtDrop_axesOnly (n : Nat) (d : Dev) : axesOnly [n] d (offtDrop n d) := by
  unfold offtDrop
  exact (((axesOnly_modMva n d _).trans (axesOnly_setHw _ _ _ _ _ (ownPage_offtStatus n))).trans
    (axesOnly_setHw _ _ _ _ _ (ownPage_offtStatus n))).trans (axesOnly_setHw _ _ _ _ _ (ownPage_offtStatus n))

theorem offtAbandon_axesOnly (n : Nat) (d : Dev) : axesOnly [n] d (offtAbandon n d) := by
  unfold offtAbandon
  split
  · exact axesOnly_refl [n] d
  · exact offtDrop_axesOnly n d

@[simp] theorem drive_offtAbandon (n : Nat) (d : Dev) : ((offtAbandon n d).mva n).drive = (d.mva n).drive := by
  unfold offtAbandon offtDrop
  split
  · rfl
  · dsimp only
    rw [setHw_mva, setHw_mva, setHw_mva, mva_modMva]

theorem modLegs_axesOnly (n : Nat) (d : Dev) (f : Legs → Legs) : axesOnly [n] d (d.modLegs n f) := axesOnly_modMva n d _
@[simp] theorem drive_modLegs (n : Nat) (d : Dev) (f : Legs → Legs) : ((d.modLegs n f).mva n).drive = (d.mva n).drive := by
  unfold modLegs
  rw [mva_modMva]

theorem modesAt_axesOnly (t n : Nat) (d : Dev) : axesOnly [n] d (modesAt t n d) := by
  unfold modesAt
  dsimp only
  split
  · exact axesOnly_refl [n] d
  · exact modLegs_axesOnly n d _

@[simp] theorem drive_modesAt (t n : Nat) (d : Dev) : ((modesAt t n d).mva n).drive = (d.mva n).drive := by
  unfold modesAt
  dsimp only
  split
  · rfl
  · exact drive_modLegs n d _

theorem xModesFrom_axesOnly (t n : Nat) (d : Dev) : axesOnly [n] d (xModesFrom t n d) := by
  unfold xModesFrom
  exact modLegs_axesOnly n d _
@[simp] theorem drive_xModesFrom (t n : Nat) (d : Dev) : ((xModesFrom t n d).mva n).drive = (d.mva n).drive := by
  unfold xModesFrom
  exact drive_modLegs n d _

theorem toOrphan_axesOnly (n : Nat) (k : Drive) (d : Dev) : axesOnly [n] d (toOrphan n k d) := by
  have hdrop := ((seqDrop_axesOnly n d).trans (setDrive_axesOnly n k _)).trans (offtAbandon_axesOnly n _)
  unfold toOrphan
  dsimp only
  generalize offtAbandon n (setDrive n k (seqDrop n d)) = t at hdrop ⊢
  split
  · exact hdrop.trans (modLegs_axesOnly n _ _)
  · split
    · exact hdrop.trans (xModesFrom_axesOnly _ n _)
    · exact hdrop.trans (modesAt_axesOnly _ n _)

theorem drive_toOrphan (n : Nat) (k : Drive) (d : Dev) : ((toOrphan n k d).mva n).drive = k := by
  have hdrive : ((offtAbandon n (setDrive n k (seqDrop n d))).mva n).drive = k := by rw [drive_offtAbandon, drive_setDrive]
  unfold toOrphan
  dsimp only
  generalize offtAbandon n (setDrive n k (seqDrop n d)) = t at hdrive ⊢
  split
  · rw [drive_modLegs, hdrive]
  · split
    · rw [drive_xModesFrom, hdrive]
    · rw [drive_modesAt, hdrive]

/-! ## Orphan entry (R200, R446) -/

/-- The axes of l take their orphan drives. -/
def toOrphans (l : List (Nat × Drive)) (d : Dev) : Dev := l.foldl (fun d e => toOrphan e.1 e.2 d) d

theorem toOrphans_axesOnly (l : List (Nat × Drive)) (d : Dev) : axesOnly (l.map (·.1)) d (toOrphans l d) := by
  induction l generalizing d with
  | nil => exact axesOnly_refl _ d
  | cons e l ih =>
    exact ((toOrphan_axesOnly e.1 e.2 d).mono (by simp)).trans ((ih (toOrphan e.1 e.2 d)).mono fun n hn => List.mem_cons_of_mem _ hn)

theorem drive_toOrphans (l : List (Nat × Drive)) (d : Dev) (e : Nat × Drive) (he : e ∈ l) (hnd : (l.map (·.1)).Nodup) :
    ((toOrphans l d).mva e.1).drive = e.2 := by
  induction l generalizing d with
  | nil => cases he
  | cons x l ih =>
    rw [List.map_cons, List.nodup_cons] at hnd
    rcases List.mem_cons.mp he with rfl | he
    · exact (congrArg MvAxis.drive ((toOrphans_axesOnly l (toOrphan e.1 e.2 d)).other e.1 hnd.1)).trans (drive_toOrphan e.1 e.2 d)
    · exact ih (toOrphan x.1 x.2 d) he hnd.2

/-- The bits of the entry are set and its source is raised. -/
def orphanRaised (m : Nat) (byMonitor : Bool) (d : Dev) : Dev :=
  ((d.setHw Fl.escMvstatusOrphan m 1).setFlag Fl.escMvstatusByMonitor m byMonitor).raise1 .orphan m m m

/-- The calibration that an entry ends, and the frame that it drops. -/
def orphanFrame (m : Nat) (d : Dev) : Dev :=
  (if (d.mv m).cal.isSome then calAbandon m d else d).modMv m fun x => { x with spTaken := none }

theorem orphanEnter_eq (m : Nat) (byMonitor : Bool) (d : Dev) :
    orphanEnter m byMonitor d =
      orphanFrame m (toOrphans ((localAxes m).map fun n => (n, d.orphanDrive n)) (orphanRaised m byMonitor d)) := by
  unfold orphanEnter orphanFrame toOrphans orphanRaised
  generalize (localAxes m).map _ = l
  rfl

theorem escMvstatus_range (m : Fin 8) : Reg.offset .escMvstatus m < 0x10000 ∧ Reg.offset .escMvstatus m ≠ 0x524 ∧
    Reg.offset .escMvstatus m ≠ Reg.offset .isenseCalStatus m := by
  have hall : ∀ k : Fin 8, Reg.offset .escMvstatus k < 0x10000 ∧ Reg.offset .escMvstatus k ≠ 0x524 ∧
    Reg.offset .escMvstatus k ≠ Reg.offset .isenseCalStatus k := by decide
  exact hall m

/-- The bits of an entry by the monitor. -/
theorem orphanRaised_shown (m : Fin 8) (d : Dev) :
    (orphanRaised m true d).hw Fl.escMvstatusOrphan m = 1 ∧ (orphanRaised m true d).hw Fl.escMvstatusByMonitor m = 1 := by
  obtain ⟨hlt, hlatch, -⟩ := escMvstatus_range m
  have hbeside : fieldApart Fl.escMvstatusByMonitor m Fl.escMvstatusOrphan m := Or.inr ⟨rfl, rfl, by decide, by decide⟩
  have hoff : offRaise (Reg.offset .escMvstatus m) := offRaise_of_lt _ hlt hlatch
  unfold orphanRaised setFlag
  rw [hw_raise1 _ .orphan m m m Fl.escMvstatusOrphan m hoff, hw_raise1 _ .orphan m m m Fl.escMvstatusByMonitor m hoff,
    hw_setHw_of_apart _ _ _ _ _ _ hbeside, hw_setHw_same _ _ _ _ (by decide), hw_setHw_same _ _ _ _ (by decide)]
  exact ⟨rfl, rfl⟩

theorem orphanFrame_hw (m : Fin 8) (d : Dev) (f : Fld) (hf : f.reg = .escMvstatus) : (orphanFrame m d).hw f m = d.hw f m := by
  unfold orphanFrame
  rw [modMv_hw]
  split
  · refine hw_setHw_reg d _ f _ _ _ ?_
    rw [hf]
    exact (escMvstatus_range m).2.2
  · rfl

theorem orphanFrame_mva (m n : Nat) (d : Dev) : (orphanFrame m d).mva n = d.mva n := by
  unfold orphanFrame
  rw [modMv_mva]
  split <;> rfl

theorem orphanFrame_hax (m : Nat) (d : Dev) : (orphanFrame m d).hax = d.hax := by
  unfold orphanFrame
  split <;> rfl

theorem orphanFrame_flt (m : Nat) (d : Dev) : (orphanFrame m d).flt = d.flt := by
  unfold orphanFrame
  split <;> rfl

/-- The flags of the axes are in no register of a calibration. -/
theorem orphanFrame_find (m : Fin 8) (d : Dev) {a : Nat} (h : a ≠ Reg.offset .isenseCalStatus m) :
    SMap.find (orphanFrame m d).regs.hw a = SMap.find d.regs.hw a := by
  unfold orphanFrame
  split
  · exact SMap.find_set_other _ _ h
  · rfl

theorem orphanFrame_spTaken (m : Nat) (d : Dev) : ((orphanFrame m d).mv m).spTaken = none := by
  unfold orphanFrame
  rw [show ∀ (t : Dev) (g : Mv → Mv), (t.modMv m g).mv m = g (t.mv m) from fun t g => mv_setMv _ _ _]

theorem nodup_span (lo n : Nat) : (span lo n).Nodup := by
  induction n generalizing lo with
  | zero => exact List.nodup_nil
  | succ n ih => exact List.nodup_cons.mpr ⟨by rw [mem_span]; omega, ih (lo + 1)⟩

theorem nodup_localAxes_map (m : Nat) (f : Nat → Drive) : (((localAxes m).map fun n => (n, f n)).map (·.1)).Nodup := by
  rw [List.map_map, show ((fun e : Nat × Drive => e.1) ∘ fun n => (n, f n)) = id from rfl, List.map_id]
  exact nodup_span _ _

theorem fltSticky_place (n : Nat) : Reg.offset .fltSticky n % 0x400 = 0x240 := by
  simp only [Reg.offset, Reg.place]
  omega

/-- Every axis of the movement is in the reaction set of its ORPHAN. -/
theorem mem_reactionSet_orphan (m j : Fin 8) : 8 * m.val + j.val ∈ reactionSet .orphan m := by
  have hset : reactionSet .orphan m = span (8 * m) 8 := by
    unfold reactionSet
    simp [Src.row]
  rw [hset, mem_span]
  omega

/-- FLT_STICKY and PWR_STATUS are not ISENSE_CAL_STATUS. -/
theorem isenseCalStatus_apart (m : Fin 8) :
    Reg.offset .pwrStatus 0 ≠ Reg.offset .isenseCalStatus m ∧ ∀ n, Reg.offset .fltSticky n ≠ Reg.offset .isenseCalStatus m := by
  have hall : ∀ k : Fin 8, Reg.offset .pwrStatus 0 ≠ Reg.offset .isenseCalStatus k ∧ Reg.offset .isenseCalStatus k < 0x10000 := by decide
  refine ⟨(hall m).1, fun n => ?_⟩
  have hlt := (hall m).2
  have hge : 0x10000 ≤ Reg.offset .fltSticky n := by
    simp only [Reg.offset, Reg.place]
    omega
  omega

end Dev

/-- Orphan entry by the monitor. -/
theorem orphanEntry_byMonitor (s : State) (m : Fin 8) (hon : s.dev.mvOn m = true) (horphan : s.dev.orphan m = false) :
    ∃ d, exec (.orphanEntry m true) s = .next { s with dev := d } ∧ d.hw Fl.escMvstatusOrphan m = 1 ∧
      d.hw Fl.escMvstatusByMonitor m = 1 ∧ (d.mv m).spTaken = none ∧
      (∀ j : Fin 8, (d.mva (8 * m.val + j.val)).drive = s.dev.orphanDrive (8 * m.val + j.val) ∧
        (d.flagsAt m (8 * m.val + j.val)).getLsbD 18 = true) ∧
      d.hax = s.dev.hax := by
  have heq : Dev.orphanRule m true s.dev = Dev.orphanEnter m true s.dev := by
    unfold Dev.orphanRule
    rw [hon, horphan]
    rfl
  obtain ⟨hbit, hmonitor⟩ := Dev.orphanRaised_shown m s.dev
  have hflags : s.dev.reacted (Dev.orphanRaised m true s.dev) .orphan m m := (Dev.raise1_reacted _ .orphan m m m).from rfl
  have hhax : (Dev.orphanRaised m true s.dev).hax = s.dev.hax := Dev.raise1_hax _ _ _ _ _
  rw [Dev.orphanEnter_eq] at heq
  generalize Dev.orphanRaised m true s.dev = r at hbit hmonitor hflags hhax heq
  have honly := Dev.toOrphans_axesOnly ((Dev.localAxes m).map fun n => (n, s.dev.orphanDrive n)) r
  have hdrives := Dev.drive_toOrphans ((Dev.localAxes m).map fun n => (n, s.dev.orphanDrive n)) r
  generalize Dev.toOrphans ((Dev.localAxes m).map fun n => (n, s.dev.orphanDrive n)) r = t at honly hdrives heq
  obtain ⟨hlt, -, hcal⟩ := Dev.escMvstatus_range m
  have hhub : ∀ f : Fld, f.reg = .escMvstatus → t.hw f m = r.hw f m := fun f hf =>
    Dev.hw_congr _ _ f m (honly.hub _ (by rw [hf]; exact fun h => absurd h.1 (by omega)))
  refine ⟨Dev.orphanRule m true s.dev, rfl, ?_, ?_, ?_, fun j => ⟨?_, ?_⟩, ?_⟩
  · rw [heq, Dev.orphanFrame_hw m t _ rfl, hhub _ rfl, hbit]
  · rw [heq, Dev.orphanFrame_hw m t _ rfl, hhub _ rfl, hmonitor]
  · rw [heq, Dev.orphanFrame_spTaken]
  · rw [heq, Dev.orphanFrame_mva]
    refine hdrives (8 * m.val + j.val, s.dev.orphanDrive (8 * m.val + j.val)) (List.mem_map.mpr ⟨_, ?_, rfl⟩) ?_
    · exact (Dev.mem_localAxes m _).mpr (by omega)
    · exact Dev.nodup_localAxes_map m _
  · have hkept : (Dev.orphanRule m true s.dev).flagsAt m (8 * m.val + j.val) = r.flagsAt m (8 * m.val + j.val) := by
      rw [heq]
      refine Dev.flagsAt_congr r _ m _ ?_ ?_ ?_
      · rw [Dev.orphanFrame_flt, congrArg Dev.flt honly.frame]
      · exact (Dev.orphanFrame_find m t (Dev.isenseCalStatus_apart m).1).trans (honly.hub _ fun h => absurd h.1 (by decide))
      · exact (Dev.orphanFrame_find m t ((Dev.isenseCalStatus_apart m).2 _)).trans (honly.hub _ fun h => absurd (Dev.fltSticky_place _) h.2)
    rw [hkept]
    exact hflags.1 (8 * m.val + j.val) (Dev.mem_reactionSet_orphan m j)
  · rw [heq, Dev.orphanFrame_hax, congrArg Dev.hax honly.frame, hhax]

/-! ## Training of a link (R37, R519) -/

namespace Dev

/-- A presenter of the hub leaves every movement as it was. -/
theorem mv_raise1_hub (d : Dev) (s : Src) (place sub pres k : Nat) (h : 8 ≤ pres) : (d.raise1 s place sub pres).mv k = d.mv k := by
  obtain ⟨f, hf, -, -⟩ := raiseAs_stages d s place sub pres (d.classOf s) .stoppedFault
  have hstages : (reactNow (d.classOf s) (reactionSet s place) (d.raiseFlags s place pres (d.classOf s))).mvs = d.mvs := by
    rw [reactNow_frame]
    exact mvs_raiseFlags d s place pres _
  unfold raise1 raise mv
  rw [settle_frame, hf]
  show SMap.get (sendReact _ _ _).mvs k {} = _
  unfold sendReact
  rw [decide_eq_false (show ¬ pres < 8 by omega)]
  split
  · rw [hstages]
  · exact congrArg (SMap.get · k {}) hstages

theorem linkStatus_range (m : Fin 8) : Reg.offset .linkStatus m < 0x10000 ∧ Reg.offset .linkStatus m ≠ 0x524 ∧
    Reg.offset .linkStatus m ≠ Reg.offset .pwrStatus 0 := by
  have hall : ∀ k : Fin 8, Reg.offset .linkStatus k < 0x10000 ∧ Reg.offset .linkStatus k ≠ 0x524 ∧
    Reg.offset .linkStatus k ≠ Reg.offset .pwrStatus 0 := by decide
  exact hall m

theorem offRaise_linkStatus (m : Fin 8) : offRaise (Reg.offset .linkStatus m) :=
  offRaise_of_lt _ (linkStatus_range m).1 (linkStatus_range m).2.1

theorem offFlags_linkStatus (m : Fin 8) : offFlags (Reg.offset .linkStatus m) := by
  have hlt := (linkStatus_range m).1
  refine ⟨(linkStatus_range m).2.2, fun n => ?_⟩
  have hge : 0x10000 ≤ Reg.offset .fltSticky n := by
    simp only [Reg.offset, Reg.place]
    omega
  omega

/-- A skew that is shown, with its source where it is too large. -/
theorem settle_setSkew (m : Nat) (skew : BitVec 8) (d : Dev) :
    (setSkew m skew d).settle =
      if 16 < skew.toInt.natAbs then (d.setHw Fl.linkStatusSkew m skew.toNat).raise1 .linkSkew m m presLink
      else (d.setHw Fl.linkStatusSkew m skew.toNat).settle := by
  unfold setSkew
  split <;> rfl

theorem settle_hw (d : Dev) (f : Fld) (i : Nat) : d.settle.hw f i = d.hw f i := by rw [settle_frame]; rfl
theorem settle_mv (d : Dev) (k : Nat) : d.settle.mv k = d.mv k := by rw [settle_frame]; rfl

/-- SKEW is shown, and a field of another register, or beside it, stays. -/
theorem skewShown (m : Fin 8) (skew : BitVec 8) (d : Dev) :
    (setSkew m skew d).settle.hw Fl.linkStatusSkew m = skew.toNat ∧
    (setSkew m skew d).settle.hw Fl.linkStatusTrained m = d.hw Fl.linkStatusTrained m ∧
    (∀ k, (setSkew m skew d).settle.mv k = d.mv k) ∧
    (16 < skew.toInt.natAbs → d.reacted (setSkew m skew d).settle .linkSkew m 8) ∧
    (skew.toInt.natAbs ≤ 16 → ∃ f : Flt, (setSkew m skew d).settle = { d.setHw Fl.linkStatusSkew m skew.toNat with flt := f }) := by
  have hbeside : fieldApart Fl.linkStatusSkew m Fl.linkStatusTrained m := Or.inr ⟨rfl, rfl, by decide, by decide⟩
  have hown : (d.setHw Fl.linkStatusSkew m skew.toNat).hw Fl.linkStatusSkew m = skew.toNat :=
    (hw_setHw_same _ _ _ _ (by decide)).trans (Nat.mod_eq_of_lt skew.isLt)
  have htrained : (d.setHw Fl.linkStatusSkew m skew.toNat).hw Fl.linkStatusTrained m = d.hw Fl.linkStatusTrained m :=
    hw_setHw_of_apart _ _ _ _ _ _ hbeside
  rw [settle_setSkew]
  split
  case isTrue h =>
    refine ⟨?_, ?_, fun k => mv_raise1_hub _ _ _ _ _ _ (by decide), fun _ => (raise1_reacted _ .linkSkew m m presLink).from rfl,
      fun hle => absurd h (by omega)⟩
    · rw [hw_raise1 _ .linkSkew m m presLink Fl.linkStatusSkew m (offRaise_linkStatus m), hown]
    · rw [hw_raise1 _ .linkSkew m m presLink Fl.linkStatusTrained m (offRaise_linkStatus m), htrained]
  case isFalse h =>
    exact ⟨(settle_hw _ _ _).trans hown, (settle_hw _ _ _).trans htrained, fun k => settle_mv _ k, fun hgt => absurd hgt h,
      fun _ => ⟨_, settle_frame _⟩⟩

/-- What a movement's record takes as its link has trained. -/
def linkUp (d : Dev) (x : Mv) : Mv := { x with
  rate := d.time.rate, period := 10, start := d.time.start, beatGap := 0, latMiss := 0, lost := false }

theorem mv_modMv_same (d : Dev) (m : Nat) (f : Mv → Mv) : (d.modMv m f).mv m = f (d.mv m) := mv_setMv d m _

theorem trainDone_eq (m : Nat) (skew : BitVec 8) (d : Dev) (hon : d.mvOn m = true) (htr : d.trained m = false) :
    trainDone m skew d = (setSkew m skew ((d.modMv m d.linkUp).setHw Fl.linkStatusTrained m 1)).settle := by
  unfold trainDone linkUp
  rw [hon, htr]
  exact if_neg (by decide)

end Dev

/-- A link that has trained. -/
theorem linkTrainingDone_trains (s : State) (m : Fin 8) (skew : BitVec 8) (hon : s.dev.mvOn m = true) (htr : s.dev.trained m = false) :
    ∃ d, exec (.linkTrainingDone m skew) s = .next { s with dev := d } ∧ d.hw Fl.linkStatusTrained m = 1 ∧
      d.hw Fl.linkStatusSkew m = skew.toNat ∧
      d.mv m = { s.dev.mv m with
        rate := s.dev.time.rate, period := 10, start := s.dev.time.start, beatGap := 0, latMiss := 0, lost := false } ∧
      (∀ k, k ≠ m.val → d.mv k = s.dev.mv k) ∧
      (skew.toInt.natAbs ≤ 16 → d = { s.dev with mvs := d.mvs, regs := d.regs, flt := d.flt }) ∧
      (16 < skew.toInt.natAbs → s.dev.reacted d .linkSkew m 8) := by
  have heq := Dev.trainDone_eq m skew s.dev hon htr
  have hshown := Dev.skewShown m skew ((s.dev.modMv m s.dev.linkUp).setHw Fl.linkStatusTrained m 1)
  obtain ⟨hskew, htrained, hmv, hraised, hquiet⟩ := hshown
  refine ⟨Dev.trainDone m skew s.dev, rfl, ?_, ?_, ?_, fun k hk => ?_, fun hle => ?_, fun hgt => ?_⟩
  · rw [heq, htrained, Dev.hw_setHw_same _ _ _ _ (by decide)]
    rfl
  · rw [heq, hskew]
  · rw [heq, hmv, Dev.setHw_mv, Dev.mv_modMv_same]
    rfl
  · rw [heq, hmv, Dev.setHw_mv, Dev.mv_modMv_other _ _ hk]
  · obtain ⟨f, hf⟩ := hquiet hle
    rw [heq, hf]
    rfl
  · rw [heq]
    exact (hraised hgt).from rfl

/-- Settles O42. -/
theorem linksAndOrphans : Obligations.LinksAndOrphans := by
  unfold Obligations.LinksAndOrphans
  refine ⟨orphanEntry_byMonitor, linkTrainingDone_trains, fun s m hon htr => ?_⟩
  have heq : Dev.trainFailed m s.dev = s.dev.setBit Fl.pwrEvtTrainFail m true := by
    unfold Dev.trainFailed
    rw [hon, htr]
    rfl
  refine ⟨Dev.trainFailed m s.dev, rfl, ?_, fun k hk => ?_, ?_, ?_⟩
  · rw [heq, Dev.testBit_hw_setBit _ _ _ _ _ (by decide) m.isLt, if_pos rfl]
  · rw [heq, Dev.testBit_hw_setBit _ _ _ _ _ (by decide) m.isLt, if_neg fun h => hk (Fin.ext h)]
  · rw [heq]
    rfl
  · rw [heq]
    exact (Dev.regsBut_refl _ _).setBit _ _ _ (List.mem_singleton_self _)

end Sys2Proof.Machine
end

section
/-! Proofs for the fault collector: arrivals, captures and pulses (chapter 14). -/

namespace Sys2Proof.Machine

namespace Dev

/-! ## Arrivals that the collector has looked at (R415, R416) -/

/-- Arrivals depend on the presenters and the collector's own finds alone. -/
theorem arrivals_congr {d t : Dev} (ho : t.flt.own = d.flt.own) (hp : t.flt.pres = d.flt.pres) (l : List (Fin 18)) :
    t.arrivals l = d.arrivals l := by
  unfold arrivals
  rw [ho, hp]

theorem arrived_own (d : Dev) (e : Nat × Present) (h : e.1 = presOwn) : (arrived d e).flt.own = [] := by
  unfold arrived
  rw [if_pos h]

theorem arrived_own_other (d : Dev) (e : Nat × Present) (h : e.1 ≠ presOwn) : (arrived d e).flt.own = d.flt.own := by
  unfold arrived
  rw [if_neg h]

theorem arrived_pres (d : Dev) (e : Nat × Present) (h : e.1 ≠ presOwn) :
    SMap.find (arrived d e).flt.pres e.1 = some { e.2 with seen := true } := by
  unfold arrived
  rw [if_neg h]
  exact SMap.find_set_same _ _ _

theorem arrived_pres_other (d : Dev) (e : Nat × Present) {p : Nat} (h : p ≠ e.1) :
    SMap.find (arrived d e).flt.pres p = SMap.find d.flt.pres p := by
  unfold arrived
  split
  · rfl
  · exact SMap.find_set_other _ _ h

/-- Once looked at, the collector's own finds are gone, unless none of them was among the arrivals. -/
theorem arrived_all_own (l : List (Nat × Present)) (d : Dev) :
    (l.foldl arrived d).flt.own = [] ∨ ((l.foldl arrived d).flt.own = d.flt.own ∧ ∀ e ∈ l, e.1 ≠ presOwn) := by
  induction l generalizing d with
  | nil => exact .inr ⟨rfl, fun _ h => nomatch h⟩
  | cons e l ih =>
    rcases ih (arrived d e) with h | ⟨h, hl⟩
    · exact .inl h
    · by_cases he : e.1 = presOwn
      · exact .inl (h.trans (arrived_own d e he))
      · exact .inr ⟨h.trans (arrived_own_other d e he), List.forall_mem_cons.mpr ⟨he, hl⟩⟩

/-- Once looked at, a presentation is seen, unless it was not among the arrivals. -/
theorem arrived_all_pres (l : List (Nat × Present)) (d : Dev) {p : Nat} (hp : p ≠ presOwn) :
    (∃ a, SMap.find (l.foldl arrived d).flt.pres p = some a ∧ a.seen = true) ∨
      (SMap.find (l.foldl arrived d).flt.pres p = SMap.find d.flt.pres p ∧ ∀ e ∈ l, e.1 ≠ p) := by
  induction l generalizing d with
  | nil => exact .inr ⟨rfl, fun _ h => nomatch h⟩
  | cons e l ih =>
    rcases ih (arrived d e) with h | ⟨h, hl⟩
    · exact .inl h
    · by_cases he : e.1 = p
      · subst he
        exact .inl ⟨_, h.trans (arrived_pres d e hp), rfl⟩
      · exact .inr ⟨h.trans (arrived_pres_other d e (Ne.symm he)), List.forall_mem_cons.mpr ⟨he, hl⟩⟩

/-- What a presenter has to show. -/
def newFrom (d : Dev) (p : Nat) : List (Nat × Present) :=
  if p = presOwn then d.flt.own.map fun a => (p, a)
  else match SMap.find d.flt.pres p with
    | some a => if a.seen then [] else [(p, a)]
    | none => []

theorem arrivals_eq (d : Dev) (l : List (Fin 18)) :
    d.arrivals l = ((sortNat (l.map (·.val))).eraseDups).flatMap d.newFrom := rfl

theorem newFrom_presenter (d : Dev) (p : Nat) : ∀ e ∈ d.newFrom p, e.1 = p := by
  intro e he
  unfold newFrom at he
  split at he
  · obtain ⟨a, -, rfl⟩ := List.mem_map.mp he
    rfl
  · split at he
    · split at he
      · cases he
      · rw [List.mem_singleton.mp he]
    · cases he

/-- A presenter that shows something has shown it when all of a list with its arrivals is looked at. -/
theorem newFrom_arrived (d : Dev) (l : List (Nat × Present)) (p : Nat) (hl : ∀ e ∈ d.newFrom p, e ∈ l) :
    (l.foldl arrived d).newFrom p = [] := by
  by_cases hp : p = presOwn
  · have hown : d.newFrom p = d.flt.own.map fun a => (p, a) := if_pos hp
    unfold newFrom
    rw [if_pos hp]
    rcases arrived_all_own l d with h | ⟨h, hnone⟩
    · rw [h]
      rfl
    · rw [h, ← hown]
      refine List.eq_nil_iff_forall_not_mem.mpr fun e he => hnone e (hl e he) ?_
      rw [newFrom_presenter d p e he, hp]
  · rcases arrived_all_pres l d hp with ⟨a, h, hseen⟩ | ⟨h, hnone⟩
    · unfold newFrom
      rw [if_neg hp, h]
      simp [hseen]
    · have hsame : (l.foldl arrived d).newFrom p = d.newFrom p := by
        unfold newFrom
        rw [if_neg hp, if_neg hp, h]
      rw [hsame]
      exact List.eq_nil_iff_forall_not_mem.mpr fun e he => hnone e (hl e he) (newFrom_presenter d p e he)

/-- Nothing of what has been looked at arrives again. -/
theorem arrivals_arrived (d : Dev) (l : List (Fin 18)) : ((d.arrivals l).foldl arrived d).arrivals l = [] := by
  rw [arrivals_eq _ l, List.flatMap_eq_nil_iff]
  refine fun p hp => newFrom_arrived d _ p fun e he => ?_
  rw [arrivals_eq]
  exact List.mem_flatMap.mpr ⟨p, hp, he⟩

/-- To look at arrivals changes the collector alone, and no sequence. -/
theorem arrived_all_frame (l : List (Nat × Present)) (d : Dev) :
    l.foldl arrived d = { d with flt := (l.foldl arrived d).flt } ∧ (l.foldl arrived d).flt.seq = d.flt.seq := by
  induction l generalizing d with
  | nil => exact ⟨rfl, rfl⟩
  | cons e l ih =>
    obtain ⟨hframe, hseq⟩ := ih (arrived d e)
    refine ⟨hframe, hseq.trans ?_⟩
    unfold arrived
    split <;> rfl

/-! ## A capture (R417, R418, R420) -/

/-- A field of another register, or beside the one that is set. -/
theorem hw_setHw_else (d : Dev) (f g : Fld) (v : Nat) (h : g.reg.offset 0 ≠ f.reg.offset 0 ∨
    (g.reg = f.reg ∧ f.lo + f.width ≤ 32 ∧ (g.lo + g.width ≤ f.lo ∨ f.lo + f.width ≤ g.lo))) : (d.setHw f 0 v).hw g 0 = d.hw g 0 := by
  rcases h with h | ⟨hr, hf, hd⟩
  · exact hw_setHw_reg d f g 0 0 v h
  · exact hw_setHw_beside d f g 0 v hr hf hd

/-- The registers of a capture. -/
def captured (second : Bool) (w : Present) (tick extra : Nat) (d : Dev) : Dev :=
  ((((((((((d.setHw Fl.fltCapId 0 w.id.toNat).setHw Fl.fltCapLevel 0 w.level.toNat).setHw Fl.fltCapReread 0
    (if second then 1 else 0)).setHw Fl.fltCapValid 0 1).setHw Fl.fltCapUnit 0 w.unit.toNat).setHw Fl.fltCapClass 0
    w.cls.toNat).setHw Fl.fltCapTickLoTickLo 0 (tick % 2 ^ 32)).setHw Fl.fltCapTickHiTickHi 0 (tick / 2 ^ 32)).setHw
    Fl.fltCapOvfCount 0 extra).setHw Fl.fltCapOvfOvf 0 (if extra = 0 then 0 else 1))

theorem captured_fields (second : Bool) (w : Present) (tick extra : Nat) (d : Dev) :
    (captured second w tick extra d).hw Fl.fltCapValid 0 = 1 ∧ (captured second w tick extra d).hw Fl.fltCapId 0 = w.id.toNat ∧
    (captured second w tick extra d).hw Fl.fltCapLevel 0 = w.level.toNat ∧
    (captured second w tick extra d).hw Fl.fltCapUnit 0 = w.unit.toNat ∧
    (captured second w tick extra d).hw Fl.fltCapClass 0 = w.cls.toNat := by
  unfold captured
  simp (disch := decide) only [hw_setHw_else, hw_setHw_same]
  exact ⟨rfl, Nat.mod_eq_of_lt w.id.isLt, Nat.mod_eq_of_lt w.level.isLt, Nat.mod_eq_of_lt w.unit.isLt, Nat.mod_eq_of_lt w.cls.isLt⟩

theorem captured_reread (second : Bool) (w : Present) (tick extra : Nat) (d : Dev) :
    (captured second w tick extra d).hw Fl.fltCapReread 0 = if second then 1 else 0 := by
  unfold captured
  simp (disch := decide) only [hw_setHw_else, hw_setHw_same]
  cases second <;> rfl

theorem captured_tick (second : Bool) (w : Present) (tick extra : Nat) (d : Dev) (h : tick < 2 ^ 48) :
    (captured second w tick extra d).hw Fl.fltCapTickLoTickLo 0 + 2 ^ 32 * (captured second w tick extra d).hw Fl.fltCapTickHiTickHi 0 =
      tick := by
  unfold captured
  simp (disch := decide) only [hw_setHw_else, hw_setHw_same]
  omega

/-- What changes registers alone goes on to do so when a field is set. -/
theorem regsOnly_setHw {d t : Dev} (h : t = { d with regs := t.regs }) (f : Fld) (i v : Nat) :
    t.setHw f i v = { d with regs := (t.setHw f i v).regs } := by
  generalize t.regs = r at h
  subst h
  rfl

theorem captured_frame (second : Bool) (w : Present) (tick extra : Nat) (d : Dev) :
    captured second w tick extra d = { d with regs := (captured second w tick extra d).regs } := by
  unfold captured
  repeat apply regsOnly_setHw
  rfl

/-- No acknowledge waits. -/
theorem judged_none (d : Dev) (h : d.flt.acks = []) :
    d.flt.acks.foldl (fun d c => judgeAck c d) { d with flt := { d.flt with acks := [] } } = d := by
  have hflt : { d.flt with acks := [] } = d.flt := by rw [← h]
  rw [hflt, h]
  rfl

/-- A sequence that ends without a second read, and with no acknowledge that waits. -/
theorem seqEnd_eq (d : Dev) (q : FltSeq) (hseq : d.flt.seq = some q) (hacks : d.flt.acks = []) :
    seqEnd none d = captured false q.what q.tick.toNat (min 255 (q.extra - multiOf q.what + multiOf q.what))
      (alertBegin (d.alertPins q.what) { d with flt := { d.flt with seq := none, irqDue := d.flt.irqDue + 1 } }) := by
  unfold seqEnd
  rw [hseq]
  refine judged_none (captured false q.what q.tick.toNat (min 255 (q.extra - multiOf q.what + multiOf q.what))
      (alertBegin (d.alertPins q.what) { d with flt := { d.flt with seq := none, irqDue := d.flt.irqDue + 1 } })) ?_
  rw [captured_frame]
  exact hacks

end Dev

/-- The end of a reaction sequence. -/
theorem reactionSequenceEnd_captures (s : State) (q : FltSeq) (hseq : s.dev.flt.seq = some q) (hacks : s.dev.flt.acks = []) :
    ∃ d, exec (.reactionSequenceEnd none) s = .next { s with dev := d } ∧ d.flt.seq = none ∧ d.flt.irqDue = s.dev.flt.irqDue + 1 ∧
      d.flt.alert = s.dev.flt.alert ||| s.dev.alertPins q.what ∧
      (∀ k : Fin 8, (s.dev.alertPins q.what).getLsbD k = true → (d.flt.alertHi.getLsbD k = true ↔
        s.dev.flt.alert.getLsbD k = true ∨ (s.dev.cfg Fl.fltAlertLevel 0).testBit k = true)) ∧ d.hw Fl.fltCapValid 0 = 1 ∧
      d.hw Fl.fltCapId 0 = q.what.id.toNat ∧ d.hw Fl.fltCapLevel 0 = q.what.level.toNat ∧
      d.hw Fl.fltCapUnit 0 = q.what.unit.toNat ∧ d.hw Fl.fltCapClass 0 = q.what.cls.toNat ∧ d.hw Fl.fltCapReread 0 = 0 ∧
      d.hw Fl.fltCapTickLoTickLo 0 + 2 ^ 32 * d.hw Fl.fltCapTickHiTickHi 0 = q.tick.toNat ∧
      d = { s.dev with flt := d.flt, regs := d.regs } := by
  have heq := Dev.seqEnd_eq s.dev q hseq hacks
  have hframe := Dev.captured_frame false q.what q.tick.toNat (min 255 (q.extra - Dev.multiOf q.what + Dev.multiOf q.what))
      (Dev.alertBegin (s.dev.alertPins q.what) { s.dev with flt := { s.dev.flt with seq := none, irqDue := s.dev.flt.irqDue + 1 } })
  obtain ⟨hvalid, hid, hlevel, hunit, hcls⟩ := Dev.captured_fields false q.what q.tick.toNat
    (min 255 (q.extra - Dev.multiOf q.what + Dev.multiOf q.what))
    (Dev.alertBegin (s.dev.alertPins q.what) { s.dev with flt := { s.dev.flt with seq := none, irqDue := s.dev.flt.irqDue + 1 } })
  rw [← heq] at hframe hvalid hid hlevel hunit hcls
  refine ⟨Dev.seqEnd none s.dev, rfl, ?_, ?_, ?_, fun k hk => ?_, hvalid, hid, hlevel, hunit, hcls, ?_, ?_, ?_⟩
  · exact congrArg (·.flt.seq) hframe
  · exact congrArg (·.flt.irqDue) hframe
  · exact congrArg (·.flt.alert) hframe
  · rw [show (Dev.seqEnd none s.dev).flt.alertHi = _ from congrArg (·.flt.alertHi) hframe]
    dsimp only [Dev.alertBegin]
    have hlevel8 : (BitVec.ofNat 8 (s.dev.cfg Fl.fltAlertLevel 0)).getLsbD k = (s.dev.cfg Fl.fltAlertLevel 0).testBit k := by
      rw [BitVec.getLsbD_ofNat, decide_eq_true k.isLt, Bool.true_and]
    simp only [BitVec.getLsbD_or, BitVec.getLsbD_and, BitVec.getLsbD_not, hk]
    rw [show (s.dev.cfg Fl.fltAlertLevel 0).testBit k = _ from hlevel8.symm]
    simp
    rfl
  · rw [heq, Dev.captured_reread]
    rfl
  · rw [heq]
    exact Dev.captured_tick _ _ _ _ _ q.tick.isLt
  · rw [hframe]
    rfl

namespace Dev

/-- Arrivals that some presenter has, looked at. -/
def lookedAt (l : List (Fin 18)) (d : Dev) : Dev := (d.arrivals l).foldl arrived d

theorem arrive_eq (d : Dev) (l : List (Fin 18)) (a : Nat × Present) (r : List (Nat × Present)) (h : d.arrivals l = a :: r) :
    arrive l d =
      if (lookedAt l d).flt.seq.isSome then lookedAt l d
      else if (lookedAt l d).flag Fl.fltCapValid 0 then
        ((lookedAt l d).bump Fl.fltCapOvfCount 0 ((a :: r).map fun e => 1 + multiOf e.2).sum).stick Fl.fltCapOvfOvf 0
      else { lookedAt l d with flt := { (lookedAt l d).flt with
        seq := some { from_ := (winnerOf a r).1, what := (winnerOf a r).2
                      extra := ((a :: r).map fun e => 1 + multiOf e.2).sum - 1, tick := (lookedAt l d).time.tick } } } := by
  unfold arrive lookedAt
  rw [h]

/-- What a look at arrivals leaves. -/
theorem lookedAt_facts (l : List (Fin 18)) (d : Dev) : lookedAt l d = { d with flt := (lookedAt l d).flt } ∧
    (lookedAt l d).flt.seq = d.flt.seq ∧ (lookedAt l d).arrivals l = [] :=
  ⟨(arrived_all_frame _ d).1, (arrived_all_frame _ d).2, arrivals_arrived d l⟩

/-- An overflow, with the arrivals' count. -/
theorem overflow_counts (d : Dev) (n : Nat) :
    ((d.bump Fl.fltCapOvfCount 0 n).stick Fl.fltCapOvfOvf 0).hw Fl.fltCapOvfOvf 0 = 1 ∧
    ((d.bump Fl.fltCapOvfCount 0 n).stick Fl.fltCapOvfOvf 0).hw Fl.fltCapOvfCount 0 =
      min (2 ^ Fl.fltCapOvfCount.width - 1) (d.hw Fl.fltCapOvfCount 0 + n) := by
  unfold bump stick
  simp (disch := decide) only [hw_setHw_else, hw_setHw_same]
  refine ⟨rfl, Nat.mod_eq_of_lt ?_⟩
  have hpos : 0 < 2 ^ Fl.fltCapOvfCount.width := by decide
  omega

end Dev

/-- The arrivals of one clock. -/
theorem faultArrival_arrives (s : State) (l : List (Fin 18)) (a : Nat × Present) (r : List (Nat × Present))
    (h : s.dev.arrivals l = a :: r) :
    ∃ d, exec (.faultArrival l) s = .next { s with dev := d } ∧ d.arrivals l = [] ∧
      (s.dev.flt.seq = none → s.dev.flag Fl.fltCapValid 0 = false →
        (∃ q, d.flt.seq = some q ∧ q.from_ = (Dev.winnerOf a r).1 ∧ q.what = (Dev.winnerOf a r).2 ∧ q.tick = s.dev.time.tick) ∧
        d = { s.dev with flt := d.flt }) ∧
      (s.dev.flt.seq = none → s.dev.flag Fl.fltCapValid 0 = true → d.flt.seq = none ∧ d.hw Fl.fltCapOvfOvf 0 = 1 ∧
        d.hw Fl.fltCapOvfCount 0 = min (2 ^ Fl.fltCapOvfCount.width - 1) (s.dev.hw Fl.fltCapOvfCount 0 +
          ((a :: r).map fun e => 1 + Dev.multiOf e.2).sum) ∧
        d = { s.dev with flt := d.flt, regs := d.regs } ∧ s.dev.regsBut d [Reg.offset .fltCapOvf 0]) ∧
      (s.dev.flt.seq.isSome = true → d.flt.seq = s.dev.flt.seq ∧ d = { s.dev with flt := d.flt }) := by
  have heq := Dev.arrive_eq s.dev l a r h
  obtain ⟨hframe, hseq, harr⟩ := Dev.lookedAt_facts l s.dev
  generalize Dev.lookedAt l s.dev = t at heq hframe hseq harr
  have hflag : t.flag Fl.fltCapValid 0 = s.dev.flag Fl.fltCapValid 0 := by rw [hframe]; rfl
  have hcount : t.hw Fl.fltCapOvfCount 0 = s.dev.hw Fl.fltCapOvfCount 0 := by rw [hframe]; rfl
  refine ⟨Dev.arrive l s.dev, rfl, ?_, fun hnone hinvalid => ?_, fun hnone hvalid => ?_, fun hsome => ?_⟩
  · rw [heq]
    split
    · exact harr
    · split <;> exact harr
  · rw [heq, if_neg (by rw [hseq, hnone]; decide), if_neg (by rw [hflag, hinvalid]; decide)]
    refine ⟨⟨_, rfl, rfl, rfl, ?_⟩, ?_⟩
    · rw [hframe]
    · rw [hframe]
  · rw [heq, if_neg (by rw [hseq, hnone]; decide), if_pos (by rw [hflag, hvalid])]
    obtain ⟨hovf, hcounts⟩ := Dev.overflow_counts t ((a :: r).map fun e => 1 + Dev.multiOf e.2).sum
    rw [hcount] at hcounts
    refine ⟨hseq.trans hnone, hovf, hcounts, ?_, ?_⟩
    · rw [hframe]
      rfl
    · have hregs : s.dev.regsBut t [Reg.offset .fltCapOvf 0] := (Dev.regsBut_refl s.dev _).of_regs (by rw [hframe])
      exact (hregs.setHw _ _ _ (List.mem_singleton_self _)).setHw _ _ _ (List.mem_singleton_self _)
  · rw [heq, if_pos (by rw [hseq, hsome])]
    exact ⟨hseq, hframe⟩

/-- Settles O44. -/
theorem collectorCaptures : Obligations.CollectorCaptures := by
  unfold Obligations.CollectorCaptures
  refine ⟨faultArrival_arrives, reactionSequenceEnd_captures, fun s m => ?_, fun s p => ?_⟩
  · refine ⟨Dev.alertEnd m s.dev, rfl, ?_, fun k hk => ?_, rfl⟩
    · show (s.dev.flt.alert &&& ~~~ BitVec.ofNat 8 (2 ^ m.val)).getLsbD m = false
      rw [BitVec.getLsbD_and, BitVec.getLsbD_not, BitVec.getLsbD_ofNat, Nat.testBit_two_pow_self]
      simp
    · show (s.dev.flt.alert &&& ~~~ BitVec.ofNat 8 (2 ^ m.val)).getLsbD k = s.dev.flt.alert.getLsbD k
      rw [BitVec.getLsbD_and, BitVec.getLsbD_not, BitVec.getLsbD_ofNat, Nat.testBit_two_pow_of_ne (Ne.symm hk)]
      by_cases hlt : k < 8
      · simp [hlt]
      · simp [BitVec.getLsbD_of_ge _ _ (Nat.le_of_not_lt hlt)]
  · exact ⟨Dev.presentEnd p s.dev, rfl, SMap.find_drop_same _ _, fun k hk => SMap.find_drop_other _ hk, rfl⟩

end Sys2Proof.Machine
end

section
/-! Proofs for precharge, park and wake (chapters 5 and 18). -/

namespace Sys2Proof.Machine

namespace Dev

/-! ## One operation on each axis of a movement -/

/-- An operation that keeps to its axis, on each of a list of axes, keeps to the list. -/
theorem axesOnly_each {f : Nat → Dev → Dev} (hf : ∀ n t, axesOnly [n] t (f n t)) (l : List Nat) (d : Dev) :
    axesOnly l d (each l f d) := by
  induction l generalizing d with
  | nil => exact axesOnly_refl [] d
  | cons n l ih =>
    exact ((hf n d).mono (by simp)).trans ((ih (f n d)).mono fun k hk => List.mem_cons_of_mem _ hk)

/-- Each axis of the list is what the operation makes of it, on a device that differs in the axes before it alone. -/
theorem mva_each {f : Nat → Dev → Dev} (hf : ∀ n t, axesOnly [n] t (f n t)) {l : List Nat} (hl : l.Nodup) (d : Dev) {n : Nat}
    (hn : n ∈ l) : ∃ t, axesOnly l d t ∧ t.mva n = d.mva n ∧ (each l f d).mva n = (f n t).mva n := by
  induction l generalizing d with
  | nil => cases hn
  | cons k l ih =>
    rw [List.nodup_cons] at hl
    have hfirst : axesOnly (k :: l) d (f k d) := (hf k d).mono (by simp)
    rcases List.mem_cons.mp hn with rfl | hmem
    · exact ⟨d, axesOnly_refl _ d, rfl, (axesOnly_each hf l (f n d)).other n hl.1⟩
    · obtain ⟨t, hrest, hsame, heq⟩ := ih hl.2 (f k d) hmem
      have hne : n ∉ [k] := fun h => hl.1 (List.mem_singleton.mp h ▸ hmem)
      exact ⟨t, hfirst.trans (hrest.mono fun x hx => List.mem_cons_of_mem _ hx), hsame.trans ((hf k d).other n hne), heq⟩

/-! ## The modes that a command brings (R279) -/

/-- Legs that all change to a mode other than switching are in it. -/
theorem modes_turn_allLegs (t : Nat) (k : LegMode) (hk : k ≠ .switch) (l : Legs) : (l.turn t (allLegs k)).modes = allLegs k := by
  simp [Legs.turn, allLegs, hk]

/-- Modes at an instant change the axis's legs alone, and bring its modes where all legs have one beside switching. -/
theorem mva_modesAt_allLegs (t n : Nat) (d : Dev) (k : LegMode) (hk : k ≠ .switch) (hmode : ∀ ph, d.modeOf n ph = k) :
    (modesAt t n d).mva n = { d.mva n with legs := ((modesAt t n d).mva n).legs } ∧ ((modesAt t n d).mva n).legs.modes = allLegs k := by
  have hfour : Four.mk4 (d.modeOf n) = allLegs k := by
    unfold Four.mk4 allLegs
    rw [hmode, hmode, hmode, hmode]
  unfold modesAt
  rw [hfour]
  dsimp only
  split
  case isTrue h => exact ⟨rfl, h.symm⟩
  case isFalse =>
    unfold modLegs
    rw [mva_modMva]
    exact ⟨rfl, modes_turn_allLegs t k hk _⟩

/-- The legs of an axis in PRECHARGE. -/
theorem modeOf_precharge (d : Dev) (n ph : Nat) (h : (d.mva n).drive = .precharge) :
    d.modeOf n ph = if d.kOk (n / 8) = true ∧ d.flag Fl.escStatusSelftestOk 0 = true ∧ (d.mva n).pre = true then .low else .off := by
  unfold modeOf
  dsimp only
  rw [h]
  cases d.kOk (n / 8) <;> cases d.flag Fl.escStatusSelftestOk 0 <;> cases (d.mva n).pre <;> rfl

/-! ## The end of a wake (R514) -/

/-- The precharge of an axis that waits for the wake begins. -/
def wakeAxis (n : Nat) (d : Dev) : Dev :=
  if (d.mva n).drive = .precharge then modesAt (d.turnAt n) n (d.modMva n fun x => { x with pre := true, wakePre := true }) else d

/-- The movement is unparked. -/
def unparked (m : Nat) (d : Dev) : Dev := (d.modMv m fun x => { x with waking := false }).setBit Fl.pwrStatusParked m false

theorem wakeEnd_eq (m : Nat) (d : Dev) (h : (d.mv m).waking = true) : wakeEnd m d = each (localAxes m) wakeAxis (unparked m d) := by
  unfold wakeEnd
  rw [h]
  exact if_neg (by decide)

theorem wakeAxis_axesOnly (n : Nat) (d : Dev) : axesOnly [n] d (wakeAxis n d) := by
  unfold wakeAxis
  split
  · exact (axesOnly_modMva n d _).trans (modesAt_axesOnly _ n _)
  · exact axesOnly_refl [n] d

theorem wakeAxis_still (n : Nat) (d : Dev) (h : (d.mva n).drive ≠ .precharge) : wakeAxis n d = d := if_neg h

/-- An axis that waits begins its precharge, with its low sides where its PWM may run and the escapement has passed its self-test. -/
theorem wakeAxis_begins (n : Nat) (d : Dev) (h : (d.mva n).drive = .precharge) :
    ((wakeAxis n d).mva n).pre = true ∧ ((wakeAxis n d).mva n).wakePre = true ∧ ((wakeAxis n d).mva n).legs.modes =
      allLegs (if d.kOk (n / 8) = true ∧ d.flag Fl.escStatusSelftestOk 0 = true then .low else .off) := by
  unfold wakeAxis
  rw [if_pos h]
  generalize hu : (d.modMva n fun x => { x with pre := true, wakePre := true }) = u
  have hown : u.mva n = { d.mva n with pre := true, wakePre := true } := by rw [← hu, mva_modMva]
  have hk : u.kOk (n / 8) = d.kOk (n / 8) := by rw [← hu]; rfl
  have hself : u.flag Fl.escStatusSelftestOk 0 = d.flag Fl.escStatusSelftestOk 0 := by rw [← hu]; rfl
  obtain ⟨hrest, hmodes⟩ := mva_modesAt_allLegs (d.turnAt n) n u
    (if d.kOk (n / 8) = true ∧ d.flag Fl.escStatusSelftestOk 0 = true then .low else .off) (by split <;> decide) fun ph => by
      rw [modeOf_precharge u n ph (by rw [hown]; exact h), hk, hself, hown]
      simp only [and_true]
  refine ⟨?_, ?_, hmodes⟩
  · rw [hrest, hown]
  · rw [hrest, hown]

theorem axesOnly.kOk {l : List Nat} {d t : Dev} (h : axesOnly l d t) (m : Nat) : t.kOk m = d.kOk m := by
  rw [h.frame]
  rfl

theorem axesOnly.hw {l : List Nat} {d t : Dev} (h : axesOnly l d t) (f : Fld) (i : Nat) (ha : ¬ ownPage (f.reg.offset i)) :
    t.hw f i = d.hw f i := hw_congr _ _ f i (h.hub _ ha)

theorem axesOnly.mv {l : List Nat} {d t : Dev} (h : axesOnly l d t) (k : Nat) : t.mv k = d.mv k := by
  unfold Dev.mv
  rw [h.frame]

/-- A register below the axis pages is in none. -/
theorem not_ownPage {a : Nat} (h : a < 0x10000) : ¬ ownPage a := fun hp => absurd hp.1 (by omega)

end Dev

/-- The end of a wake. -/
theorem wakeEnd_wakes (s : State) (m : Fin 8) (hw : (s.dev.mv m).waking = true) :
    ∃ d, exec (.wakeEnd m) s = .next { s with dev := d } ∧ d.parked m = false ∧ (d.mv m).waking = false ∧
      (∀ j : Fin 8, (s.dev.mva (8 * m.val + j.val)).drive = .precharge → (d.mva (8 * m.val + j.val)).pre = true ∧
        (d.mva (8 * m.val + j.val)).wakePre = true ∧ (d.mva (8 * m.val + j.val)).legs.modes =
          allLegs (if s.dev.kOk m = true ∧ s.dev.flag Fl.escStatusSelftestOk 0 = true then .low else .off)) ∧
      (∀ j : Fin 8, (s.dev.mva (8 * m.val + j.val)).drive ≠ .precharge →
        d.mva (8 * m.val + j.val) = s.dev.mva (8 * m.val + j.val)) ∧
      (∀ n, n / 8 ≠ m.val → d.mva n = s.dev.mva n) ∧ d = { s.dev with regs := d.regs, mvax := d.mvax, mvs := d.mvs } := by
  have heq := Dev.wakeEnd_eq m s.dev hw
  have hu : ∃ u, u = Dev.unparked m s.dev ∧ u.parked m = false ∧ (u.mv m).waking = false ∧ (∀ n, u.mva n = s.dev.mva n) ∧
      u.kOk m = s.dev.kOk m ∧ u.flag Fl.escStatusSelftestOk 0 = s.dev.flag Fl.escStatusSelftestOk 0 ∧
      u = { s.dev with regs := u.regs, mvs := u.mvs } := by
    refine ⟨_, rfl, ?_, ?_, fun _ => rfl, rfl, ?_, rfl⟩
    · exact (Dev.testBit_hw_setBit _ Fl.pwrStatusParked m false m (by decide) m.isLt).trans (if_pos rfl)
    · have hmv := congrArg Mv.waking (Dev.mv_modMv_same s.dev m fun x => { x with waking := false })
      exact hmv
    · exact congrArg (fun w => decide (w ≠ 0)) (Dev.hw_setHw_reg _ Fl.pwrStatusParked Fl.escStatusSelftestOk 0 0 _ (by decide))
  obtain ⟨u, hdef, hparked, hwaking, hmva, hk, hself, hframe⟩ := hu
  rw [← hdef] at heq
  have honly := Dev.axesOnly_each Dev.wakeAxis_axesOnly (Dev.localAxes m) u
  have hloc : ∀ j : Fin 8, 8 * m.val + j.val ∈ Dev.localAxes m := fun j => (Dev.mem_localAxes m _).mpr (by omega)
  have haxis : ∀ j : Fin 8, ∃ t, Dev.axesOnly (Dev.localAxes m) u t ∧ t.mva (8 * m.val + j.val) = s.dev.mva (8 * m.val + j.val) ∧
      (Dev.wakeEnd m s.dev).mva (8 * m.val + j.val) = (Dev.wakeAxis (8 * m.val + j.val) t).mva (8 * m.val + j.val) := by
    intro j
    obtain ⟨t, ht, hsame, hstep⟩ := Dev.mva_each Dev.wakeAxis_axesOnly (Dev.nodup_span _ _) u (hloc j)
    exact ⟨t, ht, hsame.trans (hmva _), by rw [heq]; exact hstep⟩
  rw [← heq] at honly
  refine ⟨Dev.wakeEnd m s.dev, rfl, ?_, ?_, fun j hj => ?_, fun j hj => ?_, fun n hn => ?_, ?_⟩
  · exact (congrArg (·.testBit m.val) (honly.hw Fl.pwrStatusParked 0 (Dev.not_ownPage (by decide)))).trans hparked
  · rw [honly.mv]
    exact hwaking
  · obtain ⟨t, ht, hsame, hstep⟩ := haxis j
    obtain ⟨hpre, hwake, hmodes⟩ := Dev.wakeAxis_begins (8 * m.val + j.val) t (by rw [hsame]; exact hj)
    have hself' : t.flag Fl.escStatusSelftestOk 0 = s.dev.flag Fl.escStatusSelftestOk 0 := by
      rw [← hself]
      exact congrArg (fun w => decide (w ≠ 0)) (ht.hw Fl.escStatusSelftestOk 0 (Dev.not_ownPage (by decide)))
    rw [show (8 * m.val + j.val) / 8 = m.val by omega, ht.kOk, hk, hself'] at hmodes
    rw [hstep]
    exact ⟨hpre, hwake, hmodes⟩
  · obtain ⟨t, -, hsame, hstep⟩ := haxis j
    rw [hstep, Dev.wakeAxis_still _ t (by rw [hsame]; exact hj), hsame]
  · rw [honly.other n fun h => hn ((Dev.mem_localAxes m n).mp h), hmva]
  · rw [honly.frame, hframe]

/-- Settles O30. -/
theorem prechargeParkWake : Obligations.PrechargeParkWake := by
  unfold Obligations.PrechargeParkWake
  refine ⟨fun s ax off hdrive => ?_, fun s m hdue => ?_, wakeEnd_wakes⟩
  · have heq : Dev.prechargeEnd ax off s.dev = Dev.modesAt (s.dev.inPeriod (ax.val / 8) off) ax
        (s.dev.modMva ax fun x => { x with pre := false, preAt := (s.dev.mv (ax.val / 8)).start + off }) := if_pos hdrive
    generalize hu : (s.dev.modMva ax fun x => { x with pre := false, preAt := (s.dev.mv (ax.val / 8)).start + off }) = u at heq
    have hown : u.mva ax = { s.dev.mva ax with pre := false, preAt := (s.dev.mv (ax.val / 8)).start + off } := by
      rw [← hu, Dev.mva_modMva]
    obtain ⟨hrest, hmodes⟩ := Dev.mva_modesAt_allLegs (s.dev.inPeriod (ax.val / 8) off) ax u .off (by decide) fun ph => by
      rw [Dev.modeOf_precharge u ax ph (by rw [hown]; exact hdrive), hown]
      simp
    have hframe := Dev.modesAt_frame (s.dev.inPeriod (ax.val / 8) off) ax u
    have hother := Dev.modesAt_axesOnly (s.dev.inPeriod (ax.val / 8) off) ax u
    rw [← heq] at hrest hmodes hframe hother
    refine ⟨Dev.prechargeEnd ax off s.dev, rfl, ?_, hmodes, ⟨fun n _ => ?_, fun n hn => ?_⟩, ?_⟩
    · rw [hown] at hrest
      exact hrest
    · rw [hframe, ← hu]
      rfl
    · rw [hother.other n hn, ← hu]
      exact Dev.mva_modMva_other _ _ (List.ne_of_not_mem_cons hn)
    · rw [hframe, ← hu]
      rfl
  · have heq : Dev.park m s.dev = s.dev.setBit Fl.pwrStatusParked m true := if_pos hdue
    refine ⟨Dev.park m s.dev, rfl, ?_, fun k hk => ?_, ?_, ?_⟩
    · rw [heq]
      exact (Dev.testBit_hw_setBit _ _ _ _ _ (by decide) m.isLt).trans (if_pos rfl)
    · rw [heq]
      exact (Dev.testBit_hw_setBit _ _ _ _ _ (by decide) m.isLt).trans (if_neg fun h => hk (Fin.ext h))
    · rw [heq]
      rfl
    · rw [heq]
      exact (Dev.regsBut_refl _ _).setBit _ _ _ (List.mem_singleton_self _)

end Sys2Proof.Machine
end

section
/-! Proofs for clock trips, debug halts and the delay line of a movement (chapters 5 and 6). -/

namespace Sys2Proof.Machine

namespace Dev

theorem offRaise_pwmMvstatus (m : Fin 8) : offRaise (Reg.offset .pwmMvstatus m) := by
  have hall : ∀ k : Fin 8, Reg.offset .pwmMvstatus k < 0x10000 ∧ Reg.offset .pwmMvstatus k ≠ 0x524 := by decide
  exact offRaise_of_lt _ (hall m).1 (hall m).2

theorem pwmMvstatus_lt (m : Fin 8) : Reg.offset .pwmMvstatus m < 0x10000 := by
  have hall : ∀ k : Fin 8, Reg.offset .pwmMvstatus k < 0x10000 := by decide
  exact hall m

/-! ## Entering HALT (R201) -/

/-- An axis enters HALT where no drive of higher precedence holds it. -/
def haltAxis (n : Nat) (d : Dev) : Dev :=
  match (d.mva n).drive with
  | .sto => d
  | .orphanSto => d
  | .orphanBrake => d
  | _ => modesAt (d.turnAt n) n (setDrive n .halt d)

theorem haltAxes_eq (m : Nat) (d : Dev) : haltAxes m d = each (localAxes m) haltAxis d := rfl

theorem haltAxis_held (n : Nat) (d : Dev) (h : (d.mva n).drive ∈ [Drive.sto, .orphanSto, .orphanBrake]) : haltAxis n d = d := by
  simp only [List.mem_cons, List.not_mem_nil, or_false] at h
  unfold haltAxis
  rcases h with h | h | h <;> rw [h]

theorem haltAxis_enters (n : Nat) (d : Dev) (h : (d.mva n).drive ∉ [Drive.sto, .orphanSto, .orphanBrake]) :
    haltAxis n d = modesAt (d.turnAt n) n (setDrive n .halt d) := by
  simp only [List.mem_cons, List.not_mem_nil, or_false, not_or] at h
  obtain ⟨hsto, hosto, hobrake⟩ := h
  unfold haltAxis
  split
  · exact absurd ‹_› hsto
  · exact absurd ‹_› hosto
  · exact absurd ‹_› hobrake
  · rfl

theorem haltAxis_axesOnly (n : Nat) (d : Dev) : axesOnly [n] d (haltAxis n d) := by
  by_cases h : (d.mva n).drive ∈ [Drive.sto, .orphanSto, .orphanBrake]
  · rw [haltAxis_held n d h]
    exact axesOnly_refl _ d
  · rw [haltAxis_enters n d h]
    exact (setDrive_axesOnly n .halt d).trans (modesAt_axesOnly _ n _)

/-- The static level of HALT (R201). -/
theorem modeOf_halt (d : Dev) (n : Nat) (h : (d.mva n).drive = .halt) : Four.mk4 (d.modeOf n) = d.haltModes n := by
  have hleg : ∀ ph, d.modeOf n ph = if d.kOk (n / 8) = true ∧ d.flag Fl.escStatusSelftestOk 0 = true ∧ d.on Fl.axisSafeHalt n = true ∧ ph ≠ 3
      then .low else .off := by
    intro ph
    unfold modeOf
    dsimp only
    rw [h]
    by_cases hph : ph = 3 <;> cases d.kOk (n / 8) <;> cases d.flag Fl.escStatusSelftestOk 0 <;> cases d.on Fl.axisSafeHalt n <;> simp [hph]
  unfold Four.mk4 haltModes
  rw [hleg, hleg, hleg, hleg]
  by_cases hc : d.kOk (n / 8) = true ∧ d.flag Fl.escStatusSelftestOk 0 = true ∧ d.on Fl.axisSafeHalt n = true
  · simp [hc]
  · have hnone : ∀ ph, ¬ (d.kOk (n / 8) = true ∧ d.flag Fl.escStatusSelftestOk 0 = true ∧ d.on Fl.axisSafeHalt n = true ∧ ph ≠ 3) :=
      fun ph hp => hc ⟨hp.1, hp.2.1, hp.2.2.1⟩
    rw [if_neg hc, if_neg (hnone 0), if_neg (hnone 1), if_neg (hnone 2), if_neg (hnone 3)]

/-- A level without switching legs is the legs' modes once they have turned to it. -/
theorem modes_turn_halt (t : Nat) (d : Dev) (n : Nat) (l : Legs) : (l.turn t (d.haltModes n)).modes = d.haltModes n := by
  unfold haltModes
  split <;> simp [Legs.turn]

theorem haltAxis_modes (n : Nat) (d : Dev) (h : (d.mva n).drive ∉ [Drive.sto, .orphanSto, .orphanBrake]) :
    ((haltAxis n d).mva n).drive = .halt ∧ ((haltAxis n d).mva n).legs.modes = (setDrive n .halt d).haltModes n := by
  rw [haltAxis_enters n d h]
  have hdrive : ((setDrive n .halt d).mva n).drive = .halt := drive_setDrive n .halt d
  generalize setDrive n .halt d = u at hdrive
  refine ⟨(drive_modesAt _ n u).trans hdrive, ?_⟩
  unfold modesAt
  rw [modeOf_halt u n hdrive]
  dsimp only
  split
  case isTrue hm => exact hm.symm
  case isFalse =>
    unfold modLegs
    rw [mva_modMva]
    exact modes_turn_halt _ u n _

theorem axesOnly.haltModes {l : List Nat} {d t : Dev} (h : axesOnly l d t) (n : Nat) : t.haltModes n = d.haltModes n := by
  have hself : t.flag Fl.escStatusSelftestOk 0 = d.flag Fl.escStatusSelftestOk 0 :=
    congrArg (fun w => decide (w ≠ 0)) (h.hw Fl.escStatusSelftestOk 0 (not_ownPage (by decide)))
  have hon : t.on Fl.axisSafeHalt n = d.on Fl.axisSafeHalt n :=
    congrArg (fun w => decide (w ≠ 0)) (cfg_congr (by rw [h.frame]) Fl.axisSafeHalt n)
  unfold Dev.haltModes
  rw [h.kOk, hself, hon]

/-- Every axis of the movement has entered HALT, or is held. -/
theorem haltAxes_entered (m : Nat) (d : Dev) (n : Nat) (hn : n / 8 = m) : d.haltEntered (haltAxes m d) n := by
  obtain ⟨t, ht, hsame, hstep⟩ := mva_each haltAxis_axesOnly (nodup_span _ _) d ((mem_localAxes m n).mpr hn)
  have hfinal : (haltAxes m d).mva n = (haltAxis n t).mva n := hstep
  unfold haltEntered
  rw [hfinal, ← hsame]
  split
  case isTrue h => rw [haltAxis_held n t h]
  case isFalse h =>
    obtain ⟨hdrive, hmodes⟩ := haltAxis_modes n t h
    exact ⟨hdrive, by rw [hmodes, (setDrive_axesOnly n .halt t).haltModes, ht.haltModes]⟩

/-- The level depends on the tick rate, the set-up in force and the self-test alone. -/
theorem haltEntered_of_same {d u t v : Dev} (n : Nat) (h : u.haltEntered t n) (hd : u.mva n = d.mva n)
    (hl : u.haltModes n = d.haltModes n) (hv : v.mva n = t.mva n) : d.haltEntered v n := by
  unfold haltEntered at h ⊢
  rw [hv, ← hd, ← hl]
  exact h

/-! ## Leaving HALT (R201) -/

/-- An axis in HALT returns in drive OFF, unarmed. -/
def haltLeave (n : Nat) (d : Dev) : Dev :=
  if (d.mva n).drive = .halt then disarmAxis false n (setDrive n .off (seqDrop n d)) else d

theorem haltEnd_eq (m : Nat) (d : Dev) : haltEnd m d = each (localAxes m) haltLeave d := rfl

theorem mva_disarmAxis (ramp : Bool) (n k : Nat) (d : Dev) : (disarmAxis ramp n d).mva k = d.mva k := by
  unfold Dev.mva
  rw [(disarmAxis_stopOnly ramp n d).mvax]

/-- The end of a drive, before its axis is unarmed. -/
theorem driveEnds_axesOnly (n : Nat) (d : Dev) : axesOnly [n] d (setDrive n .off (seqDrop n d)) :=
  (seqDrop_axesOnly n d).trans (setDrive_axesOnly n .off _)

theorem axesOnly.axis {l : List Nat} {d t : Dev} (h : axesOnly l d t) (k : Nat) : t.axis k = d.axis k := by
  unfold Dev.axis
  rw [h.frame]

theorem haltLeave_mva_other (d : Dev) {n k : Nat} (h : k ≠ n) : (haltLeave n d).mva k = d.mva k := by
  unfold haltLeave
  split
  · exact (mva_disarmAxis _ _ _ _).trans ((driveEnds_axesOnly n d).other k fun hk => h (List.mem_singleton.mp hk))
  · rfl

theorem haltLeave_st (n k : Nat) (d : Dev) : ((haltLeave n d).axis k).st = (d.axis k).st := by
  unfold haltLeave
  split
  · rw [st_disarmAxis, (driveEnds_axesOnly n d).axis]
  · rfl

theorem haltLeave_disarmed (n k : Nat) (d : Dev) (h : (d.axis k).armed = false) : ((haltLeave n d).axis k).armed = false := by
  unfold haltLeave
  split
  · exact disarmAxis_disarmed n k _ (by rw [(driveEnds_axesOnly n d).axis]; exact h)
  · exact h

/-- An axis leaves HALT. -/
theorem haltLeave_left (n : Nat) (d : Dev) : d.haltLeft (haltLeave n d) n := by
  unfold haltLeft
  split
  case isTrue h =>
    unfold haltLeave
    rw [if_pos h]
    refine ⟨by rw [mva_disarmAxis, drive_setDrive], ?_⟩
    obtain ha | hs := armed_disarmAxis n (setDrive n .off (seqDrop n d))
    · exact .inl ha
    · rw [st_disarmAxis, (driveEnds_axesOnly n d).axis] at hs
      exact .inr hs
  case isFalse h =>
    unfold haltLeave
    rw [if_neg h]

/-- A loop over distinct indices has a round of its own for each of them. -/
theorem each_split {σ : Type} (f : Nat → σ → σ) {l : List Nat} (hl : l.Nodup) (s : σ) {n : Nat} (hn : n ∈ l) :
    ∃ a b : List Nat, n ∉ a ∧ n ∉ b ∧ each l f s = each b f (f n (each a f s)) := by
  obtain ⟨a, b, rfl⟩ := List.append_of_mem hn
  rw [List.nodup_append] at hl
  obtain ⟨-, hb, hab⟩ := hl
  refine ⟨a, b, fun ha => hab n ha n (by simp) rfl, (List.nodup_cons.mp hb).1, ?_⟩
  unfold each
  rw [List.foldl_append]
  rfl

theorem haltEnd_left (m : Nat) (d : Dev) (n : Nat) (hn : n / 8 = m) : d.haltLeft (haltEnd m d) n := by
  obtain ⟨a, b, ha, hb, heq⟩ := each_split haltLeave (nodup_span _ _) d ((mem_localAxes m n).mpr hn)
  have hbefore : (each a haltLeave d).mva n = d.mva n :=
    each_same (fun t => t.mva n) _ a d fun k hk t => haltLeave_mva_other t fun h : n = k => ha (h ▸ hk)
  have hst : ((each a haltLeave d).axis n).st = (d.axis n).st := each_same (fun t => (t.axis n).st) _ a d fun k _ t => haltLeave_st k n t
  have hown := haltLeave_left n (each a haltLeave d)
  generalize haltLeave n (each a haltLeave d) = u at heq hown
  have hafter : (each b haltLeave u).mva n = u.mva n :=
    each_same (fun t => t.mva n) _ b u fun k hk t => haltLeave_mva_other t fun h : n = k => hb (h ▸ hk)
  have harmed : (u.axis n).armed = false → ((each b haltLeave u).axis n).armed = false :=
    each_keeps (fun t => (t.axis n).armed = false) _ b u fun k _ t => haltLeave_disarmed k n t
  have hfinal : haltEnd m d = each b haltLeave u := heq
  unfold haltLeft at hown ⊢
  rw [hbefore, hst] at hown
  rw [hfinal, hafter]
  split
  case isTrue h =>
    rw [if_pos h] at hown
    exact ⟨hown.1, hown.2.imp_left harmed⟩
  case isFalse h =>
    rw [if_neg h] at hown
    exact hown

/-- What stands in a register below the axis pages, beside bit 14, and the movements' records outlast the end of a halt. -/
theorem haltEnd_field {f : Fld} {i : Nat} (hf : offStop f i) (m : Nat) (d : Dev) : sameField f i d (haltEnd m d) := by
  refine sameField_each haltLeave _ d fun n t => ?_
  unfold haltLeave
  split
  · refine sameField.trans (fun hd => ?_) (disarmAxis_sameField hf false n _)
    have hfind := (driveEnds_axesOnly n t).hub _ hf.1
    exact ⟨by unfold hwWritten at hd ⊢; rw [hfind]; exact hd, hw_congr _ _ f i hfind⟩
  · exact sameField_refl f i t

theorem haltEnd_mv (m k : Nat) (d : Dev) : (haltEnd m d).mv k = d.mv k := by
  refine each_same (fun t => t.mv k) haltLeave _ d fun n _ t => ?_
  unfold haltLeave
  split
  · unfold Dev.mv
    rw [(disarmAxis_stopOnly false n _).mvs, (driveEnds_axesOnly n t).frame]
  · rfl

/-! ## The delay line (R289) -/

/-- t differs from d in what stands of the legs' edges that lie off their taps alone. -/
structure looseOnly (m : Nat) (d t : Dev) : Prop where
  frame : t = { d with mvax := t.mvax }
  axis : ∀ n, t.mva n = { d.mva n with legs := { (d.mva n).legs with span := { (d.mva n).legs.span with loose := (t.mva n).legs.span.loose } } }
  other : ∀ n, n / 8 ≠ m → t.mva n = d.mva n

/-- What an axis's list of such edges becomes, by the instant of its change. -/
def loosen (g : Nat → List (Nat × Option Nat) → List (Nat × Option Nat)) (n : Nat) (d : Dev) : Dev :=
  d.modLegs n fun l => { l with span := { l.span with loose := g (d.turnAt n) l.span.loose } }

theorem looseOnly_loosen (g : Nat → List (Nat × Option Nat) → List (Nat × Option Nat)) (m : Nat) (d : Dev) :
    looseOnly m d (each (localAxes m) (loosen g) d) := by
  refine each_keeps (looseOnly m d) (loosen g) _ d (fun k hk t ht => ⟨?_, fun n => ?_, fun n hn => ?_⟩) ⟨rfl, fun _ => rfl, fun _ _ => rfl⟩
  · have hframe := ht.frame
    unfold loosen modLegs
    rw [hframe]
    rfl
  · unfold loosen modLegs
    by_cases h : n = k
    · subst h
      rw [mva_modMva, ht.axis n]
    · rw [mva_modMva_other _ _ h]
      exact ht.axis n
  · have hne : n ≠ k := fun h => hn (by rw [h]; exact (mem_localAxes m k).mp hk)
    unfold loosen modLegs
    rw [mva_modMva_other _ _ hne]
    exact ht.other n hn

theorem dllLost_eq (m : Nat) (d : Dev) (hon : d.mvOn m = true) (hlock : d.flag Fl.pwmMvstatusDllLock m = true) :
    dllLost m d = ((each (localAxes m) (loosen fun t l => l ++ [(t, none)]) d).setHw Fl.pwmMvstatusDllLock m 0).stick
      Fl.pwmMvstatusDllLost m := by
  unfold dllLost
  rw [hon, hlock]
  exact if_neg (by decide)

theorem dllLock_eq (m : Nat) (d : Dev) (hon : d.mvOn m = true) (hlock : d.flag Fl.pwmMvstatusDllLock m = false) :
    dllLock m d = (each (localAxes m) (loosen fun t l => l.map fun e => (e.1, some (e.2.getD t))) d).setHw Fl.pwmMvstatusDllLock m 1 := by
  unfold dllLock
  rw [hon, hlock]
  exact if_neg (by decide)

/-- Registers that are set after the edges have changed. -/
theorem looseOnly.shown {m : Nat} {d t u : Dev} (h : looseOnly m d t) (hu : u = { t with regs := u.regs }) :
    (∀ n, u.mva n = { d.mva n with legs := { (d.mva n).legs with span := { (d.mva n).legs.span with
      loose := (u.mva n).legs.span.loose } } }) ∧ (∀ n, n / 8 ≠ m → u.mva n = d.mva n) ∧
      u = { d with regs := u.regs, mvax := u.mvax } := by
  have hmva : ∀ n, u.mva n = t.mva n := fun n => by rw [hu]; rfl
  refine ⟨fun n => ?_, fun n hn => (hmva n).trans (h.other n hn), ?_⟩
  · rw [hmva]
    exact h.axis n
  · generalize u.regs = r at hu
    rw [hu, h.frame]

end Dev

/-! ## The commands -/

/-- A clock monitor trip. -/
theorem clockMonitorTrip_trips (s : State) (m : Fin 8) (hon : s.dev.mvOn m = true) (hbad : (s.dev.mv m).clkBad = false) :
    ∃ d, exec (.clockMonitorTrip m) s = .next { s with dev := d } ∧ (d.mv m).clkBad = true ∧ d.hw Fl.pwmMvstatusClkTrip m = 1 ∧
      s.dev.reacted d .mvClock m m ∧ (s.dev.classOf .mvClock < 3 → ∀ n, n / 8 = m.val → s.dev.haltEntered d n) := by
  have heq : Dev.clockTrip m s.dev =
      ((Dev.haltAxes m (s.dev.modMv m fun x => { x with clkBad := true })).stick Fl.pwmMvstatusClkTrip m).raise1 .mvClock m m m := by
    unfold Dev.clockTrip
    rw [hon, hbad]
    exact if_neg (by decide)
  have honly := Dev.axesOnly_each Dev.haltAxis_axesOnly (Dev.localAxes m) (s.dev.modMv m fun x => { x with clkBad := true })
  rw [← Dev.haltAxes_eq] at honly
  have hmv : ((Dev.haltAxes m (s.dev.modMv m fun x => { x with clkBad := true })).mv m).clkBad = true := by
    rw [honly.mv, Dev.mv_modMv_same]
  have hforce : (Dev.haltAxes m (s.dev.modMv m fun x => { x with clkBad := true })).regs.force = s.dev.regs.force := by
    rw [honly.frame]
    rfl
  generalize Dev.haltAxes m (s.dev.modMv m fun x => { x with clkBad := true }) = t at heq hmv hforce
  refine ⟨Dev.clockTrip m s.dev, rfl, ?_, ?_, ?_, fun hcls => ?_⟩
  · obtain ⟨q, n, hrec⟩ := Dev.mv_raise1 (t.stick Fl.pwmMvstatusClkTrip m) .mvClock m m m m
    rw [heq, hrec]
    exact hmv
  · rw [heq, Dev.hw_raise1 _ .mvClock m m m Fl.pwmMvstatusClkTrip m (Dev.offRaise_pwmMvstatus m)]
    exact Dev.hw_setHw_same _ _ _ _ (by decide)
  · rw [heq]
    exact (Dev.raise1_reacted _ .mvClock m m m).from hforce

  · have hfixed : s.dev.classOf .mvClock = 4 := rfl
    exact absurd hcls (by omega)

/-- The clock comes back. -/
theorem clockRecovery_recovers (s : State) (m : Fin 8) (hbad : (s.dev.mv m).clkBad = true) :
    ∃ d, exec (.clockRecovery m) s = .next { s with dev := d } ∧ (d.mv m).clkBad = false ∧
      ((s.dev.mv m).halted = false → ∀ n, n / 8 = m.val → s.dev.haltLeft d n) ∧
      ((s.dev.mv m).halted = true → ∀ n, d.mva n = s.dev.mva n ∧ d.axis n = s.dev.axis n) := by
  obtain ⟨u, hu⟩ : ∃ u, u = s.dev.modMv m fun x => { x with clkBad := false } := ⟨_, rfl⟩
  have hown : u.mv m = { s.dev.mv m with clkBad := false } := by rw [hu, Dev.mv_modMv_same]
  have hmva : ∀ n, u.mva n = s.dev.mva n := fun n => by rw [hu]; rfl
  have haxis : ∀ n, u.axis n = s.dev.axis n := fun n => by rw [hu]; rfl
  have heq : Dev.clockBack m s.dev = if (u.mv m).halted then u else Dev.haltEnd m u := by
    unfold Dev.clockBack
    rw [hbad, ← hu]
    exact if_neg (by decide)
  rw [hown] at heq
  refine ⟨Dev.clockBack m s.dev, rfl, ?_, fun hgo n hn => ?_, fun hhalt n => ?_⟩
  · rw [heq]
    split
    · rw [hown]
    · rw [Dev.haltEnd_mv, hown]
  · rw [heq, if_neg (by rw [hgo]; decide)]
    have hleft := Dev.haltEnd_left m u n hn
    unfold Dev.haltLeft at hleft ⊢
    rw [hmva, haxis] at hleft
    exact hleft
  · rw [heq, if_pos hhalt]
    exact ⟨hmva n, haxis n⟩

/-- A debug halt of a movement. -/
theorem debugHalt_halts (s : State) (m : Fin 8) (hscope : s.dev.scopeOpen 3 = true) (hon : s.dev.mvOn m = true)
    (hrun : (s.dev.mv m).halted = false) :
    ∃ d, exec (.debugHalt (m.castLE (by decide))) s = .next { s with dev := d } ∧ (d.mv m).halted = true ∧
      d.hw Fl.pwmMvstatusDbgHalt m = 1 ∧ ∀ n, n / 8 = m.val → s.dev.haltEntered d n := by
  have hne : m.val ≠ 8 := by omega
  obtain ⟨u, hu⟩ : ∃ u, u = s.dev.modMv m fun x => { x with halted := true } := ⟨_, rfl⟩
  have heq : Dev.debugHalt m s.dev = (Dev.haltAxes m u).setHw Fl.pwmMvstatusDbgHalt m 1 := by
    unfold Dev.debugHalt
    rw [hscope, hon, hrun, ← hu, if_neg (by decide), if_neg hne]
    exact if_neg (by decide)
  have honly := Dev.axesOnly_each Dev.haltAxis_axesOnly (Dev.localAxes m) u
  rw [← Dev.haltAxes_eq] at honly
  refine ⟨Dev.debugHalt m s.dev, rfl, ?_, ?_, fun n hn => ?_⟩
  · rw [heq, Dev.setHw_mv, honly.mv, hu, Dev.mv_modMv_same]
  · rw [heq]
    exact Dev.hw_setHw_same _ _ _ _ (by decide)
  · refine Dev.haltEntered_of_same n (Dev.haltAxes_entered m u n hn) ?_ ?_ ?_
    · rw [hu]
      rfl
    · rw [hu]
      rfl
    · rw [heq, Dev.setHw_mva]

/-- A debug halt of a movement ends. -/
theorem debugResume_resumes (s : State) (m : Fin 8) (hhalt : (s.dev.mv m).halted = true) :
    ∃ d, exec (.debugResume (m.castLE (by decide))) s = .next { s with dev := d } ∧ (d.mv m).halted = false ∧
      d.hw Fl.pwmMvstatusDbgHalt m = 0 ∧ ((s.dev.mv m).clkBad = false → ∀ n, n / 8 = m.val → s.dev.haltLeft d n) ∧
      ((s.dev.mv m).clkBad = true → d.mvax = s.dev.mvax ∧ d.hax = s.dev.hax) := by
  have hne : m.val ≠ 8 := by omega
  obtain ⟨u, hu⟩ : ∃ u, u = (s.dev.modMv m fun x => { x with halted := false }).setHw Fl.pwmMvstatusDbgHalt m 0 := ⟨_, rfl⟩
  have hown : u.mv m = { s.dev.mv m with halted := false } := by rw [hu, Dev.setHw_mv, Dev.mv_modMv_same]
  have hshown : u.hwWritten Fl.pwmMvstatusDbgHalt m ∧ u.hw Fl.pwmMvstatusDbgHalt m = 0 := by
    rw [hu]
    exact ⟨Dev.hwWritten_setHw_same _ _ _ _, Dev.hw_setHw_same _ _ _ _ (by decide)⟩
  have hmva : ∀ n, u.mva n = s.dev.mva n := fun n => by rw [hu]; rfl
  have haxis : ∀ n, u.axis n = s.dev.axis n := fun n => by rw [hu]; rfl
  have heq : Dev.debugResume m s.dev = if (u.mv m).clkBad then u else Dev.haltEnd m u := by
    unfold Dev.debugResume
    rw [if_neg hne, hhalt, ← hu]
    exact if_neg (by decide)
  rw [hown] at heq
  refine ⟨Dev.debugResume m s.dev, rfl, ?_, ?_, fun hgood n hn => ?_, fun hbad => ?_⟩
  · rw [heq]
    split
    · rw [hown]
    · rw [Dev.haltEnd_mv, hown]
  · rw [heq]
    split
    · exact hshown.2
    · have hoff : Dev.offStop Fl.pwmMvstatusDbgHalt m := ⟨Dev.not_ownPage (Dev.pwmMvstatus_lt m), .inl (by decide)⟩
      exact ((Dev.haltEnd_field hoff m u) hshown.1).2.trans hshown.2
  · rw [heq, if_neg (by rw [hgood]; decide)]
    have hleft := Dev.haltEnd_left m u n hn
    unfold Dev.haltLeft at hleft ⊢
    rw [hmva, haxis] at hleft
    exact hleft
  · rw [heq, if_pos hbad, hu]
    exact ⟨rfl, rfl⟩

/-- Settles O31: the class of MV_CLOCK is fixed at 4, so its trip always turns the axes off; the two halts share `haltAxes_entered`
and `haltEnd_left`. -/
theorem haltsAndClocks : Obligations.HaltsAndClocks := by
  unfold Obligations.HaltsAndClocks
  refine ⟨clockMonitorTrip_trips, fun s m h => ?_, clockRecovery_recovers, fun s m hon hlock => ?_, fun s m hon hlock => ?_,
    fun s m hoff => ⟨?_, ?_⟩, debugHalt_halts, fun s hscope => ?_, fun s m hscope => ?_, debugResume_resumes, fun s => rfl⟩
  · have heq : Dev.clockTrip m s.dev = s.dev := if_pos (by rcases h with h | h <;> simp [h])
    exact congrArg (fun d => Host.Outcome.next { s with dev := d }) heq
  · have heq := Dev.dllLost_eq m s.dev hon hlock
    have hloose := Dev.looseOnly_loosen (fun t l => l ++ [(t, none)]) m s.dev
    generalize each (Dev.localAxes m) (Dev.loosen fun t l => l ++ [(t, none)]) s.dev = t at heq hloose
    obtain ⟨haxes, hother, hframe⟩ := hloose.shown (u := Dev.dllLost m s.dev) (by rw [heq]; rfl)
    have hapart : Dev.fieldApart Fl.pwmMvstatusDllLost m Fl.pwmMvstatusDllLock m := Or.inr ⟨rfl, rfl, by decide, by decide⟩
    refine ⟨Dev.dllLost m s.dev, rfl, ?_, ?_, haxes, hother, hframe, ?_⟩
    · rw [heq]
      exact (Dev.hw_setHw_of_apart _ _ _ _ _ _ hapart).trans (Dev.hw_setHw_same _ _ _ _ (by decide))
    · rw [heq]
      exact Dev.hw_setHw_same _ _ _ _ (by decide)
    · rw [heq]
      have hregs : s.dev.regsBut t [Reg.offset .pwmMvstatus m] := (Dev.regsBut_refl s.dev _).of_regs (by rw [hloose.frame])
      exact (hregs.setHw _ _ _ (List.mem_singleton_self _)).setHw _ _ _ (List.mem_singleton_self _)
  · have heq := Dev.dllLock_eq m s.dev hon hlock
    have hloose := Dev.looseOnly_loosen (fun t l => l.map fun e => (e.1, some (e.2.getD t))) m s.dev
    generalize each (Dev.localAxes m) (Dev.loosen fun t l => l.map fun e => (e.1, some (e.2.getD t))) s.dev = t at heq hloose
    obtain ⟨haxes, hother, hframe⟩ := hloose.shown (u := Dev.dllLock m s.dev) (by rw [heq]; rfl)
    refine ⟨Dev.dllLock m s.dev, rfl, ?_, haxes, hother, hframe, ?_⟩
    · rw [heq]
      exact Dev.hw_setHw_same _ _ _ _ (by decide)
    · rw [heq]
      have hregs : s.dev.regsBut t [Reg.offset .pwmMvstatus m] := (Dev.regsBut_refl s.dev _).of_regs (by rw [hloose.frame])
      exact hregs.setHw _ _ _ (List.mem_singleton_self _)
  · have heq : Dev.dllLost m s.dev = s.dev := if_pos (by simp [hoff])
    exact congrArg (fun d => Host.Outcome.next { s with dev := d }) heq
  · have heq : Dev.dllLock m s.dev = s.dev := if_pos (by simp [hoff])
    exact congrArg (fun d => Host.Outcome.next { s with dev := d }) heq
  · have heq : Dev.debugHalt 8 s.dev = ({ s.dev with sys := { s.dev.sys with hubHalt := true } } : Dev).lockBlind := by
      unfold Dev.debugHalt
      rw [hscope]
      rfl
    refine ⟨Dev.debugHalt 8 s.dev, rfl, ?_, ?_, ?_⟩ <;> rw [heq] <;> unfold Dev.lockBlind <;> split <;> rfl
  · have heq : Dev.debugHalt m s.dev = s.dev := if_pos (by rw [hscope]; rfl)
    exact congrArg (fun d => Host.Outcome.next { s with dev := d }) heq

end Sys2Proof.Machine
end

section
/-! Proofs for the loss of the link, D3hot and a Function Level Reset (chapters 2, 15 and 18). -/

namespace Sys2Proof.Machine

namespace Dev

/-! ## Closing scopes (R201, R287, R464) -/

/-- The end of a halt touches no ring and no fault. -/
theorem haltEnd_hif_flt (m : Nat) (d : Dev) : (haltEnd m d).hif = d.hif ∧ (haltEnd m d).flt = d.flt := by
  refine each_keeps (fun t => t.hif = d.hif ∧ t.flt = d.flt) haltLeave _ d (fun n _ t ht => ?_) ⟨rfl, rfl⟩
  unfold haltLeave
  split
  · have hstop := disarmAxis_stopOnly false n (setDrive n .off (seqDrop n t))
    have hdrive := (driveEnds_axesOnly n t).frame
    rw [hstop.hif, hstop.flt, hdrive]
    exact ht
  · exact ht

theorem debugResume_hif_flt (m : Nat) (d : Dev) : (debugResume m d).hif = d.hif ∧ (debugResume m d).flt = d.flt := by
  unfold debugResume
  split
  · exact ⟨rfl, rfl⟩
  · split
    · exact ⟨rfl, rfl⟩
    · dsimp only
      split
      · exact ⟨rfl, rfl⟩
      · exact haltEnd_hif_flt m _

/-- A field that a stop leaves, in no PWM_MVSTATUS, outlasts the end of a debug halt. -/
theorem debugResume_field {f : Fld} {i : Nat} (hf : offStop f i) (hp : ∀ m : Fin 8, f.reg.offset i ≠ Reg.offset .pwmMvstatus m)
    {m : Nat} (hm : m < 9) (d : Dev) : sameField f i d (debugResume m d) := by
  unfold debugResume
  split
  · exact sameField_of_hw rfl
  · split
    · exact sameField_refl f i d
    · have hset : ∀ t : Dev, sameField f i t (t.setHw Fl.pwmMvstatusDbgHalt m 0) := fun t hd =>
        ⟨hwWritten_setHw _ _ _ _ _ _ hd, hw_setHw_reg t _ _ _ _ _ (hp ⟨m, by omega⟩)⟩
      have hmod : sameField f i d (d.modMv m fun x => { x with halted := false }) := sameField_of_hw rfl
      dsimp only
      split
      · exact hmod.trans (hset _)
      · exact (hmod.trans (hset _)).trans (haltEnd_field hf m _)

theorem closeScopes_hif_flt (mask : Nat) (d : Dev) : (closeScopes mask d).hif = d.hif ∧ (closeScopes mask d).flt = d.flt := by
  unfold closeScopes
  dsimp only
  have hset : ∀ v, (d.setHw Fl.lockStatusScopes 0 v).hif = d.hif ∧ (d.setHw Fl.lockStatusScopes 0 v).flt = d.flt := fun v => ⟨rfl, rfl⟩
  replace hset := hset (d.hw Fl.lockStatusScopes 0 - (d.hw Fl.lockStatusScopes 0 &&& mask))
  generalize d.setHw Fl.lockStatusScopes 0 (d.hw Fl.lockStatusScopes 0 - (d.hw Fl.lockStatusScopes 0 &&& mask)) = u at hset
  split
  · refine each_keeps (fun t => t.hif = d.hif ∧ t.flt = d.flt) debugResume _ u (fun n _ t ht => ?_) hset
    obtain ⟨hhif, hflt⟩ := debugResume_hif_flt n t
    exact ⟨hhif.trans ht.1, hflt.trans ht.2⟩
  · exact hset

/-- A field that a stop leaves, in no PWM_MVSTATUS, is as the scopes' own register leaves it. -/
theorem closeScopes_resumes {f : Fld} {i : Nat} (hf : offStop f i) (hp : ∀ m : Fin 8, f.reg.offset i ≠ Reg.offset .pwmMvstatus m)
    (mask : Nat) (d : Dev) :
    sameField f i (d.setHw Fl.lockStatusScopes 0 (d.hw Fl.lockStatusScopes 0 - (d.hw Fl.lockStatusScopes 0 &&& mask))) (closeScopes mask d) := by
  unfold closeScopes
  dsimp only
  generalize d.setHw Fl.lockStatusScopes 0 (d.hw Fl.lockStatusScopes 0 - (d.hw Fl.lockStatusScopes 0 &&& mask)) = t
  split
  · exact each_keeps (fun u => sameField f i t u) debugResume _ t
      (fun n hn u hu => hu.trans (debugResume_field hf hp ((mem_span _ _ _).mp hn).2 u)) (sameField_refl f i t)
  · exact sameField_refl f i t

/-- Every scope is closed. -/
theorem closeScopes_all (d : Dev) : (closeScopes 7 d).hw Fl.lockStatusScopes 0 = 0 := by
  have hlt : d.hw Fl.lockStatusScopes 0 < 2 ^ 3 := hw_lt d Fl.lockStatusScopes 0
  have hall : d.hw Fl.lockStatusScopes 0 &&& 7 = d.hw Fl.lockStatusScopes 0 := by
    rw [show (7 : Nat) = 2 ^ 3 - 1 from rfl, Nat.and_two_pow_sub_one_eq_mod]
    exact Nat.mod_eq_of_lt hlt
  have hkeep := closeScopes_resumes (f := Fl.lockStatusScopes) (i := 0) (by unfold offStop ownPage; decide) (by decide) 7 d
    (hwWritten_setHw_same _ _ _ _)
  rw [hkeep.2, hw_setHw_same _ _ _ _ (by decide), hall, Nat.sub_self]
  rfl

theorem closeScopes_field {f : Fld} {i : Nat} (hf : offStop f i) (hp : ∀ m : Fin 8, f.reg.offset i ≠ Reg.offset .pwmMvstatus m)
    (hl : f.reg.offset i ≠ Reg.offset .lockStatus 0) (mask : Nat) (d : Dev) : sameField f i d (closeScopes mask d) := by
  refine sameField.trans (fun hd => ?_) (closeScopes_resumes hf hp mask d)
  exact ⟨hwWritten_setHw _ _ _ _ _ _ hd, hw_setHw_reg d _ _ _ _ _ hl⟩

/-! ## A reaction that outlasts the closing of the scopes -/

/-- A flag of FLT_STICKY as a field. -/
def stickyFld (b : Nat) : Fld := ⟨.fltSticky, b, 1⟩

theorem hw_stickyFld (d : Dev) (b n : Nat) : d.hw (stickyFld b) n = if (regWord d.regs.hw .fltSticky n).getLsbD b then 1 else 0 := by
  have hbits : d.hw (stickyFld b) n = (regWord d.regs.hw .fltSticky n).toNat / 2 ^ b % 2 ^ 1 := by
    unfold Dev.hw fldOf bits stickyFld
    rw [Nat.shiftRight_eq_div_pow]
  rw [hbits]
  rw [← BitVec.testBit_toNat, Nat.testBit_eq_decide_div_mod_eq]
  by_cases h : (regWord d.regs.hw .fltSticky n).toNat / 2 ^ b % 2 = 1
  · simp [h]
  · simp [h]
    omega

/-- A sticky flag that stands has been written. -/
theorem stickyFld_written (d : Dev) (b n : Nat) (h : (regWord d.regs.hw .fltSticky n).getLsbD b = true) : d.hwWritten (stickyFld b) n := by
  unfold hwWritten
  by_contra hnone
  rw [Bool.not_eq_true, Option.isSome_eq_false_iff, Option.isNone_iff_eq_none] at hnone
  unfold regWord at h
  rw [show SMap.find d.regs.hw (Reg.offset .fltSticky n) = none from hnone] at h
  have hreset : resetWord .fltSticky n = 0 := rfl
  rw [Option.getD_none, hreset] at h
  simp at h

theorem offStop_stickyFld (b n : Nat) (h : b ≠ 14) : offStop (stickyFld b) n := by
  refine ⟨fun hp => hp.2 (fltSticky_place n), ?_⟩
  show b + 1 ≤ 14 ∨ 15 ≤ b
  omega

/-- A flag of a hub presenter, beside bit 14, outlasts the closing of the scopes. -/
theorem closeScopes_sticky (mask b n : Nat) (hb : b ≠ 14) (d : Dev) (h : (d.flagsAt presHif n).getLsbD b = true) :
    ((closeScopes mask d).flagsAt presHif n).getLsbD b = true := by
  have hhub : ∀ t : Dev, t.flagsAt presHif n = regWord t.regs.hw .fltSticky n := fun t => by
    unfold flagsAt flagsAtMv
    rw [decide_eq_false (by decide : ¬ presHif < 8)]
    rfl
  rw [hhub] at h ⊢
  have hpage : 0x10000 ≤ Reg.offset .fltSticky n := by
    simp only [Reg.offset, Reg.place]
    omega
  have hkeep := closeScopes_field (offStop_stickyFld b n hb)
    (fun m => ne_of_gt (lt_of_lt_of_le (pwmMvstatus_lt m) hpage))
    (ne_of_gt (lt_of_lt_of_le (by decide : Reg.offset .lockStatus 0 < 0x10000) hpage)) mask d (stickyFld_written d b n h)
  have hfld := hkeep.2
  rw [hw_stickyFld, hw_stickyFld, h] at hfld
  by_contra hoff
  rw [if_neg hoff] at hfld
  exact absurd hfld (by decide)

/-! ## The loss of the link (R46) -/

/-- Rings as a link loss leaves them. -/
structure ringsGone (d t : Dev) : Prop where
  sqs : ∀ i, (t.sq i).active = false ∧ (t.sq i).epoch = (d.sq i).epoch
  cqs : t.hif.cqs = []
  bqs : t.hif.bqs = []
  outq : t.hif.outq = []
  early : t.hif.early = []
  db : t.hif.dbActive = false

theorem ringsGone.of_hif {d t u : Dev} (h : ringsGone d t) (hu : u.hif = t.hif) : ringsGone d u := by
  obtain ⟨hsqs, hcqs, hbqs, houtq, hearly, hdb⟩ := h
  refine ⟨fun i => ?_, by rw [hu, hcqs], by rw [hu, hbqs], by rw [hu, houtq], by rw [hu, hearly], by rw [hu, hdb]⟩
  have hsq : u.sq i = t.sq i := by
    unfold Dev.sq
    rw [hu]
  rw [hsq]
  exact hsqs i

theorem SMap_get_map {α β : Type} (m : SMap α) (f : α → β) (k : Nat) (a : α) :
    SMap.get (m.map fun e => (e.1, f e.2)) k (f a) = f (SMap.get m k a) := by
  unfold SMap.get
  induction m with
  | nil => rfl
  | cons e m ih =>
    rw [List.map_cons, SMap.find_cons, SMap.find_cons]
    split
    · rfl
    · exact ih

/-- What else a link loss clears of the rings and of what waits for the host. -/
def ringsCleared (d : Dev) : Dev :=
  { d with
    signs := d.signs.map fun e => (e.1, { e.2 with asked := e.2.asked.filter fun b => !d.queuedRead e.1 b })
    cans := d.cans.map fun e => (e.1, { e.2 with reads := [] })
    hif := { d.hif with
      sqs := d.hif.sqs.map (fun (e : Nat × Sq) => (e.1, ({ epoch := e.2.epoch } : Sq))),
      cqs := [], bqs := [], outq := [], early := [], dbActive := false, dbRead := false, dbAgain := false, dbTags := 0, silent := 0,
      silentRaised := false, irq68 := 0, irq69 := 0 } }

/-- The enables that fall are in the registers, so that a link loss clears the rings as they are. -/
theorem ringsOff_eq (d : Dev) : ∃ t : Dev, ringsOff d = ringsCleared t ∧ t.hif = (dropCredits (fun _ => true) d).hif := by
  refine ⟨_, rfl, ?_⟩
  have hfall : ∀ (f : Nat → Dev → Regs) (l : List Nat) (u : Dev), (each l (fun i d => { d with regs := f i d }) u).hif = u.hif :=
    fun f l u => each_same (fun t : Dev => t.hif) _ l u fun _ _ _ => rfl
  rw [hfall, hfall, hfall, hfall]

/-- A ring without the credit of its FENCE. -/
def creditDropped (p : Nat → Bool) (q : Sq) : Sq :=
  { q with fence := q.fence.map fun x => { x with owner := if p x.owner.cq then { x.owner with credit := false } else x.owner } }

theorem dropCredits_sq (p : Nat → Bool) (d : Dev) (i : Nat) : (dropCredits p d).sq i = creditDropped p (d.sq i) :=
  SMap_get_map d.hif.sqs (creditDropped p) i {}

theorem ringsCleared_sq (d : Dev) (i : Nat) : (ringsCleared d).sq i = { epoch := (d.sq i).epoch } :=
  SMap_get_map d.hif.sqs (fun q : Sq => ({ epoch := q.epoch } : Sq)) i {}

/-- The rings' enables fall, each in its register. -/
theorem ringsOff_gone (d : Dev) : ringsGone d (ringsOff d) := by
  obtain ⟨t, heq, hhif⟩ := ringsOff_eq d
  have hsq : ∀ i, t.sq i = (dropCredits (fun _ => true) d).sq i := fun i => by
    unfold Dev.sq
    rw [hhif]
  rw [heq]
  refine ⟨fun i => ?_, rfl, rfl, rfl, rfl, rfl⟩
  rw [ringsCleared_sq, hsq, dropCredits_sq]
  exact ⟨rfl, rfl⟩

/-- The queued frames of every controller are withdrawn. -/
def framesGone (d : Dev) : Dev := each (span 0 4) (fun c d => d.modCan c (withdrawAll 6)) d

theorem framesGone_hif (d : Dev) : (framesGone d).hif = d.hif :=
  each_keeps (fun t : Dev => t.hif = d.hif) _ _ d (fun _ _ _ h => h) rfl

/-- The device before a link loss is raised. -/
def linkCut (d : Dev) : Dev := (framesGone (ringsOff d)).stick Fl.hifStatusLinkLost 0

theorem linkLost_eq (d : Dev) : linkLost d = (linkCut d).raise1 .hostLinkLost 0 0 presHif := rfl

theorem stick_hif (d : Dev) (f : Fld) (i : Nat) : (d.stick f i).hif = d.hif := rfl

theorem linkCut_hif (d : Dev) : (linkCut d).hif = (ringsOff d).hif := by
  unfold linkCut
  rw [stick_hif, framesGone_hif]

theorem linkCut_gone (d : Dev) : ringsGone d (linkCut d) := (ringsOff_gone d).of_hif (linkCut_hif d)

/-- What a link loss shows of itself and of the lock, and its reaction. -/
structure cutOff (d t : Dev) : Prop where
  rings : ringsGone d t
  scopes : t.hw Fl.lockStatusScopes 0 = 0
  lost : t.hw Fl.hifStatusLinkLost 0 = 1
  reaction : d.reacted t .hostLinkLost 0 11

theorem raise1_hif (d : Dev) (s : Src) (place sub pres : Nat) : (d.raise1 s place sub pres).hif = d.hif := by
  rw [raise1_faultOnly]

/-- HOST_LINK_LOST is of class 2, whatever the registers hold. -/
theorem hostLinkLost_reacted (d e : Dev) (h : e.reacted (closeScopes 7 ((e).raise1 .hostLinkLost 0 0 presHif)) .hostLinkLost 0 presHif) :
    d.reacted (closeScopes 7 (e.raise1 .hostLinkLost 0 0 presHif)) .hostLinkLost 0 11 := by
  have hcls : ∀ t : Dev, t.classOf .hostLinkLost = 2 := fun _ => rfl
  unfold reacted at h ⊢
  rw [hcls] at h ⊢
  exact h

theorem linkLost_cutOff (d : Dev) : cutOff d (closeScopes 7 (linkLost d)) := by
  rw [linkLost_eq]
  have hgone := (linkCut_gone d).of_hif (raise1_hif (linkCut d) .hostLinkLost 0 0 presHif)
  have hlost : (linkCut d).hwWritten Fl.hifStatusLinkLost 0 ∧ (linkCut d).hw Fl.hifStatusLinkLost 0 = 1 :=
    ⟨hwWritten_setHw_same _ _ _ _, hw_setHw_same _ _ _ _ (by decide)⟩
  generalize hcut : linkCut d = e at hgone hlost
  have hraised := raise1_reacted e .hostLinkLost 0 0 presHif
  have hfind := find_hw_raise1 e .hostLinkLost 0 0 presHif (a := Reg.offset .hifStatus 0) (offRaise_of_lt _ (by decide) (by decide))
  have hflag : (e.raise1 .hostLinkLost 0 0 presHif).hwWritten Fl.hifStatusLinkLost 0 ∧
      (e.raise1 .hostLinkLost 0 0 presHif).hw Fl.hifStatusLinkLost 0 = 1 := by
    refine ⟨?_, (hw_congr _ _ Fl.hifStatusLinkLost 0 hfind).trans hlost.2⟩
    unfold hwWritten
    rw [hfind]
    exact hlost.1
  refine ⟨hgone.of_hif (closeScopes_hif_flt 7 _).1, closeScopes_all _, ?_, ?_⟩
  · have hkeep := closeScopes_field (f := Fl.hifStatusLinkLost) (i := 0) (by unfold offStop ownPage; decide) (by decide) (by decide) 7
      (e.raise1 .hostLinkLost 0 0 presHif) hflag.1
    rw [hkeep.2, hflag.2]
  · refine hostLinkLost_reacted d e ?_
    obtain ⟨hsticky, hway, hdrive⟩ := hraised
    have hcls : e.classOf .hostLinkLost = 2 := rfl
    refine ⟨fun n hn => closeScopes_sticky 7 _ n (by decide) _ (hsticky n hn), fun hc => ?_, fun hc => ?_⟩
    · obtain ⟨r, hrc, hra, hrcode, hr⟩ := hway hc
      refine ⟨r, hrc, hra, hrcode, ?_⟩
      rw [(closeScopes_hif_flt 7 _).2]
      rw [if_neg (by rintro ⟨h, -⟩; exact absurd h (by decide))] at hr ⊢
      exact hr
    · rw [hcls] at hc
      exact absurd hc (by decide)

end Dev

/-- A link loss of a device that differs in its link's state alone. -/
theorem Dev.cutOff.of_link {d e t : Dev} (h : Dev.cutOff e t) (hsqs : e.hif.sqs = d.hif.sqs) : Dev.cutOff d t := by
  obtain ⟨⟨hsq, hcqs, hbqs, houtq, hearly, hdb⟩, hscopes, hlost, hsticky, hway, hdrive⟩ := h
  have hcls : ∀ u : Dev, u.classOf .hostLinkLost = 2 := fun _ => rfl
  have hepoch : ∀ i, e.sq i = d.sq i := fun i => by
    unfold Dev.sq
    rw [hsqs]
  refine ⟨⟨fun i => ?_, hcqs, hbqs, houtq, hearly, hdb⟩, hscopes, hlost, hsticky, ?_, ?_⟩
  · rw [← hepoch]
    exact hsq i
  · rw [hcls] at hway ⊢
    exact hway
  · rw [hcls] at hdrive ⊢
    exact hdrive

/-- Settles O36: the three commands share one link loss, and the scopes that close leave what it has shown. -/
theorem linkLossStopsRings : Obligations.LinkLossStopsRings := by
  unfold Obligations.LinkLossStopsRings
  have hcommon : ∀ (s d : Dev), Dev.cutOff s d → (∀ i, (d.sq i).active = false ∧ (d.sq i).epoch = (s.sq i).epoch) ∧
      d.hif.cqs = [] ∧ d.hif.bqs = [] ∧ d.hif.outq = [] ∧ d.hif.early = [] ∧ d.hif.dbActive = false ∧
      d.hw Fl.lockStatusScopes 0 = 0 ∧ d.hw Fl.hifStatusLinkLost 0 = 1 ∧ s.reacted d .hostLinkLost 0 11 := by
    rintro s d ⟨⟨hsqs, hcqs, hbqs, houtq, hearly, hdb⟩, hscopes, hlost, hreact⟩
    exact ⟨hsqs, hcqs, hbqs, houtq, hearly, hdb, hscopes, hlost, hreact⟩
  rintro s c (⟨rfl, hup⟩ | ⟨rfl, hd3⟩ | rfl)
  · have heq : Dev.hostLost .down s.dev = Dev.closeScopes 7 ({ s.dev with hif := { s.dev.hif with linkUp := false } } : Dev).linkLost :=
      if_neg (by rw [hup]; decide)
    obtain ⟨hsqs, hcqs, hbqs, houtq, hearly, hdb, hscopes, hlost, hreact⟩ :=
      hcommon s.dev _ ((Dev.linkLost_cutOff ({ s.dev with hif := { s.dev.hif with linkUp := false } } : Dev)).of_link rfl)
    rw [← heq] at hsqs hcqs hbqs houtq hearly hdb hscopes hlost hreact
    exact ⟨Dev.hostLost .down s.dev, rfl, hsqs, hcqs, hbqs, houtq, hearly, hdb, hscopes, hlost, hreact, fun h => nomatch h⟩
  · have heq : Dev.hostLost .d3hot s.dev = Dev.closeScopes 7 ({ s.dev with hif := { s.dev.hif with d3hot := true } } : Dev).linkLost :=
      if_neg (by rw [hd3]; decide)
    obtain ⟨hsqs, hcqs, hbqs, houtq, hearly, hdb, hscopes, hlost, hreact⟩ :=
      hcommon s.dev _ ((Dev.linkLost_cutOff ({ s.dev with hif := { s.dev.hif with d3hot := true } } : Dev)).of_link rfl)
    rw [← heq] at hsqs hcqs hbqs houtq hearly hdb hscopes hlost hreact
    exact ⟨Dev.hostLost .d3hot s.dev, rfl, hsqs, hcqs, hbqs, houtq, hearly, hdb, hscopes, hlost, hreact, fun h => nomatch h⟩
  · have hcut := Dev.linkLost_cutOff s.dev
    have heq : Dev.flr s.dev = { Dev.closeScopes 7 s.dev.linkLost with
        hif := { (Dev.closeScopes 7 s.dev.linkLost).hif with msixPend := 0, extTags := false, msixOn := false, msixMask := false }
        sys := { (Dev.closeScopes 7 s.dev.linkLost).sys with pci := [], aer := [], devCtl := 0x2810 } } := rfl
    generalize Dev.closeScopes 7 s.dev.linkLost = t at hcut heq
    obtain ⟨hsqs, hcqs, hbqs, houtq, hearly, hdb, hscopes, hlost, hreact⟩ := hcommon s.dev t hcut
    refine ⟨Dev.flr s.dev, rfl, ?_⟩
    rw [heq]
    exact ⟨hsqs, hcqs, hbqs, houtq, hearly, hdb, hscopes, hlost, hreact, fun _ => ⟨rfl, rfl, rfl, rfl, rfl, rfl, rfl⟩⟩

end Sys2Proof.Machine
end

section
/-! Proofs for encoder, Hall, index and switch edges (chapter 12). -/

namespace Sys2Proof.Machine

namespace Dev

/-! ## What an operation on one axis leaves of the rest -/

theorem axesOnly.mvax_regs {l : List Nat} {d t : Dev} (h : axesOnly l d t) : t = { d with mvax := t.mvax, regs := t.regs } := by
  have hframe := h.frame
  generalize t.mvax = a at hframe
  generalize t.regs.hw = b at hframe
  subst hframe
  rfl

theorem axesOnly.axesBut {l : List Nat} {d t : Dev} (h : axesOnly l d t) : d.axesBut t l := ⟨fun n _ => h.axis n, h.other⟩

theorem axesOnly.force {l : List Nat} {d t : Dev} (h : axesOnly l d t) : t.regs.force = d.regs.force := by
  rw [h.frame]

theorem ownPage_fbStatus (n : Nat) : ownPage (Reg.offset .fbStatus n) := by
  simp only [ownPage, Reg.offset, Reg.place]
  omega
theorem ownPage_fbZlatch (n : Nat) : ownPage (Reg.offset .fbZlatch n) := by
  simp only [ownPage, Reg.offset, Reg.place]
  omega

theorem modFb_axesOnly (n : Nat) (d : Dev) (f : Fb → Fb) : axesOnly [n] d (d.modFb n f) := axesOnly_modMva n d _
theorem modWatch_axesOnly (n : Nat) (d : Dev) (f : Watch → Watch) : axesOnly [n] d (d.modWatch n f) := axesOnly_modMva n d _
theorem unverified_axesOnly (n : Nat) (d : Dev) : axesOnly [n] d (unverified n d) := axesOnly_modMva n d _

theorem mva_modFb (n : Nat) (d : Dev) (f : Fb → Fb) : (d.modFb n f).mva n = { d.mva n with fb := f (d.mva n).fb } := mva_modMva d n _

/-! ## The counter (R365, R367) -/

/-- The counter goes by the base, the steps and the set-up in force. -/
theorem posInt_congr {d t : Dev} (hforce : t.regs.force = d.regs.force) (n : Nat) (hb : (t.mva n).fb.base = (d.mva n).fb.base)
    (hs : (t.mva n).fb.steps = (d.mva n).fb.steps) : t.posInt n = d.posInt n := by
  unfold posInt fbMode
  dsimp only
  rw [hb, hs, cfg_congr hforce, cfg_congr hforce]

theorem counter_congr {d t : Dev} (hforce : t.regs.force = d.regs.force) (n : Nat) (hb : (t.mva n).fb.base = (d.mva n).fb.base)
    (hs : (t.mva n).fb.steps = (d.mva n).fb.steps) : t.counter n = d.counter n := by
  unfold counter
  rw [posInt_congr hforce n hb hs]

/-- A change of the base moves the position by as much, in every mode. -/
theorem posInt_base (d : Dev) (n : Nat) (k : Int) : (d.modFb n fun f => { f with base := f.base + k }).posInt n = d.posInt n + k := by
  unfold posInt
  rw [mva_modFb]
  dsimp only
  have hmode : (d.modFb n fun f => { f with base := f.base + k }).fbMode n = d.fbMode n := rfl
  have hcpe : (d.modFb n fun f => { f with base := f.base + k }).cfg Fl.elecCfgCpe n = d.cfg Fl.elecCfgCpe n := rfl
  rw [hmode, hcpe]
  split <;> ring

theorem counter_unverified (n : Nat) (d : Dev) : (unverified n d).counter n = d.counter n := by
  have hfb : ((unverified n d).mva n).fb = (d.mva n).fb := by
    unfold unverified
    rw [mva_modMva]
  exact counter_congr (unverified_axesOnly n d).force n (by rw [hfb]) (by rw [hfb])

/-- A counter that wraps reads as before. -/
theorem counter_wrapCheck (n : Nat) (d : Dev) : (wrapCheck n d).counter n = d.counter n := by
  unfold wrapCheck
  dsimp only
  split
  · generalize hk : (BitVec.ofInt 40 (d.posInt n)).toInt - d.posInt n = k
    rw [counter_unverified]
    unfold counter
    rw [show (stick _ Fl.fbStatusWrap n).posInt n = _ from posInt_base d n k, ← hk, add_sub_cancel, BitVec.ofInt_toInt]
  · rfl

theorem wrapCheck_axesOnly (n : Nat) (d : Dev) : axesOnly [n] d (wrapCheck n d) := by
  unfold wrapCheck
  dsimp only
  split
  · exact ((modFb_axesOnly n d _).trans (axesOnly_setHw _ _ _ _ _ (ownPage_fbStatus n))).trans (unverified_axesOnly n _)
  · exact axesOnly_refl _ d

/-- A wrap changes the base alone of an axis's feedback. -/
theorem fb_wrapCheck (n : Nat) (d : Dev) : ((wrapCheck n d).mva n).fb = { (d.mva n).fb with base := ((wrapCheck n d).mva n).fb.base } := by
  unfold wrapCheck
  dsimp only
  split
  · unfold unverified
    rw [mva_modMva]
    unfold stick
    rw [setHw_mva, mva_modFb]
  · rfl

theorem addSteps_axesOnly (n : Nat) (k : Int) (d : Dev) : axesOnly [n] d (addSteps n k d) :=
  (modFb_axesOnly n d _).trans (wrapCheck_axesOnly n _)

theorem fb_addSteps (n : Nat) (k : Int) (d : Dev) : ((addSteps n k d).mva n).fb =
    { (d.mva n).fb with base := ((addSteps n k d).mva n).fb.base, steps := (d.mva n).fb.steps + k } := by
  unfold addSteps
  rw [fb_wrapCheck, mva_modFb]

theorem posInt_encoder (d : Dev) (n : Nat) (h : d.fbMode n = 0) : d.posInt n = (d.mva n).fb.base + (d.mva n).fb.steps * 256 := by
  unfold posInt
  rw [h]
  rfl

/-- In encoder mode each step is one count of 256. -/
theorem counter_addSteps (n : Nat) (k : Int) (d : Dev) (h : d.fbMode n = 0) :
    (addSteps n k d).counter n = d.counter n + BitVec.ofInt 40 (256 * k) := by
  unfold addSteps
  rw [counter_wrapCheck]
  have hpos : (d.modFb n fun f => { f with steps := f.steps + k }).posInt n = d.posInt n + 256 * k := by
    rw [posInt_encoder d n h, posInt_encoder _ n (show (d.modFb n fun f => { f with steps := f.steps + k }).fbMode n = 0 from h),
      mva_modFb]
    ring
  unfold counter
  rw [hpos, BitVec.ofInt_add]

/-! ## Edges -/

theorem watchEdge_axesOnly (n : Nat) (k : Int) (t : Nat) (d : Dev) : axesOnly [n] d (watchEdge n k t d) := by
  unfold watchEdge
  exact modWatch_axesOnly n d _

/-- What the monitors and the speed see of an edge leaves the position. -/
theorem stamp_axesOnly (n : Nat) (k : Int) (t : Nat) (d : Dev) : axesOnly [n] d (stamp n k t d) := by
  unfold stamp
  exact (watchEdge_axesOnly n k t d).trans (modFb_axesOnly n _ _)

theorem fb_stamp (n : Nat) (k : Int) (t : Nat) (d : Dev) : ((stamp n k t d).mva n).fb.base = (d.mva n).fb.base ∧
    ((stamp n k t d).mva n).fb.steps = (d.mva n).fb.steps ∧ ((stamp n k t d).mva n).fb.sector = (d.mva n).fb.sector := by
  have hwatch : ((watchEdge n k t d).mva n).fb = (d.mva n).fb := by
    unfold watchEdge modWatch
    rw [mva_modMva]
  unfold stamp
  rw [mva_modFb, hwatch]
  dsimp only
  split <;> exact ⟨rfl, rfl, rfl⟩

/-- The levels are taken. -/
def levelsTaken (n : Nat) (fa fb fz : Bool) (d : Dev) : Dev :=
  (d.modFb n fun f => { f with init := true, fa := fa, fb := fb, fz := fz }).setHw Fl.fbStatusLevel n
    ((if fa then 1 else 0) + (if fb then 2 else 0) + if fz then 4 else 0)

theorem levelsTaken_axesOnly (n : Nat) (fa fb fz : Bool) (d : Dev) : axesOnly [n] d (levelsTaken n fa fb fz d) :=
  (modFb_axesOnly n d _).trans (axesOnly_setHw _ _ _ _ _ (ownPage_fbStatus n))

theorem mva_levelsTaken (n : Nat) (fa fb fz : Bool) (d : Dev) : (levelsTaken n fa fb fz d).mva n =
    { d.mva n with fb := { (d.mva n).fb with init := true, fa := fa, fb := fb, fz := fz } } := by
  unfold levelsTaken
  rw [setHw_mva, mva_modFb]

theorem disturb_axesOnly (n : Nat) (e : Bool) (d : Dev) : axesOnly [n] d (disturb n e d) := by
  unfold disturb
  split
  · exact axesOnly_modMva n d _
  · exact axesOnly_refl _ d

theorem mva_disturb (n : Nat) (e : Bool) (d : Dev) : (disturb n e d).mva n = { d.mva n with offtDist := ((disturb n e d).mva n).offtDist } := by
  unfold disturb
  split
  · rw [mva_modMva]
  · rfl

/-- An edge whose levels differ from those before, on the hub's side of an index. -/
def edgeTaken (n : Nat) (fa fb fz : Bool) (e : Bool) (d : Dev) : Dev := disturb n e (levelsTaken n fa fb fz d)

theorem edgeTaken_axesOnly (n : Nat) (fa fb fz e : Bool) (d : Dev) : axesOnly [n] d (edgeTaken n fa fb fz e d) :=
  (levelsTaken_axesOnly n fa fb fz d).trans (disturb_axesOnly n e _)

theorem fb_edgeTaken (n : Nat) (fa fb fz e : Bool) (d : Dev) :
    ((edgeTaken n fa fb fz e d).mva n).fb = { (d.mva n).fb with init := true, fa := fa, fb := fb, fz := fz } ∧
    ((edgeTaken n fa fb fz e d).mva n).unver = (d.mva n).unver := by
  unfold edgeTaken
  rw [mva_disturb, mva_levelsTaken]
  exact ⟨rfl, rfl⟩

theorem counter_edgeTaken (n : Nat) (fa fb fz e : Bool) (d : Dev) : (edgeTaken n fa fb fz e d).counter n = d.counter n := by
  have hfb := (fb_edgeTaken n fa fb fz e d).1
  exact counter_congr (edgeTaken_axesOnly n fa fb fz e d).force n (by rw [hfb]) (by rw [hfb])

/-- A field of FB_STATUS beside the levels. -/
theorem hw_edgeTaken (n : Nat) (fa fb fz e : Bool) (d : Dev) (f : Fld) (h : fieldApart Fl.fbStatusLevel n f n) :
    (edgeTaken n fa fb fz e d).hw f n = d.hw f n := by
  unfold edgeTaken
  have hdist : ∀ t : Dev, (disturb n e t).hw f n = t.hw f n := fun t => by
    unfold disturb
    split <;> rfl
  rw [hdist]
  exact hw_setHw_of_apart _ _ _ _ _ _ h

/-- The levels after an edge, in encoder mode, whose index level stays. -/
theorem feedback_encoder (n : Nat) (fa fb fz : Bool) (t : Nat) (d : Dev) (hon : d.mvOn (n / 8) = true) (hinit : (d.mva n).fb.init = true)
    (hmode : d.fbMode n = 0) (hz : fz = (d.mva n).fb.fz) :
    ∃ e, feedback n fa fb fz t d = edgeTaken n fa fb fz e (encoderEdge n fa fb t d) := by
  refine ⟨(fa ≠ (d.mva n).fb.fa || fb ≠ (d.mva n).fb.fb || fz ≠ (d.mva n).fb.fz), ?_⟩
  unfold feedback
  rw [hon, hmode]
  dsimp only
  rw [if_neg (by decide), hinit, if_neg (by decide), if_neg (by rw [hz]; simp)]
  rfl

/-- A change of one channel, or of none. -/
theorem encoderEdge_one (n : Nat) (a b : Bool) (t : Nat) (d : Dev) (h : a = (d.mva n).fb.fa ∨ b = (d.mva n).fb.fb) (hmode : d.fbMode n = 0) :
    axesOnly [n] d (encoderEdge n a b t d) ∧ (encoderEdge n a b t d).counter n =
      d.counter n + BitVec.ofInt 40 (256 * d.invDir n (quadDir (d.mva n).fb.fa (d.mva n).fb.fb a b)) := by
  unfold encoderEdge
  dsimp only
  rw [if_neg (by tauto)]
  generalize d.invDir n (quadDir (d.mva n).fb.fa (d.mva n).fb.fb a b) = k
  split
  case isTrue hk =>
    refine ⟨axesOnly_refl _ d, ?_⟩
    rw [hk]
    simp
  case isFalse =>
    have hstamp := stamp_axesOnly n k t (addSteps n k d)
    obtain ⟨hbase, hsteps, -⟩ := fb_stamp n k t (addSteps n k d)
    exact ⟨(addSteps_axesOnly n k d).trans hstamp,
      (counter_congr hstamp.force n hbase hsteps).trans (counter_addSteps n k d hmode)⟩

/-! ## A raised source and the feedback -/

/-- What a raised source leaves of an axis in its movement: its feedback, and a mark that its position is unverified. -/
def fbKept (k : Nat) (d t : Dev) : Prop := (t.mva k).fb = (d.mva k).fb ∧ ((d.mva k).unver = true → (t.mva k).unver = true)

theorem stoAxis_fbKept (n k : Nat) (d : Dev) : fbKept k d (stoAxis n d) := by
  by_cases h : k = n
  · subst h
    unfold fbKept stoAxis
    dsimp only
    rw [mva_modMva]
    exact ⟨rfl, fun hu => by
      show ((d.mva k).unver || _) = true
      rw [hu]
      rfl⟩
  · unfold fbKept
    rw [mva_stoAxis_other d h]
    exact ⟨rfl, id⟩

theorem raise1_fbKept (d : Dev) (s : Src) (place sub pres k : Nat) : fbKept k d (d.raise1 s place sub pres) := by
  obtain ⟨f, hf, -, -⟩ := raiseAs_stages d s place sub pres (d.classOf s) .stoppedFault
  have hmva : ∀ t u : Dev, u.mvax = t.mvax → u.mva k = t.mva k := fun t u h => by
    unfold mva
    rw [h]
  have hreact : fbKept k d (reactNow (d.classOf s) (reactionSet s place) (d.raiseFlags s place pres (d.classOf s))) := by
    have hflags := hmva _ _ (mvax_raiseFlags d s place pres (d.classOf s))
    unfold reactNow
    split
    · unfold fbKept
      rw [hflags]
      exact ⟨rfl, id⟩
    · rw [latchSto_frame]
      refine each_keeps (fbKept k d) stoAxis _ _ (fun n _ t ht => ?_) (by unfold fbKept; rw [hflags]; exact ⟨rfl, id⟩)
      obtain ⟨hfb, hun⟩ := stoAxis_fbKept n k t
      exact ⟨hfb.trans ht.1, fun hu => hun (ht.2 hu)⟩
  have hsend := hmva _ _ (mvax_sendReact (reactNow (d.classOf s) (reactionSet s place) (d.raiseFlags s place pres (d.classOf s))) pres
    (reactOf s place (d.classOf s) .stoppedFault))
  have hall : (d.raise1 s place sub pres).mva k =
      (reactNow (d.classOf s) (reactionSet s place) (d.raiseFlags s place pres (d.classOf s))).mva k := by
    unfold raise1 raise
    rw [settle_frame, hf]
    exact hsend
  unfold fbKept
  rw [hall]
  exact hreact

theorem raise1_force (d : Dev) (s : Src) (place sub pres : Nat) : (d.raise1 s place sub pres).regs.force = d.regs.force := by
  rw [raise1_faultOnly]

/-! ## A change of both channels (R366) -/

/-- The flag and the count of such a change. -/
def qerrShown (n : Nat) (d : Dev) : Dev := unverified n ((d.stick Fl.fbStatusQerr n).bump Fl.fbStatusQerrCnt n 1)

theorem qerrShown_facts (n : Nat) (d : Dev) : axesOnly [n] d (qerrShown n d) ∧ ((qerrShown n d).mva n).fb = (d.mva n).fb ∧
    ((qerrShown n d).mva n).unver = true ∧ (qerrShown n d).hw Fl.fbStatusQerr n = 1 ∧
    (qerrShown n d).hw Fl.fbStatusQerrCnt n = min (2 ^ Fl.fbStatusQerrCnt.width - 1) (d.hw Fl.fbStatusQerrCnt n + 1) := by
  have hapart : fieldApart Fl.fbStatusQerrCnt n Fl.fbStatusQerr n := Or.inr ⟨rfl, rfl, by decide, by decide⟩
  have hapart' : fieldApart Fl.fbStatusQerr n Fl.fbStatusQerrCnt n := Or.inr ⟨rfl, rfl, by decide, by decide⟩
  have hun : ∀ (t : Dev) (f : Fld) (i : Nat), (unverified n t).hw f i = t.hw f i := fun _ _ _ => rfl
  unfold qerrShown
  refine ⟨((axesOnly_setHw _ _ _ _ _ (ownPage_fbStatus n)).trans (axesOnly_setHw _ _ _ _ _ (ownPage_fbStatus n))).trans
    (unverified_axesOnly n _), ?_, ?_, ?_, ?_⟩
  · unfold unverified
    rw [mva_modMva]
    rfl
  · unfold unverified
    rw [mva_modMva]
  · rw [hun]
    unfold bump stick
    rw [hw_setHw_of_apart _ _ _ _ _ _ hapart, hw_setHw_same _ _ _ _ (by decide)]
    rfl
  · rw [hun]
    unfold bump stick
    rw [hw_setHw_same _ _ _ _ (by decide), hw_setHw_of_apart _ _ _ _ _ _ hapart']
    exact Nat.mod_eq_of_lt (lt_of_le_of_lt (min_le_left _ _) (by decide))

theorem encoderEdge_both (n : Nat) (a b : Bool) (t : Nat) (d : Dev) (h : a ≠ (d.mva n).fb.fa ∧ b ≠ (d.mva n).fb.fb) :
    encoderEdge n a b t d = (qerrShown n d).raise1 .encQerr n 0 (n / 8) := if_pos h

theorem offRaise_fbStatus (n : Nat) : offRaise (Reg.offset .fbStatus n) :=
  offRaise_of_mod _ (by simp only [Reg.offset, Reg.place]; omega) (by simp only [Reg.offset, Reg.place]; omega)
    (by simp only [Reg.offset, Reg.place]; omega)

theorem offFlags_fbStatus (n : Nat) : offFlags (Reg.offset .fbStatus n) := by
  constructor
  · simp only [Reg.offset, Reg.place]
    omega
  · intro k
    simp only [Reg.offset, Reg.place]
    omega

/-- The levels of an edge keep a reaction. -/
theorem keepsReaction_edgeTaken (p n : Nat) (fa fb fz e : Bool) (d : Dev) : keepsReaction p d (edgeTaken n fa fb fz e d) := by
  have hdist : ∀ t : Dev, keepsReaction p t (disturb n e t) := fun t => by
    unfold disturb
    split
    · exact keepsReaction_modMva p t n _ id
    · exact .refl p t
  exact ((keepsReaction_modMva p d n _ id).trans (keepsReaction_setHw p _ Fl.fbStatusLevel n _ (offFlags_fbStatus n))).trans (hdist _)

end Dev

/-- A qualified edge in encoder mode. -/
theorem feedbackEdge_encoder (s : State) (ax : Fin 64) (a b z : Bool) (held off t : Nat) (hon : s.dev.mvOn (ax.val / 8) = true)
    (hmode : s.dev.fbMode ax = 0) (hqual : s.dev.qualFb ax held off = some t) (hinit : (s.dev.mva ax).fb.init = true)
    (hz : z = (s.dev.mva ax).fb.fz) :
    ∃ d, exec (.feedbackEdge ax a b z ⟨held, off⟩) s = .next { s with dev := d } ∧
      (d.mva ax).fb.fa = a ∧ (d.mva ax).fb.fb = b ∧
      ((a = (s.dev.mva ax).fb.fa ∨ b = (s.dev.mva ax).fb.fb) →
        d.counter ax = s.dev.counter ax + BitVec.ofInt 40
          (256 * s.dev.invDir ax (Dev.quadDir (s.dev.mva ax).fb.fa (s.dev.mva ax).fb.fb a b)) ∧
        s.dev.axesBut d [ax.val] ∧ d = { s.dev with mvax := d.mvax, regs := d.regs }) ∧
      ((a ≠ (s.dev.mva ax).fb.fa ∧ b ≠ (s.dev.mva ax).fb.fb) →
        d.counter ax = s.dev.counter ax ∧ (d.mva ax).unver = true ∧ d.hw Fl.fbStatusQerr ax = 1 ∧
        d.hw Fl.fbStatusQerrCnt ax = min (2 ^ Fl.fbStatusQerrCnt.width - 1) (s.dev.hw Fl.fbStatusQerrCnt ax + 1) ∧
        s.dev.reacted d .encQerr ax (ax.val / 8)) := by
  obtain ⟨e, heq⟩ := Dev.feedback_encoder ax a b z t s.dev hon hinit hmode hz
  obtain ⟨hfb, hunver⟩ := Dev.fb_edgeTaken ax a b z e (Dev.encoderEdge ax a b t s.dev)
  have hcounter := Dev.counter_edgeTaken ax a b z e (Dev.encoderEdge ax a b t s.dev)
  have honly := Dev.edgeTaken_axesOnly ax a b z e (Dev.encoderEdge ax a b t s.dev)
  have hhw := Dev.hw_edgeTaken ax a b z e (Dev.encoderEdge ax a b t s.dev)
  have hkeep := Dev.keepsReaction_edgeTaken (ax.val / 8) ax a b z e (Dev.encoderEdge ax a b t s.dev)
  rw [← heq] at hfb hunver hcounter honly hhw hkeep
  refine ⟨Dev.feedback ax a b z t s.dev, ?_, by rw [hfb], by rw [hfb], fun hone => ?_, fun hboth => ?_⟩
  · show s.onDev (fun d => match d.qualFb ax held off with | some t => Dev.feedback ax a b z t d | none => d) = _
    unfold State.onDev
    dsimp only
    rw [hqual]
  · obtain ⟨hedge, hcount⟩ := Dev.encoderEdge_one ax a b t s.dev hone hmode
    have hall := hedge.trans honly
    exact ⟨hcounter.trans hcount, hall.axesBut, hall.mvax_regs⟩
  · rw [Dev.encoderEdge_both ax a b t s.dev hboth] at hcounter hunver hhw hkeep
    obtain ⟨hshown, hqfb, hqun, hqerr, hqcnt⟩ := Dev.qerrShown_facts ax s.dev
    obtain ⟨hrfb, hrun⟩ := Dev.raise1_fbKept (Dev.qerrShown ax s.dev) .encQerr ax 0 (ax.val / 8) ax
    have hoff := Dev.offRaise_fbStatus ax
    have hkept := Dev.counter_congr (d := s.dev) ((Dev.raise1_force (Dev.qerrShown ax s.dev) .encQerr ax 0 (ax.val / 8)).trans hshown.force)
      ax (by rw [hrfb, hqfb]) (by rw [hrfb, hqfb])
    refine ⟨hcounter.trans hkept, hunver.trans (hrun hqun), ?_, ?_, ?_⟩
    · rw [hhw Fl.fbStatusQerr (Or.inr ⟨rfl, rfl, by decide, by decide⟩), Dev.hw_raise1 _ .encQerr ax 0 (ax.val / 8) Fl.fbStatusQerr ax hoff, hqerr]
    · rw [hhw Fl.fbStatusQerrCnt (Or.inr ⟨rfl, rfl, by decide, by decide⟩), Dev.hw_raise1 _ .encQerr ax 0 (ax.val / 8) Fl.fbStatusQerrCnt ax hoff, hqcnt]
    · exact ((Dev.raise1_reacted _ .encQerr ax 0 (ax.val / 8)).from hshown.force).keep hkeep

/-- A qualified change is fed to the axis. -/
theorem exec_feedbackEdge (s : State) (ax : Fin 64) (a b z : Bool) (held off t : Nat) (hqual : s.dev.qualFb ax held off = some t) :
    exec (.feedbackEdge ax a b z ⟨held, off⟩) s = .next { s with dev := Dev.feedback ax a b z t s.dev } := by
  show s.onDev (fun d => match d.qualFb ax held off with | some t => Dev.feedback ax a b z t d | none => d) = _
  unfold State.onDev
  dsimp only
  rw [hqual]

namespace Dev

/-! ## Hall steps (R368) and first levels (R374) -/

/-- A Hall state of the next sector. -/
theorem hallEdge_next (n : Nat) (h1 h2 h3 : Bool) (t o c : Nat) (d : Dev) (ho : (d.mva n).fb.sector = some o)
    (hc : d.hallSector n ((if h1 then 1 else 0) + (if h2 then 2 else 0) + (if h3 then 4 else 0)) = some c) (hnext : c = (o + 1) % 6) :
    axesOnly [n] d (hallEdge n h1 h2 h3 t d) ∧ ((hallEdge n h1 h2 h3 t d).mva n).fb.sector = some c ∧
      ((hallEdge n h1 h2 h3 t d).mva n).fb.steps = (d.mva n).fb.steps + d.invDir n 1 := by
  obtain ⟨u, hu⟩ : ∃ u, u = d.modFb n fun f => { f with sector := some c, angled := c } := ⟨_, rfl⟩
  have hinv : u.invDir n 1 = d.invDir n 1 := by rw [hu]; rfl
  have heq : hallEdge n h1 h2 h3 t d = stamp n (u.invDir n 1) t (addSteps n (u.invDir n 1) u) := by
    unfold hallEdge
    dsimp only
    rw [hc, ho]
    dsimp only
    rw [if_pos hnext]
    simp only [if_pos (Or.inl hnext : c = (o + 1) % 6 ∨ o = (c + 1) % 6)]
    rw [hu]
  obtain ⟨-, hsteps, hsector⟩ := fb_stamp n (u.invDir n 1) t (addSteps n (u.invDir n 1) u)
  have hadd := fb_addSteps n (u.invDir n 1) u
  have hown : (u.mva n).fb = { (d.mva n).fb with sector := some c, angled := c } := by rw [hu, mva_modFb]
  rw [heq]
  refine ⟨?_, ?_, ?_⟩
  · exact ((by rw [hu]; exact modFb_axesOnly n d _ : axesOnly [n] d u).trans (addSteps_axesOnly n _ u)).trans (stamp_axesOnly n _ t _)
  · rw [hsector, hadd, hown]
  · rw [hsteps, hadd, hown, hinv]

/-- The levels after a Hall edge. -/
theorem feedback_hall (n : Nat) (fa fb fz : Bool) (t : Nat) (d : Dev) (hon : d.mvOn (n / 8) = true) (hinit : (d.mva n).fb.init = true)
    (hmode : d.fbMode n = 1) (hnew : ¬ (fa = (d.mva n).fb.fa ∧ fb = (d.mva n).fb.fb ∧ fz = (d.mva n).fb.fz))
    (hsame : ∀ e, (edgeTaken n fa fb fz e (hallEdge n fa fb fz t d)).fbMode n = 1) :
    ∃ e, feedback n fa fb fz t d = edgeTaken n fa fb fz e (hallEdge n fa fb fz t d) := by
  refine ⟨(fa ≠ (d.mva n).fb.fa || fb ≠ (d.mva n).fb.fb || fz ≠ (d.mva n).fb.fz), ?_⟩
  have hindex : ∀ u : Dev, u.fbMode n = 1 → indexEdge n u = u := fun u hu => if_neg (by rw [hu]; simp)
  unfold feedback
  rw [hon, hmode]
  dsimp only
  rw [if_neg (by decide), hinit, if_neg (by decide), if_neg hnew]
  split
  · exact hindex _ (hsame _)
  · rfl

/-- The first levels after a return of the domain. -/
theorem feedback_first (n : Nat) (fa fb fz : Bool) (t : Nat) (d : Dev) (hon : d.mvOn (n / 8) = true) (hinit : (d.mva n).fb.init = false) :
    feedback n fa fb fz t d = takeSector n (levelsTaken n fa fb fz d) := by
  unfold feedback
  rw [hon]
  dsimp only
  rw [if_neg (by decide), hinit, if_pos (by decide)]
  rfl

theorem takeSector_axesOnly (n : Nat) (d : Dev) : axesOnly [n] d (takeSector n d) := by
  unfold takeSector
  exact modFb_axesOnly n d _

theorem fb_takeSector (n : Nat) (d : Dev) : ((takeSector n d).mva n).fb =
    { (d.mva n).fb with sector := ((takeSector n d).mva n).fb.sector, angled := ((takeSector n d).mva n).fb.angled } := by
  unfold takeSector
  rw [mva_modFb]

/-! ## The index (R369) -/

/-- An index that rises without another edge. -/
theorem index_takes (n t : Nat) (d : Dev) (hon : d.mvOn (n / 8) = true) (hinit : (d.mva n).fb.init = true) (hmode : d.fbMode n = 0)
    (hz : (d.mva n).fb.fz = false) (hzen : d.on Fl.fbCfgZen n = true) :
    ∃ e, index n t d = indexTake n (edgeTaken n (d.mva n).fb.fa (d.mva n).fb.fb true e d) := by
  refine ⟨((d.mva n).fb.fa ≠ (d.mva n).fb.fa || (d.mva n).fb.fb ≠ (d.mva n).fb.fb || true ≠ false), ?_⟩
  have hstill : encoderEdge n (d.mva n).fb.fa (d.mva n).fb.fb t d = d := by
    unfold encoderEdge
    dsimp only
    rw [if_neg (by tauto), if_pos (by unfold invDir quadDir; simp)]
  have hedge : ∀ u : Dev, u.regs.force = d.regs.force → indexEdge n u = indexTake n u := fun u hu => by
    have hm : u.fbMode n = 0 := (cfg_congr hu Fl.fbCfgMode n).trans hmode
    have ho : u.on Fl.fbCfgZen n = true := (congrArg (fun w => decide (w ≠ 0)) (cfg_congr hu Fl.fbCfgZen n)).trans hzen
    unfold indexEdge
    rw [hm, ho]
    rfl
  unfold index
  dsimp only
  rw [if_pos hmode]
  unfold feedback
  rw [hon, hmode]
  dsimp only
  rw [if_neg (by decide), hinit, if_neg (by decide), hstill, hz]
  rw [if_pos (by decide)]
  exact hedge (edgeTaken n (d.mva n).fb.fa (d.mva n).fb.fb true _ d) (edgeTaken_axesOnly n _ _ true _ d).force

/-- The first index latch is the reference. -/
theorem indexTake_first (n : Nat) (d : Dev) (h : (d.mva n).fb.zref = none) :
    axesOnly [n] d (indexTake n d) ∧ ((indexTake n d).mva n).fb.zref = some (d.wholeCount n) ∧
      (indexTake n d).hw Fl.fbZlatchZpos n = (BitVec.ofInt 32 (d.wholeCount n)).toNat ∧ (indexTake n d).hw Fl.fbStatusZseen n = 1 := by
  have heq : indexTake n d = ((d.setHw Fl.fbZlatchZpos n (BitVec.ofInt 32 (d.wholeCount n)).toNat).stick Fl.fbStatusZseen n).modFb n
      fun f => { f with zref := some (d.wholeCount n) } := by
    unfold indexTake
    dsimp only
    have hz : (((d.setHw Fl.fbZlatchZpos n (BitVec.ofInt 32 (d.wholeCount n)).toNat).stick Fl.fbStatusZseen n).mva n).fb.zref = none := h
    rw [hz]
  have hplace : Reg.offset .fbZlatch n ≠ Reg.offset .fbStatus n := by
    simp only [Reg.offset, Reg.place]
    omega
  have hmod : ∀ (t : Dev) (g : Fb → Fb) (f : Fld) (i : Nat), (t.modFb n g).hw f i = t.hw f i := fun _ _ _ _ => rfl
  rw [heq]
  refine ⟨?_, ?_, ?_, ?_⟩
  · exact ((axesOnly_setHw _ _ _ _ _ (ownPage_fbZlatch n)).trans (axesOnly_setHw _ _ _ _ _ (ownPage_fbStatus n))).trans (modFb_axesOnly n _ _)
  · rw [mva_modFb]
  · rw [hmod]
    unfold stick
    rw [hw_setHw_reg _ Fl.fbStatusZseen Fl.fbZlatchZpos n n _ hplace, hw_setHw_same _ _ _ _ (by decide)]
    exact Nat.mod_eq_of_lt (BitVec.isLt _)
  · rw [hmod]
    unfold stick
    rw [hw_setHw_same _ _ _ _ (by decide)]
    rfl

/-! ## Switches and the end of the speed (R141, R371, R373) -/

theorem wholeCount_congr {d t : Dev} (n : Nat) (h : t.counter n = d.counter n) : t.wholeCount n = d.wholeCount n := by
  unfold wholeCount
  rw [h]

theorem switchA_axesOnly (n : Nat) (level : Bool) (d : Dev) : axesOnly [n] d (switchA n level d) := by
  unfold switchA
  exact modFb_axesOnly n d _

/-- A change of SWA that SW_CFG takes once a time or at each of its edges. -/
theorem fb_switchA (n : Nat) (level : Bool) (d : Dev) (hin : (d.mva n).fb.swaIn = true) (hnew : level ≠ (d.mva n).fb.swa)
    (honce : d.on Fl.swCfgOnceA n = false) : ((switchA n level d).mva n).fb.swa = level ∧
      ((switchA n level d).mva n).fb.swaPos = (if edgeOn (d.cfg Fl.swCfgEdgeA n) level then d.counter n else (d.mva n).fb.swaPos) ∧
      ((switchA n level d).mva n).fb.swaCnt = (if edgeOn (d.cfg Fl.swCfgEdgeA n) level then (d.mva n).fb.swaCnt + 1
        else (d.mva n).fb.swaCnt) := by
  unfold switchA
  rw [mva_modFb, hin, honce, decide_eq_true hnew]
  simp only [Bool.true_and, Bool.false_and, Bool.not_false, Bool.and_true]
  exact ⟨trivial, trivial, trivial⟩

/-- Standstill of the edges touches no register. -/
theorem speedStill_facts (n : Nat) (d : Dev) (h : d.stillDue n = true) :
    ((speedStill n d).mva n).fb = { (d.mva n).fb with stamps := [], valid := false, dir := 0 } ∧
      d.axesBut (speedStill n d) [n] ∧ speedStill n d = { d with mvax := (speedStill n d).mvax } := by
  have honly : axesOnly [n] d (speedStill n d) := by
    unfold speedStill
    rw [if_pos h]
    exact (modFb_axesOnly n d _).trans (axesOnly_modMva n _ _)
  refine ⟨?_, honly.axesBut, ?_⟩
  · unfold speedStill
    rw [if_pos h]
    dsimp only
    rw [mva_modMva, mva_modFb]
    split <;> rfl
  · unfold speedStill
    rw [if_pos h]
    rfl

end Dev

/-- Settles O43. -/
theorem feedbackCounts : Obligations.FeedbackCounts := by
  unfold Obligations.FeedbackCounts
  refine ⟨feedbackEdge_encoder, fun s ax a b z held off t o c hon hmode hqual hinit ho hc hnext hnew => ?_,
    fun s ax a b z held off t hon hinit hqual => ?_, fun s ax a b z held off _ hqual => ?_,
    fun s ax held off t hon hmode hqual hzen hinit hz href => ?_, fun s ax level held off hqual hon hin hnew honce => ?_, fun s ax hdue => ?_⟩
  · obtain ⟨hhall, hsector, hsteps⟩ := Dev.hallEdge_next ax a b z t o c s.dev ho hc hnext
    obtain ⟨e, heq⟩ := Dev.feedback_hall ax a b z t s.dev hon hinit hmode hnew fun e =>
      (Dev.cfg_congr (hhall.trans (Dev.edgeTaken_axesOnly ax a b z e _)).force Fl.fbCfgMode ax).trans hmode
    have honly := hhall.trans (Dev.edgeTaken_axesOnly ax a b z e _)
    have hfb := (Dev.fb_edgeTaken ax a b z e (Dev.hallEdge ax a b z t s.dev)).1
    rw [← heq] at honly hfb
    exact ⟨_, exec_feedbackEdge s ax a b z held off t hqual, by rw [hfb]; exact hsector, by rw [hfb]; exact hsteps, honly.axesBut,
      honly.mvax_regs⟩
  · have heq := Dev.feedback_first ax a b z t s.dev hon hinit
    have honly := (Dev.levelsTaken_axesOnly ax a b z s.dev).trans (Dev.takeSector_axesOnly ax _)
    have hfb := Dev.fb_takeSector ax (Dev.levelsTaken ax a b z s.dev)
    rw [← heq] at honly hfb
    rw [Dev.mva_levelsTaken] at hfb
    exact ⟨_, exec_feedbackEdge s ax a b z held off t hqual, by rw [hfb], by rw [hfb], by rw [hfb], by rw [hfb], by rw [hfb], by rw [hfb],
      honly.axesBut, honly.mvax_regs⟩
  · show s.onDev (fun d => match d.qualFb ax held off with | some t => Dev.feedback ax a b z t d | none => d) = _
    unfold State.onDev
    dsimp only
    rw [hqual]
  · obtain ⟨e, heq⟩ := Dev.index_takes ax t s.dev hon hinit hmode hz hzen
    have hedge := Dev.edgeTaken_axesOnly ax (s.dev.mva ax).fb.fa (s.dev.mva ax).fb.fb true e s.dev
    have hfb := (Dev.fb_edgeTaken ax (s.dev.mva ax).fb.fa (s.dev.mva ax).fb.fb true e s.dev).1
    have hcount := Dev.wholeCount_congr ax (Dev.counter_edgeTaken ax (s.dev.mva ax).fb.fa (s.dev.mva ax).fb.fb true e s.dev)
    obtain ⟨htake, hzref, hzpos, hseen⟩ := Dev.indexTake_first ax
      (Dev.edgeTaken ax (s.dev.mva ax).fb.fa (s.dev.mva ax).fb.fb true e s.dev) (by rw [hfb]; exact href)
    have honly := hedge.trans htake
    rw [← heq] at honly hzref hzpos hseen
    rw [hcount] at hzref hzpos
    refine ⟨Dev.index ax t s.dev, ?_, hzref, hzpos, hseen, honly.axesBut, honly.mvax_regs⟩
    show s.onDev (fun d => match d.qualFb ax held off with | some t => Dev.index ax t d | none => d) = _
    unfold State.onDev
    dsimp only
    rw [hqual]
  · obtain ⟨hswa, hpos, hcnt⟩ := Dev.fb_switchA ax level s.dev hin hnew honce
    have heq : ∃ v, Dev.switch ax false level s.dev = (Dev.switchA ax level s.dev).setHw Fl.fbStatusSwlevel ax v := by
      unfold Dev.switch
      rw [hon]
      exact ⟨_, rfl⟩
    obtain ⟨v, heq⟩ := heq
    have honly := (Dev.switchA_axesOnly ax level s.dev).trans (Dev.axesOnly_setHw [ax.val] _ Fl.fbStatusSwlevel ax v (Dev.ownPage_fbStatus ax))
    rw [← heq] at honly
    have hfb : (Dev.switch ax false level s.dev).mva ax = (Dev.switchA ax level s.dev).mva ax := by rw [heq, Dev.setHw_mva]
    refine ⟨Dev.switch ax false level s.dev, ?_, by rw [hfb]; exact hswa, by rw [hfb]; exact hpos, by rw [hfb]; exact hcnt, honly.axesBut,
      honly.mvax_regs⟩
    show s.onDev (fun d => if (d.qualSw ax held off).isSome then Dev.switch ax false level d else d) = _
    unfold State.onDev
    dsimp only
    rw [if_pos hqual]
  · obtain ⟨hfb, hbut, hframe⟩ := Dev.speedStill_facts ax s.dev hdue
    exact ⟨Dev.speedStill ax s.dev, rfl, by rw [hfb], by rw [hfb], by rw [hfb], by rw [hfb], hbut, hframe⟩

end Sys2Proof.Machine
end

section
/-! Proofs for shorts, stuck gates and the supplies of the gates (chapter 10). -/

namespace Sys2Proof.Machine

namespace Dev

/-! ## What a raise keeps of an axis in its movement -/

/-- What every STO keeps of an axis, a raise keeps. -/
theorem mva_raiseAs_keeps (P : MvAxis → Prop) {k : Nat} (hsto : ∀ n t, P (t.mva k) → P ((stoAxis n t).mva k)) (d : Dev) (s : Src)
    (place sub pres cls : Nat) (st : Status) (h : P (d.mva k)) : P ((d.raiseAs s place sub pres cls st).mva k) := by
  obtain ⟨f, hf, -, -⟩ := raiseAs_stages d s place sub pres cls st
  have hmva : ∀ t u : Dev, u.mvax = t.mvax → u.mva k = t.mva k := fun t u h => by
    unfold mva
    rw [h]
  have hflags := hmva _ _ (mvax_raiseFlags d s place pres cls)
  have hsend := hmva _ _ (mvax_sendReact (reactNow cls (reactionSet s place) (d.raiseFlags s place pres cls)) pres (reactOf s place cls st))
  have hreact : P ((reactNow cls (reactionSet s place) (d.raiseFlags s place pres cls)).mva k) := by
    unfold reactNow
    split
    · rwa [hflags]
    · rw [latchSto_frame]
      exact each_keeps (fun t => P (t.mva k)) stoAxis _ _ (fun n _ t => hsto n t) (by rwa [hflags])
  rw [hf]
  show P ((sendReact _ _ _).mva k)
  rwa [hsend]

/-- What an STO of an axis brings and every other keeps, a raise of class 3 or above brings to the axes of its class. -/
theorem mva_raiseAs_sto (P : MvAxis → Prop) {k : Nat} (hdo : ∀ t, P ((stoAxis k t).mva k))
    (hsto : ∀ n t, P (t.mva k) → P ((stoAxis n t).mva k)) (d : Dev) (s : Src) (place sub pres cls : Nat) (st : Status) (hc : 3 ≤ cls)
    (hk : k ∈ classAxes cls (reactionSet s place)) : P ((d.raiseAs s place sub pres cls st).mva k) := by
  obtain ⟨f, hf, -, -⟩ := raiseAs_stages d s place sub pres cls st
  have hreact : P ((reactNow cls (reactionSet s place) (d.raiseFlags s place pres cls)).mva k) := by
    unfold reactNow
    rw [if_neg (by omega), latchSto_frame]
    exact each_does (fun t : Dev => P (t.mva k)) stoAxis _ _ k hk hdo fun n _ _ t => hsto n t
  have hsend : ((reactNow cls (reactionSet s place) (d.raiseFlags s place pres cls)).sendReact pres (reactOf s place cls st)).mva k =
      (reactNow cls (reactionSet s place) (d.raiseFlags s place pres cls)).mva k := by
    unfold mva
    rw [mvax_sendReact]
  rw [hf]
  show P ((sendReact _ _ _).mva k)
  rwa [hsend]

theorem mva_settle (d : Dev) (k : Nat) : d.settle.mva k = d.mva k := by
  rw [settle_frame]
  rfl

theorem mva_raise1_keeps (P : MvAxis → Prop) {k : Nat} (hsto : ∀ n t, P (t.mva k) → P ((stoAxis n t).mva k)) (d : Dev) (s : Src)
    (place sub pres : Nat) (h : P (d.mva k)) : P ((d.raise1 s place sub pres).mva k) := by
  unfold raise1
  rw [mva_settle]
  exact mva_raiseAs_keeps P hsto d s place sub pres _ _ h

/-- A raise keeps the reaction of an earlier one. -/
theorem keepsReaction_raiseAs (d : Dev) (s : Src) (place sub p cls : Nat) (st : Status) :
    keepsReaction p d (d.raiseAs s place sub p cls st) := by
  obtain ⟨f, hf, hm, hr⟩ := raiseAs_stages d s place sub p cls st
  rw [hf]
  have hflags : keepsReaction p d (d.raiseFlags s place p cls) :=
    (keepsReaction.each _ _ _ fun n _ t => keepsReaction_stickAxis p _ _ n t).trans
      (keepsReaction.each _ _ _ fun n _ t => keepsReaction_stickAxis p _ _ n t)
  exact ((hflags.trans (keepsReaction_reactNow p cls _ _)).trans (keepsReaction_sendReact p p _ _)).trans
    (keepsReaction_flt p _ f hm hr)

/-- Gates that go off discard a commit in flight (R199). -/
theorem buf_offAt (t : Nat) (l : Legs) : (l.offAt t).buf = none := by
  unfold Legs.offAt
  dsimp only
  split <;> rfl

theorem buf_stoAxis_same (n : Nat) (d : Dev) : ((stoAxis n d).mva n).legs.buf = none := by
  unfold stoAxis
  dsimp only
  rw [mva_modMva]
  exact buf_offAt _ _

/-- A commit in flight that is discarded stays so under an STO. -/
theorem buf_stoAxis (n k : Nat) (d : Dev) (h : (d.mva k).legs.buf = none) : ((stoAxis n d).mva k).legs.buf = none := by
  by_cases hk : k = n
  · subst hk
    exact buf_stoAxis_same k d
  · rwa [mva_stoAxis_other d hk]

/-! ## Registers of the gates -/

theorem ownPage_gateAxstatus (n : Nat) : ownPage (Reg.offset .gateAxstatus n) := by
  simp only [ownPage, Reg.offset, Reg.place]
  omega
theorem ownPage_gateStatus (n k : Nat) (hk : k < 4) : ownPage (Reg.offset .gateStatus (4 * n + k)) := by
  simp only [ownPage, Reg.offset, Reg.place]
  omega

theorem offRaise_gateAxstatus (n : Nat) : offRaise (Reg.offset .gateAxstatus n) :=
  offRaise_of_mod _ (by simp only [Reg.offset, Reg.place]; omega) (by simp only [Reg.offset, Reg.place]; omega)
    (by simp only [Reg.offset, Reg.place]; omega)
theorem offRaise_gateStatus (i : Nat) : offRaise (Reg.offset .gateStatus i) :=
  offRaise_of_mod _ (by simp only [Reg.offset, Reg.place]; omega) (by simp only [Reg.offset, Reg.place]; omega)
    (by simp only [Reg.offset, Reg.place]; omega)

theorem gateStatus_inj {i j : Nat} (h : Reg.offset .gateStatus i = Reg.offset .gateStatus j) : i = j := by
  simp only [Reg.offset, Reg.place] at h
  omega
theorem gateStatus_apart (i n : Nat) : Reg.offset .gateStatus i ≠ Reg.offset .gateAxstatus n := by
  simp only [Reg.offset, Reg.place]
  omega

/-- A flag per leg that is set on a list of legs stands on each of them. -/
theorem hw_each_stick (f : Fld) (g : Nat → Nat) (hf : f.lo + f.width ≤ 32) (h1 : f.width = 1)
    (hinj : ∀ a b, f.reg.offset (g a) = f.reg.offset (g b) → g a = g b) (l : List Nat) (d : Dev) {k : Nat} (hk : k ∈ l) :
    (each l (fun n t => t.stick f (g n)) d).hw f (g k) = 1 := by
  have hkeep : ∀ n (t : Dev), t.hw f (g k) = 1 → (t.stick f (g n)).hw f (g k) = 1 := fun n t ht => by
    by_cases he : f.reg.offset (g k) = f.reg.offset (g n)
    · rw [hinj _ _ he]
      exact hw_stick_same t f (g n) hf h1
    · exact (hw_setHw_reg t f f (g n) (g k) _ he).trans ht
  induction l generalizing d with
  | nil => cases hk
  | cons a r ih =>
    rw [each_cons]
    obtain rfl | hr := List.mem_cons.mp hk
    · exact each_keeps (fun t : Dev => t.hw f (g k) = 1) _ r _ (fun n _ => hkeep n) (hw_stick_same d f (g k) hf h1)
    · exact ih _ hr

/-! ## The soft turn-off (R309) -/

theorem softOff_axesOnly (n : Nat) (e : InPeriod) (soft : List Nat) (d : Dev) : axesOnly [n] d (softOff n e soft d) :=
  ((modLegs_axesOnly n d _).trans (modLegs_axesOnly n _ _)).trans
    (axesOnly_setHw [n] _ Fl.gateAxstatusSoftOff n _ (ownPage_gateAxstatus n))

theorem softOff_shown (n : Nat) (e : InPeriod) (soft : List Nat) (d : Dev) :
    (softOff n e soft d).hw Fl.gateAxstatusSoftOff n = 1 ∧ ((softOff n e soft d).mva n).legs.buf = none ∧
      ∀ i, (softOff n e soft d).hw Fl.gateStatusShort i = d.hw Fl.gateStatusShort i := by
  refine ⟨hw_stick_same _ Fl.gateAxstatusSoftOff n (by decide) rfl, ?_,
    fun i => hw_setHw_reg _ Fl.gateAxstatusSoftOff Fl.gateStatusShort n i _ (gateStatus_apart i n)⟩
  unfold softOff
  dsimp only
  unfold stick modLegs
  rw [setHw_mva, mva_modMva, mva_modMva]
  exact buf_offAt e.t _

/-! ## Shorts and stuck gates (R305 to R308, R311) -/

/-- The legs of an axis whose events are confirmed have their flags. -/
def shortFlagged (n : Nat) (ls : List Nat) (kept : BitVec 4) (d : Dev) : Dev :=
  each ls (fun l t => t.stick Fl.gateStatusShort (4 * n + l)) (d.modLegs n fun l => { l with didt := kept })

theorem shortFlagged_axesOnly (n : Nat) (ls : List Nat) (hls : ∀ l ∈ ls, l < 4) (kept : BitVec 4) (d : Dev) :
    axesOnly [n] d (shortFlagged n ls kept d) :=
  each_keeps (axesOnly [n] d) _ ls _
    (fun l hl t ht => ht.trans (axesOnly_setHw [n] t Fl.gateStatusShort (4 * n + l) _ (ownPage_gateStatus n l (hls l hl))))
    (modLegs_axesOnly n d _)

/-- SHORT_DIDT is raised for each confirmed leg. -/
def shortRaised (n : Nat) (ls : List Nat) (d : Dev) : Dev := each ls (fun l t => t.raise .shortDidt n l (n / 8)) d

theorem shortRaised_reacted (n : Nat) (ls : List Nat) (hne : ls ≠ []) (d : Dev) :
    d.reacted (shortRaised n ls d) .shortDidt n (n / 8) := by
  obtain ⟨a, r, rfl⟩ := List.exists_cons_of_ne_nil hne
  unfold shortRaised
  rw [each_cons]
  exact (raiseAs_reacted d .shortDidt n a (n / 8) .stoppedFault).keep
    (keepsReaction.each _ r _ fun l _ t => keepsReaction_raiseAs t .shortDidt n l (n / 8) _ _)

/-- The legs of an axis whose events are confirmed now (R307). -/
def shortLegs (d : Dev) (n : Nat) (s : Senses) (e : InPeriod) (since : Nat) : List Nat := (span 0 4).filter (d.didtConfirmed n s e since)

theorem shortLegs_lt {d : Dev} {n : Nat} {s : Senses} {e : InPeriod} {since l : Nat} (h : l ∈ d.shortLegs n s e since) : l < 4 := by
  have hl := (List.mem_filter.mp h).1
  rw [mem_span] at hl
  omega

/-- The legs whose events stay remembered (R307). -/
def shortKept (d : Dev) (n : Nat) (s : Senses) (e : InPeriod) (since : Nat) : BitVec 4 :=
  BitVec.ofNat 4 (maskOf ((span 0 4).filter fun ph => !(d.shortLegs n s e since).contains ph &&
    ((d.mva n).legs.didt.getLsbD ph || (d.didtOver n s e ph && d.blanked n e ph))))

theorem shortDidt_cases (n : Nat) (s : Senses) (e : InPeriod) (since : Nat) (soft : List Nat) (d : Dev) :
    shortDidt n s e since soft d =
      if !d.senseOn n then d
      else if (d.shortLegs n s e since).isEmpty ∨ d.softOn n then
        shortFlagged n (d.shortLegs n s e since) (d.shortKept n s e since) d
      else (shortRaised n (d.shortLegs n s e since)
        (softOff n e soft (shortFlagged n (d.shortLegs n s e since) (d.shortKept n s e since) d))).settle := by
  unfold shortDidt shortRaised shortFlagged shortKept shortLegs
  rfl

theorem shortDidt_eq (n : Nat) (s : Senses) (e : InPeriod) (since : Nat) (soft : List Nat) (d : Dev) (hon : d.senseOn n = true)
    (hne : d.shortLegs n s e since ≠ []) (hoff : d.softOn n = false) :
    ∃ kept, shortDidt n s e since soft d = (shortRaised n (d.shortLegs n s e since)
      (softOff n e soft (shortFlagged n (d.shortLegs n s e since) kept d))).settle := by
  have hfull : (d.shortLegs n s e since).isEmpty = false := List.isEmpty_eq_false_iff.mpr hne
  exact ⟨_, by rw [shortDidt_cases, hon, hoff, hfull, if_neg (by decide), if_neg (by decide)]⟩

/-- The confirmed di/dt events of an axis. -/
theorem shortDidt_turnsOff (n : Nat) (s : Senses) (e : InPeriod) (since : Nat) (soft : List Nat) (d : Dev) (hon : d.senseOn n = true)
    (hne : d.shortLegs n s e since ≠ []) (hoff : d.softOn n = false) :
    (∀ l ∈ d.shortLegs n s e since, (shortDidt n s e since soft d).hw Fl.gateStatusShort (4 * n + l) = 1) ∧
      (shortDidt n s e since soft d).hw Fl.gateAxstatusSoftOff n = 1 ∧ ((shortDidt n s e since soft d).mva n).legs.buf = none ∧
      d.reacted (shortDidt n s e since soft d) .shortDidt n (n / 8) := by
  obtain ⟨kept, heq⟩ := shortDidt_eq n s e since soft d hon hne hoff
  rw [heq]
  have hflag := fun l hl => hw_each_stick Fl.gateStatusShort (4 * n + ·) (by decide) rfl (fun _ _ => gateStatus_inj)
    (d.shortLegs n s e since) (d.modLegs n fun l => { l with didt := kept }) (k := l) hl
  have honly := (shortFlagged_axesOnly n (d.shortLegs n s e since) (fun _ => shortLegs_lt) kept d).trans (softOff_axesOnly n e soft _)
  obtain ⟨hsoft, hbuf, hkept⟩ := softOff_shown n e soft (shortFlagged n (d.shortLegs n s e since) kept d)
  generalize d.shortLegs n s e since = ls at *
  have hhw : ∀ (t : Dev) (f : Fld) (i : Nat), offRaise (f.reg.offset i) → (shortRaised n ls t).settle.hw f i = t.hw f i := fun t f i ha => by
    rw [settle_hw]
    exact hw_congr _ _ f i (each_same (fun u : Dev => SMap.find u.regs.hw (f.reg.offset i)) _ ls t
      fun l _ u => find_hw_raiseAs u .shortDidt n l (n / 8) _ _ ha)
  refine ⟨fun l hl => ?_, ?_, ?_, ?_⟩
  · rw [hhw _ Fl.gateStatusShort _ (offRaise_gateStatus _), hkept]
    exact hflag l hl
  · rw [hhw _ Fl.gateAxstatusSoftOff _ (offRaise_gateAxstatus n)]
    exact hsoft
  · rw [mva_settle]
    exact each_keeps (fun t : Dev => (t.mva n).legs.buf = none) _ ls _
      (fun l _ t => mva_raiseAs_keeps (fun x => x.legs.buf = none) (fun k u => buf_stoAxis k n u) t .shortDidt n l (n / 8) _ _) hbuf
  · exact ((shortRaised_reacted n ls hne _).keep (keepsReaction_settle _ _)).from honly.force

/-- A source of class 3 discards the commit in flight of its axis (R199). -/
theorem buf_raise1_shuntOc (d : Dev) (n sub pres : Nat) : ((d.raise1 .shuntOc n sub pres).mva n).legs.buf = none := by
  unfold raise1
  rw [mva_settle]
  exact mva_raiseAs_sto (fun x => x.legs.buf = none) (buf_stoAxis_same n) (fun k u => buf_stoAxis k n u) d .shuntOc n sub pres 3
    .stoppedFault (by decide) (List.mem_singleton.mpr rfl)

/-- The shunt comparator of an axis (R308). -/
theorem shuntOc_turnsOff (n : Nat) (shunt : Int) (e : InPeriod) (since : Nat) (soft : List Nat) (d : Dev) (hon : d.senseOn n = true)
    (hover : d.shuntOver n shunt = true) (hfilt : 25 * d.cfg Fl.gateScOcfilt n ≤ since) :
    (shuntOc n shunt e since soft d).hw Fl.gateAxstatusShuntOc n = 1 ∧
      (d.softOn n = false → (shuntOc n shunt e since soft d).hw Fl.gateAxstatusSoftOff n = 1) ∧
      ((shuntOc n shunt e since soft d).mva n).legs.buf = none ∧ d.reacted (shuntOc n shunt e since soft d) .shuntOc n (n / 8) := by
  have heq : shuntOc n shunt e since soft d =
      ((if d.softOn n then d else softOff n e soft d).stick Fl.gateAxstatusShuntOc n).raise1 .shuntOc n 0 (n / 8) := by
    unfold shuntOc
    rw [hon, hover, decide_eq_true hfilt]
    exact if_pos (by decide)
  have hsoft : d.softOn n = false → (if d.softOn n then d else softOff n e soft d).hw Fl.gateAxstatusSoftOff n = 1 := fun h => by
    rw [h]
    exact (softOff_shown n e soft d).1
  have hforce : (if d.softOn n then d else softOff n e soft d).regs.force = d.regs.force := by
    split
    · rfl
    · exact (softOff_axesOnly n e soft d).force
  rw [heq]
  generalize (if d.softOn n then d else softOff n e soft d) = t at hsoft hforce ⊢
  refine ⟨?_, fun h => ?_, buf_raise1_shuntOc _ n 0 (n / 8), (raise1_reacted _ .shuntOc n 0 (n / 8)).from hforce⟩
  · rw [hw_raise1 _ _ _ _ _ Fl.gateAxstatusShuntOc n (offRaise_gateAxstatus n)]
    exact hw_stick_same t Fl.gateAxstatusShuntOc n (by decide) rfl
  · rw [hw_raise1 _ _ _ _ _ Fl.gateAxstatusSoftOff n (offRaise_gateAxstatus n)]
    exact (hw_setHw_beside t Fl.gateAxstatusShuntOc Fl.gateAxstatusSoftOff n _ rfl (by decide) (by decide)).trans (hsoft h)

/-- A gate that has not fallen (R305). -/
theorem ilStuck_turnsOff (n leg : Nat) (e : InPeriod) (since : Nat) (soft : List Nat) (d : Dev) (hon : d.gatesOn n = true)
    (hlate : 2000 ≤ since) :
    (ilStuck n leg e since soft d).hw Fl.gateStatusIlStuck (4 * n + leg) = 1 ∧
      (ilStuck n leg e since soft d).hw Fl.gateAxstatusSoftOff n = 1 ∧
      ((ilStuck n leg e since soft d).mva n).legs.buf = none ∧ d.reacted (ilStuck n leg e since soft d) .interlockStuck n (n / 8) := by
  have heq : ilStuck n leg e since soft d =
      ((softOff n e soft d).stick Fl.gateStatusIlStuck (4 * n + leg)).raise1 .interlockStuck n leg (n / 8) := by
    unfold ilStuck
    rw [hon, decide_eq_true hlate]
    exact if_pos (by decide)
  obtain ⟨hsoft, hbuf, -⟩ := softOff_shown n e soft d
  have hforce := (softOff_axesOnly n e soft d).force
  rw [heq]
  generalize softOff n e soft d = t at hsoft hbuf hforce ⊢
  refine ⟨?_, ?_, ?_, (raise1_reacted _ .interlockStuck n leg (n / 8)).from hforce⟩
  · rw [hw_raise1 _ _ _ _ _ Fl.gateStatusIlStuck _ (offRaise_gateStatus _)]
    exact hw_stick_same t Fl.gateStatusIlStuck _ (by decide) rfl
  · rw [hw_raise1 _ _ _ _ _ Fl.gateAxstatusSoftOff n (offRaise_gateAxstatus n)]
    exact (hw_setHw_reg t Fl.gateStatusIlStuck Fl.gateAxstatusSoftOff _ n _ (gateStatus_apart _ n).symm).trans hsoft
  · exact mva_raise1_keeps (fun x => x.legs.buf = none) (fun k u => buf_stoAxis k n u) _ .interlockStuck n leg (n / 8) hbuf

/-! ## The end of a blank (R307) -/

theorem mva_modLegs (n : Nat) (d : Dev) (f : Legs → Legs) : (d.modLegs n f).mva n = { d.mva n with legs := f (d.mva n).legs } :=
  mva_modMva d n _

theorem didtEarly_eq (n leg : Nat) (s : Senses) (e : InPeriod) (d : Dev) : didtEarly n leg s e d =
    if d.senseOn n = true ∧ (d.mva n).legs.didt.getLsbD leg = true ∧ d.blanked n e leg = false ∧ d.didtOver n s e leg = false ∧
        d.shuntOver n s.shunt = false then
      (d.modLegs n fun l => { l with didt := l.didt &&& ~~~ BitVec.ofNat 4 (2 ^ leg) }).bump Fl.gateAxstatusDidtEarly n 1
    else d := by
  unfold didtEarly
  simp only [Bool.and_eq_true, Bool.not_eq_true', and_assoc]

/-- A bit that is taken out of a word of four. -/
theorem getLsbD_dropBit (w : BitVec 4) (leg k : Fin 4) :
    (w &&& ~~~ BitVec.ofNat 4 (2 ^ leg.val)).getLsbD k = (w.getLsbD k && decide (k ≠ leg)) := by
  have hbit : (~~~ BitVec.ofNat 4 (2 ^ leg.val)).getLsbD k = decide (k ≠ leg) := by
    revert leg k
    decide
  rw [BitVec.getLsbD_and, hbit]

/-- An event that no condition confirms is discarded and counted. -/
theorem didtEarly_counts (n : Nat) (leg : Fin 4) (d : Dev) :
    let t := (d.modLegs n fun l => { l with didt := l.didt &&& ~~~ BitVec.ofNat 4 (2 ^ leg.val) }).bump Fl.gateAxstatusDidtEarly n 1
    t.hw Fl.gateAxstatusDidtEarly n = min (2 ^ Fl.gateAxstatusDidtEarly.width - 1) (d.hw Fl.gateAxstatusDidtEarly n + 1) ∧
      t.mva n = { d.mva n with legs := { (d.mva n).legs with didt := (t.mva n).legs.didt } } ∧
      (∀ k : Fin 4, (t.mva n).legs.didt.getLsbD k = ((d.mva n).legs.didt.getLsbD k && decide (k ≠ leg))) ∧
      axesOnly [n] d t ∧ d.regsBut t [Reg.offset .gateAxstatus n] := by
  intro t
  have hmva : t.mva n = { d.mva n with legs := { (d.mva n).legs with
      didt := (d.mva n).legs.didt &&& ~~~ BitVec.ofNat 4 (2 ^ leg.val) } } :=
    mva_modLegs n d fun l => { l with didt := l.didt &&& ~~~ BitVec.ofNat 4 (2 ^ leg.val) }
  refine ⟨hw_bump_same _ Fl.gateAxstatusDidtEarly n 1 (by decide), ?_, fun k => ?_,
    (modLegs_axesOnly n d _).trans (axesOnly_setHw [n] _ Fl.gateAxstatusDidtEarly n _ (ownPage_gateAxstatus n)),
    regsBut.setHw (regsBut.of_regs (regsBut_refl d _) rfl) Fl.gateAxstatusDidtEarly n _ (List.mem_singleton.mpr rfl)⟩
  · rw [hmva]
  · rw [hmva]
    exact getLsbD_dropBit _ leg k

end Dev

/-- A meaning that comes to a state of the block. -/
theorem State.onDev_eq (s : State) {f : Dev → Dev} {d : Dev} (h : f s.dev = d) : s.onDev f = .next { s with dev := d } := by
  unfold State.onDev
  rw [h]

/-- Settles O28: a raise of class 3 or above discards the commit in flight of its axis, and every raise keeps the flags of the gates. -/
theorem shortsTurnOffSoftly : Obligations.ShortsTurnOffSoftly := by
  refine ⟨fun s ax v t since soft hon hne hoff => ?_, fun s ax shunt t since soft hon hover hfilt => ?_,
    fun s ax leg t since soft hon hlate => ?_, fun s ax leg v t hon hkept hblank hover hshunt => ?_, fun s ax leg v t hcase => ?_⟩
  · obtain ⟨hflag, hrest⟩ := Dev.shortDidt_turnsOff ax v t since soft s.dev hon hne hoff
    exact ⟨_, rfl, fun l hl => hflag l (List.mem_filter.mpr ⟨(mem_span 0 4 l).mpr ⟨Nat.zero_le _, by omega⟩, hl⟩), hrest⟩
  · exact ⟨_, rfl, Dev.shuntOc_turnsOff ax shunt t since soft s.dev hon hover hfilt⟩
  · exact ⟨_, rfl, Dev.ilStuck_turnsOff ax leg t since soft s.dev hon hlate⟩
  · obtain ⟨hcount, hmva, hbits, honly, hregs⟩ := Dev.didtEarly_counts ax leg s.dev
    refine ⟨_, s.onDev_eq ((Dev.didtEarly_eq ax leg v t s.dev).trans (if_pos ⟨hon, hkept, hblank, hover, hshunt⟩)), hcount, hmva, hbits, honly.axesBut,
      honly.mvax_regs, hregs⟩
  · refine s.onDev_eq ((Dev.didtEarly_eq ax leg v t s.dev).trans (if_neg ?_))
    rintro ⟨hon, hkept, hblank, hover, hshunt⟩
    rcases hcase with h | h | h | h | h
    · exact Bool.false_ne_true (h.symm.trans hon)
    · exact Bool.false_ne_true (h.symm.trans hkept)
    · exact Bool.false_ne_true (hblank.symm.trans h)
    · exact Bool.false_ne_true (hover.symm.trans h)
    · exact Bool.false_ne_true (hshunt.symm.trans h)

end Sys2Proof.Machine
end

section
/-! Proofs for the supplies of the gates (chapter 10). -/

namespace Sys2Proof.Machine

namespace Dev

/-! ## Bootstraps (R191, R316) -/

theorem swapped_lt (d : Dev) (n ph : Nat) (h : ph < 4) : d.swapped n ph < 4 := by
  unfold swapped
  split
  · split
    · decide
    · split
      · decide
      · exact h
  · split
    · decide
    · split
      · decide
      · exact h
  · split
    · decide
    · split
      · decide
      · exact h
  · exact h

/-- Gates that go off keep which high sides wait for their low sides. -/
theorem bstOff_offAt (t : Nat) (l : Legs) : (l.offAt t).bstOff = l.bstOff := by
  unfold Legs.offAt
  dsimp only
  split <;> rfl

theorem bstOff_stoAxis (n k : Nat) (d : Dev) : ((stoAxis n d).mva k).legs.bstOff = (d.mva k).legs.bstOff := by
  by_cases hk : k = n
  · subst hk
    unfold stoAxis
    dsimp only
    rw [mva_modMva]
    exact bstOff_offAt _ _
  · rw [mva_stoAxis_other d hk]

/-- The legs of a winding short whose low sides follow (R191). -/
def lowLegs (n t : Nat) (d : Dev) (l : Legs) : Legs :=
  { (l.turn t ⟨.low, .low, .low, .switch⟩) with high := false, left := d.altPeriods n + 1 }

theorem shortEarly_cuts (n ph bst t : Nat) (d : Dev) (hdrive : (d.mva n).drive = .brake ∨ (d.mva n).drive = .orphanBrake)
    (hprobe : probing (d.mva n) = false) (hhigh : (d.mva n).legs.high = true) (hph : ph < 3) (hbst : bst < d.bstuv (n / 8)) :
    shortEarly n ph bst t d = d.modLegs n (lowLegs n t d) := by
  unfold shortEarly
  dsimp only
  exact if_pos ⟨hdrive, by rw [hprobe]; rfl, hhigh, hph, hbst⟩

theorem shortEarly_axesOnly (n ph bst t : Nat) (d : Dev) : axesOnly [n] d (shortEarly n ph bst t d) := by
  unfold shortEarly
  dsimp only
  split
  · exact modLegs_axesOnly n d _
  · exact axesOnly_refl _ _

/-- Without a short whose high side is on, or with its bootstrap full, the interval goes on. -/
theorem shortEarly_still (n ph bst t : Nat) (d : Dev) (h : (d.mva n).legs.high = false ∨ d.bstuv (n / 8) ≤ bst ∨
    ((d.mva n).drive ≠ .brake ∧ (d.mva n).drive ≠ .orphanBrake)) : shortEarly n ph bst t d = d := by
  unfold shortEarly
  dsimp only
  refine if_neg ?_
  rintro ⟨hdrive, -, hhigh, -, hbst⟩
  rcases h with h | h | ⟨hb, ho⟩
  · exact Bool.false_ne_true (h.symm.trans hhigh)
  · omega
  · exact hdrive.elim hb ho

/-- A high side that is kept off until its low side has charged its bootstrap (R316). -/
def highCut (n ph t : Nat) (d : Dev) : Dev :=
  (d.modLegs n fun l => { l with bstOff := l.bstOff ||| BitVec.ofNat 4 (2 ^ ph), span := { l.span with cut := l.span.cut ++ [(ph, t)] } }).stick
    Fl.gateStatusBstUv (4 * n + ph)

theorem bstUv_of_on (n pin bst : Nat) (e : InPeriod) (d : Dev) (hon : d.gatesOn n = true)
    (hsw : d.switchAt n e (d.swapped n pin) = some true) :
    bstUv n pin bst e d = if bst < 500 then
      (highCut n (d.swapped n pin) e.t (shortEarly n (d.swapped n pin) bst e.t d)).raise1 .bstUv n (d.swapped n pin) (n / 8)
      else shortEarly n (d.swapped n pin) bst e.t d := by
  unfold bstUv highCut
  dsimp only
  rw [hon, hsw]
  exact if_pos (by decide)

theorem bstUv_of_off (n pin bst : Nat) (e : InPeriod) (d : Dev)
    (h : d.gatesOn n = false ∨ d.switchAt n e (d.swapped n pin) ≠ some true) : bstUv n pin bst e d = d := by
  unfold bstUv
  dsimp only
  refine if_neg ?_
  rw [Bool.and_eq_true, beq_iff_eq]
  rintro ⟨hon, hsw⟩
  exact h.elim (fun h => Bool.false_ne_true (h.symm.trans hon)) fun h => h hsw

theorem highCut_waits (n t : Nat) (ph : Fin 4) (d : Dev) : ((highCut n ph t d).mva n).legs.bstOff.getLsbD ph = true := by
  have hbit : ∀ w : BitVec 4, (w ||| BitVec.ofNat 4 (2 ^ ph.val)).getLsbD ph = true := fun w => by
    have hone : (BitVec.ofNat 4 (2 ^ ph.val)).getLsbD ph = true := by
      revert ph
      decide
    rw [BitVec.getLsbD_or, hone, Bool.or_true]
  unfold highCut stick
  rw [setHw_mva, mva_modLegs]
  exact hbit _

/-- A bootstrap that is too low (R316). -/
theorem bstUv_cuts (n pin bst : Nat) (e : InPeriod) (d : Dev) (hpin : pin < 4) (hon : d.gatesOn n = true) (hbst : bst < 500)
    (hsw : d.switchAt n e (d.swapped n pin) = some true) :
    (bstUv n pin bst e d).hw Fl.gateStatusBstUv (4 * n + d.swapped n pin) = 1 ∧
      ((bstUv n pin bst e d).mva n).legs.bstOff.getLsbD (d.swapped n pin) = true ∧
      d.reacted (bstUv n pin bst e d) .bstUv n (n / 8) := by
  rw [bstUv_of_on n pin bst e d hon hsw, if_pos hbst]
  have hforce := (shortEarly_axesOnly n (d.swapped n pin) bst e.t d).force
  have hlt := swapped_lt d n pin hpin
  generalize shortEarly n (d.swapped n pin) bst e.t d = t at hforce ⊢
  generalize d.swapped n pin = ph at hlt ⊢
  have hwait := highCut_waits n e.t ⟨ph, hlt⟩ t
  refine ⟨?_, ?_, (raise1_reacted _ .bstUv n ph (n / 8)).from hforce⟩
  · rw [hw_raise1 _ _ _ _ _ Fl.gateStatusBstUv _ (offRaise_gateStatus _)]
    exact hw_stick_same _ Fl.gateStatusBstUv _ (by decide) rfl
  · exact mva_raise1_keeps (fun x => x.legs.bstOff.getLsbD ph = true)
      (fun k u hu => by rw [bstOff_stoAxis]; exact hu) _ .bstUv n ph (n / 8) hwait

/-! ## Gate supply (R313) -/

theorem gateMvstatus_range (m : Fin 8) : Reg.offset .gateMvstatus m < 0x10000 ∧ Reg.offset .gateMvstatus m ≠ 0x524 := by
  revert m
  decide

theorem offRaise_gateMvstatus (m : Fin 8) : offRaise (Reg.offset .gateMvstatus m) :=
  offRaise_of_lt _ (gateMvstatus_range m).1 (gateMvstatus_range m).2

/-- The gate supply of a movement as it is read, out of its window. -/
def vdrvShown (m : Nat) (v : BitVec 8) (d : Dev) : Dev := (d.setHw Fl.gateMvstatusVdrv m v.toNat).setHw Fl.gateMvstatusVdrvOk m 0

theorem vdrvShown_hw (m : Nat) (v : BitVec 8) (d : Dev) :
    (vdrvShown m v d).hw Fl.gateMvstatusVdrv m = v.toNat ∧ (vdrvShown m v d).hw Fl.gateMvstatusVdrvOk m = 0 ∧
      d.regsBut (vdrvShown m v d) [Reg.offset .gateMvstatus m] := by
  refine ⟨?_, hw_setHw_same _ Fl.gateMvstatusVdrvOk m 0 (by decide),
    (regsBut.setHw (regsBut_refl d _) Fl.gateMvstatusVdrv m _ (List.mem_singleton.mpr rfl)).setHw Fl.gateMvstatusVdrvOk m _
      (List.mem_singleton.mpr rfl)⟩
  unfold vdrvShown
  rw [hw_setHw_beside _ Fl.gateMvstatusVdrvOk Fl.gateMvstatusVdrv m 0 rfl (by decide) (by decide),
    hw_setHw_same _ Fl.gateMvstatusVdrv m _ (by decide)]
  exact Nat.mod_eq_of_lt v.isLt

/-- VDRV out of its window raises where an axis is armed. -/
theorem vdrvFault_eq (m : Nat) (ov : Bool) (v : BitVec 8) (d : Dev) (hon : d.mvOn m = true)
    (hv : if ov then 160 < v.toNat else v.toNat < 90) :
    vdrvFault m ov v d = if d.mvUnarmed m then vdrvShown m v d
      else if ov then ((vdrvShown m v d).stick Fl.gateMvstatusVdrvOv m).raise1 .vdrvOv m m m
      else ((vdrvShown m v d).stick Fl.gateMvstatusVdrvUv m).raise1 .vdrvUv m m m := by
  unfold vdrvFault
  dsimp only
  rw [hon, if_neg]
  · rfl
  · cases ov
    · rintro (h | h | h)
      · exact absurd h (by decide)
      · exact absurd h.1 (by decide)
      · exact absurd h.2 (Nat.not_le.mpr hv)
    · rintro (h | h | h)
      · exact absurd h (by decide)
      · exact absurd h.2 (Nat.not_le.mpr hv)
      · exact absurd h.1 (by decide)

/-- A source of the gate supply with its flag. -/
theorem vdrvRaised (m : Fin 8) (f : Fld) (hf : f ∈ [Fl.gateMvstatusVdrvOv, Fl.gateMvstatusVdrvUv]) (s : Src) (v : BitVec 8) (d : Dev) :
    (((vdrvShown m v d).stick f m).raise1 s m m m).hw Fl.gateMvstatusVdrv m = v.toNat ∧
      (((vdrvShown m v d).stick f m).raise1 s m m m).hw Fl.gateMvstatusVdrvOk m = 0 ∧
      d.reacted (((vdrvShown m v d).stick f m).raise1 s m m m) s m m := by
  obtain ⟨hv, hok, -⟩ := vdrvShown_hw m v d
  have hkeep : fieldApart f m Fl.gateMvstatusVdrv m ∧ fieldApart f m Fl.gateMvstatusVdrvOk m := by
    rcases List.mem_pair.mp hf with rfl | rfl <;> exact ⟨.inr ⟨rfl, rfl, by decide⟩, .inr ⟨rfl, rfl, by decide⟩⟩
  refine ⟨?_, ?_, (raise1_reacted _ s m m m).from rfl⟩
  · rw [hw_raise1 _ _ _ _ _ Fl.gateMvstatusVdrv m (offRaise_gateMvstatus m)]
    exact (hw_setHw_of_apart _ f _ m m _ hkeep.1).trans hv
  · rw [hw_raise1 _ _ _ _ _ Fl.gateMvstatusVdrvOk m (offRaise_gateMvstatus m)]
    exact (hw_setHw_of_apart _ f _ m m _ hkeep.2).trans hok

end Dev

/-- Settles O29: every branch of the bootstrap and of the gate supply by its own rule, and a raise keeps what they have shown. -/
theorem gateSupplyFaults : Obligations.GateSupplyFaults := by
  refine ⟨fun s ax leg bst ph t hon hbst hph hsw => ?_, fun s ax leg bst ph t hon hbst hph hlt hsw hlow hdrive hprobe hhigh => ?_,
    fun s ax leg bst t hcase => ?_, fun s m ov v hon hv => ?_⟩
  · subst hph
    exact ⟨_, rfl, Dev.bstUv_cuts ax leg bst t s.dev leg.isLt hon hbst hsw⟩
  · subst hph
    have heq := Dev.bstUv_of_on ax leg bst t s.dev hon hsw
    rw [if_neg (Nat.not_lt.mpr hbst), Dev.shortEarly_cuts ax _ bst t.t s.dev hdrive hprobe hhigh hlt hlow] at heq
    have hmva := Dev.mva_modLegs ax s.dev (Dev.lowLegs ax t.t s.dev)
    refine ⟨_, s.onDev_eq heq, ?_, ?_, ?_, ?_, (Dev.modLegs_axesOnly ax s.dev _).axesBut, rfl⟩
    · rw [hmva]
      rfl
    · rw [hmva]
      rfl
    · rw [hmva]
      rfl
    · rw [hmva]
  · refine s.onDev_eq (f := Dev.bstUv ax leg bst t) (d := s.dev) ?_
    by_cases hoff : s.dev.gatesOn ax = false ∨ s.dev.switchAt ax t (s.dev.swapped ax leg) ≠ some true
    · exact Dev.bstUv_of_off ax leg bst t s.dev hoff
    · obtain ⟨hon, hsw⟩ := not_or.mp hoff
      obtain ⟨hbst, hstill⟩ := hcase.resolve_right hoff
      rw [Dev.bstUv_of_on ax leg bst t s.dev (Bool.not_eq_false _ ▸ hon) (not_not.mp hsw), if_neg (Nat.not_lt.mpr hbst)]
      exact Dev.shortEarly_still ax _ bst t.t s.dev hstill
  · have heq := Dev.vdrvFault_eq m ov v s.dev hon hv
    cases hun : s.dev.mvUnarmed m with
    | true =>
      rw [hun, if_pos rfl] at heq
      obtain ⟨hshown, hok, hregs⟩ := Dev.vdrvShown_hw m v s.dev
      exact ⟨_, s.onDev_eq heq, hshown, hok, fun _ => ⟨rfl, hregs⟩, fun h => absurd h (by decide)⟩
    | false =>
      rw [hun, if_neg (by decide)] at heq
      cases ov with
      | true =>
        obtain ⟨hshown, hok, hreact⟩ := Dev.vdrvRaised m Fl.gateMvstatusVdrvOv (by decide) .vdrvOv v s.dev
        exact ⟨_, s.onDev_eq heq, hshown, hok, fun h => absurd h (by decide), fun _ => hreact⟩
      | false =>
        obtain ⟨hshown, hok, hreact⟩ := Dev.vdrvRaised m Fl.gateMvstatusVdrvUv (by decide) .vdrvUv v s.dev
        exact ⟨_, s.onDev_eq heq, hshown, hok, fun h => absurd h (by decide), fun _ => hreact⟩

end Sys2Proof.Machine
end

section
/-! Proofs for the end of an OFFTEST (chapter 10). -/

namespace Sys2Proof.Machine

/-! ## The word of findings (R319, R320) -/

theorem testBit_foldl_or (l : List Nat) (w k : Nat) :
    (l.foldl (fun m i => m ||| 2 ^ i) w).testBit k = (w.testBit k || l.contains k) := by
  induction l generalizing w with
  | nil => simp
  | cons a r ih =>
    rw [List.foldl_cons, ih, Nat.testBit_or, Nat.testBit_two_pow, List.contains_cons, Bool.or_assoc]
    congr 2
    rw [Bool.eq_iff_iff, decide_eq_true_eq, beq_iff_eq]
    exact eq_comm

/-- The bits of a mask are its list's members. -/
theorem testBit_maskOf (l : List Nat) (k : Nat) : (maskOf l).testBit k = l.contains k := by
  unfold maskOf
  rw [testBit_foldl_or, Nat.zero_testBit, Bool.false_or]

/-- The findings on the phases, by their bits. -/
def phaseFindings (ss : List TestStep) (vb : Nat) : List Nat := (span 0 3).flatMap fun p =>
  (if toGround ss vb p then [2 * p] else []) ++ (if toBus ss p then [2 * p + 1] else []) ++
    if openPhase ss p && !toGround ss vb p && !toBus ss p then [6 + p] else []

theorem phaseFindings_lt {ss : List TestStep} {vb k : Nat} (h : k ∈ phaseFindings ss vb) : k < 9 := by
  obtain ⟨p, hp, hk⟩ := List.mem_flatMap.mp h
  have hp3 : p < 3 := by
    rw [mem_span] at hp
    omega
  rcases List.mem_append.mp hk with hk | hk
  · rcases List.mem_append.mp hk with hk | hk
    · split at hk
      · rw [List.mem_singleton.mp hk]
        omega
      · cases hk
    · split at hk
      · rw [List.mem_singleton.mp hk]
        omega
      · cases hk
  · split at hk
    · rw [List.mem_singleton.mp hk]
      omega
    · cases hk

/-- The findings on the X leg, by their bits. -/
def xFindings (load short skip : Bool) : List Nat := if skip then [] else (if load then [9] else []) ++ if short then [10] else []

theorem mem_xFindings {load short skip : Bool} {k : Nat} (h : k ∈ xFindings load short skip) : skip = false ∧ (k = 9 ∨ k = 10) := by
  unfold xFindings at h
  cases skip with
  | true => cases h
  | false =>
    refine ⟨rfl, (List.mem_append.mp h).imp (fun h => ?_) fun h => ?_⟩
    · cases load with
      | true => exact List.mem_singleton.mp h
      | false => cases h
    · cases short with
      | true => exact List.mem_singleton.mp h
      | false => cases h

theorem testBit_findings (ss : List TestStep) (vb : Nat) (invx skip dist : Bool) (k : Nat) :
    (findings ss vb invx skip dist).testBit k =
      (phaseFindings ss vb ++ xFindings (if invx then stepDown (sinkStep ss 3) 3 else stepUp (sourceStep ss 3) 3)
        (if invx then toGround ss vb 3 else toBus ss 3) skip ++ if dist then [11] else []).contains k :=
  testBit_maskOf _ k

/-- A finding's bit, by where it comes from. -/
theorem findings_bit {ss : List TestStep} {vb k : Nat} {invx skip dist : Bool} (h : (findings ss vb invx skip dist).testBit k = true) :
    k < 9 ∨ (skip = false ∧ (k = 9 ∨ k = 10)) ∨ (dist = true ∧ k = 11) := by
  rw [testBit_findings, List.contains_iff_mem] at h
  rcases List.mem_append.mp h with h | h
  · exact (List.mem_append.mp h).imp phaseFindings_lt fun h => .inl (mem_xFindings h)
  · split at h
    · exact .inr (.inr ⟨‹_›, List.mem_singleton.mp h⟩)
    · cases h

theorem findings_lt (ss : List TestStep) (vb : Nat) (invx skip dist : Bool) : findings ss vb invx skip dist < 2 ^ 13 := by
  refine Nat.lt_pow_two_of_testBit _ fun k hk => Bool.eq_false_iff.mpr fun h => ?_
  rcases findings_bit h with h | ⟨-, h | h⟩ | ⟨-, h⟩ <;> omega

/-- A test that skips the X leg has no finding on it. -/
theorem findings_skip (ss : List TestStep) (vb : Nat) (invx dist : Bool) :
    (findings ss vb invx true dist).testBit 9 = false ∧ (findings ss vb invx true dist).testBit 10 = false := by
  constructor <;>
  · refine Bool.eq_false_iff.mpr fun h => ?_
    rcases findings_bit h with h | ⟨h, -⟩ | ⟨-, h⟩
    · omega
    · exact absurd h (by decide)
    · omega

theorem findings_disturbed (ss : List TestStep) (vb : Nat) (invx skip dist : Bool) :
    (findings ss vb invx skip dist).testBit 11 = dist := by
  cases dist with
  | true =>
    rw [testBit_findings, List.contains_iff_mem]
    exact List.mem_append_right _ (List.mem_singleton.mpr rfl)
  | false =>
    refine Bool.eq_false_iff.mpr fun h => ?_
    rcases findings_bit h with h | ⟨-, h | h⟩ | ⟨h, -⟩
    · omega
    · omega
    · omega
    · exact absurd h (by decide)

namespace Dev

/-! ## The end of a test (R318) -/

/-- A test has ended with its verdict. -/
def offtShown (n f : Nat) (d : Dev) : Dev :=
  ((d.modMva n fun x => { x with offt := none, offtEnd := some (BitVec.ofNat 13 f) }).setHw Fl.offtStatusVerdict n f).setHw
    Fl.offtStatusRunning n 0

theorem offtShown_axesOnly (n f : Nat) (d : Dev) : axesOnly [n] d (offtShown n f d) :=
  ((axesOnly_modMva n d _).trans (axesOnly_setHw [n] _ Fl.offtStatusVerdict n _ (ownPage_offtStatus n))).trans
    (axesOnly_setHw [n] _ Fl.offtStatusRunning n _ (ownPage_offtStatus n))

theorem offtShown_shows (n f : Nat) (d : Dev) (hf : f < 2 ^ 13) : ((offtShown n f d).mva n).offt = none ∧
    (offtShown n f d).hw Fl.offtStatusVerdict n = f ∧ (offtShown n f d).hw Fl.offtStatusRunning n = 0 := by
  refine ⟨?_, ?_, hw_setHw_same _ Fl.offtStatusRunning n 0 (by decide)⟩
  · unfold offtShown
    rw [setHw_mva, setHw_mva, mva_modMva]
  · unfold offtShown
    rw [hw_setHw_beside _ Fl.offtStatusRunning Fl.offtStatusVerdict n 0 rfl (by decide) (by decide),
      hw_setHw_same _ Fl.offtStatusVerdict n f (by decide)]
    exact Nat.mod_eq_of_lt hf

/-- What the test finds (R319). -/
def verdict (n : Nat) (steps : List TestStep) (d : Dev) : Nat :=
  findings steps (d.mva n).offtVb (d.on Fl.pwmOvrInvx n) (d.mva n).offtSkip (d.mva n).offtDist

theorem offtEnded_eq (n : Nat) (steps : List TestStep) (d : Dev) (hrun : (d.mva n).offt = some true)
    (hlong : (d.mva n).offtAt + 800000 ≤ (d.mv (n / 8)).start + hubClocks (d.mv (n / 8)).rate) :
    offtEnded n steps d = if verdict n steps d = 0 then (offtShown n 0 d).setHw Fl.offtStatusPassed n 1
      else (offtShown n (verdict n steps d) d).raise1 .offtestFail n 0 (n / 8) := by
  unfold offtEnded
  dsimp only
  rw [if_neg (not_or.mpr ⟨not_not.mpr hrun, Nat.not_lt.mpr hlong⟩)]
  change (if verdict n steps d = 0 then (offtShown n (verdict n steps d) d).setHw Fl.offtStatusPassed n 1 else _) = _
  split
  · rename_i h
    rw [h]
  · rfl

theorem offtEnded_early (n : Nat) (steps : List TestStep) (d : Dev)
    (h : (d.mv (n / 8)).start + hubClocks (d.mv (n / 8)).rate < (d.mva n).offtAt + 800000) : offtEnded n steps d = d :=
  if_pos (.inr h)

theorem offRaise_offtStatus (n : Nat) : offRaise (Reg.offset .offtStatus n) :=
  offRaise_of_mod _ (by simp only [Reg.offset, Reg.place]; omega) (by simp only [Reg.offset, Reg.place]; omega)
    (by simp only [Reg.offset, Reg.place]; omega)

/-- A raise keeps every axis's test. -/
theorem offt_raise1 (d : Dev) (s : Src) (place sub pres k : Nat) : ((d.raise1 s place sub pres).mva k).offt = (d.mva k).offt :=
  mva_raise1_keeps (fun x => x.offt = (d.mva k).offt) (fun n t h => by
    by_cases hk : k = n
    · subst hk
      unfold stoAxis
      dsimp only
      rw [mva_modMva]
      exact h
    · rw [mva_stoAxis_other t hk]
      exact h) d s place sub pres rfl

end Dev

/-- Settles O25: with or without a finding the verdict shows, and its bits are the findings' own. -/
theorem offtestEndGivesVerdict : Obligations.OfftestEndGivesVerdict := by
  refine ⟨fun s ax steps hrun hlong => ?_, fun s ax steps hearly => s.onDev_eq (Dev.offtEnded_early ax steps s.dev hearly)⟩
  have heq := Dev.offtEnded_eq ax steps s.dev hrun hlong
  have hlt : Dev.verdict ax steps s.dev < 2 ^ 13 := findings_lt _ _ _ _ _
  have hbits : ((s.dev.mva ax).offtSkip = true → (Dev.verdict ax steps s.dev).testBit 9 = false ∧
      (Dev.verdict ax steps s.dev).testBit 10 = false) ∧ (Dev.verdict ax steps s.dev).testBit 11 = (s.dev.mva ax).offtDist := by
    refine ⟨fun h => ?_, findings_disturbed _ _ _ _ _⟩
    unfold Dev.verdict
    rw [h]
    exact findings_skip _ _ _ _
  have hverdict : Dev.verdict ax steps s.dev = findings steps (s.dev.mva ax).offtVb (s.dev.on Fl.pwmOvrInvx ax)
      (s.dev.mva ax).offtSkip (s.dev.mva ax).offtDist := rfl
  generalize Dev.verdict ax steps s.dev = f at heq hlt hbits hverdict
  have honly := Dev.offtShown_axesOnly ax f s.dev
  obtain ⟨hnone, hshown, hstop⟩ := Dev.offtShown_shows ax f s.dev hlt
  have hother : ∀ n, n ≠ ax.val → (Dev.offtShown ax f s.dev).mva n = s.dev.mva n := fun n hn =>
    honly.other n fun h => hn (List.mem_singleton.mp h)
  by_cases hf : f = 0
  · rw [if_pos hf] at heq
    subst hf
    have hkeep : ((Dev.offtShown ax 0 s.dev).setHw Fl.offtStatusPassed ax 1).hw Fl.offtStatusVerdict ax = 0 :=
      (Dev.hw_setHw_beside _ Fl.offtStatusPassed Fl.offtStatusVerdict ax 1 rfl (by decide) (by decide)).trans hshown
    refine ⟨_, s.onDev_eq heq, hnone,
      (Dev.hw_setHw_beside _ Fl.offtStatusPassed Fl.offtStatusRunning ax 1 rfl (by decide) (by decide)).trans hstop, hkeep.trans hverdict,
      ?_, ?_, fun _ => ⟨Dev.hw_setHw_same _ Fl.offtStatusPassed ax 1 (by decide), ?_, hother⟩, fun h => absurd hkeep h, fun n hn => ?_⟩
    · rw [hkeep]
      exact hbits.1
    · rw [hkeep]
      exact hbits.2
    · exact (honly.trans (Dev.axesOnly_setHw [ax.val] _ Fl.offtStatusPassed ax 1 (Dev.ownPage_offtStatus ax))).mvax_regs
    · exact congrArg MvAxis.offt (hother n hn)
  · rw [if_neg hf] at heq
    have hkeep := Dev.hw_raise1 (Dev.offtShown ax f s.dev) .offtestFail ax 0 (ax.val / 8) Fl.offtStatusVerdict ax (Dev.offRaise_offtStatus ax)
    rw [hshown] at hkeep
    refine ⟨_, s.onDev_eq heq, (Dev.offt_raise1 _ _ _ _ _ _).trans hnone,
      (Dev.hw_raise1 _ _ _ _ _ Fl.offtStatusRunning ax (Dev.offRaise_offtStatus ax)).trans hstop, hkeep.trans hverdict,
      ?_, ?_, fun h => absurd (hkeep.symm.trans h) hf, fun _ => (Dev.raise1_reacted _ .offtestFail ax 0 _).from honly.force, fun n hn => ?_⟩
    · rw [hkeep]
      exact hbits.1
    · rw [hkeep]
      exact hbits.2
    · rw [Dev.offt_raise1, hother n hn]

end Sys2Proof.Machine
end

section
/-! Proofs for the end of a calibration (chapter 9). -/

namespace Sys2Proof.Machine

/-! ## Fields of the axes' pages -/

/-- Two fields of one axis's page lie apart: in registers of one word per axis at other places, or beside each other in one. -/
def pageApart (f g : Fld) : Bool :=
  decide (f.reg.place.n2 = 1 ∧ g.reg.place.n2 = 1 ∧ f.reg.place.stride1 = g.reg.place.stride1 ∧ g.reg.place.base ≠ f.reg.place.base) ||
    decide (g.reg = f.reg ∧ f.lo + f.width ≤ 32 ∧ (g.lo + g.width ≤ f.lo ∨ f.lo + f.width ≤ g.lo))

theorem offset_of_n2 (r : Reg) (i : Nat) (h : r.place.n2 = 1) : r.offset i = r.place.base + r.place.stride1 * i := by
  unfold Reg.offset
  rw [h, Nat.div_one, Nat.mod_one, Nat.mul_zero, Nat.add_zero]

theorem fieldApart_of_page {f g : Fld} (h : pageApart f g = true) (n : Nat) : Dev.fieldApart f n g n := by
  rcases (Bool.or_eq_true _ _).mp h with h | h
  · obtain ⟨hf, hg, hs, hb⟩ := of_decide_eq_true h
    refine .inl ?_
    rw [offset_of_n2 _ _ hf, offset_of_n2 _ _ hg, hs]
    omega
  · obtain ⟨hr, hw, hd⟩ := of_decide_eq_true h
    exact .inr ⟨hr, rfl, hw, hd⟩

/-- A register of the axes' pages: one word per axis, within the page of 0x400. -/
def onPage (r : Reg) : Bool := decide (r.place.n2 = 1 ∧ r.place.stride1 = 0x400 ∧ 0x10000 ≤ r.place.base ∧ r.place.base < 0x10400)

theorem offset_ne_of_page {r q : Reg} (hr : onPage r = true) (hq : onPage q = true) {n k : Nat} (h : k ≠ n) : q.offset k ≠ r.offset n := by
  obtain ⟨hr2, hrs, hrb, hrt⟩ := of_decide_eq_true hr
  obtain ⟨hq2, hqs, hqb, hqt⟩ := of_decide_eq_true hq
  rw [offset_of_n2 _ _ hr2, offset_of_n2 _ _ hq2, hrs, hqs]
  omega

namespace Dev

theorem cfg_setCfg_reg (d : Dev) (f g : Fld) (i j v : Nat) (h : g.reg.offset j ≠ f.reg.offset i) :
    (d.setCfg f i v).cfg g j = d.cfg g j := fldOf_fldSet_reg _ f g i j v h

theorem cfg_setCfg_page (d : Dev) (f g : Fld) (n v : Nat) (h : pageApart f g = true) : (d.setCfg f n v).cfg g n = d.cfg g n := by
  rcases fieldApart_of_page h n with h | ⟨hr, -, hf, hd⟩
  · exact cfg_setCfg_reg d f g n n v h
  · exact fldOf_fldSet_beside _ f g n v hr hf hd

theorem hw_setHw_page (d : Dev) (f g : Fld) (n v : Nat) (h : pageApart f g = true) : (d.setHw f n v).hw g n = d.hw g n :=
  hw_setHw_of_apart d f g n n v (fieldApart_of_page h n)

/-! ## The factors of the axes (R258, R264, R265) -/

/-- A factor as its register holds it. -/
def factorWord (x : Int) : Nat := (BitVec.ofInt 16 x).toNat

/-- The registers of an axis hold the factors that f gives. -/
structure factorsAt (n : Nat) (f : CalData) (d : Dev) : Prop where
  gainA : d.cfg Fl.isenseGainGainA n = factorWord ((calFit f.a).gain.getD 0)
  gainB : d.cfg Fl.isenseGainGainB n = factorWord ((calFit f.b).gain.getD 0)
  ofs0A : d.cfg Fl.isenseOfsOfs0A n = factorWord (calFit f.a).ofs0
  ofs0B : d.cfg Fl.isenseOfsOfs0B n = factorWord (calFit f.b).ofs0
  ofs1A : d.cfg Fl.isenseOfswOfs1A n = factorWord (calFit f.a).ofs1
  ofs1B : d.cfg Fl.isenseOfswOfs1B n = factorWord (calFit f.b).ofs1

theorem storeFactors_eq (n : Nat) (f : CalData) (d : Dev) :
    storeFactors n f d = (((((d.setCfg Fl.isenseGainGainA n (factorWord ((calFit f.a).gain.getD 0))).setCfg Fl.isenseGainGainB n
      (factorWord ((calFit f.b).gain.getD 0))).setCfg Fl.isenseOfsOfs0A n (factorWord (calFit f.a).ofs0)).setCfg Fl.isenseOfsOfs0B n
      (factorWord (calFit f.b).ofs0)).setCfg Fl.isenseOfswOfs1A n (factorWord (calFit f.a).ofs1)).setCfg Fl.isenseOfswOfs1B n
      (factorWord (calFit f.b).ofs1) := rfl

theorem factorWord_mod (x : Int) : factorWord x % 2 ^ 16 = factorWord x := Nat.mod_eq_of_lt (BitVec.isLt _)

theorem storeFactors_stores (n : Nat) (f : CalData) (d : Dev) : factorsAt n f (storeFactors n f d) := by
  rw [storeFactors_eq]
  constructor <;> simp (disch := decide) only [cfg_setCfg_page, cfg_setCfg_same] <;> exact factorWord_mod _

/-- The factors of another axis stay. -/
theorem storeFactors_keeps (n k : Nat) (h : k ≠ n) (f g : CalData) (d : Dev) (hg : factorsAt k g d) : factorsAt k g (storeFactors n f d) := by
  have hkeep : ∀ (t : Dev) (p q : Fld) (v : Nat), onPage p.reg = true → onPage q.reg = true → (t.setCfg p n v).cfg q k = t.cfg q k :=
    fun t p q v hp hq => cfg_setCfg_reg t p q n k v (offset_ne_of_page hp hq h)
  rw [storeFactors_eq]
  constructor <;> simp (disch := decide) only [hkeep]
  · exact hg.gainA
  · exact hg.gainB
  · exact hg.ofs0A
  · exact hg.ofs0B
  · exact hg.ofs1A
  · exact hg.ofs1B

theorem storeAll_keeps (m : Nat) (fs : List CalData) {k : Nat} {g : CalData} (j : Nat) (d : Dev) (hk : k < 8 * m + j) (hg : factorsAt k g d) :
    factorsAt k g (storeAll m j fs d) := by
  induction fs generalizing j d with
  | nil => exact hg
  | cons f r ih => exact ih (j + 1) _ (by omega) (storeFactors_keeps _ k (by omega) f g d hg)

theorem storeAll_stores (m : Nat) (fs : List CalData) (j : Nat) (d : Dev) {i : Nat} {f : CalData} (hf : fs[i]? = some f) :
    factorsAt (8 * m + (j + i)) f (storeAll m j fs d) := by
  induction fs generalizing i j d with
  | nil => cases hf
  | cons a r ih =>
    cases i with
    | zero =>
      obtain rfl : a = f := Option.some.inj hf
      exact storeAll_keeps m r (j + 1) _ (by omega) (storeFactors_stores _ a d)
    | succ i =>
      have h := ih (j + 1) (storeFactors (8 * m + j) a d) (i := i) hf
      rwa [Nat.add_right_comm j 1 i] at h

/-- Storing factors changes writable registers alone. -/
theorem storeAll_frame (m : Nat) (fs : List CalData) (j : Nat) (d : Dev) : storeAll m j fs d =
    { d with regs := { d.regs with acc := (storeAll m j fs d).regs.acc, force := (storeAll m j fs d).regs.force } } := by
  induction fs generalizing j d with
  | nil => rfl
  | cons f r ih =>
    have h := ih (j + 1) (storeFactors (8 * m + j) f d)
    exact h

/-- A gain within the limits is its register's value. -/
theorem factorWord_gain {g : Int} (h : (g - 32768).natAbs * 100 ≤ 6 * 32768) : (factorWord g : Int) = g := by
  unfold factorWord
  rw [BitVec.toNat_ofInt]
  omega

/-- An offset within the limits reads back. -/
theorem signed_factorWord {x : Int} (h : x.natAbs * 100 ≤ 2 * 32768) : signed 16 (factorWord x) = x := by
  unfold signed factorWord
  rw [BitVec.ofNat_toNat, BitVec.setWidth_eq, BitVec.toInt_ofInt]
  exact Int.bmod_eq_of_le (by omega) (by omega)

theorem fitOk_limits {f : CalFit} (h : fitOk f = true) :
    (∃ g, f.gain = some g ∧ (g - 32768).natAbs * 100 ≤ 6 * 32768) ∧ f.ofs0.natAbs * 100 ≤ 2 * 32768 := by
  unfold fitOk at h
  simp only [Bool.and_eq_true, decide_eq_true_eq, Option.any_eq_true] at h
  exact ⟨h.1.1, h.1.2⟩

/-- Factors within the limits stand in their registers as they are. -/
theorem factorsAt.read {n : Nat} {f : CalData} {d : Dev} (h : factorsAt n f d) (hok : factorsOk f = true) :
    some (d.cfg Fl.isenseGainGainA n : Int) = (calFit f.a).gain ∧ some (d.cfg Fl.isenseGainGainB n : Int) = (calFit f.b).gain ∧
      signed 16 (d.cfg Fl.isenseOfsOfs0A n) = (calFit f.a).ofs0 ∧ signed 16 (d.cfg Fl.isenseOfsOfs0B n) = (calFit f.b).ofs0 ∧
      d.cfg Fl.isenseOfswOfs1A n = (BitVec.ofInt 16 (calFit f.a).ofs1).toNat ∧
        d.cfg Fl.isenseOfswOfs1B n = (BitVec.ofInt 16 (calFit f.b).ofs1).toNat := by
  obtain ⟨ha, hb⟩ := (Bool.and_eq_true _ _).mp hok
  obtain ⟨⟨ga, hga, hla⟩, hoa⟩ := fitOk_limits ha
  obtain ⟨⟨gb, hgb, hlb⟩, hob⟩ := fitOk_limits hb
  refine ⟨?_, ?_, ?_, ?_, h.ofs1A, h.ofs1B⟩
  · rw [h.gainA, hga]
    exact congrArg some (factorWord_gain hla)
  · rw [h.gainB, hgb]
    exact congrArg some (factorWord_gain hlb)
  · rw [h.ofs0A]
    exact signed_factorWord hoa
  · rw [h.ofs0B]
    exact signed_factorWord hob

/-! ## The end of a calibration -/

/-- The axes of a calibration whose factors are outside the limits (R259). -/
def calFailed (fs : List CalData) : Nat :=
  maskOf ((span 0 8).filter fun j => ((fs.take 8)[j]?.map fun f => !factorsOk f).getD false)

theorem testBit_calFailed {fs : List CalData} {j : Nat} {f : CalData} (hlen : fs.length = 8) (hf : fs[j]? = some f) :
    (calFailed fs).testBit j = !factorsOk f := by
  have hj : j < 8 := by
    have := (List.getElem?_eq_some_iff.mp hf).1
    omega
  unfold calFailed
  rw [testBit_maskOf, List.take_of_length_le (by omega)]
  cases hok : factorsOk f with
  | true =>
    refine Bool.eq_false_iff.mpr fun h => ?_
    have hp := (List.mem_filter.mp (List.contains_iff_mem.mp h)).2
    rw [hf, Option.map_some, Option.getD_some, hok] at hp
    exact absurd hp (by decide)
  | false =>
    refine List.contains_iff_mem.mpr (List.mem_filter.mpr ⟨(mem_span 0 8 j).mpr (by omega), ?_⟩)
    rw [hf, Option.map_some, Option.getD_some, hok]
    rfl

theorem calFailed_lt (fs : List CalData) : calFailed fs < 2 ^ 8 := by
  refine Nat.lt_pow_two_of_testBit _ fun k hk => Bool.eq_false_iff.mpr fun h => ?_
  unfold calFailed at h
  rw [testBit_maskOf, List.contains_iff_mem] at h
  have hspan := (mem_span 0 8 k).mp (List.mem_filter.mp h).1
  omega

/-- None has failed where every factor is within the limits. -/
theorem calFailed_eq_zero {fs : List CalData} (h : ∀ f ∈ fs, factorsOk f = true) : calFailed fs = 0 := by
  have hnone : ((span 0 8).filter fun j => ((fs.take 8)[j]?.map fun f => !factorsOk f).getD false) = [] := by
    refine List.filter_eq_nil_iff.mpr fun j _ => ?_
    cases hf : (fs.take 8)[j]? with
    | none => decide
    | some f =>
      rw [Option.map_some, Option.getD_some, h f (List.mem_of_mem_take (List.mem_of_getElem? hf))]
      decide
  unfold calFailed
  rw [hnone]
  rfl

theorem calFailed_ne_zero {fs : List CalData} (hlen : fs.length = 8) (h : ∃ f ∈ fs, factorsOk f = false) : calFailed fs ≠ 0 := by
  obtain ⟨f, hmem, hbad⟩ := h
  obtain ⟨j, hj⟩ := List.mem_iff_getElem?.mp hmem
  intro h0
  have hbit := testBit_calFailed hlen hj
  rw [h0, hbad, Nat.zero_testBit] at hbit
  exact absurd hbit (by decide)

/-- A calibration that has ended shows which axes have failed, and the tracked offsets return to 0 (R255, R259). -/
def calShown (m failed : Nat) (d : Dev) : Dev :=
  (each (localAxes m) clearTrack (d.setHw Fl.isenseCalStatusRunning m 0)).setHw Fl.isenseCalStatusFailAxes m failed

/-- The end is on its way to the hub. -/
def calOver (m failed : Nat) (d : Dev) : Dev := d.modMv m fun x => { x with cal := none, calEnd := some (BitVec.ofNat 8 failed) }

theorem calEnded_eq (m : Nat) (fs : List CalData) (d : Dev) (hlen : fs.length = 8) (hrun : (d.mv m).cal = some true)
    (hlong : (d.mv m).calAt + 1000000 ≤ (d.mv m).start + hubClocks (d.mv m).rate) :
    calEnded m fs d = calOver m (calFailed fs) (if calFailed fs = 0
      then (storeAll m 0 fs (calShown m (calFailed fs) d)).setHw Fl.isenseCalStatusDone m 1
      else (calShown m (calFailed fs) d).stick Fl.isenseCalStatusLimit m) := by
  unfold calEnded
  dsimp only
  rw [if_neg (not_or.mpr ⟨not_not.mpr hrun, Nat.not_lt.mpr hlong⟩), List.take_of_length_le (Nat.le_of_eq hlen)]
  refine congrArg (fun w => calOver m w (if w = 0 then (storeAll m 0 fs (calShown m w d)).setHw Fl.isenseCalStatusDone m 1
    else (calShown m w d).stick Fl.isenseCalStatusLimit m)) (a₂ := calFailed fs) ?_
  unfold calFailed
  rw [List.take_of_length_le (Nat.le_of_eq hlen)]
  exact congrArg maskOf (List.filter_congr fun j _ => by cases fs[j]? <;> rfl)

theorem calEnded_early (m : Nat) (fs : List CalData) (d : Dev) (h : (d.mv m).cal ≠ some true ∨
    (d.mv m).start + hubClocks (d.mv m).rate < (d.mv m).calAt + 1000000) : calEnded m fs d = d := if_pos h

/-- Only device-driven registers change. -/
def hwOnly (d t : Dev) : Prop := t = { d with regs := { d.regs with hw := t.regs.hw } }

theorem hwOnly.trans {d t u : Dev} (h : hwOnly d t) (k : hwOnly t u) : hwOnly d u := by
  unfold hwOnly at *
  rw [h] at k
  exact k

theorem hwOnly_setHw (d : Dev) (f : Fld) (i v : Nat) : hwOnly d (d.setHw f i v) := rfl

theorem hwOnly_clearTrack (n : Nat) (d : Dev) : hwOnly d (clearTrack n d) :=
  (hwOnly_setHw d Fl.isenseTrackTrkA n 0).trans (hwOnly_setHw _ Fl.isenseTrackTrkB n 0)

theorem calShown_hwOnly (m failed : Nat) (d : Dev) : hwOnly d (calShown m failed d) := by
  have hclear : ∀ (l : List Nat) (t : Dev), hwOnly t (each l clearTrack t) := fun l t =>
    each_keeps (hwOnly t) clearTrack l t (fun n _ u hu => hu.trans (hwOnly_clearTrack n u)) rfl
  exact ((hwOnly_setHw d _ _ _).trans (hclear _ _)).trans (hwOnly_setHw _ _ _ _)

/-- The tracked offsets of an axis are 0. -/
def trackZero (n : Nat) (d : Dev) : Prop := d.hw Fl.isenseTrackTrkA n = 0 ∧ d.hw Fl.isenseTrackTrkB n = 0

theorem clearTrack_clears (n : Nat) (d : Dev) : trackZero n (clearTrack n d) := by
  unfold trackZero clearTrack
  simp (disch := decide) only [hw_setHw_page, hw_setHw_same]
  decide

theorem trackZero_setHw {k : Nat} {d : Dev} (h : trackZero k d) (f : Fld) (i v : Nat) (ha : Reg.offset .isenseTrack k ≠ f.reg.offset i) :
    trackZero k (d.setHw f i v) :=
  ⟨(hw_setHw_reg d f Fl.isenseTrackTrkA i k v ha).trans h.1, (hw_setHw_reg d f Fl.isenseTrackTrkB i k v ha).trans h.2⟩

theorem clearTrack_keeps (n k : Nat) (d : Dev) (h : trackZero k d) : trackZero k (clearTrack n d) := by
  by_cases hk : k = n
  · subst hk
    exact clearTrack_clears k d
  · have ha : Reg.offset .isenseTrack k ≠ Reg.offset .isenseTrack n := offset_ne_of_page rfl rfl hk
    exact trackZero_setHw (trackZero_setHw h Fl.isenseTrackTrkA n 0 ha) Fl.isenseTrackTrkB n 0 ha

theorem isenseCalStatus_apart_track (m : Fin 8) (n : Nat) : Reg.offset .isenseTrack n ≠ Reg.offset .isenseCalStatus m := by
  simp only [Reg.offset, Reg.place]
  omega

theorem trackZero_calShown (m : Fin 8) (failed : Nat) (d : Dev) (j : Fin 8) : trackZero (8 * m.val + j.val) (calShown m failed d) :=
  trackZero_setHw (each_does (trackZero (8 * m.val + j.val)) clearTrack _ _ _ ((mem_localAxes m _).mpr (by omega)) (clearTrack_clears _)
    fun n _ _ t => clearTrack_keeps n _ t) Fl.isenseCalStatusFailAxes m failed (isenseCalStatus_apart_track m _)

theorem calShown_shows (m : Fin 8) (failed : Nat) (hf : failed < 2 ^ 8) (d : Dev) :
    (calShown m failed d).hw Fl.isenseCalStatusRunning m = 0 ∧ (calShown m failed d).hw Fl.isenseCalStatusFailAxes m = failed := by
  have htrack : ∀ (l : List Nat) (t : Dev), (each l clearTrack t).hw Fl.isenseCalStatusRunning m = t.hw Fl.isenseCalStatusRunning m :=
    fun l t => each_same (fun u : Dev => u.hw Fl.isenseCalStatusRunning m) clearTrack l t fun n _ u => by
      unfold clearTrack
      rw [hw_setHw_reg _ _ _ _ _ _ (isenseCalStatus_apart_track m n).symm, hw_setHw_reg _ _ _ _ _ _ (isenseCalStatus_apart_track m n).symm]
  refine ⟨?_, (hw_setHw_same _ Fl.isenseCalStatusFailAxes m failed (by decide)).trans (Nat.mod_eq_of_lt hf)⟩
  unfold calShown
  rw [hw_setHw_page _ Fl.isenseCalStatusFailAxes Fl.isenseCalStatusRunning m failed (by decide), htrack]
  exact hw_setHw_same d Fl.isenseCalStatusRunning m 0 (by decide)

/-- A calibration whose factors are all within the limits stores them. -/
theorem calEnd_stores (m : Fin 8) (fs : List CalData) (d : Dev) :
    let t := (storeAll m 0 fs (calShown m 0 d)).setHw Fl.isenseCalStatusDone m 1
    t.hw Fl.isenseCalStatusRunning m = 0 ∧ t.hw Fl.isenseCalStatusDone m = 1 ∧
      (∀ (j : Fin 8) (f : CalData), fs[j.val]? = some f → factorsAt (8 * m.val + j.val) f t) ∧
      (∀ j : Fin 8, trackZero (8 * m.val + j.val) t) ∧ t = { d with regs := t.regs } := by
  have hhw : (storeAll m 0 fs (calShown m 0 d)).regs.hw = (calShown m 0 d).regs.hw := by rw [storeAll_frame]
  have hstore : ∀ (j : Fin 8) (f : CalData), fs[j.val]? = some f → factorsAt (8 * m.val + j.val) f (storeAll m 0 fs (calShown m 0 d)) :=
    fun j f hf => by
      have h := storeAll_stores m fs 0 (calShown m 0 d) hf
      rwa [Nat.zero_add] at h
  have hframe : storeAll m 0 fs (calShown m 0 d) = { d with regs := (storeAll m 0 fs (calShown m 0 d)).regs } := by
    have h := calShown_hwOnly m 0 d
    unfold hwOnly at h
    rw [storeAll_frame, h]
  have hrun := (hw_congr _ _ Fl.isenseCalStatusRunning m (congrArg (SMap.find · _) hhw)).trans (calShown_shows m 0 (by decide) d).1
  have htrack : ∀ j : Fin 8, trackZero (8 * m.val + j.val) (storeAll m 0 fs (calShown m 0 d)) := fun j => by
    obtain ⟨ha, hb⟩ := trackZero_calShown m 0 d j
    exact ⟨(hw_congr _ _ Fl.isenseTrackTrkA _ (congrArg (SMap.find · _) hhw)).trans ha,
      (hw_congr _ _ Fl.isenseTrackTrkB _ (congrArg (SMap.find · _) hhw)).trans hb⟩
  generalize storeAll m 0 fs (calShown m 0 d) = u at *
  refine ⟨(hw_setHw_page u Fl.isenseCalStatusDone Fl.isenseCalStatusRunning m 1 (by decide)).trans hrun,
    hw_setHw_same u Fl.isenseCalStatusDone m 1 (by decide), fun j f hf => ?_, fun j => ?_, ?_⟩
  · obtain ⟨h1, h2, h3, h4, h5, h6⟩ := hstore j f hf
    exact ⟨h1, h2, h3, h4, h5, h6⟩
  · exact trackZero_setHw (htrack j) Fl.isenseCalStatusDone m 1 (isenseCalStatus_apart_track m _)
  · rw [hframe]
    rfl

/-- One with a factor outside the limits stores none and shows which axes have failed. -/
theorem calEnd_limit (m : Fin 8) (failed : Nat) (hf : failed < 2 ^ 8) (d : Dev) :
    let t := (calShown m failed d).stick Fl.isenseCalStatusLimit m
    t.hw Fl.isenseCalStatusRunning m = 0 ∧ t.hw Fl.isenseCalStatusLimit m = 1 ∧ t.hw Fl.isenseCalStatusFailAxes m = failed ∧
      (∀ j : Fin 8, trackZero (8 * m.val + j.val) t) ∧ t.regs.force = d.regs.force ∧ t = { d with regs := t.regs } := by
  obtain ⟨hrun, hfail⟩ := calShown_shows m failed hf d
  have hframe := calShown_hwOnly m failed d
  have htrack := trackZero_calShown m failed d
  unfold hwOnly at hframe
  generalize calShown m failed d = u at *
  refine ⟨(hw_setHw_page u Fl.isenseCalStatusLimit Fl.isenseCalStatusRunning m _ (by decide)).trans hrun,
    hw_stick_same u Fl.isenseCalStatusLimit m (by decide) rfl,
    (hw_setHw_page u Fl.isenseCalStatusLimit Fl.isenseCalStatusFailAxes m _ (by decide)).trans hfail,
    fun j => trackZero_setHw (htrack j) Fl.isenseCalStatusLimit m _ (isenseCalStatus_apart_track m _), ?_, ?_⟩
  · rw [hframe]
    rfl
  · rw [hframe]
    rfl

end Dev

/-- Settles O24: the word of failed axes is 0 exactly where every factor is within the limits, and that decides between all and none. -/
theorem calibrationEndStoresAllOrNone : Obligations.CalibrationEndStoresAllOrNone := by
  refine ⟨fun s m fs hlen hrun hlong => ?_, fun s m fs h => s.onDev_eq (Dev.calEnded_early m fs s.dev h)⟩
  have heq := Dev.calEnded_eq m fs s.dev hlen hrun hlong
  have hlt := Dev.calFailed_lt fs
  by_cases hok : ∀ f ∈ fs, Dev.factorsOk f = true
  · rw [Dev.calFailed_eq_zero hok, if_pos rfl] at heq
    obtain ⟨hstop, hdone, hstore, htrack, hframe⟩ := Dev.calEnd_stores m fs s.dev
    generalize Dev.setHw _ Fl.isenseCalStatusDone m 1 = t at *
    refine ⟨_, s.onDev_eq heq, hstop, ?_, fun _ => ⟨hdone, fun j f hf => ?_⟩, fun hbad => ?_, htrack, ?_, fun k hk => ?_⟩
    · exact congrArg Mv.cal (Dev.mv_modMv_same t m _)
    · have hread := Dev.factorsAt.read (hstore j f hf) (hok f (List.mem_of_getElem? hf))
      exact hread
    · obtain ⟨f, hf, hno⟩ := hbad
      exact absurd ((hok f hf).symm.trans hno) (by decide)
    · rw [hframe]
      rfl
    · rw [hframe]
      exact Dev.mv_modMv_other _ _ hk
  · have hbad : ∃ f ∈ fs, Dev.factorsOk f = false := by
      simpa using hok
    rw [if_neg (Dev.calFailed_ne_zero hlen hbad)] at heq
    obtain ⟨hstop, hlim, hfail, htrack, hforce, hframe⟩ := Dev.calEnd_limit m (Dev.calFailed fs) hlt s.dev
    generalize Dev.stick _ Fl.isenseCalStatusLimit m = t at *
    refine ⟨_, s.onDev_eq heq, hstop, ?_, fun h => absurd h hok, fun _ => ⟨hforce, hlim, fun j f hf => ?_⟩, htrack, ?_, fun k hk => ?_⟩
    · exact congrArg Mv.cal (Dev.mv_modMv_same t m _)
    · change ((t.hw Fl.isenseCalStatusFailAxes m).testBit j = true ↔ _)
      rw [hfail, Dev.testBit_calFailed hlen hf, Bool.not_eq_true']
    · rw [hframe]
      rfl
    · rw [hframe]
      exact Dev.mv_modMv_other _ _ hk

end Sys2Proof.Machine
end

section
/-! Proofs for the phases and the comparators of a sensorless axis (chapter 7). -/

namespace Sys2Proof.Machine

namespace Dev

/-! ## The phases of a start (R214 to R226) -/

theorem modSl_axesOnly (n : Nat) (d : Dev) (f : Sl → Sl) : axesOnly [n] d (d.modSl n f) := axesOnly_modMva n d _

theorem mva_modSl (n : Nat) (d : Dev) (f : Sl → Sl) : (d.modSl n f).mva n = { d.mva n with sl := f (d.mva n).sl } := mva_modMva d n _

theorem sl_setDrive (n : Nat) (k : Drive) (hk : k ≠ .brake) (d : Dev) : ((setDrive n k d).mva n).sl = (d.mva n).sl := by
  unfold setDrive
  split
  · rfl
  · dsimp only
    rw [setFlag_mva, mva_modMva]

theorem toAlign_enters (n : Nat) (d : Dev) : axesOnly [n] d (toAlign n d) ∧ ((toAlign n d).mva n).drive = .openloop ∧
    ((toAlign n d).mva n).sl.phase = 3 ∧ ((toAlign n d).mva n).sl.left = max 1 (d.cfg Fl.slAlignAlignTicks n) := by
  have honly : axesOnly [n] d (toAlign n d) := by
    unfold toAlign
    exact (setDrive_axesOnly n .openloop d).trans (modSl_axesOnly n _ _)
  refine ⟨honly, ?_, ?_, ?_⟩ <;> unfold toAlign <;> dsimp only <;> rw [mva_modSl]
  exact drive_setDrive n .openloop d

theorem toRamp_enters (n : Nat) (d : Dev) : axesOnly [n] d (toRamp n d) ∧ ((toRamp n d).mva n).drive = .openloop ∧
    ((toRamp n d).mva n).sl.phase = 4 ∧ ((toRamp n d).mva n).sl.known = (d.mva n).sl.known := by
  have honly : axesOnly [n] d (toRamp n d) := by
    unfold toRamp
    exact (setDrive_axesOnly n .openloop d).trans (modSl_axesOnly n _ _)
  refine ⟨honly, ?_, ?_, ?_⟩ <;> unfold toRamp <;> dsimp only <;> rw [mva_modSl]
  · exact drive_setDrive n .openloop d
  · change ((setDrive n .openloop d).mva n).sl.known = _
    rw [sl_setDrive n .openloop (by decide) d]

theorem toCoast_enters (n : Nat) (d : Dev) : axesOnly [n] d (toCoast n d) ∧ ((toCoast n d).mva n).drive = .float ∧
    ((toCoast n d).mva n).sl.phase = 9 := by
  have honly : axesOnly [n] d (toCoast n d) := by
    unfold toCoast
    exact (setDrive_axesOnly n .float d).trans (modSl_axesOnly n _ _)
  refine ⟨honly, ?_, ?_⟩ <;> unfold toCoast <;> dsimp only <;> rw [mva_modSl]
  exact drive_setDrive n .float d

theorem endSeq_enters (n : Nat) (k : Drive) (hk : k ≠ .brake) (ph : BitVec 4) (e : SeqEnd) (d : Dev) :
    axesOnly [n] d (endSeq n k ph e d) ∧ ((endSeq n k ph e d).mva n).drive = k ∧ ((endSeq n k ph e d).mva n).sl.ending = some e ∧
      ((endSeq n k ph e d).mva n).sl.known = (d.mva n).sl.known := by
  refine ⟨(setDrive_axesOnly n k d).trans (modSl_axesOnly n _ _), ?_, ?_, ?_⟩ <;> unfold endSeq <;> rw [mva_modSl]
  · exact drive_setDrive n k d
  · change ((setDrive n k d).mva n).sl.known = _
    rw [sl_setDrive n k hk d]

/-- The angle of an axis is known from its alignment on (R214). -/
def angleKnown (n : Nat) (d : Dev) : Dev :=
  (if (d.mva n).sl.known then d else unverified n d).modSl n fun s => { s with known := true, aligned := true }

theorem angleKnown_axesOnly (n : Nat) (d : Dev) : axesOnly [n] d (angleKnown n d) := by
  unfold angleKnown
  split
  · exact modSl_axesOnly n d _
  · exact (unverified_axesOnly n d).trans (modSl_axesOnly n _ _)

theorem angleKnown_known (n : Nat) (d : Dev) : ((angleKnown n d).mva n).sl.known = true := by
  unfold angleKnown
  rw [mva_modSl]

theorem alignEnd_eq (n : Nat) (d : Dev) (h : d.alignDue n = true) : alignEnd n d =
    if ((d.mva n).sl.req.map (·.alignOnly)).getD false then endSeq n .field phHold .aligned (angleKnown n d)
    else toRamp n (angleKnown n d) := by
  unfold alignEnd angleKnown
  rw [h]
  rfl

theorem windowEnd_resync (n : Nat) (d : Dev) (h : d.windowDue n = true) (hph : (d.mva n).sl.phase = 8)
    (hlast : d.cfg Fl.slLossCatchtries n ≤ (d.mva n).sl.catchTry) : windowEnd n d = toCoast n d := by
  unfold windowEnd
  dsimp only
  rw [h, if_neg (by decide), if_pos hph, decide_eq_false (Nat.not_lt.mpr hlast)]
  rfl

theorem windowEnd_starts (n : Nat) (d : Dev) (h : d.windowDue n = true) (hph : (d.mva n).sl.phase ≠ 8) (r : SeqReq)
    (hr : (d.mva n).sl.req = some r) (hstop : (d.mva n).sl.stopping = false) (hcatch : r.catchOnly = false) :
    windowEnd n d = if (d.mva n).sl.known && !r.realign then toRamp n d else toAlign n d := by
  unfold windowEnd
  dsimp only
  rw [h, if_neg (by decide), if_neg hph, hr]
  dsimp only
  rw [hstop, if_neg (by decide), hcatch, if_neg (by decide)]

end Dev

/-- Settles O26: each phase is entered by its own drive and with its own number, on one axis alone. -/
theorem startPhasesEnd : Obligations.StartPhasesEnd := by
  refine ⟨fun s ax hdue => ?_, fun s ax hdue => ?_, fun s ax hdue hph hlast => ?_, fun s ax r hdue hph hr hstop hcatch => ?_⟩
  · have heq := Dev.alignEnd_eq ax s.dev hdue
    have honly := Dev.angleKnown_axesOnly ax s.dev
    by_cases halign : ((s.dev.mva ax).sl.req.map (·.alignOnly)).getD false = true
    · rw [if_pos halign] at heq
      obtain ⟨hend, hdrive, hending, hknown⟩ := Dev.endSeq_enters ax .field (by decide) phHold .aligned (Dev.angleKnown ax s.dev)
      refine ⟨_, s.onDev_eq heq, hknown.trans (Dev.angleKnown_known ax s.dev), ?_, (honly.trans hend).axesBut, (honly.trans hend).mvax_regs⟩
      rw [if_pos halign]
      exact ⟨hdrive, hending⟩
    · rw [if_neg halign] at heq
      obtain ⟨hramp, hdrive, hphase, hknown⟩ := Dev.toRamp_enters ax (Dev.angleKnown ax s.dev)
      refine ⟨_, s.onDev_eq heq, hknown.trans (Dev.angleKnown_known ax s.dev), ?_, (honly.trans hramp).axesBut, (honly.trans hramp).mvax_regs⟩
      rw [if_neg halign]
      exact ⟨hdrive, hphase⟩
  · obtain ⟨honly, hdrive, hphase, hleft⟩ := Dev.toAlign_enters ax s.dev
    exact ⟨_, s.onDev_eq (if_pos hdue), hdrive, hphase, hleft, honly.axesBut, honly.mvax_regs⟩
  · obtain ⟨honly, hdrive, hphase⟩ := Dev.toCoast_enters ax s.dev
    exact ⟨_, s.onDev_eq (Dev.windowEnd_resync ax s.dev hdue hph hlast), hdrive, hphase, honly.axesBut, honly.mvax_regs⟩
  · have heq := Dev.windowEnd_starts ax s.dev hdue hph r hr hstop hcatch
    by_cases hknown : ((s.dev.mva ax).sl.known && !r.realign) = true
    · rw [if_pos hknown] at heq
      obtain ⟨honly, hdrive, hphase, -⟩ := Dev.toRamp_enters ax s.dev
      exact ⟨_, s.onDev_eq heq, hdrive, hphase.trans (if_pos hknown).symm, honly.axesBut, honly.mvax_regs⟩
    · rw [if_neg hknown] at heq
      obtain ⟨honly, hdrive, hphase, -⟩ := Dev.toAlign_enters ax s.dev
      exact ⟨_, s.onDev_eq heq, hdrive, hphase.trans (if_neg hknown).symm, honly.axesBut, honly.mvax_regs⟩

end Sys2Proof.Machine
end

section
/-! Proofs for the comparator events of a sensorless axis (chapter 7). -/

namespace Sys2Proof.Machine

namespace Dev

/-! ## A crossing as the monitors see it (R452, R143) -/

theorem ownPage_escAxstatus (n : Nat) : ownPage (Reg.offset .escAxstatus n) := by
  simp only [ownPage, Reg.offset, Reg.place]
  omega

/-- SLS channel 2 sees the crossing of a floating phase (R452). -/
def crossSeen (n : Nat) (p : Fin 3) (t : Nat) (d : Dev) : Dev :=
  if (d.mva n).legs.modes.of p = .off && !d.slsBlind n then watchCross n p t d else d

theorem watchCross_axesOnly (n : Nat) (p : Fin 3) (t : Nat) (d : Dev) : axesOnly [n] d (watchCross n p t d) := by
  unfold watchCross
  dsimp only
  split
  · exact modWatch_axesOnly n d _
  · exact (axesOnly_setHw [n] d Fl.escAxstatusDcnt n _ (ownPage_escAxstatus n)).trans (modWatch_axesOnly n _ _)

theorem mva_watchCross (n : Nat) (p : Fin 3) (t : Nat) (d : Dev) : ∃ w, (watchCross n p t d).mva n = { d.mva n with watch := w } := by
  unfold watchCross modWatch
  dsimp only
  split
  · exact ⟨_, mva_modMva d n _⟩
  · rw [mva_modMva]
    exact ⟨_, rfl⟩

theorem crossSeen_facts (n : Nat) (p : Fin 3) (t : Nat) (d : Dev) :
    axesOnly [n] d (crossSeen n p t d) ∧ ∃ w, (crossSeen n p t d).mva n = { d.mva n with watch := w } := by
  unfold crossSeen
  split
  · exact ⟨watchCross_axesOnly n p t d, mva_watchCross n p t d⟩
  · exact ⟨axesOnly_refl _ _, _, rfl⟩

/-- An axis without drive loses its verified position with a crossing (R143, R212). -/
def crossLoses (n : Nat) (d : Dev) : Dev :=
  if undriven (d.mva n).drive then (if (d.mva n).sl.known then loseAngle n d else unverified n d) else d

theorem loseAngle_axesOnly (n : Nat) (d : Dev) : axesOnly [n] d (loseAngle n d) := (modSl_axesOnly n d _).trans (unverified_axesOnly n _)

theorem mva_loseAngle (n : Nat) (d : Dev) :
    (loseAngle n d).mva n = { d.mva n with unver := true, sl := { (d.mva n).sl with known := false } } := by
  unfold loseAngle unverified
  rw [mva_modMva, mva_modSl]

theorem crossLoses_driven (n : Nat) (d : Dev) (h : undriven (d.mva n).drive = false) : crossLoses n d = d := by
  unfold crossLoses
  rw [h]
  exact if_neg (by decide)

theorem crossLoses_undriven (n : Nat) (d : Dev) (h : undriven (d.mva n).drive = true) : axesOnly [n] d (crossLoses n d) ∧
    (crossLoses n d).mva n = { d.mva n with unver := true, sl := { (d.mva n).sl with known := false } } := by
  unfold crossLoses
  rw [if_pos h]
  cases hk : (d.mva n).sl.known with
  | true => exact ⟨loseAngle_axesOnly n d, mva_loseAngle n d⟩
  | false =>
    refine ⟨unverified_axesOnly n d, ?_⟩
    unfold unverified
    rw [if_neg (by decide), mva_modMva, ← hk]

/-- What a crossing does for the start and the count, once the monitors have seen it. -/
def crossTaken (n : Nat) (p : Fin 3) (half : Bool) (t : Nat) (d : Dev) : Dev :=
  if (d.mva n).sl.phase = phRamp then rampCrossing n p half t (crossLoses n d)
  else if probing (d.mva n) then countCrossing n p (crossAngle p half) t (crossLoses n d)
  else if (d.mva n).sl.phase = phCatch || (d.mva n).sl.phase = phResync || (d.mva n).sl.phase = phCoast then
    let u := countCrossing n p (crossAngle p half) t (crossLoses n d)
    if ((d.mva n).sl.phase = phCatch && (u.mva n).sl.count = 3) || ((d.mva n).sl.phase = phResync && 3 ≤ (u.mva n).sl.count) then
      u.modSl n fun s => { s with next := some .sync }
    else u
  else crossLoses n d

theorem crossing_eq (n : Nat) (pin : Fin 3) (half : Bool) (swing off : Nat) (d : Dev) (hon : d.mvOn (n / 8) = true)
    (hhyst : d.beyondHyst n swing = true) (hsl : d.sensorless n = true) :
    crossing n pin half swing off d = crossTaken n (Fin.ofNat 3 (d.swapped n pin)) half ((d.mv (n / 8)).start + off)
      (crossSeen n (Fin.ofNat 3 (d.swapped n pin)) ((d.mv (n / 8)).start + off) d) := by
  have hseen : (crossSeen n (Fin.ofNat 3 (d.swapped n pin)) ((d.mv (n / 8)).start + off) d).sensorless n = true := by
    unfold sensorless at hsl ⊢
    rw [cfg_congr (crossSeen_facts n _ _ d).1.force]
    exact hsl
  unfold crossing
  rw [hon, hhyst]
  refine (if_neg (by decide)).trans ?_
  change (if !(crossSeen n (Fin.ofNat 3 (d.swapped n pin)) ((d.mv (n / 8)).start + off) d).sensorless n then _ else
    crossTaken n (Fin.ofNat 3 (d.swapped n pin)) half ((d.mv (n / 8)).start + off)
      (crossSeen n (Fin.ofNat 3 (d.swapped n pin)) ((d.mv (n / 8)).start + off) d)) = _
  rw [hseen]
  exact if_neg (by decide)

theorem crossing_small (n : Nat) (pin : Fin 3) (half : Bool) (swing off : Nat) (d : Dev)
    (hph : (d.mva n).sl.phase = 1 ∨ (d.mva n).sl.phase = 8) (hswing : 2 * swing < 10 * d.cfg Fl.slCatchHyst n) :
    crossing n pin half swing off d = d := by
  have hhyst : d.beyondHyst n swing = false := by
    unfold beyondHyst
    dsimp only
    rw [decide_eq_false (Nat.not_le.mpr hswing)]
    rcases hph with h | h <;> rw [h] <;> rfl
  unfold crossing
  rw [hhyst, Bool.not_false, Bool.or_true]
  exact if_pos rfl

/-! ## Crossings in RAMP (R216) -/

/-- The crossing makes its sector good. -/
def rampGood (n : Nat) (p : Fin 3) (half : Bool) (t : Nat) (d : Dev) : Prop :=
  (d.mva n).sl.counts = true ∧ (d.mva n).sl.secGood = false ∧ crossPhase (rampCross (d.mva n).sl) = p ∧
    decide (rampCross (d.mva n).sl % 2 = 1) = half ∧ (d.mva n).sl.comm + 800 ≤ t ∧ d.inSyncwin n t = true

theorem rampCrossing_good (n : Nat) (p : Fin 3) (half : Bool) (t : Nat) (d : Dev) (h : rampGood n p half t d) :
    axesOnly [n] d (rampCrossing n p half t d) ∧ ((rampCrossing n p half t d).mva n).sl = { (d.mva n).sl with
      good := (d.mva n).sl.good + 1, secGood := true, crossAt := t, crossA := crossAngle p half,
      next := if d.zccount n ≤ (d.mva n).sl.good + 1 then some .sync else (d.mva n).sl.next } := by
  obtain ⟨hcounts, hsec, hphase, hhalf, hcomm, hwin⟩ := h
  have heq : rampCrossing n p half t d =
      if d.zccount n ≤ (d.mva n).sl.good + 1 then
        (d.modSl n fun s => { s with good := s.good + 1, secGood := true, crossAt := t, crossA := crossAngle p half }).modSl n
          fun s => { s with next := some .sync }
      else d.modSl n fun s => { s with good := s.good + 1, secGood := true, crossAt := t, crossA := crossAngle p half } := by
    unfold rampCrossing
    dsimp only
    rw [hcounts, hsec, hwin, hphase, hhalf, decide_eq_false (Nat.not_lt.mpr hcomm)]
    simp only [ne_eq, not_true_eq_false, decide_false, Bool.not_true, Bool.or_false]
    rfl
  rw [heq]
  split
  · refine ⟨(modSl_axesOnly n d _).trans (modSl_axesOnly n _ _), ?_⟩
    rw [mva_modSl, mva_modSl]
  · refine ⟨modSl_axesOnly n d _, ?_⟩
    rw [mva_modSl]

theorem rampCrossing_other (n : Nat) (p : Fin 3) (half : Bool) (t : Nat) (d : Dev) (h : ¬ rampGood n p half t d) :
    rampCrossing n p half t d = d := by
  unfold rampCrossing
  dsimp only
  refine if_pos ?_
  by_contra hno
  simp only [Bool.or_eq_true, Bool.not_eq_true', decide_eq_true_eq, not_or, ne_eq, not_not, Bool.not_eq_false, Bool.not_eq_true,
    Nat.not_lt] at hno
  obtain ⟨⟨⟨⟨⟨hcounts, hsec⟩, hphase⟩, hhalf⟩, hcomm⟩, hwin⟩ := hno
  exact h ⟨hcounts, hsec, hphase, hhalf, hcomm, hwin⟩

/-- What a crossing's place in its sector is read from. -/
theorem inSyncwin_congr {d t : Dev} {n : Nat} (h : axesOnly [n] d t) (hsl : (t.mva n).sl = (d.mva n).sl) (hsp : (t.mva n).sp = (d.mva n).sp)
    (at_ : Nat) : t.inSyncwin n at_ = d.inSyncwin n at_ := by
  have htime : t.tickLen = d.tickLen := by
    rw [h.frame]
    rfl
  unfold inSyncwin syncwin cpe
  rw [hsl, hsp, htime, cfg_congr h.force, cfg_congr h.force]

/-! ## Crossings in CATCH (R227) -/

theorem posInt_setCounter (n : Nat) (p : Int) (d : Dev) : (setCounter n p d).posInt n = p := by
  have hfb : ((setCounter n p d).mva n).fb = { (d.mva n).fb with base := p, steps := 0 } := congrArg MvAxis.fb (mva_modFb n d _)
  unfold posInt
  rw [hfb]
  dsimp only
  split <;> simp [quot]

theorem sl_wrapCheck (n : Nat) (d : Dev) : ((wrapCheck n d).mva n).sl = (d.mva n).sl ∧
    ((d.mva n).unver = true → ((wrapCheck n d).mva n).unver = true) := by
  unfold wrapCheck
  dsimp only
  split
  · unfold unverified stick
    rw [mva_modMva, setHw_mva, mva_modFb]
    exact ⟨rfl, fun _ => rfl⟩
  · exact ⟨rfl, id⟩

theorem counter_modSl (n : Nat) (d : Dev) (f : Sl → Sl) : (d.modSl n f).counter n = d.counter n :=
  counter_congr (d := d) (t := d.modSl n f) rfl n (by rw [mva_modSl]) (by rw [mva_modSl])

/-- The move of the count by a crossing of CATCH, from its number n (R227). -/
def crossMove (d : Dev) (n : Nat) (k dir : Int) : Int :=
  quot ((k + dir) * (d.cpe n : Int) * 256) 6 - quot (k * (d.cpe n : Int) * 256) 6

/-- The state of a sequence after a crossing in order, `iv` after the one before. -/
def crossNext (p : Fin 3) (a : BitVec 16) (t iv : Nat) (dir : Int) (s : Sl) : Sl :=
  { s with last := some p, order := dir, count := s.count + 1, iv1 := iv, iv2 := s.iv1, crossAt := t, crossA := a
           cvalid := true, crossN := s.crossN + dir }

/-- An edge has been seen, so that the speed does not time out. -/
def edgeSeen (n : Nat) (d : Dev) : Dev := d.modFb n fun f => { f with quiet := 0 }

theorem countCrossing_eq (n : Nat) (p q : Fin 3) (a : BitVec 16) (t : Nat) (d : Dev) (hph : (d.mva n).sl.phase = phCatch)
    (hlast : (d.mva n).sl.last = some q) (hdir : crossDir q p ≠ 0)
    (horder : (d.mva n).sl.order = 0 ∨ (d.mva n).sl.order = crossDir q p) :
    countCrossing n p a t d = (wrapCheck n (setCounter n ((edgeSeen n d).posInt n + d.crossMove n (d.mva n).sl.crossN (crossDir q p))
      (edgeSeen n d))).modSl n (crossNext p a t (t - (d.mva n).sl.crossAt) (crossDir q p)) := by
  unfold countCrossing
  dsimp only
  rw [hlast]
  dsimp only
  rw [if_neg (by
    rintro (h | ⟨h0, h1⟩)
    · exact hdir h
    · exact horder.elim h0 h1), hph]
  rfl

/-- A crossing of CATCH in order. -/
theorem countCrossing_inOrder (n : Nat) (p q : Fin 3) (a : BitVec 16) (t : Nat) (d : Dev) (hph : (d.mva n).sl.phase = phCatch)
    (hlast : (d.mva n).sl.last = some q) (hdir : crossDir q p ≠ 0)
    (horder : (d.mva n).sl.order = 0 ∨ (d.mva n).sl.order = crossDir q p) (hunver : (d.mva n).unver = true) :
    axesOnly [n] d (countCrossing n p a t d) ∧ ((countCrossing n p a t d).mva n).sl = crossNext p a t (t - (d.mva n).sl.crossAt) (crossDir q p) (d.mva n).sl ∧
      ((countCrossing n p a t d).mva n).unver = true ∧
      (countCrossing n p a t d).counter n = BitVec.ofInt 40 (d.posInt n + d.crossMove n (d.mva n).sl.crossN (crossDir q p)) := by
  have heq := countCrossing_eq n p q a t d hph hlast hdir horder
  have hkept : ∀ k, ((setCounter n k (edgeSeen n d)).mva n).sl = (d.mva n).sl ∧
      ((setCounter n k (edgeSeen n d)).mva n).unver = (d.mva n).unver := fun k => by
    unfold setCounter edgeSeen
    rw [mva_modFb, mva_modFb]
    exact ⟨rfl, rfl⟩
  refine ⟨?_, ?_, ?_, ?_⟩
  · rw [heq]
    exact (((modFb_axesOnly n d _).trans (modFb_axesOnly n _ _)).trans (wrapCheck_axesOnly n _)).trans (modSl_axesOnly n _ _)
  · rw [heq, mva_modSl]
    dsimp only
    rw [(sl_wrapCheck n _).1, (hkept _).1]
  · rw [heq, mva_modSl]
    exact (sl_wrapCheck n _).2 ((hkept _).2.trans hunver)
  · have hpos : (edgeSeen n d).posInt n = d.posInt n := by
      have hfb : ((edgeSeen n d).mva n).fb = { (d.mva n).fb with quiet := 0 } := congrArg MvAxis.fb (mva_modFb n d _)
      exact posInt_congr (d := d) (t := edgeSeen n d) rfl n (by rw [hfb]) (by rw [hfb])
    rw [heq, counter_modSl, counter_wrapCheck, hpos]
    unfold counter
    rw [posInt_setCounter]

/-- A crossing in RAMP, through to the start (R216). -/
theorem crossing_ramp (n : Nat) (pin : Fin 3) (half : Bool) (swing off : Nat) (d : Dev) (hsl : d.sensorless n = true)
    (hon : d.mvOn (n / 8) = true) (hdrive : (d.mva n).drive = .openloop) (hph : (d.mva n).sl.phase = 4) :
    ∃ u, axesOnly [n] d u ∧ (u.mva n).sl = (d.mva n).sl ∧ (u.mva n).sp = (d.mva n).sp ∧
      crossing n pin half swing off d = rampCrossing n (Fin.ofNat 3 (d.swapped n pin)) half ((d.mv (n / 8)).start + off) u := by
  have hhyst : d.beyondHyst n swing = true := by
    unfold beyondHyst
    dsimp only
    rw [hph]
    rfl
  obtain ⟨honly, w, hmva⟩ := crossSeen_facts n (Fin.ofNat 3 (d.swapped n pin)) ((d.mv (n / 8)).start + off) d
  refine ⟨_, honly, by rw [hmva], by rw [hmva], ?_⟩
  rw [crossing_eq n pin half swing off d hon hhyst hsl]
  generalize crossSeen n (Fin.ofNat 3 (d.swapped n pin)) ((d.mv (n / 8)).start + off) d = u at hmva
  unfold crossTaken
  rw [crossLoses_driven n u (by rw [hmva]; dsimp only; rw [hdrive]; rfl), if_pos (by rw [hmva]; exact hph)]

/-- A crossing of an axis without drive (R143). -/
theorem crossing_coasting (n : Nat) (pin : Fin 3) (half : Bool) (swing off : Nat) (d : Dev) (hsl : d.sensorless n = true)
    (hon : d.mvOn (n / 8) = true) (hdrive : (d.mva n).drive = .off) (hph : (d.mva n).sl.phase = 0) :
    axesOnly [n] d (crossing n pin half swing off d) ∧ ((crossing n pin half swing off d).mva n).sl.known = false ∧
      ((crossing n pin half swing off d).mva n).unver = true ∧ (crossing n pin half swing off d).counter n = d.counter n := by
  have hhyst : d.beyondHyst n swing = true := by
    unfold beyondHyst
    dsimp only
    rw [hph]
    rfl
  obtain ⟨honly, w, hmva⟩ := crossSeen_facts n (Fin.ofNat 3 (d.swapped n pin)) ((d.mv (n / 8)).start + off) d
  rw [crossing_eq n pin half swing off d hon hhyst hsl]
  generalize crossSeen n (Fin.ofNat 3 (d.swapped n pin)) ((d.mv (n / 8)).start + off) d = u at honly hmva
  have hudrive : (u.mva n).drive = .off := (congrArg MvAxis.drive hmva).trans hdrive
  have huph : (u.mva n).sl.phase = 0 := (congrArg (fun x => x.sl.phase) hmva).trans hph
  obtain ⟨hloses, hlost⟩ := crossLoses_undriven n u (by rw [hudrive]; rfl)
  have heq : ∀ t, crossTaken n (Fin.ofNat 3 (d.swapped n pin)) half t u = crossLoses n u := fun t => by
    unfold crossTaken probing
    rw [huph, hudrive]
    rfl
  rw [heq]
  refine ⟨honly.trans hloses, by rw [hlost], by rw [hlost], ?_⟩
  refine counter_congr (honly.trans hloses).force n ?_ ?_ <;> rw [hlost, hmva]

/-- A crossing of CATCH in order, through to the next sixth of CPE (R227). -/
theorem crossing_catch (n : Nat) (pin q : Fin 3) (half : Bool) (swing off : Nat) (d : Dev) (hsl : d.sensorless n = true)
    (hon : d.mvOn (n / 8) = true) (hdrive : (d.mva n).drive = .catching) (hph : (d.mva n).sl.phase = 1)
    (hswing : 10 * d.cfg Fl.slCatchHyst n ≤ 2 * swing) (hlast : (d.mva n).sl.last = some q)
    (hdir : crossDir q (Fin.ofNat 3 (d.swapped n pin)) ≠ 0)
    (horder : (d.mva n).sl.order = 0 ∨ (d.mva n).sl.order = crossDir q (Fin.ofNat 3 (d.swapped n pin))) :
    ∃ u iv, axesOnly [n] d u ∧ (u.mva n).unver = true ∧
      (u.mva n).sl = crossNext (Fin.ofNat 3 (d.swapped n pin)) (crossAngle (Fin.ofNat 3 (d.swapped n pin)) half)
        ((d.mv (n / 8)).start + off) iv (crossDir q (Fin.ofNat 3 (d.swapped n pin))) { (d.mva n).sl with known := false } ∧
      u.counter n = BitVec.ofInt 40 (d.posInt n + d.crossMove n (d.mva n).sl.crossN (crossDir q (Fin.ofNat 3 (d.swapped n pin)))) ∧
      crossing n pin half swing off d = if (d.mva n).sl.count = 2 then u.modSl n fun s => { s with next := some .sync } else u := by
  have hhyst : d.beyondHyst n swing = true := by
    unfold beyondHyst
    rw [decide_eq_true hswing, Bool.or_true]
  obtain ⟨honly, w, hmva⟩ := crossSeen_facts n (Fin.ofNat 3 (d.swapped n pin)) ((d.mv (n / 8)).start + off) d
  rw [crossing_eq n pin half swing off d hon hhyst hsl]
  generalize Fin.ofNat 3 (d.swapped n pin) = p at *
  generalize (d.mv (n / 8)).start + off = t at *
  generalize crossSeen n p t d = v at honly hmva
  have hvdrive : (v.mva n).drive = .catching := (congrArg MvAxis.drive hmva).trans hdrive
  have hvph : (v.mva n).sl.phase = 1 := (congrArg (fun x => x.sl.phase) hmva).trans hph
  obtain ⟨hloses, hlost⟩ := crossLoses_undriven n v (by rw [hvdrive]; rfl)
  have hslx : ((crossLoses n v).mva n).sl = { (d.mva n).sl with known := false } := by rw [hlost, hmva]
  have hpos : (crossLoses n v).posInt n = d.posInt n :=
    posInt_congr (honly.trans hloses).force n (by rw [hlost, hmva]) (by rw [hlost, hmva])
  have hmove : ∀ k dir, (crossLoses n v).crossMove n k dir = d.crossMove n k dir := fun k dir => by
    unfold crossMove cpe
    rw [cfg_congr (honly.trans hloses).force]
  obtain ⟨hcount, hcsl, hcun, hccnt⟩ := countCrossing_inOrder n p q (crossAngle p half) t (crossLoses n v)
    (by rw [hslx]; exact hph) (by rw [hslx]; exact hlast) hdir (by rw [hslx]; exact horder) (by rw [hlost])
  rw [hslx] at hcsl hccnt
  rw [hpos, hmove] at hccnt
  refine ⟨_, _, (honly.trans hloses).trans hcount, hcun, hcsl, hccnt, ?_⟩
  have hthree : ((countCrossing n p (crossAngle p half) t (crossLoses n v)).mva n).sl.count = (d.mva n).sl.count + 1 := by
    rw [hcsl]
    rfl
  unfold crossTaken probing
  dsimp only
  rw [hvph, hvdrive, hthree]
  simp only [show (1 : BitVec 4) = phRamp ↔ False from by decide,
    show (1 : BitVec 4) = phResync ↔ False from by decide, if_false, decide_true, Bool.true_or, if_true, Bool.true_and, decide_false,
    Bool.false_and, Bool.or_false, decide_eq_true_eq]
  rw [show (Drive.catching == Drive.brake) = false from rfl, Bool.false_and, if_neg (by decide)]
  by_cases h2 : (d.mva n).sl.count = 2
  · rw [if_pos h2, if_pos (by omega)]
  · rw [if_neg h2, if_neg (by omega)]

/-! ## Float windows and brake probes (R224, R193) -/

theorem ownPage_slStatus (n : Nat) : ownPage (Reg.offset .slStatus n) := by
  simp only [ownPage, Reg.offset, Reg.place]
  omega

/-- The sample of a window has been taken. -/
def sampleTaken (n : Nat) (d : Dev) : Dev := d.modSl n fun s => { s with wtaken := true }

/-- A sample beyond the thresholds adds to the run and to BEYOND (R225, R239). -/
def beyondCounted (n run : Nat) (d : Dev) : Dev := (d.modSl n fun s => { s with lossRun := run, band := 0 }).bump Fl.slStatusBeyond n 1

theorem beyondCounted_facts (n run : Nat) (d : Dev) : axesOnly [n] d (beyondCounted n run d) ∧
    (beyondCounted n run d).mva n = { d.mva n with sl := { (d.mva n).sl with lossRun := run, band := 0 } } ∧
    (beyondCounted n run d).hw Fl.slStatusBeyond n = min (2 ^ Fl.slStatusBeyond.width - 1) (d.hw Fl.slStatusBeyond n + 1) :=
  ⟨(modSl_axesOnly n d _).trans (axesOnly_setHw [n] _ Fl.slStatusBeyond n (min (2 ^ Fl.slStatusBeyond.width - 1)
      (d.hw Fl.slStatusBeyond n + 1)) (ownPage_slStatus n)),
    mva_modSl n d fun s => { s with lossRun := run, band := 0 },
    hw_bump_same (d.modSl n fun s => { s with lossRun := run, band := 0 }) Fl.slStatusBeyond n 1 (by decide)⟩

theorem windowSample_eq (n : Nat) (v : Int) (d : Dev) (hsl : d.sensorless n = true) (hopen : (d.mva n).legs.wphase.isSome = true)
    (hnew : (d.mva n).sl.wtaken = false) :
    windowSample n v d = if (sampleTaken n d).inBand n v then
        (sampleTaken n d).modSl n fun s =>
          { s with lossRun := 0, band := s.band + 1, catchTry := if (sampleTaken n d).zccount n ≤ s.band + 1 then 0 else s.catchTry }
      else
        let u := beyondCounted n ((d.mva n).sl.lossRun + 1) (sampleTaken n d)
        if max 1 (u.cfg Fl.slLossLosscount n) ≤ (d.mva n).sl.lossRun + 1 then u.modSl n fun s => { s with next := some .lost } else u := by
  unfold windowSample
  dsimp only
  rw [hsl, hnew, ← Option.not_isSome, hopen]
  exact if_neg (by decide)

/-- The sample of an open float window (R224, R225). -/
theorem windowSample_takes (n : Nat) (v : Int) (d : Dev) (hsl : d.sensorless n = true) (hopen : (d.mva n).legs.wphase.isSome = true)
    (hnew : (d.mva n).sl.wtaken = false) :
    axesOnly [n] d (windowSample n v d) ∧ ((windowSample n v d).mva n).sl.wtaken = true ∧
      (if d.inBand n v = true then ((windowSample n v d).mva n).sl.lossRun = 0 ∧
          (windowSample n v d).hw Fl.slStatusBeyond n = d.hw Fl.slStatusBeyond n
        else ((windowSample n v d).mva n).sl.lossRun = (d.mva n).sl.lossRun + 1 ∧
          (windowSample n v d).hw Fl.slStatusBeyond n =
            min (2 ^ Fl.slStatusBeyond.width - 1) (d.hw Fl.slStatusBeyond n + 1)) := by
  have htaken : (sampleTaken n d).mva n = { d.mva n with sl := { (d.mva n).sl with wtaken := true } } := mva_modSl n d _
  have honly : axesOnly [n] d (sampleTaken n d) := modSl_axesOnly n d _
  have hband : (sampleTaken n d).inBand n v = d.inBand n v := by
    unfold inBand
    rw [htaken, cfg_congr honly.force]
  rw [windowSample_eq n v d hsl hopen hnew, hband]
  have hhw : (sampleTaken n d).hw Fl.slStatusBeyond n = d.hw Fl.slStatusBeyond n := rfl
  generalize sampleTaken n d = u at htaken honly hhw
  by_cases hin : d.inBand n v = true
  · rw [if_pos hin, if_pos hin]
    refine ⟨honly.trans (modSl_axesOnly n u _), ?_, ?_, hhw⟩
    · rw [mva_modSl, htaken]
    · rw [mva_modSl]
  · rw [if_neg hin, if_neg hin]
    dsimp only
    obtain ⟨hmore, hrun, hbump⟩ := beyondCounted_facts n ((d.mva n).sl.lossRun + 1) u
    rw [hhw] at hbump
    rw [htaken] at hrun
    generalize beyondCounted n ((d.mva n).sl.lossRun + 1) u = w at hmore hrun hbump
    split
    · refine ⟨(honly.trans hmore).trans (modSl_axesOnly n w _), ?_, ?_, hbump⟩ <;> rw [mva_modSl, hrun]
    · refine ⟨honly.trans hmore, ?_, ?_, hbump⟩ <;> rw [hrun]

theorem windowSample_still (n : Nat) (v : Int) (d : Dev) (h : (d.mva n).legs.wphase = none ∨ (d.mva n).sl.wtaken = true) :
    windowSample n v d = d := by
  unfold windowSample
  dsimp only
  refine if_pos ?_
  rcases h with h | h
  · rw [h, Option.isNone_none, Bool.or_true, Bool.true_or]
  · rw [h, Bool.or_true]

/-- The second period of a brake probe (R193). -/
theorem probed_ends (n : Nat) (d : Dev) (hsl : d.sensorless n = true) (hdrive : (d.mva n).drive = .brake) (hprobe : (d.mva n).legs.probe = 1) :
    axesOnly [n] d (probed n d) ∧
      ((probed n d).mva n).sl.probe = (if (d.mva n).sl.count < 2 then none else some (d.crossSpeed n)) ∧
      ((probed n d).mva n).legs.probe = 0 ∧ probed n d = { d with mvax := (probed n d).mvax } := by
  have heq : probed n d = probeEnd n d := by
    unfold probed
    rw [hsl, hdrive, hprobe]
    rfl
  rw [heq]
  unfold probeEnd
  dsimp only
  refine ⟨(modSl_axesOnly n d _).trans (modLegs_axesOnly n _ _), ?_, ?_, rfl⟩
  · rw [mva_modLegs, mva_modSl]
  · rw [mva_modLegs]

end Dev

/-- Settles O27: every crossing is taken up for the start or the count after the monitors have seen it, on its axis alone. -/
theorem comparatorEvents : Obligations.ComparatorEvents := by
  refine ⟨fun s ax p half swing off t ph hsl hon hdrive hphase ht hph => ?_, fun s ax p half swing off hsl hon hdrive hphase => ?_,
    fun s ax p ph q half swing off n hsl hon hdrive hphase hhyst hph hlast hdir horder hn => ?_,
    fun s ax p half swing off hphase hswing => s.onDev_eq (Dev.crossing_small ax p half swing off s.dev hphase hswing),
    fun s ax v hsl hopen hnew => ?_, fun s ax v h => s.onDev_eq (Dev.windowSample_still ax v s.dev h),
    fun s m j ax hax hsl hdrive hprobe => ?_⟩
  · subst ht hph
    obtain ⟨u, honly, husl, husp, heq⟩ := Dev.crossing_ramp ax p half swing off s.dev hsl hon hdrive hphase
    have hwin := Dev.inSyncwin_congr honly husl husp ((s.dev.mv (ax.val / 8)).start + off)
    have hzc : u.zccount ax = s.dev.zccount ax := by
      unfold Dev.zccount
      rw [Dev.cfg_congr honly.force]
    by_cases hgood : Dev.rampGood ax (Fin.ofNat 3 (s.dev.swapped ax p)) half ((s.dev.mv (ax.val / 8)).start + off) u
    · obtain ⟨hramp, hnext⟩ := Dev.rampCrossing_good ax _ half _ u hgood
      unfold Dev.rampGood at hgood
      rw [husl, hwin] at hgood
      rw [husl, hzc] at hnext
      refine ⟨_, s.onDev_eq heq, ?_, (honly.trans hramp).axesBut, (honly.trans hramp).mvax_regs⟩
      rw [if_pos hgood]
      exact hnext
    · have hother := Dev.rampCrossing_other ax _ half _ u hgood
      unfold Dev.rampGood at hgood
      rw [husl, hwin] at hgood
      refine ⟨_, s.onDev_eq (heq.trans hother), ?_, honly.axesBut, honly.mvax_regs⟩
      rw [if_neg hgood]
      exact husl
  · obtain ⟨honly, hknown, hun, hcount⟩ := Dev.crossing_coasting ax p half swing off s.dev hsl hon hdrive hphase
    exact ⟨_, rfl, hknown, hun, hcount, honly.axesBut, honly.mvax_regs⟩
  · subst hph hn
    obtain ⟨u, iv, honly, hun, husl, hcount, heq⟩ :=
      Dev.crossing_catch ax p q half swing off s.dev hsl hon hdrive hphase hhyst hlast hdir horder
    by_cases h2 : (s.dev.mva ax).sl.count = 2
    · rw [if_pos h2] at heq
      have honly2 := honly.trans (Dev.modSl_axesOnly ax u fun s => { s with next := some .sync })
      have hmva := Dev.mva_modSl ax u fun s => { s with next := some .sync }
      rw [husl] at hmva
      refine ⟨_, s.onDev_eq heq, ?_, ?_, ?_, ?_, ?_, ?_, ?_, honly2.axesBut, honly2.mvax_regs⟩
      · rw [hmva]; rfl
      · rw [hmva]; exact hun
      · rw [hmva]; rfl
      · rw [hmva]; rfl
      · rw [hmva]; rfl
      · rw [Dev.counter_modSl]
        exact hcount
      · rw [hmva, if_pos h2]
    · rw [if_neg h2] at heq
      refine ⟨_, s.onDev_eq heq, ?_, hun, ?_, ?_, ?_, hcount, ?_, honly.axesBut, honly.mvax_regs⟩
      · rw [husl]; rfl
      · rw [husl]; rfl
      · rw [husl]; rfl
      · rw [husl]; rfl
      · rw [husl, if_neg h2]; rfl
  · obtain ⟨honly, htaken, hrun⟩ := Dev.windowSample_takes ax v s.dev hsl hopen hnew
    exact ⟨_, rfl, htaken, hrun, honly.axesBut, honly.mvax_regs⟩
  · obtain ⟨honly, hspeed, hzero, hframe⟩ := Dev.probed_ends ax s.dev hsl hdrive hprobe
    rw [hax] at *
    exact ⟨_, rfl, hspeed, hzero, honly.axesBut, hframe⟩

end Sys2Proof.Machine
end

section
/-! Proofs for refusals (chapter 2). -/

namespace Sys2Proof.Machine

namespace Dev

/-! ## A refusal with the interim record's credit (R64) -/

/-- The hidden interim record that returns the second credit, where there is one. -/
def interimBack (d : Dev) (o : Owner) (extra : Bool) (unit : Nat) : Dev :=
  if extra then d.produce o.cq { (d.recOf o .interim .accepted unit 0 true) with hidden := true } else d

theorem refuse_eq (d : Dev) (o : Owner) (extra : Bool) (st : Status) (unit w : Nat) :
    d.refuse o extra st unit w = (d.interimBack o extra unit).finish o st unit (BitVec.ofNat 32 w) := rfl

theorem interimBack_frame (d : Dev) (o : Owner) (extra : Bool) (unit : Nat) :
    d.interimBack o extra unit = { d with hif := { d.hif with cqs := (d.interimBack o extra unit).hif.cqs },
                                          regs := { d.regs with hw := (d.interimBack o extra unit).regs.hw } } := by
  unfold interimBack
  split
  · rw [← produce_frame]
  · rfl

/-- A refusal changes the completion rings and a drop count. -/
theorem refuse_frame (d : Dev) (o : Owner) (extra : Bool) (st : Status) (unit w : Nat) :
    d.refuse o extra st unit w = { d with hif := { d.hif with cqs := (d.refuse o extra st unit w).hif.cqs },
                                          regs := { d.regs with hw := (d.refuse o extra st unit w).regs.hw } } := by
  rw [refuse_eq, finish_frame, interimBack_frame]

/-- In an active ring the hidden record goes before the final one. -/
theorem refuse_queue (d : Dev) (o : Owner) (extra : Bool) (st : Status) (unit w : Nat) (ha : (d.cq o.cq).active = true)
    (hc : o.credit = true) : ∃ l : List CRec, l.length ≤ 1 ∧ (∀ r ∈ l, r.hidden = true) ∧
      ((d.refuse o extra st unit w).cq o.cq).queue = (d.cq o.cq).queue ++
        (l ++ [{ d.recOf o .final st unit (BitVec.ofNat 32 w) true with hidden := o.silent && st == .ok }]) := by
  have hback : ∃ l : List CRec, l.length ≤ 1 ∧ (∀ r ∈ l, r.hidden = true) ∧
      ((d.interimBack o extra unit).cq o.cq).active = true ∧
      ((d.interimBack o extra unit).cq o.cq).queue = (d.cq o.cq).queue ++ l := by
    unfold interimBack
    split
    · rw [produce_credit d _ _ ha rfl, cq_setCq]
      exact ⟨[_], Nat.le_refl 1, fun r hr => by rw [List.mem_singleton.mp hr], ha, rfl⟩
    · exact ⟨[], Nat.zero_le _, fun _ h => (List.not_mem_nil h).elim, ha, (List.append_nil _).symm⟩
  have htick : (d.interimBack o extra unit).tick32 = d.tick32 := by
    rw [interimBack_frame]
    rfl
  obtain ⟨l, hlen, hhid, hact, hq⟩ := hback
  refine ⟨l, hlen, hhid, ?_⟩
  rw [refuse_eq, finish_credit _ _ _ _ _ hact hc, cq_setCq]
  dsimp only
  rw [hq, List.append_assoc]
  unfold recOf
  rw [htick]

/-- What a refusal of a descriptor leaves behind (R50, R64). -/
theorem refuse_taken (d : Dev) (i : Nat) (slot : BitVec 16) (x : Desc) (extra : Bool) (st : Status) (unit w : Nat) :
    ∃ t, (d.taken i slot x).refuse (d.ownerOf i slot x) extra st unit w = t ∧ d.slotTaken t i slot ∧
      (d.recorded i x → 0 < d.need (d.sq i) x → ∃ l : List CRec, l.length ≤ 1 ∧ (∀ r ∈ l, r.hidden = true) ∧
        d.recordsAdded t i x (l ++ [d.finalOf i slot x st unit (BitVec.ofNat 32 w)])) ∧
      t = { d with hif := t.hif, regs := t.regs } ∧ t.regs = { d.regs with hw := t.regs.hw } ∧ t.hif.outq = d.hif.outq := by
  have hframe := refuse_frame (d.taken i slot x) (d.ownerOf i slot x) extra st unit w
  refine ⟨_, rfl, ⟨?_, fun j hj => ?_⟩, fun hr hn => ?_, ?_, ?_, ?_⟩
  · rw [hframe]
    exact congrArg Sq.cons (giveSlot_sq _ i slot)
  · rw [hframe]
    exact giveSlot_sq_other _ slot hj
  · have ha : ((d.taken i slot x).cq (d.ownerOf i slot x).cq).active = true := by
      rw [taken, giveSlot_cq, reserve_active]
      exact hr
    obtain ⟨l, hlen, hhid, hq⟩ := refuse_queue (d.taken i slot x) (d.ownerOf i slot x) extra st unit w ha (decide_eq_true hn)
    refine ⟨l, hlen, hhid, ?_⟩
    unfold recordsAdded
    refine hq.trans ?_
    rw [show ((d.taken i slot x).cq (d.ownerOf i slot x).cq).queue = (d.cq (d.recordCq (d.sq i) x)).queue from
      reserve_queue d _ _ _, finalOf, decide_eq_true hn]
    rfl
  · rw [hframe, taken_frame]
  · rw [hframe, taken_frame]
  · rw [hframe]
    rfl

/-- An opcode that is not safety-directed has a credit where its completion ring is active (R63). -/
theorem need_pos (d : Dev) (i : Nat) (o : Op) (x : Desc) (hs : o.safety = false) (hr : d.recorded i (withOpcode o x)) :
    0 < d.need (d.sq i) (withOpcode o x) := by
  unfold need
  rw [opcode_withOpcode, Op.ofCode_code]
  dsimp only
  rw [hs, show (d.cq (d.recordCq (d.sq i) (withOpcode o x))).active = true from hr]
  rw [if_neg (by decide)]
  split <;> decide

/-- A descriptor of an opcode outside the index has one too. -/
theorem need_bad (d : Dev) (i : Nat) (x : Desc) (h : Op.ofCode x.opcode = none) (hr : d.recorded i x) : 0 < d.need (d.sq i) x := by
  unfold need
  rw [h]
  dsimp only
  rw [show (d.cq (d.recordCq (d.sq i) x)).active = true from hr]
  decide

theorem badOpcode_eq (d : Dev) (i : Nat) (slot : BitVec 16) (x : Desc) (h : Op.ofCode x.opcode = none) (hg : d.canGive i x = true) :
    badOpcode i slot x d = (d.taken i slot x).finish (d.ownerOf i slot x) .badOpcode 0 (BitVec.ofNat 32 x.opcode.toNat) := by
  unfold badOpcode
  rw [h, hg]
  exact if_neg (by decide)

end Dev

/-- Settles O6: a refusal is its records and nothing else, whichever check fails. -/
theorem refusalsChangeNothing : Obligations.RefusalsChangeNothing := by
  refine ⟨fun s i slot x hop hgive => ?_, fun s i slot x o c st w hmem hgive hfail => ?_⟩
  · have hframe := s.dev.finish_taken_frame i slot x .badOpcode 0 (BitVec.ofNat 32 x.opcode.toNat)
    refine ⟨_, s.onDev_eq (Dev.badOpcode_eq s.dev i slot x hop hgive), s.dev.slotTaken_finish_taken i slot x .badOpcode 0 _,
      fun hr => s.dev.recordAdded_finish_taken i slot x .badOpcode 0 _ hr (Dev.need_bad s.dev i x hop hr), ?_, ?_⟩
    · rw [hframe]
    · rw [hframe]
  · have hop : o.safety = false ∧ addressesUnit o (withOpcode o x) = true ∧
        ∃ act, exec c s = s.onDev (Dev.dispatch o i slot (withOpcode o x) act) := by
      simp only [List.mem_cons, Prod.mk.injEq, List.not_mem_nil, or_false] at hmem
      rcases hmem with ⟨rfl, rfl⟩ | ⟨rfl, rfl⟩ | ⟨rfl, rfl⟩ | ⟨rfl, rfl⟩
      · exact ⟨rfl, rfl, _, rfl⟩
      · exact ⟨rfl, rfl, _, rfl⟩
      · exact ⟨rfl, rfl, _, rfl⟩
      · exact ⟨rfl, rfl, _, rfl⟩
    obtain ⟨hsafe, hunit, act, hexec⟩ := hop
    have heq := Dev.dispatch_check60_fails s.dev o i slot (withOpcode o x) act st w hgive hfail
    rw [show Dev.recUnit o (withOpcode o x) = (withOpcode o x).unit from if_pos hunit] at heq
    obtain ⟨t, ht, hslot, hrec, hframe, hregs, hout⟩ := s.dev.refuse_taken i slot (withOpcode o x)
      (decide (1 < s.dev.need (s.dev.sq i) (withOpcode o x))) st (withOpcode o x).unit w
    exact ⟨t, hexec.trans (s.onDev_eq (heq.trans ht)), hslot, fun hr => hrec hr (s.dev.need_pos i o x hsafe hr), hframe, hregs, hout⟩

end Sys2Proof.Machine
end

section
/-! What the descriptors of motion change (chapter 4): the axes of their target, the signatures there and AXIS_STATUS. -/

namespace Sys2Proof.Machine.Dev

/-! ## The parts that a motion touches -/

/-- t is d but for the axes l, the signatures, and AXIS_STATUS of the axes l. -/
structure motionOnly (l : List Nat) (d t : Dev) : Prop where
  frame : t = { d with hax := t.hax, signs := t.signs, regs := { d.regs with hw := t.regs.hw } }
  other : ∀ k, k ∉ l → t.axis k = d.axis k
  apart : ∀ a, a ∉ l.map (Reg.offset .axisStatus) → SMap.find t.regs.hw a = SMap.find d.regs.hw a

theorem motionOnly_refl (l : List Nat) (d : Dev) : motionOnly l d d := ⟨rfl, fun _ _ => rfl, fun _ _ => rfl⟩

theorem motionOnly.trans {l : List Nat} {d t u : Dev} (h : motionOnly l d t) (k : motionOnly l t u) : motionOnly l d u :=
  ⟨k.frame.trans (by rw [h.frame]), fun n hn => (k.other n hn).trans (h.other n hn),
    fun a ha => (k.apart a ha).trans (h.apart a ha)⟩

theorem motionOnly.mono {l l' : List Nat} {d t : Dev} (h : motionOnly l d t) (hl : ∀ n ∈ l, n ∈ l') : motionOnly l' d t :=
  ⟨h.frame, fun n hn => h.other n fun hm => hn (hl n hm), fun a ha => h.apart a fun hm => ha (List.map_subset _ hl hm)⟩

theorem motionOnly.force {l : List Nat} {d t : Dev} (h : motionOnly l d t) : t.regs.force = d.regs.force := by rw [h.frame]

theorem motionOnly_modAxis (d : Dev) (n : Nat) (f : HubAxis → HubAxis) : motionOnly [n] d (d.modAxis n f) :=
  ⟨rfl, fun _ hk => axis_modAxis_other d f fun h => hk (List.mem_singleton.mpr h), fun _ _ => rfl⟩

theorem motionOnly_modMot (d : Dev) (n : Nat) (f : Motion → Motion) : motionOnly [n] d (d.modMot n f) :=
  motionOnly_modAxis d n _

theorem motionOnly_axisStatus (d : Dev) (f : Fld) (n v : Nat) (hf : f.reg = .axisStatus) : motionOnly [n] d (d.setHw f n v) :=
  ⟨rfl, fun _ _ => rfl, fun _ ha => find_hw_setHw d f n v fun h => ha (List.mem_singleton.mpr (hf ▸ h))⟩

theorem motionOnly_signs (d : Dev) (n : Nat) (g : SMap Sign) : motionOnly [n] d { d with signs := g } :=
  ⟨rfl, fun _ _ => rfl, fun _ _ => rfl⟩

theorem motionOnly_each (f : Nat → Dev → Dev) (l : List Nat) (d : Dev) (h : ∀ n t, motionOnly [n] t (f n t)) :
    motionOnly l d (each l f d) :=
  each_keeps (fun t => motionOnly l d t) f l d
    (fun n hn t ht => ht.trans ((h n t).mono fun _ hm => List.mem_singleton.mp hm ▸ hn)) (motionOnly_refl l d)

/-- A loop over distinct axes acts on each of them as it was. -/
theorem axis_each (f : Nat → Dev → Dev) (l : List Nat) (hl : l.Nodup) (d : Dev) (h : ∀ n t, motionOnly [n] t (f n t)) (n : Nat)
    (hn : n ∈ l) : ∃ t, motionOnly l d t ∧ t.axis n = d.axis n ∧ (each l f d).axis n = (f n t).axis n := by
  induction l generalizing d with
  | nil => exact absurd hn List.not_mem_nil
  | cons k l ih =>
    obtain ⟨hk, hl⟩ := List.nodup_cons.mp hl
    rw [each_cons]
    by_cases hnk : n = k
    · subst hnk
      exact ⟨d, motionOnly_refl _ d, rfl, (motionOnly_each f l _ h).other n hk⟩
    · obtain ⟨t, ht, hax, hend⟩ := ih hl (f k d) (List.mem_of_ne_of_mem hnk hn)
      have hfirst : motionOnly (k :: l) d (f k d) := (h k d).mono fun m hm => List.mem_singleton.mp hm ▸ List.mem_cons_self
      exact ⟨t, hfirst.trans (ht.mono fun m hm => List.mem_cons_of_mem k hm),
        hax.trans ((h k d).other n fun hm => hnk (List.mem_singleton.mp hm)), hend⟩

/-! ## Descriptors that begin an action, and those that end in their tick -/

/-- What the dispatched descriptor o in a slot of ring i acts with. -/
def ctxOf (d : Dev) (o : Op) (i : Nat) (slot : BitVec 16) (x : Desc) : Ctx :=
  { sq := i, ring := d.sq i, slot := slot, x := x, op := o, owner := d.ownerOf i slot x }

/-- The block with the interim record of a descriptor written and its action open on the axes l. -/
def opened (c : Ctx) (l : List Nat) (d : Dev) : Dev := ((c.accepted d).openAct c.owner c.x.unit l).2

theorem accepted_frame (c : Ctx) (d : Dev) :
    c.accepted d = { d with hif := { d.hif with cqs := (c.accepted d).hif.cqs },
                            regs := { d.regs with hw := (c.accepted d).regs.hw } } := by
  unfold Ctx.accepted
  split
  · rw [← produce_frame]
  · rfl

theorem find_hw_accepted (c : Ctx) (d : Dev) {a : Nat} (h : a ≠ Reg.offset .cqDropped c.owner.cq) :
    SMap.find (c.accepted d).regs.hw a = SMap.find d.regs.hw a := by
  unfold Ctx.accepted
  split
  · exact find_hw_produce d _ _ h
  · rfl

theorem opened_frame (c : Ctx) (l : List Nat) (d : Dev) :
    opened c l d = { d with hif := { d.hif with cqs := (opened c l d).hif.cqs }, acts := (opened c l d).acts,
                            regs := { d.regs with hw := (opened c l d).regs.hw } } := by
  obtain ⟨-, hopen⟩ := openAct_frame (c.accepted d) c.owner c.x.unit l
  unfold opened
  rw [hopen, accepted_frame]

theorem axis_opened (c : Ctx) (l : List Nat) (d : Dev) (n : Nat) : (opened c l d).axis n = d.axis n := by
  rw [opened_frame]
  rfl

theorem force_opened (c : Ctx) (l : List Nat) (d : Dev) : (opened c l d).regs.force = d.regs.force := by rw [opened_frame]

/-- The number of the action that a dispatched descriptor opens. -/
theorem act_opened (c : Ctx) (l : List Nat) (d : Dev) : ((c.accepted d).openAct c.owner c.x.unit l).1 = d.acts.next := by
  obtain ⟨hnum, -⟩ := openAct_frame (c.accepted d) c.owner c.x.unit l
  rw [hnum, accepted_frame]

/-- A descriptor that opens an action and then acts on the axes l leaves the rest of the block. -/
theorem acts_opened (d t : Dev) (o : Op) (i : Nat) (slot : BitVec 16) (x : Desc) (l l' : List Nat)
    (h : motionOnly l (opened (d.ctxOf o i slot x) l' (d.taken i slot x)) t) :
    d.slotTaken t i slot ∧ (∀ n, n ∉ l → t.axis n = d.axis n) ∧
      t = { d with hif := t.hif, acts := t.acts, hax := t.hax, signs := t.signs, regs := t.regs } ∧
      d.regsBut t (Reg.offset .cqDropped (d.recordCq (d.sq i) x) :: l.map (Reg.offset .axisStatus)) := by
  have hopen := opened_frame (d.ctxOf o i slot x) l' (d.taken i slot x)
  have hax := axis_opened (d.ctxOf o i slot x) l' (d.taken i slot x)
  have hfind : ∀ a, a ≠ Reg.offset .cqDropped (d.recordCq (d.sq i) x) →
      SMap.find (opened (d.ctxOf o i slot x) l' (d.taken i slot x)).regs.hw a = SMap.find d.regs.hw a :=
    fun a ha => find_hw_accepted (d.ctxOf o i slot x) (d.taken i slot x) ha
  generalize opened (d.ctxOf o i slot x) l' (d.taken i slot x) = u at h hopen hax hfind
  have hu : u = { d with hif := u.hif, acts := u.acts, regs := { d.regs with hw := u.regs.hw } } := by rw [hopen, taken_frame]
  have ht : t = { d with hif := u.hif, acts := u.acts, hax := t.hax, signs := t.signs, regs := { d.regs with hw := t.regs.hw } } :=
    h.frame.trans (by rw [hu])
  have hsqs : t.hif.sqs = (d.taken i slot x).hif.sqs := by rw [h.frame, hopen]
  have hsq : ∀ j, t.sq j = (d.taken i slot x).sq j := fun j => by unfold sq; rw [hsqs]
  refine ⟨⟨?_, fun j hj => ?_⟩, fun n hn => (h.other n hn).trans (hax n), ?_, ?_, fun a ha => ?_⟩
  · rw [hsq, taken, giveSlot_sq, reserve_sq]
  · rw [hsq, taken, giveSlot_sq_other _ _ hj, reserve_sq]
  · rw [ht]
  · rw [ht]
  · obtain ⟨hcq, hl⟩ := not_or.mp (List.mem_cons.not.mp ha)
    exact (h.apart a hl).trans (hfind a hcq)

/-- A descriptor that acts on the axes l and writes its final record leaves the rest of the block. -/
theorem acts_done (d t : Dev) (i : Nat) (slot : BitVec 16) (x : Desc) (st : Status) (unit : Nat) (w : Word) (l : List Nat)
    (h : motionOnly l (d.taken i slot x) t) :
    d.slotTaken (t.finish (d.ownerOf i slot x) st unit w) i slot ∧
      (∀ n, n ∉ l → (t.finish (d.ownerOf i slot x) st unit w).axis n = d.axis n) ∧
      (∀ n, (t.finish (d.ownerOf i slot x) st unit w).axis n = t.axis n) ∧
      t.finish (d.ownerOf i slot x) st unit w =
        { d with hif := (t.finish (d.ownerOf i slot x) st unit w).hif, hax := (t.finish (d.ownerOf i slot x) st unit w).hax,
                 signs := (t.finish (d.ownerOf i slot x) st unit w).signs,
                 regs := (t.finish (d.ownerOf i slot x) st unit w).regs } ∧
      d.regsBut (t.finish (d.ownerOf i slot x) st unit w)
        (Reg.offset .cqDropped (d.recordCq (d.sq i) x) :: l.map (Reg.offset .axisStatus)) := by
  have hfin := finish_frame t (d.ownerOf i slot x) st unit w
  have hfind : ∀ a, a ≠ Reg.offset .cqDropped (d.recordCq (d.sq i) x) →
      SMap.find (t.finish (d.ownerOf i slot x) st unit w).regs.hw a = SMap.find t.regs.hw a :=
    fun a ha => find_hw_finish t _ _ _ _ ha
  generalize t.finish (d.ownerOf i slot x) st unit w = u at hfin hfind
  have ht : t = { d with hif := t.hif, hax := t.hax, signs := t.signs, regs := { d.regs with hw := t.regs.hw } } :=
    by rw [h.frame, taken_frame]
  have hu : u = { d with hif := u.hif, hax := t.hax, signs := t.signs, regs := { d.regs with hw := u.regs.hw } } :=
    by rw [hfin, ht]
  have hsqs : u.hif.sqs = (d.taken i slot x).hif.sqs := by rw [hfin, h.frame]
  have hsq : ∀ j, u.sq j = (d.taken i slot x).sq j := fun j => by unfold sq; rw [hsqs]
  have hax : ∀ n, u.axis n = t.axis n := fun n => by rw [hfin]; rfl
  refine ⟨⟨?_, fun j hj => ?_⟩, fun n hn => (hax n).trans (h.other n hn), hax, ?_, ?_, fun a ha => ?_⟩
  · rw [hsq, taken, giveSlot_sq, reserve_sq]
  · rw [hsq, taken, giveSlot_sq_other _ _ hj, reserve_sq]
  · rw [hu]
  · rw [hu]
  · obtain ⟨hcq, hl⟩ := not_or.mp (List.mem_cons.not.mp ha)
    exact (hfind a hcq).trans (h.apart a hl)

/-! ## Entering a mode (R117, R118, R196, R213) -/

/-- An axis that has just entered a mode. -/
def entered (mode : Mode) (dir : Int) (act : Option Nat) (x : HubAxis) : HubAxis :=
  { x with st := .moving, stop := none, still := false, brakeHold := false, cmd := .field,
           mot := { x.mot with mode := mode, v := 0, dir := if dir = 0 then 1 else dir, down := false, raised := false,
                               ovs := 0, ovsMax := 0, passed := false, reached := none, settled := false, act := act, rev := false, wait := false,
                               lost := false, queue := [], seg := none, torque := false } }

/-- An axis that waits for its start sequence. -/
def sequenced (r : SeqReq) (x : HubAxis) : HubAxis :=
  { x with seq := some r, seqOff := false, cmd := .openloop, mot := { x.mot with wait := true } }

theorem signResume_motion (n : Nat) (d : Dev) : motionOnly [n] d (signResume n d) := by
  unfold signResume
  split
  · split
    · exact motionOnly_signs d n _
    · exact motionOnly_refl _ d
  · exact motionOnly_refl _ d

theorem axis_signResume (n k : Nat) (d : Dev) : (signResume n d).axis k = d.axis k := by
  unfold signResume
  split
  · split <;> rfl
  · rfl

theorem beginSeq_motion (n : Nat) (r : SeqReq) (d : Dev) : motionOnly [n] d (beginSeq n r d) := motionOnly_modAxis d n _

theorem axis_beginSeq (n : Nat) (r : SeqReq) (d : Dev) : (beginSeq n r d).axis n = sequenced r (d.axis n) := axis_modAxis d n _

theorem enter_eq (n : Nat) (mode : Mode) (dir : Int) (act : Option Nat) (d : Dev) :
    enter n mode dir act d = (fun t => if t.sensorless n && mode ≠ .none then beginSeq n ⟨dir, false, false, false, false⟩ t else t)
      ((signResume n d).modAxis n (entered mode dir act)) := rfl

theorem enter_motion (n : Nat) (mode : Mode) (dir : Int) (act : Option Nat) (d : Dev) :
    motionOnly [n] d (enter n mode dir act d) := by
  rw [enter_eq]
  have h := (signResume_motion n d).trans (motionOnly_modAxis (signResume n d) n (entered mode dir act))
  dsimp only
  split
  · exact h.trans (beginSeq_motion n _ _)
  · exact h

/-- An axis that enters a mode, without and with a start sequence. -/
theorem axis_enter (n : Nat) (mode : Mode) (dir : Int) (act : Option Nat) (d : Dev) :
    (enter n mode dir act d).axis n = entered mode dir act (d.axis n) ∨
      (enter n mode dir act d).axis n = sequenced ⟨dir, false, false, false, false⟩ (entered mode dir act (d.axis n)) := by
  rw [enter_eq]
  have h : ((signResume n d).modAxis n (entered mode dir act)).axis n = entered mode dir act (d.axis n) := by
    rw [axis_modAxis, axis_signResume]
  dsimp only
  split
  · right
    rw [axis_beginSeq, h]
  · exact Or.inl h

/-- Entering no mode of motion begins no sequence of its own. -/
theorem axis_enter_none (n : Nat) (dir : Int) (act : Option Nat) (d : Dev) :
    (enter n .none dir act d).axis n = entered .none dir act (d.axis n) := by
  rw [enter_eq]
  dsimp only
  rw [if_neg (by simp), axis_modAxis, axis_signResume]

theorem settleP_motion (n : Nat) (d : Dev) : motionOnly [n] d (settleP n d) := by
  unfold settleP
  split
  · exact motionOnly_refl _ d
  · exact motionOnly_modMot d n _

theorem axis_settleP (n : Nat) (d : Dev) :
    (settleP n d).axis n = { d.axis n with mot := { (d.axis n).mot with p := ((settleP n d).axis n).mot.p } } := by
  unfold settleP
  split
  · rfl
  · rw [modMot, axis_modAxis]

theorem brakeFirst_motion (n : Nat) (d : Dev) : motionOnly [n] d (brakeFirst n d) :=
  (motionOnly_modAxis d n _).trans (motionOnly_axisStatus _ _ n 1 rfl)

theorem axis_brakeFirst (n : Nat) (d : Dev) :
    (brakeFirst n d).axis n = { d.axis n with cmd := .brake, seq := none, mot := { (d.axis n).mot with rev := true, wait := false } } := by
  unfold brakeFirst
  rw [setHw_axis, axis_modAxis]

theorem enterOrBrake_motion (n : Nat) (dir : Int) (d : Dev) : motionOnly [n] d (enterOrBrake n dir d) := by
  unfold enterOrBrake
  split
  · exact brakeFirst_motion n d
  · exact motionOnly_refl _ d

/-- An axis that brakes first keeps all but its drive, its start and what it waits for. -/
theorem axis_enterOrBrake (n : Nat) (dir : Int) (d : Dev) :
    (enterOrBrake n dir d).axis n =
      { d.axis n with cmd := ((enterOrBrake n dir d).axis n).cmd, seq := ((enterOrBrake n dir d).axis n).seq,
                      mot := { (d.axis n).mot with rev := ((enterOrBrake n dir d).axis n).mot.rev,
                                                   wait := ((enterOrBrake n dir d).axis n).mot.wait } } := by
  unfold enterOrBrake
  split
  · rw [axis_brakeFirst]
  · rfl

/-- A sensorless axis does not brake first. -/
theorem enterOrBrake_sensorless (n : Nat) (dir : Int) (d : Dev) (h : d.sensorless n = true) : enterOrBrake n dir d = d :=
  if_neg (by rw [h]; exact Bool.false_ne_true)

theorem startProfile_motion (n : Nat) (d : Dev) : motionOnly [n] d (startProfile n d) := by
  unfold startProfile
  exact motionOnly_modMot d n _

theorem axis_startProfile (n : Nat) (d : Dev) :
    (startProfile n d).axis n = { d.axis n with
      mot := { (d.axis n).mot with v := (d.axis n).set.vstart.toNat * 256, down := false, dir := ((startProfile n d).axis n).mot.dir } } := by
  unfold startProfile
  dsimp only
  rw [modMot, axis_modAxis]
  rfl

/-! ## A profile toward a target (R120, R132) -/

/-- Axis y is x with a profile toward t begun under an action. -/
structure profileBegun (act : Nat) (t : Pos) (x y : HubAxis) : Prop where
  st : y.st = .moving
  mode : y.mot.mode = .profile
  target : y.mot.target = t
  set : y.set = x.set
  v : y.mot.v = x.set.vstart.toNat * 256
  act : y.mot.act = some act
  stop : y.stop = none
  armed : y.armed = x.armed
  lat : y.lat = x.lat

/-- The block in which an axis has entered profile mode and knows its target. -/
def headed (act : Nat) (t : Pos) (n : Nat) (d : Dev) : Dev :=
  (enter n .profile (sgn (fine t - ((settleP n d).axis n).mot.p)) (some act) (settleP n d)).modMot n fun m => { m with target := t }

theorem goTo_eq (act : Nat) (t : Pos) (n : Nat) (d : Dev) : goTo act t n d =
    (fun u : Dev => enterOrBrake n (sgn (t.toInt - (u.axis n).lat.pos.toInt)) u) (startProfile n (headed act t n d)) := rfl

theorem headed_motion (act : Nat) (t : Pos) (n : Nat) (d : Dev) : motionOnly [n] d (headed act t n d) :=
  ((settleP_motion n d).trans (enter_motion n _ _ _ _)).trans (motionOnly_modMot _ n _)

/-- What an axis that heads for a target keeps, and what it has taken. -/
theorem axis_headed (act : Nat) (t : Pos) (n : Nat) (d : Dev) :
    ((headed act t n d).axis n).st = .moving ∧ ((headed act t n d).axis n).mot.mode = .profile ∧
      ((headed act t n d).axis n).mot.target = t ∧ ((headed act t n d).axis n).set = (d.axis n).set ∧
      ((headed act t n d).axis n).mot.act = some act ∧ ((headed act t n d).axis n).stop = none ∧
      ((headed act t n d).axis n).armed = (d.axis n).armed ∧ ((headed act t n d).axis n).lat = (d.axis n).lat := by
  have hset := axis_settleP n d
  unfold headed
  rw [modMot, axis_modAxis]
  obtain h | h := axis_enter n .profile (sgn (fine t - ((settleP n d).axis n).mot.p)) (some act) (settleP n d)
  · rw [h, hset]
    exact ⟨rfl, rfl, rfl, rfl, rfl, rfl, rfl, rfl⟩
  · rw [h, hset]
    exact ⟨rfl, rfl, rfl, rfl, rfl, rfl, rfl, rfl⟩

theorem goTo_motion (act : Nat) (t : Pos) (n : Nat) (d : Dev) : motionOnly [n] d (goTo act t n d) := by
  rw [goTo_eq]
  exact ((headed_motion act t n d).trans (startProfile_motion n _)).trans (enterOrBrake_motion n _ _)

theorem goTo_begun (act : Nat) (t : Pos) (n : Nat) (d : Dev) : profileBegun act t (d.axis n) ((goTo act t n d).axis n) := by
  rw [goTo_eq]
  obtain ⟨hst, hmode, htarget, hset, hact, hstop, harmed, hlat⟩ := axis_headed act t n d
  dsimp only
  rw [axis_enterOrBrake, axis_startProfile]
  exact ⟨hst, hmode, htarget, hset, by rw [hset], hact, hstop, harmed, hlat⟩

/-- A MOVE on one axis: its set, and the profile. -/
def moveAxis (x : Desc) (a : Nat) (n : Nat) (d : Dev) : Dev :=
  goTo a (BitVec.ofInt 40 (d.moveTarget n x)) n (d.modAxis n fun y => { y with set := d.moveSet n x })

theorem moveAxis_motion (x : Desc) (a : Nat) (n : Nat) (d : Dev) : motionOnly [n] d (moveAxis x a n d) :=
  (motionOnly_modAxis d n _).trans (goTo_motion a _ n _)

theorem moveAxis_begun (x : Desc) (a : Nat) (n : Nat) (d : Dev) :
    profileBegun a (BitVec.ofInt 40 (d.moveTarget n x)) { d.axis n with set := d.moveSet n x } ((moveAxis x a n d).axis n) := by
  have h := goTo_begun a (BitVec.ofInt 40 (d.moveTarget n x)) n (d.modAxis n fun y => { y with set := d.moveSet n x })
  rw [axis_modAxis] at h
  exact h

/-- A MOVE reads the axis alone. -/
theorem moveSet_congr {d t : Dev} (n : Nat) (x : Desc) (h : t.axis n = d.axis n) : t.moveSet n x = d.moveSet n x := by
  unfold moveSet
  rw [h]
theorem moveTarget_congr {d t : Dev} (n : Nat) (x : Desc) (h : t.axis n = d.axis n) : t.moveTarget n x = d.moveTarget n x := by
  unfold moveTarget
  rw [h]

theorem opMove_passes (c : Ctx) (d : Dev) (h : axisFails (d.leaves c.x.unit) (moveCheck c.x d) = []) :
    opMove c d = each (d.leaves c.x.unit) (moveAxis c.x d.acts.next) (opened c (d.leaves c.x.unit) d) := by
  unfold opMove
  dsimp only
  rw [h, ← act_opened c (d.leaves c.x.unit) d]
  rfl

/-- RESUME on one axis. -/
def resumeAxis (a : Nat) (n : Nat) (d : Dev) : Dev := goTo a (d.axis n).mot.target n d

theorem opResume_passes (c : Ctx) (d : Dev) (h : axisFails (d.leaves c.x.unit) d.resumeCheck = []) :
    opResume c d = each (d.leaves c.x.unit) (resumeAxis d.acts.next) (opened c (d.leaves c.x.unit) d) := by
  unfold opResume
  dsimp only
  rw [h, ← act_opened c (d.leaves c.x.unit) d]
  rfl

/-- The checks of a MOVE and of a RESUME do not see the rings. -/
theorem moveCheck_taken (d : Dev) (i : Nat) (slot : BitVec 16) (x y : Desc) : moveCheck y (d.taken i slot x) = moveCheck y d := rfl
theorem resumeCheck_taken (d : Dev) (i : Nat) (slot : BitVec 16) (x : Desc) : (d.taken i slot x).resumeCheck = d.resumeCheck := rfl

theorem dispatch_move (d : Dev) (i : Nat) (slot : BitVec 16) (y : Desc) (hadm : d.admits .move i y)
    (hpass : axisFails (d.leaves y.unit) (moveCheck y d) = []) :
    dispatch .move i slot y opMove d = each (d.leaves y.unit) (moveAxis y d.acts.next)
      (opened (d.ctxOf .move i slot y) (d.leaves y.unit) (d.taken i slot y)) := by
  rw [dispatch_admits _ _ _ _ _ _ hadm]
  exact opMove_passes (d.ctxOf .move i slot y) (d.taken i slot y) hpass

theorem dispatch_resume (d : Dev) (i : Nat) (slot : BitVec 16) (y : Desc) (hadm : d.admits .resume i y)
    (hpass : axisFails (d.leaves y.unit) d.resumeCheck = []) :
    dispatch .resume i slot y opResume d = each (d.leaves y.unit) (resumeAxis d.acts.next)
      (opened (d.ctxOf .resume i slot y) (d.leaves y.unit) (d.taken i slot y)) := by
  rw [dispatch_admits _ _ _ _ _ _ hadm]
  exact opResume_passes (d.ctxOf .resume i slot y) (d.taken i slot y) hpass

/-- What a loop over the leaves of a target does to one of them behind the opening of an action. -/
theorem axis_each_opened (f : Nat → Dev → Dev) (d : Dev) (o : Op) (i : Nat) (slot : BitVec 16) (y : Desc)
    (h : ∀ n t, motionOnly [n] t (f n t)) (n : Nat) (hn : n ∈ d.leaves y.unit) :
    ∃ t, t.axis n = d.axis n ∧ t.regs.force = d.regs.force ∧
      (each (d.leaves y.unit) f (opened (d.ctxOf o i slot y) (d.leaves y.unit) (d.taken i slot y))).axis n = (f n t).axis n := by
  obtain ⟨t, ht, hax, hend⟩ := axis_each f (d.leaves y.unit) (nodup_bitsSet 64 _)
    (opened (d.ctxOf o i slot y) (d.leaves y.unit) (d.taken i slot y)) h n hn
  have hopen : (opened (d.ctxOf o i slot y) (d.leaves y.unit) (d.taken i slot y)).regs.force = d.regs.force := by
    rw [force_opened, taken_frame]
  exact ⟨t, hax.trans (axis_opened _ _ _ n), ht.force.trans hopen, hend⟩

end Sys2Proof.Machine.Dev

namespace Sys2Proof.Machine

/-- A MOVE is a dispatch of its descriptor under its opcode. -/
theorem exec_move (s : State) (i : Fin 128) (slot : BitVec 16) (x : Desc) :
    exec (.move i slot x) s = s.onDev (Dev.dispatch .move i slot (withOpcode .move x) Dev.opMove) := rfl
theorem exec_resume (s : State) (i : Fin 128) (slot : BitVec 16) (x : Desc) :
    exec (.resume i slot x) s = s.onDev (Dev.dispatch .resume i slot (withOpcode .resume x) Dev.opResume) := rfl

/-- Settles O10: an admitted MOVE opens its action and starts the profile of each leaf once. -/
theorem moveStartsProfiles : Obligations.MoveStartsProfiles := by
  intro s i slot x y hy hadm hpass
  have hdev := s.dev.dispatch_move i slot y hadm hpass
  have hone : ∀ n t, Dev.motionOnly [n] t (Dev.moveAxis y s.dev.acts.next n t) := fun n t => Dev.moveAxis_motion y _ n t
  obtain ⟨hslot, hother, hframe, hregs⟩ := s.dev.acts_opened _ .move i slot y (s.dev.leaves y.unit) (s.dev.leaves y.unit)
    (Dev.motionOnly_each _ _ _ hone)
  have haxis := s.dev.axis_each_opened _ .move i slot y hone
  rw [← hdev] at hslot hother hframe hregs haxis
  clear hdev
  generalize hd : Dev.dispatch .move i slot y Dev.opMove s.dev = d at hslot hother hframe hregs haxis
  refine ⟨d, ?_, hslot, fun n hn => ?_, hother, hframe, hregs⟩
  · rw [exec_move, ← hy]
    exact s.onDev_eq hd
  · obtain ⟨t, hax, -, hend⟩ := haxis n hn
    have h := Dev.moveAxis_begun y s.dev.acts.next n t
    rw [← hend, hax, Dev.moveSet_congr n y hax, Dev.moveTarget_congr n y hax] at h
    exact ⟨h.st, h.mode, h.target, h.set, h.v, h.act, h.stop, h.armed, h.lat⟩

/-- Settles O11: an admitted RESUME opens its action and starts the profile of each leaf toward the target kept. -/
theorem resumeContinuesToKeptTarget : Obligations.ResumeContinuesToKeptTarget := by
  intro s i slot x y hy hadm hpass
  have hdev := s.dev.dispatch_resume i slot y hadm hpass
  have hone : ∀ n t, Dev.motionOnly [n] t (Dev.resumeAxis s.dev.acts.next n t) := fun n t => Dev.goTo_motion _ _ n t
  obtain ⟨hslot, hother, hframe, -⟩ := s.dev.acts_opened _ .resume i slot y (s.dev.leaves y.unit) (s.dev.leaves y.unit)
    (Dev.motionOnly_each _ _ _ hone)
  have haxis := s.dev.axis_each_opened _ .resume i slot y hone
  rw [← hdev] at hslot hother hframe haxis
  clear hdev
  generalize hd : Dev.dispatch .resume i slot y Dev.opResume s.dev = d at hslot hother hframe haxis
  refine ⟨d, ?_, hslot, fun n hn => ?_, hother, hframe⟩
  · rw [exec_resume, ← hy]
    exact s.onDev_eq hd
  · obtain ⟨t, hax, -, hend⟩ := haxis n hn
    have h : Dev.profileBegun s.dev.acts.next (t.axis n).mot.target (t.axis n) ((Dev.resumeAxis s.dev.acts.next n t).axis n) :=
      Dev.goTo_begun s.dev.acts.next (t.axis n).mot.target n t
    rw [← hend, hax] at h
    exact ⟨h.st, h.mode, h.target, h.set, h.act, h.lat⟩

end Sys2Proof.Machine
end

section
/-! Proofs for SPEED and SETPOINT (chapter 4) and ARM (chapter 6). -/

namespace Sys2Proof.Machine.Dev

/-! ## Velocity mode (R124) -/

theorem goVelocity_eq (act : Option Nat) (v : Int) (n : Nat) (d : Dev) : goVelocity act v n d =
    (fun t : Dev => enterOrBrake n (sgn v) (t.modMot n fun m => { m with cmd := v, v := (t.params n).vstart }))
      (enter n .velocity (sgn v) act (settleP n d)) := rfl

theorem goVelocity_motion (act : Option Nat) (v : Int) (n : Nat) (d : Dev) : motionOnly [n] d (goVelocity act v n d) := by
  rw [goVelocity_eq]
  exact (((settleP_motion n d).trans (enter_motion n _ _ _ _)).trans (motionOnly_modMot _ n _)).trans (enterOrBrake_motion n _ _)

/-- Velocity mode has begun on one axis. -/
theorem axis_goVelocity (act : Option Nat) (v : Int) (n : Nat) (d : Dev) :
    ((goVelocity act v n d).axis n).mot.mode = .velocity ∧ ((goVelocity act v n d).axis n).st = .moving ∧
      ((goVelocity act v n d).axis n).mot.cmd = v ∧ ((goVelocity act v n d).axis n).mot.v = (d.axis n).set.vstart.toNat * 256 ∧
      ((goVelocity act v n d).axis n).set = (d.axis n).set ∧ ((goVelocity act v n d).axis n).mot.act = act := by
  have hset := axis_settleP n d
  rw [goVelocity_eq]
  dsimp only
  rw [axis_enterOrBrake, modMot, axis_modAxis]
  have hstart (t : Dev) : (t.params n).vstart = (t.axis n).set.vstart.toNat * 256 := rfl
  rw [hstart]
  obtain h | h := axis_enter n .velocity (sgn v) act (settleP n d)
  · rw [h, hset]
    exact ⟨rfl, rfl, rfl, rfl, rfl, rfl⟩
  · rw [h, hset]
    exact ⟨rfl, rfl, rfl, rfl, rfl, rfl⟩

/-- A braking axis turns back to its direction at the latched speed (R197). -/
def turnBack (v : Int) (n : Nat) (d : Dev) : Dev :=
  (((d.modMot n fun m => { m with cmd := v, rev := false, p := fine (d.axis n).lat.pos, v := (d.speedMag n : Int) * 256,
                                  dir := if v < 0 then -1 else 1 }).modAxis n
    fun x => { x with cmd := .field }).setHw Fl.axisStatusRevBraking n 0)

theorem newSpeed_eq (v : Int) (n : Nat) (d : Dev) : newSpeed v n d =
    if (d.axis n).mot.rev then
      if v ≠ 0 ∧ d.fast n ∧ sgn v = sgn (d.axis n).lat.speed.toInt then
        if (turnBack v n d).sensorless n then beginSeq n ⟨if v < 0 then -1 else 1, false, false, false, false⟩ (turnBack v n d)
        else turnBack v n d
      else d.modMot n fun m => { m with cmd := v }
    else (fun t : Dev => if (t.axis n).stop.isNone && t.reversal n (sgn v) && t.brakeReverse n then brakeFirst n t else t)
      (d.modMot n fun m => { m with cmd := v }) := rfl

theorem turnBack_motion (v : Int) (n : Nat) (d : Dev) : motionOnly [n] d (turnBack v n d) :=
  ((motionOnly_modMot d n _).trans (motionOnly_modAxis _ n _)).trans (motionOnly_axisStatus _ _ n 0 rfl)

theorem newSpeed_motion (v : Int) (n : Nat) (d : Dev) : motionOnly [n] d (newSpeed v n d) := by
  rw [newSpeed_eq]
  split
  · split
    · split
      · exact (turnBack_motion v n d).trans (beginSeq_motion n _ _)
      · exact turnBack_motion v n d
    · exact motionOnly_modMot d n _
  · dsimp only
    split
    · exact (motionOnly_modMot d n _).trans (brakeFirst_motion n _)
    · exact motionOnly_modMot d n _

/-- A new speed keeps the mode and the stored set. -/
theorem axis_newSpeed (v : Int) (n : Nat) (d : Dev) :
    ((newSpeed v n d).axis n).mot.mode = (d.axis n).mot.mode ∧ ((newSpeed v n d).axis n).mot.cmd = v ∧
      ((newSpeed v n d).axis n).set = (d.axis n).set := by
  have hcmd : (d.modMot n fun m => { m with cmd := v }).axis n = { d.axis n with mot := { (d.axis n).mot with cmd := v } } :=
    axis_modAxis d n _
  have hturn : ((turnBack v n d).axis n).mot.mode = (d.axis n).mot.mode ∧ ((turnBack v n d).axis n).mot.cmd = v ∧
      ((turnBack v n d).axis n).set = (d.axis n).set := by
    unfold turnBack
    rw [setHw_axis, axis_modAxis, modMot, axis_modAxis]
    exact ⟨rfl, rfl, rfl⟩
  rw [newSpeed_eq]
  split
  · split
    · split
      · rw [axis_beginSeq]
        exact hturn
      · exact hturn
    · rw [hcmd]
      exact ⟨rfl, rfl, rfl⟩
  · dsimp only
    split
    · rw [axis_brakeFirst, hcmd]
      exact ⟨rfl, rfl, rfl⟩
    · rw [hcmd]
      exact ⟨rfl, rfl, rfl⟩

/-! ## SPEED (R124) -/

/-- An axis with a new vmax in its stored set. -/
def withVmax (v : Int) (x : HubAxis) : HubAxis := { x with set := { x.set with vmax := BitVec.ofInt 24 v } }

theorem speedAxis_eq (x : Desc) (n : Nat) (d : Dev) : speedAxis x n d =
    if speedSetsVmax (d.axis n).mot.mode (x.opflag 0) then d.modAxis n (withVmax (speedOp x))
    else if (d.axis n).mot.mode = .velocity then newSpeed (speedOp x) n d else goVelocity none (speedOp x) n d := rfl

theorem speedAxis_motion (x : Desc) (n : Nat) (d : Dev) : motionOnly [n] d (speedAxis x n d) := by
  rw [speedAxis_eq]
  split
  · exact motionOnly_modAxis d n _
  · split
    · exact newSpeed_motion _ n d
    · exact goVelocity_motion _ _ n d

/-- SPEED sets vmax in every mode but velocity mode, and without a mode at run = 0. -/
theorem speedSetsVmax_iff (m : Mode) (run : Bool) : speedSetsVmax m run = true ↔ m ≠ .velocity ∧ (m ≠ .none ∨ run = false) := by
  cases m <;> simp [speedSetsVmax]

/-- What SPEED does to an axis in each of the three cases. -/
theorem axis_speedAxis (x : Desc) (n : Nat) (d : Dev) :
    (((d.axis n).mot.mode ≠ .velocity ∧ ((d.axis n).mot.mode ≠ .none ∨ x.opflag 0 = false)) →
      (speedAxis x n d).axis n = withVmax (speedOp x) (d.axis n)) ∧
    ((d.axis n).mot.mode = .velocity → ((speedAxis x n d).axis n).mot.mode = .velocity ∧
      ((speedAxis x n d).axis n).mot.cmd = speedOp x ∧ ((speedAxis x n d).axis n).set = (d.axis n).set) ∧
    (((d.axis n).mot.mode = .none ∧ x.opflag 0 = true) → ((speedAxis x n d).axis n).mot.mode = .velocity ∧
      ((speedAxis x n d).axis n).st = .moving ∧ ((speedAxis x n d).axis n).mot.cmd = speedOp x ∧
      ((speedAxis x n d).axis n).mot.v = (d.axis n).set.vstart.toNat * 256 ∧ ((speedAxis x n d).axis n).set = (d.axis n).set) := by
  rw [speedAxis_eq]
  refine ⟨fun h => ?_, fun h => ?_, fun ⟨hmode, hrun⟩ => ?_⟩
  · rw [if_pos ((speedSetsVmax_iff _ _).mpr h), axis_modAxis]
  · rw [if_neg fun hv => ((speedSetsVmax_iff _ _).mp hv).1 h, if_pos h]
    obtain ⟨hm, hc, hs⟩ := axis_newSpeed (speedOp x) n d
    exact ⟨hm.trans h, hc, hs⟩
  · rw [if_neg, if_neg (by rw [hmode]; decide)]
    · obtain ⟨hm, hst, hc, hv, hs, -⟩ := axis_goVelocity none (speedOp x) n d
      exact ⟨hm, hst, hc, hv, hs⟩
    · rw [hmode, hrun]
      decide

/-! ## SETPOINT (R134, R135) -/

/-- An axis that streams: as it is, or from its entry into streaming on. -/
def streaming (x : Desc) (n : Nat) (d : Dev) : Dev :=
  if (d.axis n).mot.mode = .streaming then d
  else (fun t : Dev => enter n .streaming (sgn (fine (x.pos 2) - (t.axis n).mot.p)) none t) (settleP n d)

theorem queueSeg_eq (x : Desc) (n : Nat) (d : Dev) : queueSeg x n d =
    (streaming x n d).modMot n fun m => { m with queue := m.queue ++ [{ pos := x.pos 2, ticks := segTicks x, last := x.opflag 0 }] } :=
  rfl

theorem streaming_motion (x : Desc) (n : Nat) (d : Dev) : motionOnly [n] d (streaming x n d) := by
  unfold streaming
  split
  · exact motionOnly_refl _ d
  · exact (settleP_motion n d).trans (enter_motion n _ _ _ _)

theorem axis_streaming (x : Desc) (n : Nat) (d : Dev) : ((streaming x n d).axis n).mot.mode = .streaming ∧
    ((streaming x n d).axis n).mot.queue = if (d.axis n).mot.mode = .streaming then (d.axis n).mot.queue else [] := by
  unfold streaming
  split
  case isTrue h => exact ⟨h, rfl⟩
  case isFalse h =>
    dsimp only
    obtain h | h := axis_enter n .streaming (sgn (fine (x.pos 2) - ((settleP n d).axis n).mot.p)) none (settleP n d)
    · rw [h]
      exact ⟨rfl, rfl⟩
    · rw [h]
      exact ⟨rfl, rfl⟩

theorem queueSeg_motion (x : Desc) (n : Nat) (d : Dev) : motionOnly [n] d (queueSeg x n d) := by
  rw [queueSeg_eq]
  exact (streaming_motion x n d).trans (motionOnly_modMot _ n _)

theorem axis_queueSeg (x : Desc) (n : Nat) (d : Dev) : ((queueSeg x n d).axis n).mot.mode = .streaming ∧
    ((queueSeg x n d).axis n).mot.queue = (if (d.axis n).mot.mode = .streaming then (d.axis n).mot.queue else []) ++
      [{ pos := x.pos 2, ticks := segTicks x, last := x.opflag 0 }] := by
  obtain ⟨hmode, hqueue⟩ := axis_streaming x n d
  rw [queueSeg_eq, modMot, axis_modAxis]
  exact ⟨hmode, by rw [← hqueue]⟩

/-! ## ARM (R186) -/

/-- An axis that arms through PRECHARGE. -/
def precharging (y : HubAxis) : HubAxis :=
  { y with armed := true, cmd := .precharge, follow := false, mot := { y.mot with p := fine y.lat.pos, v := 0 } }

theorem armAxis_eq (n : Nat) (d : Dev) : armAxis n d = if (d.axis n).armed then d else d.modAxis n precharging := rfl

theorem armAxis_motion (n : Nat) (d : Dev) : motionOnly [n] d (armAxis n d) := by
  rw [armAxis_eq]
  split
  · exact motionOnly_refl _ d
  · exact motionOnly_modAxis d n _

theorem axis_armAxis (n : Nat) (d : Dev) :
    (armAxis n d).axis n = if (d.axis n).armed then d.axis n else precharging (d.axis n) := by
  rw [armAxis_eq]
  split
  · rfl
  · rw [axis_modAxis]

theorem each_armAxis_frame (l : List Nat) (d : Dev) : each l armAxis d = { d with hax := (each l armAxis d).hax } :=
  each_keeps (fun t => t = { d with hax := t.hax }) _ l d (fun n _ t ht => by
    rw [armAxis_eq]
    split
    · exact ht
    · rw [ht]; rfl) rfl

/-! ## The descriptors in dispatch -/

/-- A descriptor that ends in its tick on all its axes leaves its final record. -/
theorem okAxes_eq (c : Ctx) (w : Word) (d : Dev) : ∃ r, c.okAxes w d = d.finish c.owner .ok (recUnit c.op c.x) r := ⟨_, rfl⟩

theorem speedCheck_taken (d : Dev) (i : Nat) (slot : BitVec 16) (x y : Desc) : speedCheck y (d.taken i slot x) = speedCheck y d := by
  funext n
  rfl

theorem dispatch_speed (d : Dev) (i : Nat) (slot : BitVec 16) (y : Desc) (hadm : d.admits .speed i y)
    (hpass : axisFails (d.leaves y.unit) (speedCheck y d) = []) : ∃ w, dispatch .speed i slot y opSpeed d =
      (each (d.leaves y.unit) (speedAxis y) (d.taken i slot y)).finish (d.ownerOf i slot y) .ok (recUnit .speed y) w := by
  have hop (c : Ctx) (t : Dev) (h : axisFails (t.leaves c.x.unit) (speedCheck c.x t) = []) :
      opSpeed c t = c.okAxes 0 (each (t.leaves c.x.unit) (speedAxis c.x) t) := by
    unfold opSpeed
    dsimp only
    rw [h]
  have hdone := hop (d.ctxOf .speed i slot y) (d.taken i slot y) (by rw [speedCheck_taken]; exact hpass)
  rw [dispatch_admits _ _ _ _ _ _ hadm]
  obtain ⟨r, hr⟩ := okAxes_eq (d.ctxOf .speed i slot y) 0 (each (d.leaves y.unit) (speedAxis y) (d.taken i slot y))
  exact ⟨r, hdone.trans hr⟩

theorem setpointCheck_taken (d : Dev) (i : Nat) (slot : BitVec 16) (x y : Desc) : setpointCheck y (d.taken i slot x) = setpointCheck y d := by
  funext n
  rfl

theorem dispatch_setpoint (d : Dev) (i : Nat) (slot : BitVec 16) (y : Desc) (hadm : d.admits .setpoint i y)
    (hpass : axisFails (d.leaves y.unit) (setpointCheck y d) = []) : ∃ w, dispatch .setpoint i slot y opSetpoint d =
      (each (d.leaves y.unit) (queueSeg y) (d.taken i slot y)).finish (d.ownerOf i slot y) .ok (recUnit .setpoint y) w := by
  have hop (c : Ctx) (t : Dev) (h : axisFails (t.leaves c.x.unit) (setpointCheck c.x t) = []) :
      ∃ w, opSetpoint c t = c.okAxes w (each (t.leaves c.x.unit) (queueSeg c.x) t) := by
    unfold opSetpoint
    dsimp only
    rw [h]
    exact ⟨_, rfl⟩
  obtain ⟨w, hw⟩ := hop (d.ctxOf .setpoint i slot y) (d.taken i slot y) (by rw [setpointCheck_taken]; exact hpass)
  rw [dispatch_admits _ _ _ _ _ _ hadm]
  obtain ⟨r, hr⟩ := okAxes_eq (d.ctxOf .setpoint i slot y) w (each (d.leaves y.unit) (queueSeg y) (d.taken i slot y))
  exact ⟨r, hw.trans hr⟩

theorem dispatch_arm (d : Dev) (i : Nat) (slot : BitVec 16) (y : Desc) (hadm : d.admits .arm i y)
    (hpass : axisFails (d.leaves y.unit) (armCheck y d) = []) : ∃ w, dispatch .arm i slot y opArm d =
      (each (d.leaves y.unit) armAxis (d.taken i slot y)).finish (d.ownerOf i slot y) .ok (recUnit .arm y) w := by
  have hop (c : Ctx) (t : Dev) (h : axisFails (t.leaves c.x.unit) (armCheck c.x t) = []) :
      ∃ w, opArm c t = c.okAxes w (each (t.leaves c.x.unit) armAxis t) := by
    unfold opArm
    dsimp only
    rw [h]
    exact ⟨_, rfl⟩
  obtain ⟨w, hw⟩ := hop (d.ctxOf .arm i slot y) (d.taken i slot y) hpass
  rw [dispatch_admits _ _ _ _ _ _ hadm]
  obtain ⟨r, hr⟩ := okAxes_eq (d.ctxOf .arm i slot y) w (each (d.leaves y.unit) armAxis (d.taken i slot y))
  exact ⟨r, hw.trans hr⟩

end Sys2Proof.Machine.Dev

namespace Sys2Proof.Machine

theorem exec_speed (s : State) (i : Fin 128) (slot : BitVec 16) (x : Desc) :
    exec (.speed i slot x) s = s.onDev (Dev.dispatch .speed i slot (withOpcode .speed x) Dev.opSpeed) := rfl
theorem exec_setpoint (s : State) (i : Fin 128) (slot : BitVec 16) (x : Desc) :
    exec (.setpoint i slot x) s = s.onDev (Dev.dispatch .setpoint i slot (withOpcode .setpoint x) Dev.opSetpoint) := rfl
theorem exec_arm (s : State) (i : Fin 128) (slot : BitVec 16) (x : Desc) :
    exec (.arm i slot x) s = s.onDev (Dev.dispatch .arm i slot (withOpcode .arm x) Dev.opArm) := rfl

/-- Settles O13: SPEED acts on each leaf by its mode, before its final record. -/
theorem speedActsByMode : Obligations.SpeedActsByMode := by
  intro s i slot x y hy hadm hpass
  obtain ⟨w, hdev⟩ := s.dev.dispatch_speed i slot y hadm hpass
  have hone : ∀ n t, Dev.motionOnly [n] t (Dev.speedAxis y n t) := fun n t => Dev.speedAxis_motion y n t
  obtain ⟨hslot, hother, hax, hframe, -⟩ := s.dev.acts_done _ i slot y .ok (Dev.recUnit .speed y) w (s.dev.leaves y.unit)
    (Dev.motionOnly_each _ _ _ hone)
  have haxis := Dev.axis_each _ (s.dev.leaves y.unit) (nodup_bitsSet 64 _) (s.dev.taken i slot y) hone
  rw [← hdev] at hslot hother hax hframe
  clear hdev
  generalize hd : Dev.dispatch .speed i slot y Dev.opSpeed s.dev = d at hslot hother hax hframe
  refine ⟨d, ?_, hslot, fun n hn => ?_, hother, hframe⟩
  · rw [exec_speed, ← hy]
    exact s.onDev_eq hd
  · obtain ⟨t, -, htax, hend⟩ := haxis n hn
    have htax : t.axis n = s.dev.axis n := htax
    have h := Dev.axis_speedAxis y n t
    rw [← hend, ← hax, htax] at h
    exact h

/-- Settles O14: SETPOINT queues its segment on each leaf, before its final record. -/
theorem setpointQueuesSegment : Obligations.SetpointQueuesSegment := by
  intro s i slot x y hy hadm hpass
  obtain ⟨w, hdev⟩ := s.dev.dispatch_setpoint i slot y hadm hpass
  have hone : ∀ n t, Dev.motionOnly [n] t (Dev.queueSeg y n t) := fun n t => Dev.queueSeg_motion y n t
  obtain ⟨hslot, hother, hax, hframe, -⟩ := s.dev.acts_done _ i slot y .ok (Dev.recUnit .setpoint y) w (s.dev.leaves y.unit)
    (Dev.motionOnly_each _ _ _ hone)
  have haxis := Dev.axis_each _ (s.dev.leaves y.unit) (nodup_bitsSet 64 _) (s.dev.taken i slot y) hone
  rw [← hdev] at hslot hother hax hframe
  clear hdev
  generalize hd : Dev.dispatch .setpoint i slot y Dev.opSetpoint s.dev = d at hslot hother hax hframe
  refine ⟨d, ?_, hslot, fun n hn => ?_, hother, hframe⟩
  · rw [exec_setpoint, ← hy]
    exact s.onDev_eq hd
  · obtain ⟨t, -, htax, hend⟩ := haxis n hn
    have htax : t.axis n = s.dev.axis n := htax
    have h := Dev.axis_queueSeg y n t
    rw [← hend, ← hax, htax] at h
    exact h

/-- Settles O18: ARM precharges each unarmed leaf, before its final record. -/
theorem armArms : Obligations.ArmArms := by
  intro s i slot x y hy hadm hpass
  obtain ⟨w, hdev⟩ := s.dev.dispatch_arm i slot y hadm hpass
  have hone : ∀ n t, Dev.motionOnly [n] t (Dev.armAxis n t) := Dev.armAxis_motion
  obtain ⟨hslot, hother, hax, -, -⟩ := s.dev.acts_done _ i slot y .ok (Dev.recUnit .arm y) w (s.dev.leaves y.unit)
    (Dev.motionOnly_each _ _ _ hone)
  have haxis := Dev.axis_each _ (s.dev.leaves y.unit) (nodup_bitsSet 64 _) (s.dev.taken i slot y) hone
  have hhax := Dev.each_armAxis_frame (s.dev.leaves y.unit) (s.dev.taken i slot y)
  have hfin := Dev.finish_hax (s.dev.taken i slot y) (s.dev.ownerOf i slot y) .ok (Dev.recUnit .arm y) w
    (each (s.dev.leaves y.unit) Dev.armAxis (s.dev.taken i slot y)).hax
  rw [← hhax] at hfin
  have hregs := s.dev.regsBut_finish_taken i slot y .ok (Dev.recUnit .arm y) w
  have hframe := s.dev.finish_taken_frame i slot y .ok (Dev.recUnit .arm y) w
  rw [← hdev] at hslot hother hax hfin
  clear hdev
  generalize hd : Dev.dispatch .arm i slot y Dev.opArm s.dev = d at hslot hother hax hfin
  refine ⟨d, ?_, hslot, fun n hn => ?_, hother, ?_, ?_⟩
  · rw [exec_arm, ← hy]
    exact s.onDev_eq hd
  · obtain ⟨t, -, htax, hend⟩ := haxis n hn
    have htax : t.axis n = s.dev.axis n := htax
    rw [← hax n, Dev.axis_armAxis, htax] at hend
    rw [hend]
    cases harmed : (s.dev.axis n).armed with
    | true => exact ⟨harmed, fun _ => rfl, fun h => absurd h (by decide)⟩
    | false => exact ⟨rfl, fun h => absurd h (by decide), fun _ => ⟨rfl, rfl, rfl, rfl, rfl⟩⟩
  · rw [hfin, hframe]
  · rw [hfin]
    exact hregs

end Sys2Proof.Machine
end

section
/-! Proofs for the end of a stop (chapter 4) and for CATCH (chapter 8). -/

namespace Sys2Proof.Machine.Dev

/-! ## The parts that a motion and the end of an action touch -/

/-- t is d but for the axes l, the signatures, the actions, the completion rings and device-driven registers. -/
structure motionActs (l : List Nat) (d t : Dev) : Prop where
  frame : t = { d with hif := { d.hif with cqs := t.hif.cqs }, acts := t.acts, hax := t.hax, signs := t.signs,
                       regs := { d.regs with hw := t.regs.hw } }
  other : ∀ k, k ∉ l → t.axis k = d.axis k

theorem motionActs_refl (l : List Nat) (d : Dev) : motionActs l d d := ⟨rfl, fun _ _ => rfl⟩

theorem motionActs.trans {l : List Nat} {d t u : Dev} (h : motionActs l d t) (k : motionActs l t u) : motionActs l d u :=
  ⟨k.frame.trans (by rw [h.frame]), fun n hn => (k.other n hn).trans (h.other n hn)⟩

theorem motionActs.mono {l l' : List Nat} {d t : Dev} (h : motionActs l d t) (hl : ∀ n ∈ l, n ∈ l') : motionActs l' d t :=
  ⟨h.frame, fun n hn => h.other n fun hm => hn (hl n hm)⟩

theorem motionOnly.acts {l : List Nat} {d t : Dev} (h : motionOnly l d t) : motionActs l d t :=
  ⟨h.frame.trans (by rw [h.frame]), h.other⟩

theorem motionActs_setHw (l : List Nat) (d : Dev) (f : Fld) (n v : Nat) : motionActs l d (d.setHw f n v) := ⟨rfl, fun _ _ => rfl⟩

theorem endAct_motionActs (l : List Nat) (d : Dev) (a n : Nat) (st : Status) (w : Word) : motionActs l d (d.endAct a n st w) := by
  have h := endAct_frame d a n st w
  generalize d.endAct a n st w = t at h
  exact ⟨by rw [h], fun k _ => by rw [h]; rfl⟩

@[simp] theorem axis_endAct (d : Dev) (a n : Nat) (st : Status) (w : Word) (k : Nat) : (d.endAct a n st w).axis k = d.axis k := by
  rw [endAct_frame]
  rfl

theorem endAct?_motionActs (l : List Nat) (d : Dev) (a : Option Nat) (n : Nat) (st : Status) (w : Word) :
    motionActs l d (d.endAct? a n st w) := by
  cases a with
  | none => exact motionActs_refl l d
  | some a => exact endAct_motionActs l d a n st w

theorem motionActs_each (f : Nat → Dev → Dev) (l : List Nat) (d : Dev) (h : ∀ n t, motionActs [n] t (f n t)) :
    motionActs l d (each l f d) :=
  each_keeps (fun t => motionActs l d t) f l d
    (fun n hn t ht => ht.trans ((h n t).mono fun _ hm => List.mem_singleton.mp hm ▸ hn)) (motionActs_refl l d)

/-- A loop over distinct axes acts on each of them as it was. -/
theorem axis_each_acts (f : Nat → Dev → Dev) (l : List Nat) (hl : l.Nodup) (d : Dev) (h : ∀ n t, motionActs [n] t (f n t)) (n : Nat)
    (hn : n ∈ l) : ∃ t, t.axis n = d.axis n ∧ (each l f d).axis n = (f n t).axis n := by
  induction l generalizing d with
  | nil => exact absurd hn List.not_mem_nil
  | cons k l ih =>
    obtain ⟨hk, hl⟩ := List.nodup_cons.mp hl
    rw [each_cons]
    by_cases hnk : n = k
    · subst hnk
      exact ⟨d, rfl, (motionActs_each f l _ h).other n hk⟩
    · obtain ⟨t, hax, hend⟩ := ih hl (f k d) (List.mem_of_ne_of_mem hnk hn)
      exact ⟨t, hax.trans ((h k d).other n fun hm => hnk (List.mem_singleton.mp hm)), hend⟩

/-- A descriptor that opens an action and then acts on the axes l leaves the rest of the block. -/
theorem acts_opened_acts (d t : Dev) (o : Op) (i : Nat) (slot : BitVec 16) (x : Desc) (l l' : List Nat)
    (h : motionActs l (opened (d.ctxOf o i slot x) l' (d.taken i slot x)) t) :
    d.slotTaken t i slot ∧ (∀ n, n ∉ l → t.axis n = d.axis n) ∧
      t = { d with hif := t.hif, acts := t.acts, hax := t.hax, signs := t.signs, regs := t.regs } := by
  have hopen := opened_frame (d.ctxOf o i slot x) l' (d.taken i slot x)
  have hax := axis_opened (d.ctxOf o i slot x) l' (d.taken i slot x)
  generalize opened (d.ctxOf o i slot x) l' (d.taken i slot x) = u at h hopen hax
  have hu : u = { d with hif := u.hif, acts := u.acts, regs := { d.regs with hw := u.regs.hw } } := by rw [hopen, taken_frame]
  have ht : t = { d with hif := { u.hif with cqs := t.hif.cqs }, acts := t.acts, hax := t.hax, signs := t.signs,
                         regs := { d.regs with hw := t.regs.hw } } := h.frame.trans (by rw [hu])
  have hsqs : t.hif.sqs = (d.taken i slot x).hif.sqs := by rw [h.frame, hopen]
  have hsq : ∀ j, t.sq j = (d.taken i slot x).sq j := fun j => by unfold sq; rw [hsqs]
  refine ⟨⟨?_, fun j hj => ?_⟩, fun n hn => (h.other n hn).trans (hax n), ?_⟩
  · rw [hsq, taken, giveSlot_sq, reserve_sq]
  · rw [hsq, taken, giveSlot_sq_other _ _ hj, reserve_sq]
  · rw [ht]

/-! ## CATCH (R233) -/

theorem catchAxis_eq (x : Desc) (a n : Nat) (d : Dev) : catchAxis x a n d =
    if d.fieldHold n then d.endAct a n .ok 0
    else beginSeq n ⟨0, false, false, true, x.opflag 0⟩ (enter n .none 0 (some a) d) := rfl

theorem catchAxis_motion (x : Desc) (a n : Nat) (d : Dev) : motionActs [n] d (catchAxis x a n d) := by
  rw [catchAxis_eq]
  split
  · exact endAct_motionActs _ d a n .ok 0
  · exact ((enter_motion n .none 0 (some a) d).trans (beginSeq_motion n _ _)).acts

/-- A FIELD hold is a matter of the axis alone. -/
theorem fieldHold_congr {d t : Dev} {n : Nat} (h : t.axis n = d.axis n) : t.fieldHold n = d.fieldHold n := by
  unfold fieldHold
  rw [h]

theorem axis_catchAxis (x : Desc) (a n : Nat) (d : Dev) : (catchAxis x a n d).axis n =
    if d.fieldHold n then d.axis n else sequenced ⟨0, false, false, true, x.opflag 0⟩ (entered .none 0 (some a) (d.axis n)) := by
  rw [catchAxis_eq]
  split
  · rw [axis_endAct]
  · rw [axis_beginSeq, axis_enter_none]

theorem catchCheck_taken (d : Dev) (i : Nat) (slot : BitVec 16) (x : Desc) : (d.taken i slot x).catchCheck = d.catchCheck := by
  funext n
  rfl

theorem dispatch_catch (d : Dev) (i : Nat) (slot : BitVec 16) (y : Desc) (hadm : d.admits .catchRotor i y)
    (hpass : axisFails (d.leaves y.unit) d.catchCheck = []) :
    dispatch .catchRotor i slot y opCatch d = each (d.leaves y.unit) (catchAxis y d.acts.next)
      (opened (d.ctxOf .catchRotor i slot y) (d.leaves y.unit) (d.taken i slot y)) := by
  have hop (c : Ctx) (t : Dev) (h : axisFails (t.leaves c.x.unit) t.catchCheck = []) :
      opCatch c t = each (t.leaves c.x.unit) (catchAxis c.x t.acts.next) (opened c (t.leaves c.x.unit) t) := by
    unfold opCatch
    dsimp only
    rw [h, ← act_opened c (t.leaves c.x.unit) t]
    rfl
  rw [dispatch_admits _ _ _ _ _ _ hadm]
  exact hop (d.ctxOf .catchRotor i slot y) (d.taken i slot y) (by rw [catchCheck_taken]; exact hpass)

/-! ## The end of a mode and of an action on an axis (R122, R130) -/

/-- A motion whose mode has ended. -/
def modeless (m : Motion) : Motion :=
  { m with mode := .none, v := 0, down := false, reached := none, rev := false, wait := false,
           lost := false, queue := [], seg := none, torque := false, ovs := 0, pin := none }

theorem clearMode_motion (n : Nat) (d : Dev) : motionOnly [n] d (clearMode n d) :=
  (motionOnly_modMot d n modeless).trans (motionOnly_axisStatus _ _ n 0 rfl)

theorem axis_clearMode (n : Nat) (d : Dev) : (clearMode n d).axis n = { d.axis n with mot := modeless (d.axis n).mot } := by
  unfold clearMode
  rw [setHw_axis, modMot, axis_modAxis]
  rfl

theorem endMot_motion (n : Nat) (st : Status) (w : Word) (d : Dev) : motionActs [n] d (d.endMot n st w) :=
  (motionOnly_modMot d n fun m => { m with act := none }).acts.trans (endAct?_motionActs _ _ _ n st w)

theorem axis_endMot (n : Nat) (st : Status) (w : Word) (d : Dev) :
    (d.endMot n st w).axis n = { d.axis n with mot := { (d.axis n).mot with act := none } } := by
  unfold endMot
  dsimp only
  rw [endAct?_axis]
  exact axis_modAxis d n _

theorem learnMotion_motion (n : Nat) (st : Status) (d : Dev) : motionOnly [n] d (learnMotion n st d) := by
  unfold learnMotion
  split
  · split
    · split
      · exact motionOnly_signs d n _
      · exact motionOnly_refl _ d
    · exact motionOnly_refl _ d
  · exact motionOnly_refl _ d

theorem axis_learnMotion (n k : Nat) (st : Status) (d : Dev) : (learnMotion n st d).axis k = d.axis k := by
  unfold learnMotion
  split
  · split
    · split <;> rfl
    · rfl
  · rfl

/-- The block in which an axis idles without a mode, its action not yet ended. -/
def idled (n : Nat) (st : Status) (d : Dev) : Dev :=
  (clearMode n (learnMotion n st d)).modAxis n fun x => { x with st := .idle, stop := none }

theorem idled_motion (n : Nat) (st : Status) (d : Dev) : motionOnly [n] d (idled n st d) :=
  ((learnMotion_motion n st d).trans (clearMode_motion n _)).trans (motionOnly_modAxis _ n _)

theorem axis_idled (n : Nat) (st : Status) (d : Dev) :
    (idled n st d).axis n = { d.axis n with st := .idle, stop := none, mot := modeless (d.axis n).mot } := by
  unfold idled
  rw [axis_modAxis, axis_clearMode, axis_learnMotion]

/-- The flag of a profile that ended before the handover. -/
def noHandover (n : Nat) (d : Dev) : Dev :=
  if (d.axis n).lat.phase == 4 && d.sensorless n then d.stick Fl.slStatusNoHandover n else d

theorem finishProfile_eq (n : Nat) (d : Dev) : ∃ st w, finishProfile n d = (idled n st (noHandover n d)).endMot n st w :=
  ⟨_, _, rfl⟩

theorem noHandover_motion (n : Nat) (d : Dev) : motionActs [n] d (noHandover n d) := by
  unfold noHandover
  split
  · exact motionActs_setHw _ d _ _ _
  · exact motionActs_refl _ d

theorem axis_noHandover (n k : Nat) (d : Dev) : (noHandover n d).axis k = d.axis k := by
  unfold noHandover
  split <;> rfl

theorem finishProfile_motion (n : Nat) (d : Dev) : motionActs [n] d (finishProfile n d) := by
  obtain ⟨st, w, h⟩ := finishProfile_eq n d
  rw [h]
  exact ((noHandover_motion n d).trans (idled_motion n st _).acts).trans (endMot_motion n st w _)

/-- The axis of a profile that has ended. -/
theorem axis_finishProfile (n : Nat) (d : Dev) :
    (finishProfile n d).axis n =
      { d.axis n with st := .idle, stop := none, mot := { modeless (d.axis n).mot with act := none } } := by
  obtain ⟨st, w, h⟩ := finishProfile_eq n d
  rw [h, axis_endMot, axis_idled, axis_noHandover]

/-! ## Standstill (R130) -/

/-- An axis whose stop has ended at its latched position. -/
def stopEnded (x : HubAxis) : HubAxis := { x with stop := none, mot := { x.mot with p := fine x.lat.pos, v := 0 } }

/-- The drive of an axis whose stop has ended: taken by a ramped DISARM, or back in its hold (R183, R187, R234). -/
def restDrive (n : Nat) (x : HubAxis) (s : Stop) (d : Dev) : Dev :=
  if s.disarm then (d.unarm n).modAxis n fun x => { x with cmd := .off, brakeHold := false }
  else if x.brakeHold || x.cmd == .openloop then d.modAxis n fun x => { x with cmd := d.holdCmd n, brakeHold := false }
  else d

/-- The state of an axis whose stop has ended, with the result of the STOPs that joined (R130, R133). -/
def restState (n : Nat) (x : HubAxis) (s : Stop) (rem : Int) (d : Dev) : Word × Dev :=
  if x.st ≠ .moving then (0, (clearMode n d).modAxis n fun x => { x with still := true })
  else if s.keep then
    if d.inWindow n rem then (0, finishProfile n d)
    else (countsWord rem, (((clearMode n d).modAxis n fun x => { x with st := .stopped }).endMot n (causeStatus s.cause) (countsWord rem)))
  else (0, ((clearMode n d).modAxis n fun x => { x with st := .idle }).endMot n (causeStatus s.cause) 0)

/-- The STOPs that have joined end. -/
def endJoined (n : Nat) (w : Word) (l : List Nat) (d : Dev) : Dev := l.foldl (fun d a => d.endAct a n .ok w) d

theorem standstill_eq (n : Nat) (d : Dev) (s : Stop) (h : (d.axis n).stop = some s) :
    standstill n d = (fun r : Word × Dev => endJoined n r.1 s.joined r.2)
      (restState n (d.axis n) s (d.toGo n) (restDrive n (d.axis n) s (d.modAxis n stopEnded))) := by
  unfold standstill
  dsimp only
  rw [h]
  rfl

theorem unarm_motionActs (n : Nat) (d : Dev) : motionActs [n] d (d.unarm n) := by
  unfold unarm
  split
  · exact (motionOnly_modAxis d n _).acts.trans (motionActs_setHw _ _ _ _ _)
  · exact motionActs_refl _ d

theorem restDrive_motion (n : Nat) (x : HubAxis) (s : Stop) (d : Dev) : motionActs [n] d (restDrive n x s d) := by
  unfold restDrive
  split
  · exact (unarm_motionActs n d).trans (motionOnly_modAxis _ n _).acts
  · split
    · exact (motionOnly_modAxis d n _).acts
    · exact motionActs_refl _ d

theorem axis_restDrive (n : Nat) (x : HubAxis) (s : Stop) (d : Dev) :
    (restDrive n x s d).axis n = { d.axis n with armed := if s.disarm then false else (d.axis n).armed,
                                                 cmd := ((restDrive n x s d).axis n).cmd,
                                                 brakeHold := ((restDrive n x s d).axis n).brakeHold } := by
  unfold restDrive
  split
  · rw [axis_modAxis, axis_unarm_same]
  · split
    · rw [axis_modAxis]
    · rfl

theorem restState_motion (n : Nat) (x : HubAxis) (s : Stop) (rem : Int) (d : Dev) : motionActs [n] d (restState n x s rem d).2 := by
  have hclear (f : HubAxis → HubAxis) : motionActs [n] d ((clearMode n d).modAxis n f) :=
    ((clearMode_motion n d).trans (motionOnly_modAxis _ n f)).acts
  unfold restState
  split
  · dsimp only
    exact hclear _
  · split
    · split
      · exact finishProfile_motion n d
      · exact (hclear _).trans (endMot_motion n _ _ _)
    · exact (hclear _).trans (endMot_motion n _ _ _)

/-- The axis at rest: its state by what its stop kept, and its motion without a mode. -/
theorem axis_restState (n : Nat) (x : HubAxis) (s : Stop) (rem : Int) (d : Dev) (hstop : (d.axis n).stop = none) :
    (restState n x s rem d).2.axis n = { d.axis n with
      st := if x.st ≠ .moving then (d.axis n).st else if s.keep = true ∧ d.inWindow n rem = false then .stopped else .idle,
      still := if x.st ≠ .moving then true else (d.axis n).still,
      mot := { modeless (d.axis n).mot with act := if x.st ≠ .moving then (d.axis n).mot.act else none } } := by
  unfold restState
  split
  · rw [axis_modAxis, axis_clearMode]
    rfl
  · split
    case isTrue hk =>
      split
      case isTrue hw =>
        rw [axis_finishProfile, if_neg fun h => Bool.false_ne_true (h.2.symm.trans hw), ← hstop]
      case isFalse hw =>
        rw [axis_endMot, axis_modAxis, axis_clearMode, if_pos ⟨hk, (Bool.not_eq_true _).mp hw⟩]
    case isFalse hk =>
      rw [axis_endMot, axis_modAxis, axis_clearMode, if_neg fun h => hk h.1]

theorem endJoined_motion (n : Nat) (w : Word) (l : List Nat) (d : Dev) : motionActs [n] d (endJoined n w l d) := by
  induction l generalizing d with
  | nil => exact motionActs_refl _ d
  | cons a l ih => exact (endAct_motionActs _ d a n .ok w).trans (ih _)

theorem axis_endJoined (n : Nat) (w : Word) (l : List Nat) (d : Dev) (k : Nat) : (endJoined n w l d).axis k = d.axis k := by
  induction l generalizing d with
  | nil => rfl
  | cons a l ih => exact (ih _).trans (axis_endAct d a n .ok w k)

theorem standstill_motion (n : Nat) (d : Dev) (s : Stop) (h : (d.axis n).stop = some s) : motionActs [n] d (standstill n d) := by
  rw [standstill_eq n d s h]
  exact (((motionOnly_modAxis d n stopEnded).acts.trans (restDrive_motion n _ s _)).trans (restState_motion n _ s _ _)).trans
    (endJoined_motion n _ _ _)

/-- The window is a matter of the configuration. -/
theorem inWindow_congr {d t : Dev} (h : t.regs.force = d.regs.force) (n : Nat) (r : Int) : t.inWindow n r = d.inWindow n r := by
  unfold inWindow
  rw [cfg_congr h]

/-- The axis at standstill (R130). -/
theorem axis_standstill (n : Nat) (d : Dev) (s : Stop) (h : (d.axis n).stop = some s) :
    (standstill n d).axis n = { d.axis n with
      stop := none, armed := if s.disarm then false else (d.axis n).armed,
      st := if (d.axis n).st ≠ .moving then (d.axis n).st
            else if s.keep = true ∧ d.inWindow n (d.toGo n) = false then .stopped else .idle,
      still := if (d.axis n).st ≠ .moving then true else (d.axis n).still,
      cmd := ((standstill n d).axis n).cmd, brakeHold := ((standstill n d).axis n).brakeHold,
      mot := { modeless (d.axis n).mot with p := fine (d.axis n).lat.pos,
                                            act := if (d.axis n).st ≠ .moving then (d.axis n).mot.act else none } } := by
  have hdrive := axis_restDrive n (d.axis n) s (d.modAxis n stopEnded)
  have hforce : (restDrive n (d.axis n) s (d.modAxis n stopEnded)).regs.force = d.regs.force := by
    rw [(restDrive_motion n (d.axis n) s (d.modAxis n stopEnded)).frame]
    rfl
  have hstop : ((restDrive n (d.axis n) s (d.modAxis n stopEnded)).axis n).stop = none := by
    rw [hdrive, axis_modAxis]
    rfl
  have hst : ((restDrive n (d.axis n) s (d.modAxis n stopEnded)).axis n) = { d.axis n with
      stop := none, armed := if s.disarm then false else (d.axis n).armed,
      cmd := ((restDrive n (d.axis n) s (d.modAxis n stopEnded)).axis n).cmd,
      brakeHold := ((restDrive n (d.axis n) s (d.modAxis n stopEnded)).axis n).brakeHold,
      mot := { (d.axis n).mot with p := fine (d.axis n).lat.pos, v := 0 } } := by
    rw [hdrive, axis_modAxis]
    rfl
  have hrest := axis_restState n (d.axis n) s (d.toGo n) _ hstop
  rw [inWindow_congr hforce] at hrest
  rw [standstill_eq n d s h]
  dsimp only
  rw [axis_endJoined, hrest, hst]
  rfl

end Sys2Proof.Machine.Dev

namespace Sys2Proof.Machine

theorem exec_catchRotor (s : State) (i : Fin 128) (slot : BitVec 16) (x : Desc) :
    exec (.catchRotor i slot x) s = s.onDev (Dev.dispatch .catchRotor i slot (withOpcode .catchRotor x) Dev.opCatch) := rfl

theorem exec_standstill (s : State) (ax : Fin 64) :
    exec (.standstill ax) s = s.onDev fun d => if d.standstillDue ax then Dev.standstill ax d else d := rfl

/-- Settles O22: an admitted CATCH opens its action; an axis in a FIELD hold ends its part at once, any other asks for a catch. -/
theorem catchBeginsSequence : Obligations.CatchBeginsSequence := by
  intro s i slot x y hy hadm hpass
  have hdev := s.dev.dispatch_catch i slot y hadm hpass
  have hone : ∀ n t, Dev.motionActs [n] t (Dev.catchAxis y s.dev.acts.next n t) := fun n t => Dev.catchAxis_motion y _ n t
  obtain ⟨hslot, hother, hframe⟩ := s.dev.acts_opened_acts _ .catchRotor i slot y (s.dev.leaves y.unit) (s.dev.leaves y.unit)
    (Dev.motionActs_each _ _ _ hone)
  have haxis := Dev.axis_each_acts _ (s.dev.leaves y.unit) (nodup_bitsSet 64 _)
    (Dev.opened (s.dev.ctxOf .catchRotor i slot y) (s.dev.leaves y.unit) (s.dev.taken i slot y)) hone
  have hopen := Dev.axis_opened (s.dev.ctxOf .catchRotor i slot y) (s.dev.leaves y.unit) (s.dev.taken i slot y)
  rw [← hdev] at hslot hother hframe haxis
  clear hdev
  generalize hd : Dev.dispatch .catchRotor i slot y Dev.opCatch s.dev = d at hslot hother hframe haxis
  refine ⟨d, ?_, hslot, fun n hn => ?_, hother, hframe⟩
  · rw [exec_catchRotor, ← hy]
    exact s.onDev_eq hd
  · obtain ⟨t, hax, hend⟩ := haxis n hn
    have hax : t.axis n = s.dev.axis n := hax.trans (hopen n)
    rw [Dev.axis_catchAxis, Dev.fieldHold_congr hax, hax] at hend
    rw [hend]
    refine ⟨fun h => if_pos h, fun h => ?_⟩
    rw [if_neg (by rw [h]; exact Bool.false_ne_true)]
    exact ⟨rfl, rfl, rfl, rfl⟩

/-- Settles O16: standstill ends the stop, and the state follows from what the stop kept. -/
theorem standstillEndsStop : Obligations.StandstillEndsStop := by
  intro s ax p hdue hstop
  have hmot := Dev.standstill_motion ax s.dev p hstop
  have haxis := Dev.axis_standstill ax s.dev p hstop
  generalize hd : Dev.standstill ax s.dev = d at hmot haxis
  refine ⟨d, ?_, ?_⟩
  · rw [exec_standstill]
    exact s.onDev_eq ((if_pos hdue).trans hd)
  · refine ⟨?_, ?_, ?_, ?_, ?_, fun hm => ?_, fun hm => ⟨?_, ?_⟩, fun hdis => ?_, fun hdis => ?_,
      fun n hn => hmot.other n fun h => hn (List.mem_singleton.mp h), ?_, ?_⟩
    · rw [haxis]
    · rw [haxis]
      rfl
    · rw [haxis]
      rfl
    · rw [haxis]
    · rw [haxis]
      rfl
    · rw [haxis]
      exact if_neg (not_not.mpr hm)
    · rw [haxis]
      exact if_pos hm
    · rw [haxis]
      exact if_pos hm
    · rw [haxis]
      exact if_pos hdis
    · rw [haxis]
      exact if_neg (by rw [hdis]; exact Bool.false_ne_true)
    · have hframe := hmot.frame
      rw [hframe]
    · have hframe := hmot.frame
      rw [hframe]

end Sys2Proof.Machine
end

section
/-! Stops with the pins that drive their axes (R129, R131, R139): what they do to each axis of a loop. -/

namespace Sys2Proof.Machine.Dev

/-! ## An axis under stops -/

/-- Axis y is x after stops of cause `stop` that have begun on it or joined. -/
structure stopped (x y : HubAxis) : Prop where
  beyond : beyondStop y = beyondStop x
  still : x.st ≠ .moving → y = x
  pin : x.mot.pin = none → y.mot.pin = none
  keeps : ∀ q, x.stop = some q → ∃ p, y.stop = some p ∧ p.keep = q.keep ∧ p.cause = q.cause ∧ p.disarm = q.disarm ∧
    (q.immediate = true → p.immediate = true) ∧ (∀ a ∈ q.joined, a ∈ p.joined) ∧ y.mot = x.mot
  begins : x.stop = none → ∀ p, y.stop = some p →
    p.cause = .stop ∧ p.disarm = false ∧ p.keep = (x.mot.mode == .profile) ∧ y.mot.queue = []

theorem stopped_refl (x : HubAxis) : stopped x x :=
  ⟨rfl, fun _ => rfl, fun h => h, fun q hq => ⟨q, hq, rfl, rfl, rfl, fun h => h, fun _ h => h, rfl⟩,
    fun h p hp => absurd (h.symm.trans hp) (by simp)⟩

theorem stopped.st {x y : HubAxis} (h : stopped x y) : y.st = x.st := by
  have hk := congrArg HubAxis.st h.beyond
  exact hk
theorem stopped.armed {x y : HubAxis} (h : stopped x y) : y.armed = x.armed := by
  have hk := congrArg HubAxis.armed h.beyond
  exact hk
theorem stopped.set {x y : HubAxis} (h : stopped x y) : y.set = x.set := by
  have hk := congrArg HubAxis.set h.beyond
  exact hk
theorem stopped.lat {x y : HubAxis} (h : stopped x y) : y.lat = x.lat := by
  have hk := congrArg HubAxis.lat h.beyond
  exact hk
theorem stopped.failedAt {x y : HubAxis} (h : stopped x y) : y.failedAt = x.failedAt := by
  have hk := congrArg HubAxis.failedAt h.beyond
  exact hk
theorem stopped.mode {x y : HubAxis} (h : stopped x y) : y.mot.mode = x.mot.mode := by
  have hk := congrArg (fun z : HubAxis => z.mot.mode) h.beyond
  exact hk
theorem stopped.target {x y : HubAxis} (h : stopped x y) : y.mot.target = x.mot.target := by
  have hk := congrArg (fun z : HubAxis => z.mot.target) h.beyond
  exact hk

theorem stopped.trans {x y z : HubAxis} (h : stopped x y) (k : stopped y z) : stopped x z := by
  refine ⟨k.beyond.trans h.beyond, fun hm => (k.still (h.st.symm ▸ hm)).trans (h.still hm), fun hp => k.pin (h.pin hp),
    fun q hq => ?_, fun hx p hp => ?_⟩
  · obtain ⟨r, hr, hkeep, hcause, hdis, himm, hjoin, hmot⟩ := h.keeps q hq
    obtain ⟨p, hp, hkeep', hcause', hdis', himm', hjoin', hmot'⟩ := k.keeps r hr
    exact ⟨p, hp, hkeep'.trans hkeep, hcause'.trans hcause, hdis'.trans hdis, fun hi => himm' (himm hi),
      fun a ha => hjoin' a (hjoin a ha), hmot'.trans hmot⟩
  · cases hy : y.stop with
    | none =>
      obtain ⟨hc, hd, hk, hq⟩ := k.begins hy p hp
      exact ⟨hc, hd, by rw [hk, h.mode], hq⟩
    | some q =>
      obtain ⟨hc, hd, hk, hq⟩ := h.begins hx q hy
      obtain ⟨r, hr, hkeep, hcause, hdis, -, -, hmot⟩ := k.keeps q hy
      obtain rfl : p = r := Option.some.inj (hp.symm.trans hr)
      exact ⟨hcause.trans hc, hdis.trans hd, hkeep.trans hk, by rw [hmot, hq]⟩

/-- Axis y is x after the ramped stops of a pin, which leave the drive of an axis that is already under a stop. -/
structure pinStopped (x y : HubAxis) : Prop extends stopped x y where
  drive : x.stop.isSome = true → y.cmd = x.cmd

theorem pinStopped_refl (x : HubAxis) : pinStopped x x := ⟨stopped_refl x, fun _ => rfl⟩

theorem pinStopped.trans {x y z : HubAxis} (h : pinStopped x y) (k : pinStopped y z) : pinStopped x z := by
  refine ⟨h.tostopped.trans k.tostopped, fun hs => ?_⟩
  obtain ⟨q, hq⟩ := Option.isSome_iff_exists.mp hs
  obtain ⟨p, hp, -⟩ := h.keeps q hq
  exact (k.drive (by rw [hp]; rfl)).trans (h.drive hs)

/-- The parts of an axis in the three steps of a stop. -/
theorem axis_rampBrake (imm : Bool) (n : Nat) (d : Dev) :
    (rampBrake imm n d).axis n = { d.axis n with
      cmd := ((rampBrake imm n d).axis n).cmd, seqOff := ((rampBrake imm n d).axis n).seqOff,
      brakeHold := ((rampBrake imm n d).axis n).brakeHold } := by
  unfold rampBrake
  split
  · rw [axis_modAxis]
  · rfl

theorem rampBrake_ramped (n : Nat) (d : Dev) : rampBrake false n d = d := rfl

theorem axis_torqueSpeed (n : Nat) (d : Dev) :
    (torqueSpeed n d).axis n = { d.axis n with mot := { (d.axis n).mot with
      p := ((torqueSpeed n d).axis n).mot.p, v := ((torqueSpeed n d).axis n).mot.v, dir := ((torqueSpeed n d).axis n).mot.dir } } := by
  unfold torqueSpeed
  dsimp only
  split
  · rfl
  · rw [modMot, axis_modAxis]

/-- A stop of one axis. -/
theorem axis_stopAxis (n : Nat) (imm : Bool) (decel : Word) (join : Option Nat) (d : Dev) :
    stopped (d.axis n) ((stopAxis n imm decel .stop join d).axis n) := by
  have hbeyond := stopAxis_beyondStop n imm decel .stop join d n
  obtain ⟨hst, he⟩ | ⟨s, hst, hs, he⟩ | ⟨hst, hs, he⟩ := stopAxis_cases n imm decel .stop join d
  · rw [he]
    exact stopped_refl _
  · refine ⟨hbeyond, fun h => absurd hst h, fun hp => ?_, fun q hq => ?_, fun h => absurd (h.symm.trans hs) (by simp)⟩
    · rw [he, axis_modAxis, axis_rampBrake]
      exact hp
    · obtain rfl : s = q := Option.some.inj (hs.symm.trans hq)
      rw [he, axis_modAxis]
      refine ⟨_, rfl, rfl, rfl, rfl, fun hi => ?_, fun a ha => List.mem_append_left _ ha, ?_⟩
      · unfold joinedStop
        dsimp only
        rw [hi]
        rfl
      · rw [axis_rampBrake]
  · refine ⟨hbeyond, fun h => absurd hst h, fun hp => ?_, fun q hq => absurd (hs.symm.trans hq) (by simp), fun _ p hp => ?_⟩
    · rw [he, setHw_axis, axis_modAxis]
      rfl
    · rw [he, setHw_axis, axis_modAxis] at hp ⊢
      obtain rfl := Option.some.inj hp
      exact ⟨rfl, rfl, rfl, rfl⟩

/-- A moving axis that is stopped is under a stop that the given action has joined, immediate where asked for. -/
theorem axis_stopAxis_stop (n : Nat) (imm : Bool) (decel : Word) (join : Option Nat) (d : Dev) (h : (d.axis n).st = .moving) :
    ∃ p, ((stopAxis n imm decel .stop join d).axis n).stop = some p ∧ (∀ a, join = some a → a ∈ p.joined) ∧
      (imm = true → p.immediate = true) := by
  obtain ⟨hst, -⟩ | ⟨s, -, -, he⟩ | ⟨-, -, he⟩ := stopAxis_cases n imm decel .stop join d
  · exact absurd h hst
  · rw [he, axis_modAxis]
    refine ⟨_, rfl, fun a ha => ?_, fun hi => ?_⟩
    · exact List.mem_append_right _ (by rw [ha]; exact List.mem_singleton_self a)
    · unfold joinedStop
      dsimp only
      rw [hi, Bool.or_true]
  · rw [he, setHw_axis, axis_modAxis]
    exact ⟨_, rfl, fun a ha => by rw [ha]; exact List.mem_singleton_self a, fun hi => hi⟩

/-- A ramped stop leaves the drive of an axis that is under a stop. -/
theorem axis_stopAxis_ramped (n : Nat) (decel : Word) (join : Option Nat) (d : Dev) :
    pinStopped (d.axis n) ((stopAxis n false decel .stop join d).axis n) := by
  refine ⟨axis_stopAxis n false decel join d, fun hs => ?_⟩
  obtain ⟨-, he⟩ | ⟨s, -, -, he⟩ | ⟨-, hnone, -⟩ := stopAxis_cases n false decel .stop join d
  · rw [he]
  · rw [he, axis_modAxis, rampBrake_ramped]
  · rw [hnone] at hs
    exact absurd hs (by simp)

theorem axis_stopAxis_around (n k : Nat) (decel : Word) (join : Option Nat) (d : Dev) :
    pinStopped (d.axis k) ((stopAxis n false decel .stop join d).axis k) := by
  by_cases h : k = n
  · subst h
    exact axis_stopAxis_ramped k decel join d
  · rw [axis_stopAxis_other _ _ _ _ _ h]
    exact pinStopped_refl _

/-- The end of an engagement stops the axes of its pin. -/
theorem axis_stopPin (c k : Nat) (d : Dev) : pinStopped (d.axis k) ((stopPin c d).axis k) :=
  each_keeps (fun t => pinStopped (d.axis k) (t.axis k)) _ (d.cmd c).axes d
    (fun n _ t ht => ht.trans (axis_stopAxis_around n k 0 none t)) (pinStopped_refl _)

/-- A stop with its pin, as stops of that pin after the stop of the axis. -/
theorem axis_stop_after (n k : Nat) (imm : Bool) (decel : Word) (join : Option Nat) (d : Dev) :
    pinStopped ((stopAxis n imm decel .stop join d).axis k) ((stop n imm decel .stop join d).axis k) := by
  unfold stop
  dsimp only
  split
  · split
    · exact axis_stopPin _ k _
    · exact pinStopped_refl _
  · exact pinStopped_refl _

theorem axis_stop (n : Nat) (imm : Bool) (decel : Word) (join : Option Nat) (d : Dev) :
    stopped (d.axis n) ((stop n imm decel .stop join d).axis n) :=
  (axis_stopAxis n imm decel join d).trans (axis_stop_after n n imm decel join d).tostopped

theorem axis_stop_around (imm : Bool) (decel : Word) (join : Option Nat) (d : Dev) {n k : Nat} (h : k ≠ n) :
    pinStopped (d.axis k) ((stop n imm decel .stop join d).axis k) := by
  have hafter := axis_stop_after n k imm decel join d
  rwa [axis_stopAxis_other _ _ _ _ _ h] at hafter

theorem axis_stop_stop (n : Nat) (imm : Bool) (decel : Word) (join : Option Nat) (d : Dev) (h : (d.axis n).st = .moving) :
    ∃ p, ((stop n imm decel .stop join d).axis n).stop = some p ∧ (∀ a, join = some a → a ∈ p.joined) ∧
      (imm = true → p.immediate = true) := by
  obtain ⟨q, hq, hjoin, himm⟩ := axis_stopAxis_stop n imm decel join d h
  obtain ⟨p, hp, -, -, -, himm', hjoin', -⟩ := (axis_stop_after n n imm decel join d).keeps q hq
  exact ⟨p, hp, fun a ha => hjoin' a (hjoin a ha), fun hi => himm' (himm hi)⟩

/-- Without a pin, a stop reaches its axis alone. -/
theorem axis_stop_other (imm : Bool) (decel : Word) (join : Option Nat) (d : Dev) {n k : Nat} (h : k ≠ n)
    (hpin : (d.axis n).mot.pin = none) : (stop n imm decel .stop join d).axis k = d.axis k := by
  rw [stop_of_no_pin _ _ _ _ _ _ hpin, axis_stopAxis_other _ _ _ _ _ h]

/-! ## Loops in which an axis may be reached by the turns of the others -/

/-- An axis of a loop has its own turn, between the turns of the others. -/
theorem axis_each_around (I : Dev → Prop) (Q : HubAxis → HubAxis → Prop) (hrefl : ∀ x, Q x x)
    (htrans : ∀ {x y z}, Q x y → Q y z → Q x z) (f : Nat → Dev → Dev) (l : List Nat) (hl : l.Nodup) (d : Dev) (hd : I d)
    (hI : ∀ n ∈ l, ∀ t, I t → I (f n t)) (hQ : ∀ n ∈ l, ∀ t, I t → ∀ k, k ≠ n → Q (t.axis k) ((f n t).axis k)) :
    (∀ n, n ∉ l → Q (d.axis n) ((each l f d).axis n)) ∧
      ∀ n ∈ l, ∃ t, I t ∧ Q (d.axis n) (t.axis n) ∧ Q ((f n t).axis n) ((each l f d).axis n) := by
  induction l generalizing d with
  | nil => exact ⟨fun n _ => hrefl _, fun n hn => absurd hn List.not_mem_nil⟩
  | cons k l ih =>
    obtain ⟨hk, hl⟩ := List.nodup_cons.mp hl
    have hhead := hQ k List.mem_cons_self d hd
    obtain ⟨hout, hin⟩ := ih hl (f k d) (hI k List.mem_cons_self d hd) (fun n hn => hI n (List.mem_cons_of_mem k hn))
      (fun n hn => hQ n (List.mem_cons_of_mem k hn))
    rw [each_cons]
    refine ⟨fun n hn => ?_, fun n hn => ?_⟩
    · obtain ⟨hnk, hnl⟩ := not_or.mp (List.mem_cons.not.mp hn)
      exact htrans (hhead n hnk) (hout n hnl)
    · by_cases hnk : n = k
      · subst hnk
        exact ⟨d, hd, hrefl _, hout n hk⟩
      · obtain ⟨t, ht, hbefore, hafter⟩ := hin n (List.mem_of_ne_of_mem hnk hn)
        exact ⟨t, ht, htrans (hhead n hnk) hbefore, hafter⟩

/-- No pin drives an axis of l. -/
def pinless (l : List Nat) (t : Dev) : Prop := ∀ k ∈ l, (t.axis k).mot.pin = none

/-- In a loop without pins the axes beside the one in turn stay, and the axes outside it. -/
theorem axis_each_pinless (J : Dev → Prop) (f : Nat → Dev → Dev) (l : List Nat) (hl : l.Nodup) (d : Dev) (hd : pinless l d) (hJ : J d)
    (hkeep : ∀ n t, J t → J (f n t)) (hown : ∀ n t, (t.axis n).mot.pin = none → ((f n t).axis n).mot.pin = none)
    (hother : ∀ n t k, (t.axis n).mot.pin = none → k ≠ n → (f n t).axis k = t.axis k) :
    (∀ n, n ∉ l → (each l f d).axis n = d.axis n) ∧
      ∀ n ∈ l, ∃ t, J t ∧ t.axis n = d.axis n ∧ (each l f d).axis n = (f n t).axis n := by
  have hI : ∀ n ∈ l, ∀ t, pinless l t ∧ J t → pinless l (f n t) ∧ J (f n t) := by
    refine fun n hn t ht => ⟨fun k hk => ?_, hkeep n t ht.2⟩
    by_cases h : k = n
    · subst h
      exact hown k t (ht.1 k hk)
    · rw [hother n t k (ht.1 n hn) h]
      exact ht.1 k hk
  obtain ⟨hout, hin⟩ := axis_each_around (fun t => pinless l t ∧ J t) (fun x y => y = x) (fun _ => rfl) (fun h k => k.trans h) f l hl
    d ⟨hd, hJ⟩ hI (fun n hn t ht k hk => hother n t k (ht.1 n hn) hk)
  refine ⟨hout, fun n hn => ?_⟩
  obtain ⟨t, ⟨-, ht⟩, hbefore, hafter⟩ := hin n hn
  exact ⟨t, ht, hbefore, hafter.symm ▸ rfl⟩

/-! ## The rest of the block -/

/-- t is d but for the axes, the pins, the signatures, the actions, the completion rings and register values. -/
def driveOnly (d t : Dev) : Prop :=
  t = { d with hif := { d.hif with cqs := t.hif.cqs }, acts := t.acts, hax := t.hax, cmds := t.cmds, signs := t.signs,
               regs := { d.regs with acc := t.regs.acc, force := t.regs.force, hw := t.regs.hw } }

theorem driveOnly_refl (d : Dev) : d.driveOnly d := rfl

theorem driveOnly.trans {d t u : Dev} (h : d.driveOnly t) (k : t.driveOnly u) : d.driveOnly u := by
  unfold driveOnly at *
  rw [k, h]

theorem stopOnly.drive {d t : Dev} (h : d.stopOnly t) : d.driveOnly t := by
  unfold driveOnly
  rw [h]

theorem driveOnly.time {d t : Dev} (h : d.driveOnly t) : t.time = d.time := by rw [h]

theorem motionActs.drive {l : List Nat} {d t : Dev} (h : motionActs l d t) : d.driveOnly t := by
  unfold driveOnly
  rw [h.frame]

theorem driveOnly_each (f : Nat → Dev → Dev) (l : List Nat) (d : Dev) (h : ∀ n t, driveOnly t (f n t)) : d.driveOnly (each l f d) :=
  each_keeps (fun t => d.driveOnly t) f l d (fun n _ t ht => ht.trans (h n t)) (driveOnly_refl d)

/-- A descriptor that opens an action and then acts on drives leaves the rest of the block. -/
theorem drives_opened (d t : Dev) (o : Op) (i : Nat) (slot : BitVec 16) (x : Desc) (l : List Nat)
    (h : driveOnly (opened (d.ctxOf o i slot x) l (d.taken i slot x)) t) :
    d.slotTaken t i slot ∧
      t = { d with hif := t.hif, acts := t.acts, hax := t.hax, cmds := t.cmds, signs := t.signs, regs := t.regs } := by
  have hopen := opened_frame (d.ctxOf o i slot x) l (d.taken i slot x)
  generalize opened (d.ctxOf o i slot x) l (d.taken i slot x) = u at h hopen
  have hu : u = { d with hif := u.hif, acts := u.acts, regs := { d.regs with hw := u.regs.hw } } := by rw [hopen, taken_frame]
  have ht : t = { d with hif := { u.hif with cqs := t.hif.cqs }, acts := t.acts, hax := t.hax, cmds := t.cmds, signs := t.signs,
                         regs := { d.regs with acc := t.regs.acc, force := t.regs.force, hw := t.regs.hw } } :=
    Eq.trans h (by rw [hu])
  have hsqs : t.hif.sqs = (d.taken i slot x).hif.sqs := by rw [h, hopen]
  have hsq : ∀ j, t.sq j = (d.taken i slot x).sq j := fun j => by unfold sq; rw [hsqs]
  refine ⟨⟨?_, fun j hj => ?_⟩, ?_⟩
  · rw [hsq, taken, giveSlot_sq, reserve_sq]
  · rw [hsq, taken, giveSlot_sq_other _ _ hj, reserve_sq]
  · rw [ht]

/-- A descriptor that acts on drives and writes its final record leaves the rest of the block. -/
theorem drives_done (d t : Dev) (i : Nat) (slot : BitVec 16) (x : Desc) (st : Status) (unit : Nat) (w : Word)
    (h : (d.taken i slot x).stopOnly t) :
    d.slotTaken (t.finish (d.ownerOf i slot x) st unit w) i slot ∧
      (∀ n, (t.finish (d.ownerOf i slot x) st unit w).axis n = t.axis n) ∧
      t.finish (d.ownerOf i slot x) st unit w =
        { d with hif := (t.finish (d.ownerOf i slot x) st unit w).hif, hax := (t.finish (d.ownerOf i slot x) st unit w).hax,
                 cmds := (t.finish (d.ownerOf i slot x) st unit w).cmds, signs := (t.finish (d.ownerOf i slot x) st unit w).signs,
                 regs := (t.finish (d.ownerOf i slot x) st unit w).regs } := by
  have hfin := finish_frame t (d.ownerOf i slot x) st unit w
  generalize t.finish (d.ownerOf i slot x) st unit w = u at hfin
  have ht : t = { d with hif := t.hif, hax := t.hax, cmds := t.cmds, signs := t.signs, regs := t.regs } := by
    rw [h, taken_frame]
  have hu : u = { d with hif := u.hif, hax := t.hax, cmds := t.cmds, signs := t.signs, regs := u.regs } := by rw [hfin, ht]
  have hsqs : u.hif.sqs = (d.taken i slot x).hif.sqs := by rw [hfin, h]
  have hsq : ∀ j, u.sq j = (d.taken i slot x).sq j := fun j => by unfold sq; rw [hsqs]
  refine ⟨⟨?_, fun j hj => ?_⟩, fun n => by rw [hfin]; rfl, ?_⟩
  · rw [hsq, taken, giveSlot_sq, reserve_sq]
  · rw [hsq, taken, giveSlot_sq_other _ _ hj, reserve_sq]
  · rw [hu]

/-! ## STOP (R128 to R131) -/

/-- STOP on one axis. -/
def stopOne (x : Desc) (a n : Nat) (d : Dev) : Dev :=
  if (d.axis n).failedAt = some d.time.tick then d.endAct a n .ok 0
  else if (d.axis n).st = .moving then stop n (x.opflag 0) (if x.opflag 0 then 0 else x.w2) .stop (some a) (d.dropReopen n)
  else d.endAct a n .ok (if (d.axis n).st = .stopped then countsWord (d.toGo n) else 0)

theorem dispatch_stop (d : Dev) (i : Nat) (slot : BitVec 16) (y : Desc) (hadm : d.admits .stop i y) :
    dispatch .stop i slot y opStop d = each (d.leaves y.unit) (stopOne y d.acts.next)
      (opened (d.ctxOf .stop i slot y) (d.leaves y.unit) (d.taken i slot y)) := by
  have hop (c : Ctx) (t : Dev) : opStop c t = each (t.leaves c.x.unit) (stopOne c.x t.acts.next) (opened c (t.leaves c.x.unit) t) := by
    unfold opStop
    dsimp only
    rw [← act_opened c (t.leaves c.x.unit) t]
    rfl
  rw [dispatch_admits _ _ _ _ _ _ hadm]
  exact hop (d.ctxOf .stop i slot y) (d.taken i slot y)

theorem stopOne_drive (x : Desc) (a n : Nat) (d : Dev) : d.driveOnly (stopOne x a n d) := by
  unfold stopOne
  split
  · exact (endAct_motionActs [] d a n _ _).drive
  · split
    · exact (dropReopen_stopOnly n d).drive.trans (stop_stopOnly n _ _ _ _ _).drive
    · exact (endAct_motionActs [] d a n _ _).drive

theorem axis_stopOne_around (x : Desc) (a : Nat) (d : Dev) {n k : Nat} (h : k ≠ n) :
    pinStopped (d.axis k) ((stopOne x a n d).axis k) := by
  unfold stopOne
  split
  · rw [axis_endAct]
    exact pinStopped_refl _
  · split
    · have hs := axis_stop_around (x.opflag 0) (if x.opflag 0 then 0 else x.w2) (some a) (d.dropReopen n) h
      rwa [axis_dropReopen] at hs
    · rw [axis_endAct]
      exact pinStopped_refl _

theorem axis_stopOne (x : Desc) (a n : Nat) (d : Dev) : stopped (d.axis n) ((stopOne x a n d).axis n) := by
  unfold stopOne
  split
  · rw [axis_endAct]
    exact stopped_refl _
  · split
    · have hs := axis_stop n (x.opflag 0) (if x.opflag 0 then 0 else x.w2) (some a) (d.dropReopen n)
      rwa [axis_dropReopen] at hs
    · rw [axis_endAct]
      exact stopped_refl _

theorem axis_stopOne_other (x : Desc) (a : Nat) (d : Dev) {n k : Nat} (hpin : (d.axis n).mot.pin = none) (h : k ≠ n) :
    (stopOne x a n d).axis k = d.axis k := by
  unfold stopOne
  split
  · rw [axis_endAct]
  · split
    · rw [axis_stop_other _ _ _ _ h (by rw [axis_dropReopen]; exact hpin), axis_dropReopen]
    · rw [axis_endAct]

/-- A moving axis whose action has not failed in this tick comes under the stop. -/
theorem axis_stopOne_moving (x : Desc) (a n : Nat) (d : Dev) (hst : (d.axis n).st = .moving)
    (hfail : (d.axis n).failedAt ≠ some d.time.tick) :
    ∃ p, ((stopOne x a n d).axis n).stop = some p ∧ a ∈ p.joined ∧ (x.opflag 0 = true → p.immediate = true) := by
  unfold stopOne
  rw [if_neg hfail, if_pos hst]
  obtain ⟨p, hp, hjoin, himm⟩ := axis_stop_stop n (x.opflag 0) (if x.opflag 0 then 0 else x.w2) (some a) (d.dropReopen n)
    (by rw [axis_dropReopen]; exact hst)
  exact ⟨p, hp, hjoin a rfl, himm⟩

/-- An axis whose action has failed in this tick is as it was. -/
theorem axis_stopOne_failed (x : Desc) (a n : Nat) (d : Dev) (hfail : (d.axis n).failedAt = some d.time.tick) :
    (stopOne x a n d).axis n = d.axis n := by
  unfold stopOne
  rw [if_pos hfail, axis_endAct]

end Sys2Proof.Machine.Dev

namespace Sys2Proof.Machine

theorem exec_stop (s : State) (i : Fin 128) (slot : BitVec 16) (x : Desc) :
    exec (.stop i slot x) s = s.onDev (Dev.dispatch .stop i slot (withOpcode .stop x) Dev.opStop) := rfl

/-- Settles O15: each moving leaf is stopped in its turn, and the turns of the others can only add to its stop. -/
theorem stopBeginsOrJoins : Obligations.StopBeginsOrJoins := by
  intro s i slot x y hy hadm
  have hdev := s.dev.dispatch_stop i slot y hadm
  generalize hu : Dev.opened (s.dev.ctxOf .stop i slot y) (s.dev.leaves y.unit) (s.dev.taken i slot y) = u at hdev
  have hax : ∀ n, u.axis n = s.dev.axis n := fun n => by rw [← hu]; exact Dev.axis_opened _ _ _ n
  have htime : u.time = s.dev.time := by rw [← hu, Dev.opened_frame, Dev.taken_frame]
  have hnodup := nodup_bitsSet 64 (s.dev.unit y.unit).leaf.toNat
  have hdrive := Dev.driveOnly_each (Dev.stopOne y s.dev.acts.next) (s.dev.leaves y.unit) u fun n t => Dev.stopOne_drive y _ n t
  obtain ⟨hslot, hframe⟩ := s.dev.drives_opened _ .stop i slot y (s.dev.leaves y.unit) (by rw [hu]; exact hdrive)
  obtain ⟨hout, hin⟩ := Dev.axis_each_around (fun t => t.time = s.dev.time) Dev.pinStopped Dev.pinStopped_refl Dev.pinStopped.trans
    (Dev.stopOne y s.dev.acts.next) (s.dev.leaves y.unit) hnodup u htime
    (fun n _ t ht => (Dev.stopOne_drive y _ n t).time.trans ht) (fun n _ t _ k hk => Dev.axis_stopOne_around y _ t hk)
  have hall : ∀ n, Dev.stopped (u.axis n) ((each (s.dev.leaves y.unit) (Dev.stopOne y s.dev.acts.next) u).axis n) := by
    intro n
    by_cases hn : n ∈ s.dev.leaves y.unit
    · obtain ⟨t, -, hbefore, hafter⟩ := hin n hn
      exact (hbefore.tostopped.trans (Dev.axis_stopOne y _ n t)).trans hafter.tostopped
    · exact (hout n hn).tostopped
  have hpinless := Dev.axis_each_pinless (fun t => t.time = s.dev.time) (Dev.stopOne y s.dev.acts.next) (s.dev.leaves y.unit) hnodup u
  rw [← hdev] at hslot hframe hall hpinless hin
  clear hdev hdrive hout
  generalize hd : Dev.dispatch .stop i slot y Dev.opStop s.dev = d at hslot hframe hall hpinless hin
  refine ⟨d, ?_, hslot, fun n hn hst hfail => ?_, fun n hst => ?_, fun hpin n hn hfail => ?_, fun n => ?_, hframe⟩
  · rw [exec_stop, ← hy]
    exact s.onDev_eq hd
  · obtain ⟨t, ht, hbefore, hafter⟩ := hin n hn
    have hend := hall n
    rw [hax] at hbefore hend
    obtain ⟨q, hq, hjoin, himm⟩ := Dev.axis_stopOne_moving y s.dev.acts.next n t (hbefore.st.trans hst)
      (by rw [hbefore.failedAt, ht]; exact hfail)
    obtain ⟨p, hp, -, -, -, himm', hjoin', -⟩ := hafter.keeps q hq
    refine ⟨hend.st.trans hst, p, hp, hjoin' _ hjoin, fun hi => himm' (himm hi), fun hnone => ?_⟩
    obtain ⟨hc, hdis, hk, hqu⟩ := hend.begins hnone p hp
    exact ⟨hqu, hc, hdis, hk⟩
  · have hend := hall n
    rw [hax] at hend
    exact hend.still hst
  · have hpin : Dev.pinless (s.dev.leaves y.unit) u := fun k hk => by rw [hax]; exact hpin k hk
    obtain ⟨-, hin⟩ := hpinless hpin htime (fun n t ht => (Dev.stopOne_drive y _ n t).time.trans ht)
      (fun n t h => (Dev.axis_stopOne y _ n t).pin h) (fun n t k h hk => Dev.axis_stopOne_other y _ t h hk)
    obtain ⟨t, ht, hsame, hend⟩ := hin n hn
    rw [hax] at hsame
    rw [hend, Dev.axis_stopOne_failed y _ n t (by rw [hsame, ht]; exact hfail), hsame]
  · have hend := hall n
    rw [hax] at hend
    exact ⟨hend.armed, hend.set, hend.lat⟩

end Sys2Proof.Machine
end

section
/-! Proofs for DISARM, FLOAT and BRAKE (chapter 6). -/

namespace Sys2Proof.Machine.Dev

/-! ## The stop of a moving axis whose drive is taken (R187, R189) -/

/-- A moving axis at once stopped, or stopped on its ramp; a reopen that waits on it is given up. -/
def takenStop (imm : Bool) (n : Nat) (d : Dev) : Dev := stop n imm 0 .stop none (d.dropReopen n)

theorem axis_takenStop (imm : Bool) (n : Nat) (d : Dev) : stopped (d.axis n) ((takenStop imm n d).axis n) := by
  have h := axis_stop n imm 0 none (d.dropReopen n)
  rwa [axis_dropReopen] at h

theorem axis_takenStop_around (imm : Bool) (d : Dev) {n k : Nat} (h : k ≠ n) : pinStopped (d.axis k) ((takenStop imm n d).axis k) := by
  have hs := axis_stop_around imm 0 none (d.dropReopen n) h
  rwa [axis_dropReopen] at hs

theorem axis_takenStop_other (imm : Bool) (d : Dev) {n k : Nat} (h : k ≠ n) (hpin : (d.axis n).mot.pin = none) :
    (takenStop imm n d).axis k = d.axis k := by
  unfold takenStop
  rw [axis_stop_other _ _ _ _ h (by rw [axis_dropReopen]; exact hpin), axis_dropReopen]

/-- A moving axis is under a stop then, which keeps what it kept where it ran already. -/
theorem axis_takenStop_stop (imm : Bool) (n : Nat) (d : Dev) (h : (d.axis n).st = .moving) :
    ∃ p, ((takenStop imm n d).axis n).stop = some p ∧ (imm = true → p.immediate = true) := by
  obtain ⟨p, hp, -, himm⟩ := axis_stop_stop n imm 0 none (d.dropReopen n) (by rw [axis_dropReopen]; exact h)
  exact ⟨p, hp, himm⟩

theorem takenStop_stopOnly (imm : Bool) (n : Nat) (d : Dev) : d.stopOnly (takenStop imm n d) :=
  (dropReopen_stopOnly n d).trans (stop_stopOnly n imm 0 .stop none _)

/-- What the stop of an axis takes over from before. -/
theorem stopped.kept {x y : HubAxis} (h : stopped x y) {p : Stop} (hp : y.stop = some p) :
    (x.stop = none → p.keep = (x.mot.mode == .profile) ∧ p.cause = .stop) ∧
      ∀ q, x.stop = some q → p.keep = q.keep ∧ p.cause = q.cause := by
  refine ⟨fun hx => ?_, fun q hq => ?_⟩
  · obtain ⟨hc, -, hk, -⟩ := h.begins hx p hp
    exact ⟨hk, hc⟩
  · obtain ⟨r, hr, hk, hc, -⟩ := h.keeps q hq
    obtain rfl : p = r := Option.some.inj (hp.symm.trans hr)
    exact ⟨hk, hc⟩

/-! ## DISARM (R187) -/

/-- An axis that a DISARM has unarmed. -/
def unarmedOff (y : HubAxis) : HubAxis :=
  { y with armed := false, cmd := .off, seq := none, seqOff := true, brakeHold := false }

/-- A moving axis that a DISARM at once has left without a mode. -/
def cutDrive (y : HubAxis) : HubAxis := { unarmedOff y with mot := { y.mot with mode := .none, v := 0 } }

/-- A moving axis whose stop unarms it. -/
def disarming (y : HubAxis) : HubAxis := { y with stop := y.stop.map fun s => { s with disarm := true } }

/-- DISARM on an armed axis: moving, on the ramp or at once, and at rest. -/
theorem disarmAxis_off (ramp : Bool) (n : Nat) (d : Dev) (h : (d.axis n).st = .safe ∨ !(d.axis n).armed) : disarmAxis ramp n d = d := by
  unfold disarmAxis
  exact if_pos h

theorem axis_disarmAxis_ramp (n : Nat) (d : Dev) (h : ¬ ((d.axis n).st = .safe ∨ !(d.axis n).armed)) (hst : (d.axis n).st = .moving) :
    (disarmAxis true n d).axis n = disarming ((takenStop false n d).axis n) := by
  unfold disarmAxis
  dsimp only
  rw [if_neg h, if_pos hst, if_pos rfl, axis_modAxis]
  rfl

theorem axis_disarmAxis_cut (n : Nat) (d : Dev) (h : ¬ ((d.axis n).st = .safe ∨ !(d.axis n).armed)) (hst : (d.axis n).st = .moving) :
    (disarmAxis false n d).axis n = cutDrive ((takenStop true n d).axis n) := by
  unfold disarmAxis
  dsimp only
  rw [if_neg h, if_pos hst, if_neg Bool.false_ne_true, axis_modAxis, axis_unarm_same]
  rfl

theorem axis_disarmAxis_rest (ramp : Bool) (n : Nat) (d : Dev) (h : ¬ ((d.axis n).st = .safe ∨ !(d.axis n).armed))
    (hst : (d.axis n).st ≠ .moving) : (disarmAxis ramp n d).axis n = unarmedOff (d.axis n) := by
  unfold disarmAxis
  dsimp only
  rw [if_neg h, if_neg hst, axis_modAxis, axis_unarm_same]
  rfl

theorem axis_disarmAxis_around (ramp : Bool) (d : Dev) {n k : Nat} (hk : k ≠ n) :
    pinStopped (d.axis k) ((disarmAxis ramp n d).axis k) := by
  unfold disarmAxis
  dsimp only
  split
  · exact pinStopped_refl _
  · split
    · split
      · rw [axis_modAxis_other _ _ hk]
        exact axis_takenStop_around false d hk
      · rw [axis_modAxis_other _ _ hk, axis_unarm_other _ hk]
        exact axis_takenStop_around true d hk
    · rw [axis_modAxis_other _ _ hk, axis_unarm_other _ hk]
      exact pinStopped_refl _

theorem axis_disarmAxis_other (ramp : Bool) (d : Dev) {n k : Nat} (hpin : (d.axis n).mot.pin = none) (hk : k ≠ n) :
    (disarmAxis ramp n d).axis k = d.axis k := by
  unfold disarmAxis
  dsimp only
  split
  · rfl
  · split
    · split
      · rw [axis_modAxis_other _ _ hk]
        exact axis_takenStop_other false d hk hpin
      · rw [axis_modAxis_other _ _ hk, axis_unarm_other _ hk]
        exact axis_takenStop_other true d hk hpin
    · rw [axis_modAxis_other _ _ hk, axis_unarm_other _ hk]

theorem pin_disarmAxis (ramp : Bool) (n : Nat) (d : Dev) (h : (d.axis n).mot.pin = none) :
    ((disarmAxis ramp n d).axis n).mot.pin = none := by
  by_cases hoff : (d.axis n).st = .safe ∨ !(d.axis n).armed
  · rw [disarmAxis_off _ _ _ hoff]
    exact h
  · by_cases hst : (d.axis n).st = .moving
    · cases ramp with
      | true =>
        rw [axis_disarmAxis_ramp _ _ hoff hst]
        exact (axis_takenStop false n d).pin h
      | false =>
        rw [axis_disarmAxis_cut _ _ hoff hst]
        exact (axis_takenStop true n d).pin h
    · rw [axis_disarmAxis_rest _ _ _ hoff hst]
      exact h

/-- Axis z is w after an admitted DISARM. -/
def disarmedFrom (ramp : Bool) (w z : HubAxis) : Prop :=
  z.st = w.st ∧ z.mot.target = w.mot.target ∧
    ((ramp = false ∨ w.st ≠ .moving) → z.armed = false ∧ z.cmd = .off) ∧
    (ramp = false → w.st = .moving → z.mot.mode = .none ∧ z.mot.v = 0 ∧ ∃ p, z.stop = some p ∧ p.immediate = true) ∧
    (ramp = true → w.st = .moving → z.armed = true ∧ ∃ p, z.stop = some p ∧ p.disarm = true) ∧
    (w.st = .moving → ∃ p, z.stop = some p ∧
      (w.stop = none → p.keep = (w.mot.mode == .profile) ∧ p.cause = .stop) ∧
      ∀ q, w.stop = some q → p.keep = q.keep ∧ p.cause = q.cause)

/-- What a DISARM does to an axis that the turns of other axes reach before and behind its own. -/
theorem disarmAxis_turn (ramp : Bool) (n : Nat) (t : Dev) (w z : HubAxis) (hbefore : pinStopped w (t.axis n))
    (hafter : pinStopped ((disarmAxis ramp n t).axis n) z) (harmed : w.armed = true) (hsafe : w.st ≠ .safe) : disarmedFrom ramp w z := by
  have hon : ¬ ((t.axis n).st = .safe ∨ !(t.axis n).armed) := by
    rw [hbefore.st, hbefore.armed, harmed]
    exact fun h => h.elim hsafe (fun h => absurd h (by decide))
  by_cases hst : w.st = .moving
  · have htst : (t.axis n).st = .moving := hbefore.st.trans hst
    cases ramp with
    | true =>
      rw [axis_disarmAxis_ramp _ _ hon htst] at hafter
      have hall := hbefore.tostopped.trans (axis_takenStop false n t)
      obtain ⟨r, hr, -⟩ := axis_takenStop_stop false n t htst
      obtain ⟨p, hp, hk, hc, hdis, -, -, hmot⟩ := hafter.keeps { r with disarm := true } (by rw [disarming, hr]; rfl)
      obtain ⟨hbegun, hran⟩ := hall.kept hr
      refine ⟨hafter.st.trans hall.st, hafter.target.trans hall.target, fun h => ?_, fun h => absurd h (by decide),
        fun _ _ => ⟨(hafter.armed.trans hall.armed).trans harmed, p, hp, hdis⟩, fun _ => ⟨p, hp, fun h => ?_, fun q hq => ?_⟩⟩
      · exact h.elim (fun h => absurd h (by decide)) (fun h => absurd hst h)
      · exact ⟨hk.trans (hbegun h).1, hc.trans (hbegun h).2⟩
      · exact ⟨hk.trans (hran q hq).1, hc.trans (hran q hq).2⟩
    | false =>
      rw [axis_disarmAxis_cut _ _ hon htst] at hafter
      have hall := hbefore.tostopped.trans (axis_takenStop true n t)
      obtain ⟨r, hr, himm⟩ := axis_takenStop_stop true n t htst
      obtain ⟨p, hp, hk, hc, -, himm', -, hmot⟩ := hafter.keeps r hr
      obtain ⟨hbegun, hran⟩ := hall.kept hr
      have hcmd : z.cmd = .off := hafter.drive (by rw [show (cutDrive ((takenStop true n t).axis n)).stop = some r from hr]; rfl)
      refine ⟨hafter.st.trans hall.st, hafter.target.trans hall.target, fun _ => ⟨hafter.armed, hcmd⟩,
        fun _ _ => ⟨by rw [hmot]; rfl, by rw [hmot]; rfl, p, hp, himm' (himm rfl)⟩, fun h => absurd h (by decide),
        fun _ => ⟨p, hp, fun h => ?_, fun q hq => ?_⟩⟩
      · exact ⟨hk.trans (hbegun h).1, hc.trans (hbegun h).2⟩
      · exact ⟨hk.trans (hran q hq).1, hc.trans (hran q hq).2⟩
  · have hsame := hbefore.still hst
    rw [axis_disarmAxis_rest _ _ _ hon (by rw [hsame]; exact hst), hsame] at hafter
    have hend : z = unarmedOff w := hafter.still hst
    rw [hend]
    exact ⟨rfl, rfl, fun _ => ⟨rfl, rfl⟩, fun _ h => absurd h hst, fun _ h => absurd h hst, fun h => absurd h hst⟩

/-- A safety-directed descriptor leaves its final record. -/
theorem doneWorst_eq (c : Ctx) (l : List (Nat × Status)) (d : Dev) :
    ∃ st w, c.doneWorst l d = d.finish c.owner st (recUnit c.op c.x) w := ⟨_, _, rfl⟩

theorem dispatch_disarm (d : Dev) (i : Nat) (slot : BitVec 16) (y : Desc) (hadm : d.admits .disarm i y) :
    ∃ st w, dispatch .disarm i slot y opDisarm d =
      (each (d.leaves y.unit) (disarmAxis (y.opflag 0)) (d.taken i slot y)).finish (d.ownerOf i slot y) st (recUnit .disarm y) w := by
  rw [dispatch_admits _ _ _ _ _ _ hadm]
  exact doneWorst_eq (d.ctxOf .disarm i slot y) ((d.leaves y.unit).map fun n => (n, .ok))
    (each (d.leaves y.unit) (disarmAxis (y.opflag 0)) (d.taken i slot y))

/-! ## FLOAT and BRAKE (R189) -/

/-- A moving axis whose drive FLOAT or BRAKE has taken. -/
def heldMoving (cmd : DriveCmd) (hold : Bool) (y : HubAxis) : HubAxis :=
  { y with cmd := cmd, seq := none, seqOff := true, brakeHold := hold, mot := { y.mot with mode := .none, v := 0, wait := false } }

/-- An axis at rest whose drive FLOAT or BRAKE has taken; a faulted one may have a stop to wait for. -/
def heldRest (cmd : DriveCmd) (hold : Bool) (st : Option Stop) (y : HubAxis) : HubAxis :=
  { y with cmd := cmd, seq := none, seqOff := true, brakeHold := hold, stop := st }

/-- The stop of a faulted axis that a BRAKE with opt = 1 is to end at standstill. -/
def waitAgain (b : Bool) (y : HubAxis) : Option Stop :=
  if b && y.stop.isNone then
    some { immediate := true, decel := 0, cause := .fault, joined := [], disarm := false, keep := false }
  else y.stop

/-- The drive command of FLOAT or BRAKE. -/
def holdDrive (brake opt : Bool) : DriveCmd := if brake then .brake else .float opt

theorem holdAxis_eq (brake opt : Bool) (n : Nat) (d : Dev) : holdAxis brake opt n d =
    if (d.axis n).st = .safe ∨ !(d.axis n).armed then d
    else if (d.axis n).st = .moving then (takenStop true n d).modAxis n (heldMoving (holdDrive brake opt) (brake && opt))
    else if (d.axis n).st = .faulted then d.modAxis n fun y => heldRest (holdDrive brake opt) (brake && opt) (waitAgain (brake && opt) y) y
    else if brake && opt then d.modAxis n fun y => { y with cmd := d.holdCmd n, brakeHold := false }
    else d.modAxis n fun y => heldRest (holdDrive brake opt) false y.stop y := rfl

theorem holdAxis_stopOnly (brake opt : Bool) (n : Nat) (d : Dev) : d.stopOnly (holdAxis brake opt n d) := by
  rw [holdAxis_eq]
  split
  · exact stopOnly_refl d
  · split
    · exact (takenStop_stopOnly true n d).trans (stopOnly_modAxis _ n _)
    · split
      · exact stopOnly_modAxis d n _
      · split
        · exact stopOnly_modAxis d n _
        · exact stopOnly_modAxis d n _

theorem axis_holdAxis_around (brake opt : Bool) (d : Dev) {n k : Nat} (hk : k ≠ n) :
    pinStopped (d.axis k) ((holdAxis brake opt n d).axis k) := by
  rw [holdAxis_eq]
  split
  · exact pinStopped_refl _
  · split
    · rw [axis_modAxis_other _ _ hk]
      exact axis_takenStop_around true d hk
    · split
      · rw [axis_modAxis_other _ _ hk]
        exact pinStopped_refl _
      · split
        · rw [axis_modAxis_other _ _ hk]
          exact pinStopped_refl _
        · rw [axis_modAxis_other _ _ hk]
          exact pinStopped_refl _

/-- The four things that FLOAT or BRAKE does to an axis whose drive it takes. -/
theorem axis_holdAxis (brake opt : Bool) (n : Nat) (d : Dev) (h : ¬ ((d.axis n).st = .safe ∨ !(d.axis n).armed)) :
    (holdAxis brake opt n d).axis n =
      if (d.axis n).st = .moving then heldMoving (holdDrive brake opt) (brake && opt) ((takenStop true n d).axis n)
      else if (d.axis n).st = .faulted then heldRest (holdDrive brake opt) (brake && opt) (waitAgain (brake && opt) (d.axis n)) (d.axis n)
      else if brake && opt then { d.axis n with cmd := d.holdCmd n, brakeHold := false }
      else heldRest (holdDrive brake opt) false (d.axis n).stop (d.axis n) := by
  rw [holdAxis_eq, if_neg h]
  split
  · rw [axis_modAxis]
  · split
    · rw [axis_modAxis]
    · split
      · rw [axis_modAxis]
      · rw [axis_modAxis]

/-- Axis z is w after an admitted FLOAT or BRAKE; rest is the drive of its hold. -/
def holdFrom (brake opt : Bool) (rest : DriveCmd) (w z : HubAxis) : Prop :=
  z.armed = true ∧ z.st = w.st ∧
    ((w.st = .moving ∨ w.st = .faulted ∨ brake = false ∨ opt = false) → z.cmd = holdDrive brake opt) ∧
    (w.st ≠ .moving → w.st ≠ .faulted → brake = true → opt = true → z.cmd = rest) ∧
    (w.st = .moving → z.mot.mode = .none ∧ z.mot.v = 0 ∧ z.stop.isSome = true)

theorem holdAxis_turn (brake opt : Bool) (n : Nat) (t : Dev) (rest : DriveCmd) (w z : HubAxis) (hbefore : pinStopped w (t.axis n))
    (hhold : t.axis n = w → t.holdCmd n = rest)
    (hafter : pinStopped ((holdAxis brake opt n t).axis n) z) (harmed : w.armed = true) (hsafe : w.st ≠ .safe) :
    holdFrom brake opt rest w z := by
  have hon : ¬ ((t.axis n).st = .safe ∨ !(t.axis n).armed) := by
    rw [hbefore.st, hbefore.armed, harmed]
    exact fun h => h.elim hsafe (fun h => absurd h (by decide))
  rw [axis_holdAxis _ _ _ _ hon] at hafter
  by_cases hst : w.st = .moving
  · have htst : (t.axis n).st = .moving := hbefore.st.trans hst
    rw [if_pos htst] at hafter
    have hall := hbefore.tostopped.trans (axis_takenStop true n t)
    obtain ⟨r, hr, -⟩ := axis_takenStop_stop true n t htst
    obtain ⟨p, hp, -, -, -, -, -, hmot⟩ := hafter.keeps r hr
    have hcmd : z.cmd = holdDrive brake opt := hafter.drive (by
      rw [show (heldMoving (holdDrive brake opt) (brake && opt) ((takenStop true n t).axis n)).stop = some r from hr]; rfl)
    exact ⟨(hafter.armed.trans hall.armed).trans harmed, hafter.st.trans hall.st, fun _ => hcmd, fun h => absurd hst h,
      fun _ => ⟨by rw [hmot]; rfl, by rw [hmot]; rfl, by rw [hp]; rfl⟩⟩
  · have hsame := hbefore.still hst
    rw [hsame, if_neg hst, hhold hsame] at hafter
    by_cases hf : w.st = .faulted
    · rw [if_pos hf] at hafter
      have hend : z = _ := hafter.still hst
      rw [hend]
      exact ⟨harmed, rfl, fun _ => rfl, fun _ h => absurd hf h, fun h => absurd h hst⟩
    · rw [if_neg hf] at hafter
      by_cases hb : (brake && opt) = true
      · rw [if_pos hb] at hafter
        have hend : z = _ := hafter.still hst
        obtain ⟨hbrake, hopt⟩ := Bool.and_eq_true_iff.mp hb
        rw [hend]
        refine ⟨harmed, rfl, fun h => ?_, fun _ _ _ _ => rfl, fun h => absurd h hst⟩
        rw [hbrake, hopt] at h
        exact absurd (h.resolve_left hst |>.resolve_left hf) (by decide)
      · rw [if_neg hb] at hafter
        have hend : z = _ := hafter.still hst
        rw [hend]
        exact ⟨harmed, rfl, fun _ => rfl, fun _ _ h1 h2 => absurd (by rw [h1, h2]; rfl) hb, fun h => absurd h hst⟩

/-! ## Sensing of the axes: no engagement bit of a pin reaches it -/

/-- Every axis is sensorless in t where it is in d. -/
def sameSensing (d t : Dev) : Prop := ∀ k, t.sensorless k = d.sensorless k

theorem sameSensing.trans {d t u : Dev} (h : sameSensing d t) (k : sameSensing t u) : sameSensing d u :=
  fun n => (k n).trans (h n)

theorem sameSensing_of_force {d t : Dev} (h : t.regs.force = d.regs.force) : sameSensing d t := by
  intro k
  unfold sensorless
  rw [cfg_congr h]

theorem sameSensing_setCfg_engage (c v : Nat) (d : Dev) : sameSensing d (d.setCfg Fl.cmdCfgEngage c v) := by
  have hmode (k : Nat) : (d.setCfg Fl.cmdCfgEngage c v).cfg Fl.fbCfgMode k = d.cfg Fl.fbCfgMode k := by
    by_cases h : Reg.offset .fbCfg k = Reg.offset .cmdCfg c
    · simp only [Dev.cfg, setCfg, fldOf, fldSet, regWord, h, SMap.find_set_same, Option.getD_some]
      rw [bits_putBits_other _ _ _ _ _ _ (by decide) (Or.inl (by decide))]
      cases SMap.find d.regs.force (Reg.offset .cmdCfg c) with
      | some w => rfl
      | none =>
        show bits (resetWord .cmdCfg 0) 0 2 = bits (resetWord .fbCfg 0) 0 2
        decide
    · exact fldOf_fldSet_reg _ Fl.cmdCfgEngage Fl.fbCfgMode c k v h
  intro k
  unfold sensorless
  rw [hmode]

theorem stopAxis_sameSensing (n : Nat) (imm : Bool) (decel : Word) (cause : StopCause) (join : Option Nat) (d : Dev) :
    sameSensing d (stopAxis n imm decel cause join d) :=
  stopAxis_keeps (fun t => sameSensing d t) n imm decel cause join d (fun _ _ h => h.trans (sameSensing_of_force rfl))
    (fun _ h => h.trans (sameSensing_of_force rfl)) fun _ => rfl

theorem stopPin_sameSensing (c : Nat) (d : Dev) : sameSensing d (stopPin c d) := by
  have heach : sameSensing d (each (d.cmd c).axes (fun n d => stopAxis n false 0 .stop none d) d) :=
    each_keeps (fun t => sameSensing d t) _ _ d (fun n _ t ht => ht.trans (stopAxis_sameSensing n false 0 .stop none t)) fun _ => rfl
  unfold stopPin releasePin
  dsimp only
  refine heach.trans ?_
  generalize each (d.cmd c).axes (fun n d => stopAxis n false 0 .stop none d) d = t
  exact (sameSensing_setCfg_engage c 0 (t.setCmd c { t.cmd c with axes := [], engaging := false })).trans (sameSensing_of_force rfl)

theorem takenStop_sameSensing (imm : Bool) (n : Nat) (d : Dev) : sameSensing d (takenStop imm n d) := by
  have hdrop : sameSensing d (d.dropReopen n) := by
    unfold dropReopen
    split <;> exact fun _ => rfl
  refine hdrop.trans ?_
  unfold takenStop stop
  dsimp only
  have hone := stopAxis_sameSensing n imm 0 .stop none (d.dropReopen n)
  split
  · split
    · exact hone.trans (stopPin_sameSensing _ _)
    · exact hone
  · exact hone

theorem holdAxis_sameSensing (brake opt : Bool) (n : Nat) (d : Dev) : sameSensing d (holdAxis brake opt n d) := by
  have hmod (f : HubAxis → HubAxis) (t : Dev) : sameSensing t (t.modAxis n f) := fun _ => rfl
  rw [holdAxis_eq]
  split
  · exact fun _ => rfl
  · split
    · exact (takenStop_sameSensing true n d).trans (hmod _ _)
    · split
      · exact hmod _ d
      · split
        · exact hmod _ d
        · exact hmod _ d

theorem holdCmd_congr {d t : Dev} (n : Nat) (hs : sameSensing d t) (h : t.axis n = d.axis n) : t.holdCmd n = d.holdCmd n := by
  unfold holdCmd
  rw [hs, h]

theorem dispatch_float (d : Dev) (i : Nat) (slot : BitVec 16) (y : Desc) (hadm : d.admits .float i y) :
    ∃ st w, dispatch .float i slot y opFloat d =
      (each (d.leaves y.unit) (holdAxis false (y.opflag 0)) (d.taken i slot y)).finish (d.ownerOf i slot y) st (recUnit .float y) w := by
  rw [dispatch_admits _ _ _ _ _ _ hadm]
  exact doneWorst_eq (d.ctxOf .float i slot y) ((d.leaves y.unit).map fun n => (n, (d.taken i slot y).holdStatus false n))
    (each (d.leaves y.unit) (holdAxis false (y.opflag 0)) (d.taken i slot y))

theorem dispatch_brake (d : Dev) (i : Nat) (slot : BitVec 16) (y : Desc) (hadm : d.admits .brake i y) :
    ∃ st w, dispatch .brake i slot y opBrake d =
      (each (d.leaves y.unit) (holdAxis true (y.opflag 0)) (d.taken i slot y)).finish (d.ownerOf i slot y) st (recUnit .brake y) w := by
  rw [dispatch_admits _ _ _ _ _ _ hadm]
  exact doneWorst_eq (d.ctxOf .brake i slot y) ((d.leaves y.unit).map fun n => (n, (d.taken i slot y).holdStatus true n))
    (each (d.leaves y.unit) (holdAxis true (y.opflag 0)) (d.taken i slot y))

/-- An axis that FLOAT and BRAKE leave. -/
theorem holdAxis_off (brake opt : Bool) (n : Nat) (d : Dev) (h : (d.axis n).st = .safe ∨ !(d.axis n).armed) : holdAxis brake opt n d = d := by
  rw [holdAxis_eq, if_pos h]

/-- What FLOAT or BRAKE leaves of a block: the drives it takes, and the axes that stay. -/
theorem holds_leaves (d : Dev) (l : List Nat) (hl : l.Nodup) (brake opt : Bool) :
    (∀ n ∈ l, (d.axis n).armed = true → (d.axis n).st ≠ .safe →
      holdFrom brake opt (d.holdCmd n) (d.axis n) ((each l (holdAxis brake opt) d).axis n)) ∧
    ∀ n, ((d.axis n).st = .safe ∨ ((d.axis n).st ≠ .moving ∧ ((d.axis n).armed = false ∨ n ∉ l))) →
      (each l (holdAxis brake opt) d).axis n = d.axis n := by
  obtain ⟨hout, hin⟩ := axis_each_around (sameSensing d) pinStopped pinStopped_refl pinStopped.trans (holdAxis brake opt) l hl d
    (fun _ => rfl) (fun n _ t ht => ht.trans (holdAxis_sameSensing brake opt n t)) (fun n _ t _ k hk => axis_holdAxis_around brake opt t hk)
  refine ⟨fun n hn harmed hsafe => ?_, fun n h => ?_⟩
  · obtain ⟨t, ht, hbefore, hafter⟩ := hin n hn
    exact holdAxis_turn brake opt n t (d.holdCmd n) _ _ hbefore (holdCmd_congr n ht) hafter harmed hsafe
  · have hst : (d.axis n).st ≠ .moving := h.elim (fun h hm => absurd (h.symm.trans hm) (by decide)) And.left
    by_cases hn : n ∈ l
    · obtain ⟨t, -, hbefore, hafter⟩ := hin n hn
      have hsame := hbefore.still hst
      have hoff : (t.axis n).st = .safe ∨ !(t.axis n).armed := by
        rw [hsame]
        exact h.imp_right fun ⟨_, h⟩ => by rw [h.resolve_right (not_not.mpr hn)]; rfl
      rw [holdAxis_off _ _ _ _ hoff, hsame] at hafter
      exact hafter.still hst
    · exact (hout n hn).still hst

end Sys2Proof.Machine.Dev

namespace Sys2Proof.Machine

theorem exec_disarm (s : State) (i : Fin 128) (slot : BitVec 16) (x : Desc) :
    exec (.disarm i slot x) s = s.onDev (Dev.dispatch .disarm i slot (withOpcode .disarm x) Dev.opDisarm) := rfl
theorem exec_float (s : State) (i : Fin 128) (slot : BitVec 16) (x : Desc) :
    exec (.float i slot x) s = s.onDev (Dev.dispatch .float i slot (withOpcode .float x) Dev.opFloat) := rfl
theorem exec_brake (s : State) (i : Fin 128) (slot : BitVec 16) (x : Desc) :
    exec (.brake i slot x) s = s.onDev (Dev.dispatch .brake i slot (withOpcode .brake x) Dev.opBrake) := rfl

/-- Settles O19: each leaf is unarmed in its turn, and the pins of the others can only join its stop. -/
theorem disarmUnarms : Obligations.DisarmUnarms := by
  intro s i slot x y hy hadm
  obtain ⟨st, w, hdev⟩ := s.dev.dispatch_disarm i slot y hadm
  have htax : ∀ n, (s.dev.taken i slot y).axis n = s.dev.axis n := fun _ => rfl
  have hnodup := nodup_bitsSet 64 (s.dev.unit y.unit).leaf.toNat
  obtain ⟨hslot, hend, hframe⟩ := s.dev.drives_done _ i slot y st (Dev.recUnit .disarm y) w
    (Dev.stopOnly_each (Dev.disarmAxis (y.opflag 0)) (s.dev.leaves y.unit) _ fun n t => Dev.disarmAxis_stopOnly _ n t)
  obtain ⟨hout, hin⟩ := Dev.axis_each_around (fun _ => True) Dev.pinStopped Dev.pinStopped_refl Dev.pinStopped.trans
    (Dev.disarmAxis (y.opflag 0)) (s.dev.leaves y.unit) hnodup (s.dev.taken i slot y) trivial (fun _ _ _ _ => trivial)
    (fun n _ t _ k hk => Dev.axis_disarmAxis_around _ t hk)
  have hpinless := Dev.axis_each_pinless (fun _ => True) (Dev.disarmAxis (y.opflag 0)) (s.dev.leaves y.unit) hnodup
    (s.dev.taken i slot y)
  generalize s.dev.taken i slot y = u at hdev htax hslot hend hframe hout hin hpinless
  rw [← hdev] at hslot hend hframe
  clear hdev
  generalize hd : Dev.dispatch .disarm i slot y Dev.opDisarm s.dev = d at hslot hend hframe
  have hnopin : (∀ k ∈ s.dev.leaves y.unit, (s.dev.axis k).mot.pin = none) → _ := fun hpin =>
    hpinless (fun k hk => by rw [htax]; exact hpin k hk) trivial (fun _ _ _ => trivial)
      (fun n t h => Dev.pin_disarmAxis _ n t h) (fun n t k h hk => Dev.axis_disarmAxis_other _ t h hk)
  refine ⟨d, ?_, hslot, fun n hn harmed hsafe => ?_, fun n hn hsafe => ?_, fun n hn harmed h => ?_, fun n hn h => ?_, fun n hn => ?_,
    hframe⟩
  · rw [exec_disarm, ← hy]
    exact s.onDev_eq hd
  · obtain ⟨t, -, hbefore, hafter⟩ := hin n hn
    rw [htax] at hbefore
    rw [← hend] at hafter
    exact Dev.disarmAxis_turn _ n t _ _ hbefore hafter harmed hsafe
  · obtain ⟨t, -, hbefore, hafter⟩ := hin n hn
    rw [htax] at hbefore
    have hst : (s.dev.axis n).st ≠ .moving := by rw [hsafe]; decide
    have hsame := hbefore.still hst
    rw [Dev.disarmAxis_off _ _ _ (Or.inl (by rw [hsame]; exact hsafe)), hsame, ← hend] at hafter
    exact hafter.still hst
  · rw [hend]
    obtain hst | hpin := h
    · obtain ⟨t, -, hbefore, hafter⟩ := hin n hn
      rw [htax] at hbefore
      have hsame := hbefore.still hst
      rw [Dev.disarmAxis_off _ _ _ (Or.inr (by rw [hsame, harmed]; rfl)), hsame] at hafter
      exact hafter.still hst
    · obtain ⟨-, hin⟩ := hnopin hpin
      obtain ⟨t, -, hsame, hown⟩ := hin n hn
      rw [htax] at hsame
      rw [hown, Dev.disarmAxis_off _ _ _ (Or.inr (by rw [hsame, harmed]; rfl)), hsame]
  · rw [hend]
    obtain hst | hpin := h
    · rw [← htax] at hst ⊢
      exact (hout n hn).still hst
    · obtain ⟨hout, -⟩ := hnopin hpin
      exact (hout n hn).trans (htax n)
  · rw [hend, (hout n hn).armed, htax]

/-- Settles O20: FLOAT and BRAKE take the drive of each leaf in its turn. -/
theorem floatAndBrakeTakeDrive : Obligations.FloatAndBrakeTakeDrive := by
  have hone (s : State) (i : Fin 128) (slot : BitVec 16) (y : Desc) (o : Op) (c : Instr) (brake : Bool)
      (act : Ctx → Dev → Dev) (hexec : exec c s = s.onDev (Dev.dispatch o i slot y act))
      (hdev : ∃ st w, Dev.dispatch o i slot y act s.dev = (each (s.dev.leaves y.unit) (Dev.holdAxis brake (y.opflag 0))
        (s.dev.taken i slot y)).finish (s.dev.ownerOf i slot y) st (Dev.recUnit o y) w) :
      ∃ d, exec c s = .next { s with dev := d } ∧ s.dev.slotTaken d i slot ∧
        (∀ n ∈ s.dev.leaves y.unit, (s.dev.axis n).armed = true → (s.dev.axis n).st ≠ .safe →
          Dev.holdFrom brake (y.opflag 0) (s.dev.holdCmd n) (s.dev.axis n) (d.axis n)) ∧
        (∀ n, ((s.dev.axis n).st = .safe ∨ ((s.dev.axis n).st ≠ .moving ∧
          ((s.dev.axis n).armed = false ∨ n ∉ s.dev.leaves y.unit))) → d.axis n = s.dev.axis n) ∧
        d = { s.dev with hif := d.hif, hax := d.hax, cmds := d.cmds, signs := d.signs, regs := d.regs } := by
    obtain ⟨st, w, hdev⟩ := hdev
    obtain ⟨hslot, hend, hframe⟩ := s.dev.drives_done _ i slot y st (Dev.recUnit o y) w
      (Dev.stopOnly_each (Dev.holdAxis brake (y.opflag 0)) (s.dev.leaves y.unit) _ fun n t => Dev.holdAxis_stopOnly _ _ n t)
    obtain ⟨hheld, hstay⟩ := (s.dev.taken i slot y).holds_leaves (s.dev.leaves y.unit) (nodup_bitsSet 64 _) brake (y.opflag 0)
    rw [← hdev] at hslot hend hframe
    clear hdev
    generalize hd : Dev.dispatch o i slot y act s.dev = d at hslot hend hframe
    refine ⟨d, hexec.trans (s.onDev_eq hd), hslot, fun n hn harmed hsafe => ?_, fun n h => ?_, hframe⟩
    · rw [hend]
      exact hheld n hn harmed hsafe
    · rw [hend]
      exact hstay n h
  intro s i slot x y o c k hmem hy hadm
  simp only [List.mem_cons, Prod.mk.injEq, List.not_mem_nil, or_false] at hmem
  obtain ⟨rfl, rfl, rfl⟩ | ⟨rfl, rfl, rfl⟩ := hmem
  · obtain ⟨d, hexec, hslot, hheld, hstay, hframe⟩ := hone s i slot y .float _ false Dev.opFloat (by rw [exec_float, ← hy])
      (s.dev.dispatch_float i slot y hadm)
    refine ⟨d, hexec, hslot, fun n hn harmed hsafe => ?_, hstay, hframe⟩
    obtain ⟨ha, hst, hcmd, -, hmov⟩ := hheld n hn harmed hsafe
    exact ⟨ha, hst, fun _ => hcmd (Or.inr (Or.inr (Or.inl rfl))), fun _ _ h => absurd h (by decide), hmov⟩
  · obtain ⟨d, hexec, hslot, hheld, hstay, hframe⟩ := hone s i slot y .brake _ true Dev.opBrake (by rw [exec_brake, ← hy])
      (s.dev.dispatch_brake i slot y hadm)
    refine ⟨d, hexec, hslot, fun n hn harmed hsafe => ?_, hstay, hframe⟩
    obtain ⟨ha, hst, hcmd, hrest, hmov⟩ := hheld n hn harmed hsafe
    refine ⟨ha, hst, fun h => hcmd ?_, fun h1 h2 _ h3 => hrest h1 h2 rfl h3, hmov⟩
    exact h.imp_right fun h => h.imp_right fun h => Or.inr (h.resolve_left (by decide))

end Sys2Proof.Machine
end

section
/-! Proofs for START (chapter 8). -/

namespace Sys2Proof.Machine.Dev

/-! ## The end of a mode with its pin (R129, R139) -/

theorem endMode_eq (n : Nat) (d : Dev) : endMode n d = match (d.axis n).mot.pin with
    | some c => stopPin c ((clearMode n d).setCmd c { (clearMode n d).cmd c with axes := ((clearMode n d).cmd c).axes.filter (· ≠ n) })
    | none => clearMode n d := rfl

theorem endMode_drive (n : Nat) (d : Dev) : d.driveOnly (endMode n d) := by
  have hclear := (clearMode_motion n d).acts.drive
  rw [endMode_eq]
  cases (d.axis n).mot.pin with
  | none => exact hclear
  | some c =>
    have hcmd (x : CmdPin) : (clearMode n d).driveOnly ((clearMode n d).setCmd c x) := rfl
    exact hclear.trans ((hcmd _).trans (stopPin_stopOnly c _).drive)

/-- The mode of an axis that does not move ends. -/
theorem axis_endMode (n : Nat) (d : Dev) (hst : (d.axis n).st ≠ .moving) :
    (endMode n d).axis n = { d.axis n with mot := modeless (d.axis n).mot } := by
  have hclear := axis_clearMode n d
  rw [endMode_eq]
  cases (d.axis n).mot.pin with
  | none => exact hclear
  | some c =>
    have hstill := (axis_stopPin c n
      ((clearMode n d).setCmd c { (clearMode n d).cmd c with axes := ((clearMode n d).cmd c).axes.filter (· ≠ n) })).still
    have hax : ((clearMode n d).setCmd c { (clearMode n d).cmd c with axes := ((clearMode n d).cmd c).axes.filter (· ≠ n) }).axis n =
        (clearMode n d).axis n := rfl
    rw [hax, hclear] at hstill
    exact hstill hst

theorem axis_endMode_around (d : Dev) {n k : Nat} (h : k ≠ n) : pinStopped (d.axis k) ((endMode n d).axis k) := by
  have hclear := (clearMode_motion n d).other k fun hm => h (List.mem_singleton.mp hm)
  rw [endMode_eq]
  cases (d.axis n).mot.pin with
  | none =>
    dsimp only
    rw [hclear]
    exact pinStopped_refl _
  | some c =>
    have hpin := axis_stopPin c k
      ((clearMode n d).setCmd c { (clearMode n d).cmd c with axes := ((clearMode n d).cmd c).axes.filter (· ≠ n) })
    have hax : ((clearMode n d).setCmd c { (clearMode n d).cmd c with axes := ((clearMode n d).cmd c).axes.filter (· ≠ n) }).axis k =
        (clearMode n d).axis k := rfl
    rwa [hax, hclear] at hpin

/-- Without a pin the mode ends on its axis alone. -/
theorem endMode_pinless (n : Nat) (d : Dev) (h : (d.axis n).mot.pin = none) : endMode n d = clearMode n d := by
  rw [endMode_eq, h]

/-! ## START on one axis (R230 to R232) -/

/-- An alignment that is not needed: the axis holds in FIELD. -/
def startKnown (a n : Nat) (d : Dev) : Dev :=
  ((endMode n d).modAxis n fun y => { y with st := .idle, cmd := .field }).endAct a n .ok 1

/-- An alignment alone. -/
def startAlign (x : Desc) (a n : Nat) (d : Dev) : Dev :=
  beginSeq n ⟨0, x.opflag 2, true, false, false⟩ (enter n .none 0 (some a) d)

/-- A start into velocity mode. -/
def startVelocity (x : Desc) (a n : Nat) (d : Dev) : Dev :=
  (goVelocity (some a) x.w2.toInt n d).modAxis n fun y => { y with seq := some ⟨sgn x.w2.toInt, x.opflag 2, false, false, false⟩ }

theorem startAxis_eq (x : Desc) (a n : Nat) (d : Dev) : startAxis x a n d =
    if x.opflag 0 then (if (d.axis n).lat.known && !x.opflag 2 then startKnown a n d else startAlign x a n d)
    else startVelocity x a n d := rfl

theorem startKnown_drive (a n : Nat) (d : Dev) : d.driveOnly (startKnown a n d) :=
  ((endMode_drive n d).trans (motionOnly_modAxis _ n _).acts.drive).trans (endAct_motionActs [] _ a n _ _).drive

theorem startAlign_motion (x : Desc) (a n : Nat) (d : Dev) : motionOnly [n] d (startAlign x a n d) :=
  (enter_motion n .none 0 (some a) d).trans (beginSeq_motion n _ _)

theorem startVelocity_motion (x : Desc) (a n : Nat) (d : Dev) : motionOnly [n] d (startVelocity x a n d) :=
  (goVelocity_motion (some a) _ n d).trans (motionOnly_modAxis _ n _)

theorem startAxis_drive (x : Desc) (a n : Nat) (d : Dev) : d.driveOnly (startAxis x a n d) := by
  rw [startAxis_eq]
  split
  · split
    · exact startKnown_drive a n d
    · exact (startAlign_motion x a n d).acts.drive
  · exact (startVelocity_motion x a n d).acts.drive

theorem axis_startKnown (a n : Nat) (d : Dev) (hst : (d.axis n).st ≠ .moving) :
    (startKnown a n d).axis n = { d.axis n with st := .idle, cmd := .field, mot := modeless (d.axis n).mot } := by
  unfold startKnown
  rw [axis_endAct, axis_modAxis, axis_endMode n d hst]

theorem axis_startAlign (x : Desc) (a n : Nat) (d : Dev) :
    (startAlign x a n d).axis n = sequenced ⟨0, x.opflag 2, true, false, false⟩ (entered .none 0 (some a) (d.axis n)) := by
  unfold startAlign
  rw [axis_beginSeq, axis_enter_none]

/-- A sensorless axis that enters a mode of motion waits for its start sequence. -/
theorem axis_enter_sensorless (n : Nat) (mode : Mode) (dir : Int) (act : Option Nat) (d : Dev) (hs : d.sensorless n = true)
    (hm : mode ≠ .none) :
    (enter n mode dir act d).axis n = sequenced ⟨dir, false, false, false, false⟩ (entered mode dir act (d.axis n)) := by
  have hsl : ((signResume n d).modAxis n (entered mode dir act)).sensorless n = true := by
    have h := (signResume_motion n d).trans (motionOnly_modAxis (signResume n d) n (entered mode dir act))
    unfold sensorless at hs ⊢
    rw [cfg_congr h.force, hs]
  rw [enter_eq]
  dsimp only
  rw [if_pos (by rw [hsl, decide_eq_true hm]; rfl), axis_beginSeq, axis_modAxis, axis_signResume]

/-- A start into velocity mode on a sensorless axis. -/
theorem axis_startVelocity (x : Desc) (a n : Nat) (d : Dev) (hs : d.sensorless n = true) :
    ((startVelocity x a n d).axis n).st = .moving ∧ ((startVelocity x a n d).axis n).mot.mode = .velocity ∧
      ((startVelocity x a n d).axis n).mot.cmd = x.w2.toInt ∧ ((startVelocity x a n d).axis n).mot.wait = true ∧
      ((startVelocity x a n d).axis n).cmd = .openloop ∧ ((startVelocity x a n d).axis n).mot.act = some a ∧
      ((startVelocity x a n d).axis n).seq = some ⟨sgn x.w2.toInt, x.opflag 2, false, false, false⟩ := by
  have hp : (settleP n d).sensorless n = true := by
    unfold sensorless at hs ⊢
    rw [cfg_congr (settleP_motion n d).force, hs]
  have hent := axis_enter_sensorless n .velocity (sgn x.w2.toInt) (some a) (settleP n d) hp (by decide)
  have hsl (f : Motion → Motion) : ((enter n .velocity (sgn x.w2.toInt) (some a) (settleP n d)).modMot n f).sensorless n = true := by
    unfold sensorless at hp ⊢
    rw [cfg_congr ((enter_motion n .velocity (sgn x.w2.toInt) (some a) (settleP n d)).trans (motionOnly_modMot _ n f)).force, hp]
  unfold startVelocity
  rw [axis_modAxis, goVelocity_eq]
  dsimp only
  rw [enterOrBrake_sensorless _ _ _ (hsl _), modMot, axis_modAxis, hent]
  exact ⟨rfl, rfl, rfl, rfl, rfl, rfl, rfl⟩

theorem axis_startAxis_around (x : Desc) (a : Nat) (d : Dev) {n k : Nat} (h : k ≠ n) :
    pinStopped (d.axis k) ((startAxis x a n d).axis k) := by
  have hk : k ∉ [n] := fun hm => h (List.mem_singleton.mp hm)
  rw [startAxis_eq]
  split
  · split
    · unfold startKnown
      rw [axis_endAct, axis_modAxis_other _ _ h]
      exact axis_endMode_around d h
    · rw [(startAlign_motion x a n d).other k hk]
      exact pinStopped_refl _
  · rw [(startVelocity_motion x a n d).other k hk]
    exact pinStopped_refl _

theorem axis_startAxis_other (x : Desc) (a : Nat) (d : Dev) {n k : Nat} (hpin : (d.axis n).mot.pin = none) (h : k ≠ n) :
    (startAxis x a n d).axis k = d.axis k := by
  have hk : k ∉ [n] := fun hm => h (List.mem_singleton.mp hm)
  rw [startAxis_eq]
  split
  · split
    · unfold startKnown
      rw [axis_endAct, axis_modAxis_other _ _ h, endMode_pinless n d hpin]
      exact (clearMode_motion n d).other k hk
    · exact (startAlign_motion x a n d).other k hk
  · exact (startVelocity_motion x a n d).other k hk

theorem pin_startAxis (x : Desc) (a n : Nat) (d : Dev) (hpin : (d.axis n).mot.pin = none) :
    ((startAxis x a n d).axis n).mot.pin = none := by
  rw [startAxis_eq]
  split
  · split
    · unfold startKnown
      rw [axis_endAct, axis_modAxis, endMode_pinless n d hpin, axis_clearMode]
      rfl
    · rw [axis_startAlign]
      exact hpin
  · unfold startVelocity
    rw [axis_modAxis, goVelocity_eq]
    dsimp only
    rw [axis_enterOrBrake, modMot, axis_modAxis]
    obtain h | h := axis_enter n .velocity (sgn x.w2.toInt) (some a) (settleP n d)
    · rw [h, axis_settleP]
      exact hpin
    · rw [h, axis_settleP]
      exact hpin

/-! ## START in dispatch -/

/-- A leaf that passes the checks of START is sensorless and does not move (R231). -/
theorem startCheck_passes (x : Desc) (d : Dev) (n : Nat) (h : startCheck x d n = none) :
    d.sensorless n = true ∧ (d.axis n).st ≠ .moving := by
  unfold startCheck at h
  dsimp only at h
  split at h
  · cases h
  case isFalse hs =>
    split at h
    · cases h
    case isFalse hst =>
      refine ⟨?_, fun hm => hst (by rw [hm]; decide)⟩
      cases hsl : d.sensorless n with
      | true => rfl
      | false => exact absurd (by rw [hsl]; rfl) hs

theorem axisFails_nil (axes : List Nat) (chk : Nat → Option (Status × Nat)) (h : axisFails axes chk = []) (n : Nat) (hn : n ∈ axes) :
    chk n = none :=
  Option.map_eq_none_iff.mp (List.filterMap_eq_nil_iff.mp h n hn)

theorem startCheck_taken (d : Dev) (i : Nat) (slot : BitVec 16) (x y : Desc) : startCheck y (d.taken i slot x) = startCheck y d := by
  funext n
  rfl

theorem dispatch_start (d : Dev) (i : Nat) (slot : BitVec 16) (y : Desc) (hadm : d.admits .start i y)
    (hpass : axisFails (d.leaves y.unit) (startCheck y d) = []) :
    dispatch .start i slot y opStart d = each (d.leaves y.unit) (startAxis y d.acts.next)
      (opened (d.ctxOf .start i slot y) (d.leaves y.unit) (d.taken i slot y)) := by
  have hop (c : Ctx) (t : Dev) (h : axisFails (t.leaves c.x.unit) (startCheck c.x t) = []) :
      opStart c t = each (t.leaves c.x.unit) (startAxis c.x t.acts.next) (opened c (t.leaves c.x.unit) t) := by
    unfold opStart
    dsimp only
    rw [h, ← act_opened c (t.leaves c.x.unit) t]
    rfl
  rw [dispatch_admits _ _ _ _ _ _ hadm]
  exact hop (d.ctxOf .start i slot y) (d.taken i slot y) (by rw [startCheck_taken]; exact hpass)

end Sys2Proof.Machine.Dev

namespace Sys2Proof.Machine

theorem exec_start (s : State) (i : Fin 128) (slot : BitVec 16) (x : Desc) :
    exec (.start i slot x) s = s.onDev (Dev.dispatch .start i slot (withOpcode .start x) Dev.opStart) := rfl

/-- Settles O21: each leaf begins its sequence in its turn; only an alignment that is not needed ends a mode, with its pin. -/
theorem startBeginsSequence : Obligations.StartBeginsSequence := by
  intro s i slot x y hy hadm hpass
  have hdev := s.dev.dispatch_start i slot y hadm hpass
  have hchk := fun n hn => Dev.startCheck_passes y s.dev n (Dev.axisFails_nil _ _ hpass n hn)
  have hnodup := nodup_bitsSet 64 (s.dev.unit y.unit).leaf.toNat
  generalize hu : Dev.opened (s.dev.ctxOf .start i slot y) (s.dev.leaves y.unit) (s.dev.taken i slot y) = u at hdev
  have hax : ∀ n, u.axis n = s.dev.axis n := fun n => by rw [← hu]; exact Dev.axis_opened _ _ _ n
  have hforce : u.regs.force = s.dev.regs.force := by rw [← hu, Dev.force_opened, Dev.taken_frame]
  obtain ⟨hslot, hframe⟩ := s.dev.drives_opened _ .start i slot y (s.dev.leaves y.unit) (by
    rw [hu]; exact Dev.driveOnly_each (Dev.startAxis y s.dev.acts.next) (s.dev.leaves y.unit) u fun n t => Dev.startAxis_drive y _ n t)
  obtain ⟨hout, hin⟩ := Dev.axis_each_around (fun _ => True) Dev.pinStopped Dev.pinStopped_refl Dev.pinStopped.trans
    (Dev.startAxis y s.dev.acts.next) (s.dev.leaves y.unit) hnodup u trivial (fun _ _ _ _ => trivial)
    (fun n _ t _ k hk => Dev.axis_startAxis_around y _ t hk)
  have hnopin (hpin : ∀ k ∈ s.dev.leaves y.unit, (s.dev.axis k).mot.pin = none) :=
    Dev.axis_each_pinless (fun _ => True) (Dev.startAxis y s.dev.acts.next) (s.dev.leaves y.unit) hnodup u
      (fun k hk => by rw [hax]; exact hpin k hk) trivial (fun _ _ _ => trivial)
      (fun n t h => Dev.pin_startAxis y _ n t h) (fun n t k h hk => Dev.axis_startAxis_other y _ t h hk)
  have hvel (hflag : y.opflag 0 = false) : ∀ n t, Dev.motionOnly [n] t (Dev.startAxis y s.dev.acts.next n t) := fun n t => by
    rw [Dev.startAxis_eq, if_neg (by rw [hflag]; exact Bool.false_ne_true)]
    exact Dev.startVelocity_motion y _ n t
  have hone (hflag : y.opflag 0 = false) := Dev.axis_each (Dev.startAxis y s.dev.acts.next) (s.dev.leaves y.unit) hnodup u (hvel hflag)
  rw [← hdev] at hslot hframe hout hin hnopin hone
  clear hdev
  generalize hd : Dev.dispatch .start i slot y Dev.opStart s.dev = d at hslot hframe hout hin hnopin hone
  refine ⟨d, ?_, hslot, fun n hn => ⟨fun hflag => ?_, fun hflag hnew hpin => ?_, fun hflag hknown hnew => ?_⟩, fun n hn h => ?_, hframe⟩
  · rw [exec_start, ← hy]
    exact s.onDev_eq hd
  · obtain ⟨t, ht, -, hend⟩ := hone hflag n hn
    have hsl : t.sensorless n = true := (Dev.sameSensing_of_force (ht.force.trans hforce) n).trans (hchk n hn).1
    rw [hend, Dev.startAxis_eq, if_neg (by rw [hflag]; exact Bool.false_ne_true)]
    exact Dev.axis_startVelocity y _ n t hsl
  · obtain ⟨-, hin⟩ := hnopin hpin
    obtain ⟨t, -, hsame, hend⟩ := hin n hn
    rw [hax] at hsame
    have hneed : ((t.axis n).lat.known && !y.opflag 2) ≠ true := by
      rw [hsame]
      obtain h | h := hnew
      · rw [h]; exact Bool.false_ne_true
      · rw [h, Bool.not_true, Bool.and_false]; exact Bool.false_ne_true
    rw [hend, Dev.startAxis_eq, if_pos hflag, if_neg hneed, Dev.axis_startAlign]
    exact ⟨rfl, rfl, rfl, rfl⟩
  · obtain ⟨t, -, hbefore, hafter⟩ := hin n hn
    rw [hax] at hbefore
    have hst := (hchk n hn).2
    have hsame := hbefore.still hst
    rw [Dev.startAxis_eq, if_pos hflag, if_pos (by rw [hsame, hknown, hnew]; rfl), Dev.axis_startKnown _ _ _ (by rw [hsame]; exact hst)]
      at hafter
    rw [hafter.still fun h : UState.idle = .moving => nomatch h]
    exact ⟨rfl, rfl⟩
  · obtain hst | hpin := h
    · exact ((hout n hn).still (by rw [hax]; exact hst)).trans (hax n)
    · obtain ⟨hout, -⟩ := hnopin hpin
      exact (hout n hn).trans (hax n)

end Sys2Proof.Machine
end

section
/-! Proofs for AUX_PWM, OFFTEST and CALIBRATE (chapters 7, 9 and 10). -/

namespace Sys2Proof.Machine.Dev

/-! ## AUX_PWM (R282) -/

/-- An axis with a change of its X leg joined to those that wait. -/
def mergedX (c : XCmd) (x : HubAxis) : HubAxis :=
  { x with xduty := some (match x.xduty with
      | none => c
      | some o => { duty := c.duty.orElse fun _ => o.duty, xk := c.xk.orElse fun _ => o.xk }) }

/-- The change of an AUX_PWM on every axis of its target, where it changes anything. -/
def auxMerge (x : Desc) (d : Dev) : Dev :=
  if x.opflag 1 && !x.opflag 0 then d else each (d.leaves x.unit) (fun n d => d.modAxis n (mergedX (auxSet x))) d

theorem auxMerge_frame (x : Desc) (d : Dev) : auxMerge x d = { d with hax := (auxMerge x d).hax } := by
  unfold auxMerge
  split
  · rfl
  · exact each_modAxis_frame _ _ d

theorem axis_auxMerge_other (x : Desc) (d : Dev) (n : Nat) (h : n ∉ d.leaves x.unit) : (auxMerge x d).axis n = d.axis n := by
  unfold auxMerge
  split
  · rfl
  · rw [axis_each_modAxis _ (d.leaves x.unit) (nodup_bitsSet 64 _), if_neg h]

/-- Each axis of the target carries the change of the AUX_PWM. -/
theorem axis_auxMerge (x : Desc) (d : Dev) (n : Nat) (hn : n ∈ d.leaves x.unit) :
    (x.opflag 1 = false → (((auxMerge x d).axis n).xduty.bind (·.duty)) = some (BitVec.ofNat 16 (bits x.w2 0 16))) ∧
      (x.opflag 0 = true → (((auxMerge x d).axis n).xduty.bind (·.xk)) = some (BitVec.ofNat 4 (bits x.w2 16 4))) ∧
      (auxMerge x d).axis n = { d.axis n with xduty := ((auxMerge x d).axis n).xduty } := by
  unfold auxMerge
  split
  case isTrue h =>
    obtain ⟨h1, h0⟩ := Bool.and_eq_true_iff.mp h
    exact ⟨fun h => absurd (h1.symm.trans h) (by decide), fun h => absurd h ((Bool.not_eq_true' _ |>.mp h0).symm ▸ Bool.false_ne_true), rfl⟩
  case isFalse =>
    rw [axis_each_modAxis _ (d.leaves x.unit) (nodup_bitsSet 64 _), if_pos hn]
    refine ⟨fun h => ?_, fun h => ?_, rfl⟩
    · unfold mergedX auxSet
      rw [h]
      cases (d.axis n).xduty <;> rfl
    · unfold mergedX auxSet
      rw [h]
      cases (d.axis n).xduty <;> rfl

theorem dispatch_aux (d : Dev) (i : Nat) (slot : BitVec 16) (y : Desc) (hadm : d.admits .auxPwm i y)
    (hpass : axisFails (d.leaves y.unit) (auxCheck y d) = []) : ∃ w, dispatch .auxPwm i slot y opAuxPwm d =
      (auxMerge y (d.taken i slot y)).finish (d.ownerOf i slot y) .ok (recUnit .auxPwm y) w := by
  have hop (c : Ctx) (t : Dev) (h : axisFails (t.leaves c.x.unit) (auxCheck c.x t) = []) :
      ∃ w, opAuxPwm c t = c.okAxes w (auxMerge c.x t) := by
    unfold opAuxPwm
    dsimp only
    rw [h]
    exact ⟨_, rfl⟩
  obtain ⟨w, hw⟩ := hop (d.ctxOf .auxPwm i slot y) (d.taken i slot y) hpass
  rw [dispatch_admits _ _ _ _ _ _ hadm]
  obtain ⟨r, hr⟩ := okAxes_eq (d.ctxOf .auxPwm i slot y) w (auxMerge y (d.taken i slot y))
  exact ⟨r, hw.trans hr⟩

/-! ## OFFTEST (R317) -/

theorem offtAsk_frame (a : Nat) (skip : Bool) (n : Nat) (d : Dev) :
    offtAsk a skip n d = { d with hax := (offtAsk a skip n d).hax, mvax := (offtAsk a skip n d).mvax } := rfl

theorem axis_offtAsk (a : Nat) (skip : Bool) (n : Nat) (d : Dev) : ((offtAsk a skip n d).axis n).test = some a := by
  show (((d.modAxis n fun y => { y with test := some a })).axis n).test = some a
  rw [axis_modAxis]

theorem axis_offtAsk_other (a : Nat) (skip : Bool) (d : Dev) {n k : Nat} (h : k ≠ n) : (offtAsk a skip n d).axis k = d.axis k := by
  show (d.modAxis n fun y => { y with test := some a }).axis k = d.axis k
  rw [axis_modAxis_other _ _ h]

theorem mva_offtAsk (a : Nat) (skip : Bool) (n : Nat) (d : Dev) :
    ((offtAsk a skip n d).mva n).offt = some false ∧ ((offtAsk a skip n d).mva n).offtSkip = skip := by
  unfold offtAsk
  rw [mva_modMva]
  exact ⟨rfl, rfl⟩

theorem mva_offtAsk_other (a : Nat) (skip : Bool) (d : Dev) {n k : Nat} (h : k ≠ n) : (offtAsk a skip n d).mva k = d.mva k := by
  unfold offtAsk
  rw [mva_modMva_other _ _ h]
  rfl

theorem each_offtAsk_frame (a : Nat) (skip : Bool) (l : List Nat) (d : Dev) :
    each l (offtAsk a skip) d = { d with hax := (each l (offtAsk a skip) d).hax, mvax := (each l (offtAsk a skip) d).mvax } :=
  each_keeps (fun t => t = { d with hax := t.hax, mvax := t.mvax }) _ l d
    (fun n _ t ht => (offtAsk_frame a skip n t).trans (by rw [ht])) rfl

/-- Each axis of the target has its test asked for. -/
theorem each_offtAsk (a : Nat) (skip : Bool) (l : List Nat) (d : Dev) (n : Nat) (hn : n ∈ l) :
    ((each l (offtAsk a skip) d).mva n).offt = some false ∧ ((each l (offtAsk a skip) d).mva n).offtSkip = skip ∧
      ((each l (offtAsk a skip) d).axis n).test = some a := by
  refine each_does (fun t => (t.mva n).offt = some false ∧ (t.mva n).offtSkip = skip ∧ (t.axis n).test = some a) _ l d n hn
    (fun t => ?_) fun m _ hm t ht => ?_
  · obtain ⟨hofft, hskip⟩ := mva_offtAsk a skip n t
    exact ⟨hofft, hskip, axis_offtAsk a skip n t⟩
  · rw [mva_offtAsk_other a skip t hm.symm, axis_offtAsk_other a skip t hm.symm]
    exact ht

theorem each_offtAsk_other (a : Nat) (skip : Bool) (l : List Nat) (d : Dev) (n : Nat) (hn : n ∉ l) :
    (each l (offtAsk a skip) d).axis n = d.axis n ∧ (each l (offtAsk a skip) d).mva n = d.mva n :=
  each_keeps (fun t => t.axis n = d.axis n ∧ t.mva n = d.mva n) _ l d (fun m hm t ht => by
    have h : n ≠ m := fun h => hn (h ▸ hm)
    rw [axis_offtAsk_other a skip t h, mva_offtAsk_other a skip t h]
    exact ht) ⟨rfl, rfl⟩

theorem dispatch_offtest (d : Dev) (i : Nat) (slot : BitVec 16) (y : Desc) (hadm : d.admits .offtest i y)
    (hpass : axisFails (d.leaves y.unit) d.offtCheck = []) :
    dispatch .offtest i slot y opOfftest d = each (d.leaves y.unit) (offtAsk d.acts.next (y.opflag 0))
      (opened (d.ctxOf .offtest i slot y) (d.leaves y.unit) (d.taken i slot y)) := by
  have hop (c : Ctx) (t : Dev) (h : axisFails (t.leaves c.x.unit) t.offtCheck = []) :
      opOfftest c t = each (t.leaves c.x.unit) (offtAsk t.acts.next (c.x.opflag 0)) (opened c (t.leaves c.x.unit) t) := by
    unfold opOfftest
    dsimp only
    rw [h, ← act_opened c (t.leaves c.x.unit) t]
    rfl
  have hchk : (d.taken i slot y).offtCheck = d.offtCheck := by
    funext n
    rfl
  rw [dispatch_admits _ _ _ _ _ _ hadm]
  exact hop (d.ctxOf .offtest i slot y) (d.taken i slot y) (by rw [hchk]; exact hpass)

/-! ## CALIBRATE (R256 to R258) -/

/-- The start of a calibration that a CALIBRATE leaves in its movement. -/
def calAsked (c : Option Bool) : Option Bool := c.orElse fun _ => some false

theorem calAsked_calAsked (c : Option Bool) : calAsked (calAsked c) = calAsked c := by cases c <;> rfl

theorem calJoin_frame (a n : Nat) (d : Dev) :
    calJoin a n d = { d with mvs := (calJoin a n d).mvs, regs := { d.regs with hw := (calJoin a n d).regs.hw } } := rfl

theorem cal_calJoin (a n : Nat) (d : Dev) : ((calJoin a n d).mv (n / 8)).cal = calAsked (d.mv (n / 8)).cal := by
  unfold calJoin
  rw [mv_modMv_same]
  rfl

theorem mv_calJoin_other (a n : Nat) (d : Dev) {m : Nat} (h : m ≠ n / 8) : (calJoin a n d).mv m = d.mv m := by
  unfold calJoin
  rw [mv_modMv_other _ _ h]
  rfl

theorem hw_calJoin (a n : Nat) (d : Dev) (g : Fld) (m : Nat) :
    (calJoin a n d).hw g m = (d.setHw Fl.isenseCalStatusDone (n / 8) 0).hw g m := rfl

theorem done_calJoin (a n k : Nat) (d : Dev) (h : k / 8 = n / 8 ∨ d.hw Fl.isenseCalStatusDone (k / 8) = 0) :
    (calJoin a n d).hw Fl.isenseCalStatusDone (k / 8) = 0 := by
  rw [hw_calJoin]
  by_cases hk : k / 8 = n / 8
  · rw [hk, hw_setHw_same _ _ _ _ (by decide)]
    rfl
  · rw [hw_setHw_reg _ _ _ _ _ _ (by simp only [Reg.offset, Reg.place]; omega)]
    exact h.resolve_left hk

theorem each_calJoin_frame (a : Nat) (l : List Nat) (d : Dev) :
    each l (calJoin a) d = { d with mvs := (each l (calJoin a) d).mvs, regs := { d.regs with hw := (each l (calJoin a) d).regs.hw } } :=
  each_keeps (fun t => t = { d with mvs := t.mvs, regs := { d.regs with hw := t.regs.hw } }) _ l d
    (fun n _ t ht => (calJoin_frame a n t).trans (by rw [ht])) rfl

/-- The movement of each axis of the target has a calibration asked for, or keeps the one that runs. -/
theorem each_calJoin (a : Nat) (l : List Nat) (d : Dev) (n : Nat) (hn : n ∈ l) :
    (each l (calJoin a) d).hw Fl.isenseCalStatusDone (n / 8) = 0 ∧ ((each l (calJoin a) d).mv (n / 8)).cal = calAsked (d.mv (n / 8)).cal := by
  have hone (k : Nat) (t : Dev) : calAsked ((calJoin a k t).mv (n / 8)).cal = calAsked (t.mv (n / 8)).cal := by
    by_cases h : n / 8 = k / 8
    · rw [h, cal_calJoin, calAsked_calAsked]
    · rw [mv_calJoin_other a k t h]
  have hasked : calAsked ((each l (calJoin a) d).mv (n / 8)).cal = calAsked (d.mv (n / 8)).cal :=
    each_keeps (fun t => calAsked (t.mv (n / 8)).cal = calAsked (d.mv (n / 8)).cal) _ l d (fun k _ t ht => (hone k t).trans ht) rfl
  obtain ⟨hdone, hset⟩ := each_does (fun t => t.hw Fl.isenseCalStatusDone (n / 8) = 0 ∧ calAsked (t.mv (n / 8)).cal = (t.mv (n / 8)).cal)
    (calJoin a) l d n hn (fun t => ⟨done_calJoin a n n t (Or.inl rfl), by rw [cal_calJoin, calAsked_calAsked]⟩) fun k _ _ t ht => by
      refine ⟨done_calJoin a k n t (Or.inr ht.1), ?_⟩
      by_cases h : n / 8 = k / 8
      · rw [h, cal_calJoin, calAsked_calAsked]
      · rw [mv_calJoin_other a k t h]
        exact ht.2
  exact ⟨hdone, hset.symm.trans hasked⟩

theorem each_calJoin_other (a : Nat) (l : List Nat) (d : Dev) (m : Nat) (hm : ∀ n ∈ l, n / 8 ≠ m) :
    (each l (calJoin a) d).mv m = d.mv m :=
  each_keeps (fun t => t.mv m = d.mv m) _ l d (fun n hn t ht => (mv_calJoin_other a n t (hm n hn).symm).trans ht) rfl

theorem dispatch_calibrate (d : Dev) (i : Nat) (slot : BitVec 16) (y : Desc) (hadm : d.admits .calibrate i y)
    (hpass : axisFails (d.leaves y.unit) d.calCheck = []) :
    dispatch .calibrate i slot y opCalibrate d = each (d.leaves y.unit) (calJoin d.acts.next)
      (opened (d.ctxOf .calibrate i slot y) (d.leaves y.unit) (d.taken i slot y)) := by
  have hop (c : Ctx) (t : Dev) (h : axisFails (t.leaves c.x.unit) t.calCheck = []) :
      opCalibrate c t = each (t.leaves c.x.unit) (calJoin t.acts.next) (opened c (t.leaves c.x.unit) t) := by
    unfold opCalibrate
    dsimp only
    rw [h, ← act_opened c (t.leaves c.x.unit) t]
    rfl
  have hchk : (d.taken i slot y).calCheck = d.calCheck := by
    funext n
    rfl
  rw [dispatch_admits _ _ _ _ _ _ hadm]
  exact hop (d.ctxOf .calibrate i slot y) (d.taken i slot y) (by rw [hchk]; exact hpass)

/-- The slot of a descriptor that has opened its action is returned. -/
theorem slotTaken_opened (d t : Dev) (o : Op) (i : Nat) (slot : BitVec 16) (x : Desc) (l : List Nat)
    (h : t.hif = (opened (d.ctxOf o i slot x) l (d.taken i slot x)).hif) : d.slotTaken t i slot := by
  obtain ⟨⟨hone, hother⟩, -⟩ := d.acts_opened _ o i slot x [] l (motionOnly_refl [] _)
  unfold slotTaken sq
  rw [h]
  exact ⟨hone, hother⟩

/-- The block with an action open, beside the descriptor's rings. -/
theorem opened_taken_frame (d : Dev) (o : Op) (i : Nat) (slot : BitVec 16) (x : Desc) (l : List Nat) :
    opened (d.ctxOf o i slot x) l (d.taken i slot x) =
      { d with hif := (opened (d.ctxOf o i slot x) l (d.taken i slot x)).hif, acts := (opened (d.ctxOf o i slot x) l (d.taken i slot x)).acts,
               regs := { d.regs with hw := (opened (d.ctxOf o i slot x) l (d.taken i slot x)).regs.hw } } := by
  have h := opened_frame (d.ctxOf o i slot x) l (d.taken i slot x)
  generalize opened (d.ctxOf o i slot x) l (d.taken i slot x) = u at h
  rw [h, taken_frame]

end Sys2Proof.Machine.Dev

namespace Sys2Proof.Machine

theorem exec_auxPwm (s : State) (i : Fin 128) (slot : BitVec 16) (x : Desc) :
    exec (.auxPwm i slot x) s = s.onDev (Dev.dispatch .auxPwm i slot (withOpcode .auxPwm x) Dev.opAuxPwm) := rfl
theorem exec_offtest (s : State) (i : Fin 128) (slot : BitVec 16) (x : Desc) :
    exec (.offtest i slot x) s = s.onDev (Dev.dispatch .offtest i slot (withOpcode .offtest x) Dev.opOfftest) := rfl
theorem exec_calibrate (s : State) (i : Fin 128) (slot : BitVec 16) (x : Desc) :
    exec (.calibrate i slot x) s = s.onDev (Dev.dispatch .calibrate i slot (withOpcode .calibrate x) Dev.opCalibrate) := rfl

/-- An admitted AUX_PWM whose checks pass. -/
theorem exec_auxPwm_admitted (s : State) (i : Fin 128) (slot : BitVec 16) (x y : Desc) (hy : y = withOpcode .auxPwm x)
    (hadm : s.dev.admits .auxPwm i y) (hpass : axisFails (s.dev.leaves y.unit) (Dev.auxCheck y s.dev) = []) :
    ∃ d, exec (.auxPwm i slot x) s = .next { s with dev := d } ∧ s.dev.slotTaken d i slot ∧
      (∀ n ∈ s.dev.leaves y.unit,
        (y.opflag 1 = false → ((d.axis n).xduty.bind (·.duty)) = some (BitVec.ofNat 16 (bits y.w2 0 16))) ∧
        (y.opflag 0 = true → ((d.axis n).xduty.bind (·.xk)) = some (BitVec.ofNat 4 (bits y.w2 16 4))) ∧
        d.axis n = { s.dev.axis n with xduty := (d.axis n).xduty }) ∧
      (∀ n, n ∉ s.dev.leaves y.unit → d.axis n = s.dev.axis n) ∧
      d = { s.dev with hif := d.hif, hax := d.hax, regs := d.regs } := by
  obtain ⟨w, hdev⟩ := s.dev.dispatch_aux i slot y hadm hpass
  have hmerge := Dev.auxMerge_frame y (s.dev.taken i slot y)
  have hin := Dev.axis_auxMerge y (s.dev.taken i slot y)
  have hout := Dev.axis_auxMerge_other y (s.dev.taken i slot y)
  have hfin := Dev.finish_hax (s.dev.taken i slot y) (s.dev.ownerOf i slot y) .ok (Dev.recUnit .auxPwm y) w
    (Dev.auxMerge y (s.dev.taken i slot y)).hax
  have hslot := s.dev.slotTaken_finish_taken i slot y .ok (Dev.recUnit .auxPwm y) w
  have hframe := s.dev.finish_taken_frame i slot y .ok (Dev.recUnit .auxPwm y) w
  rw [← hmerge, ← hdev] at hfin
  clear hdev hmerge
  have hleaves : (s.dev.taken i slot y).leaves y.unit = s.dev.leaves y.unit := rfl
  have htax : ∀ n, (s.dev.taken i slot y).axis n = s.dev.axis n := fun _ => rfl
  rw [hleaves] at hin hout
  generalize hd : Dev.dispatch .auxPwm i slot y Dev.opAuxPwm s.dev = d at hfin
  have hax : ∀ n, d.axis n = (Dev.auxMerge y (s.dev.taken i slot y)).axis n := fun n => by rw [hfin]; rfl
  refine ⟨d, ?_, ?_, fun n hn => ?_, fun n hn => ?_, ?_⟩
  · rw [exec_auxPwm, ← hy]
    exact s.onDev_eq hd
  · rw [hfin]
    exact hslot
  · have h := hin n hn
    rw [htax, ← hax] at h
    exact h
  · rw [hax, hout n hn, htax]
  · rw [hfin, hframe]

/-- An admitted OFFTEST whose checks pass. -/
theorem exec_offtest_admitted (s : State) (i : Fin 128) (slot : BitVec 16) (x y : Desc) (hy : y = withOpcode .offtest x)
    (hadm : s.dev.admits .offtest i y) (hpass : axisFails (s.dev.leaves y.unit) s.dev.offtCheck = []) :
    ∃ d, exec (.offtest i slot x) s = .next { s with dev := d } ∧ s.dev.slotTaken d i slot ∧
      (∀ n ∈ s.dev.leaves y.unit, (d.mva n).offt = some false ∧ (d.mva n).offtSkip = y.opflag 0 ∧
        (d.axis n).test = some s.dev.acts.next) ∧
      s.dev.axesBut d (s.dev.leaves y.unit) ∧
      d = { s.dev with hif := d.hif, acts := d.acts, hax := d.hax, mvax := d.mvax, regs := d.regs } := by
  have hdev := s.dev.dispatch_offtest i slot y hadm hpass
  have hframe := Dev.each_offtAsk_frame s.dev.acts.next (y.opflag 0) (s.dev.leaves y.unit)
    (Dev.opened (s.dev.ctxOf .offtest i slot y) (s.dev.leaves y.unit) (s.dev.taken i slot y))
  have hin := Dev.each_offtAsk s.dev.acts.next (y.opflag 0) (s.dev.leaves y.unit)
    (Dev.opened (s.dev.ctxOf .offtest i slot y) (s.dev.leaves y.unit) (s.dev.taken i slot y))
  have hout := Dev.each_offtAsk_other s.dev.acts.next (y.opflag 0) (s.dev.leaves y.unit)
    (Dev.opened (s.dev.ctxOf .offtest i slot y) (s.dev.leaves y.unit) (s.dev.taken i slot y))
  have hslot (t : Dev) := s.dev.slotTaken_opened t .offtest i slot y (s.dev.leaves y.unit)
  have hopen := s.dev.opened_taken_frame .offtest i slot y (s.dev.leaves y.unit)
  rw [← hdev] at hframe hin hout
  clear hdev
  generalize hd : Dev.dispatch .offtest i slot y Dev.opOfftest s.dev = d at hframe hin hout
  generalize Dev.opened (s.dev.ctxOf .offtest i slot y) (s.dev.leaves y.unit) (s.dev.taken i slot y) = u at hframe hin hout hslot hopen
  have hax : ∀ n, u.axis n = s.dev.axis n ∧ u.mva n = s.dev.mva n := fun n => by rw [hopen]; exact ⟨rfl, rfl⟩
  refine ⟨d, ?_, hslot d (by rw [hframe]), hin, ⟨fun n hn => ?_, fun n hn => ?_⟩, ?_⟩
  · rw [exec_offtest, ← hy]
    exact s.onDev_eq hd
  · exact (hout n hn).1.trans (hax n).1
  · exact (hout n hn).2.trans (hax n).2
  · rw [hframe, hopen]

/-- An admitted CALIBRATE whose checks pass. -/
theorem exec_calibrate_admitted (s : State) (i : Fin 128) (slot : BitVec 16) (x y : Desc) (hy : y = withOpcode .calibrate x)
    (hadm : s.dev.admits .calibrate i y) (hpass : axisFails (s.dev.leaves y.unit) s.dev.calCheck = []) :
    ∃ d, exec (.calibrate i slot x) s = .next { s with dev := d } ∧ s.dev.slotTaken d i slot ∧
      (∀ n ∈ s.dev.leaves y.unit, d.hw Fl.isenseCalStatusDone (n / 8) = 0 ∧
        (d.mv (n / 8)).cal = (s.dev.mv (n / 8)).cal.orElse fun _ => some false) ∧
      (∀ m, (∀ n ∈ s.dev.leaves y.unit, n / 8 ≠ m) → d.mv m = s.dev.mv m) ∧
      d = { s.dev with hif := d.hif, acts := d.acts, mvs := d.mvs, regs := d.regs } := by
  have hdev := s.dev.dispatch_calibrate i slot y hadm hpass
  have hframe := Dev.each_calJoin_frame s.dev.acts.next (s.dev.leaves y.unit)
    (Dev.opened (s.dev.ctxOf .calibrate i slot y) (s.dev.leaves y.unit) (s.dev.taken i slot y))
  have hin := Dev.each_calJoin s.dev.acts.next (s.dev.leaves y.unit)
    (Dev.opened (s.dev.ctxOf .calibrate i slot y) (s.dev.leaves y.unit) (s.dev.taken i slot y))
  have hout := Dev.each_calJoin_other s.dev.acts.next (s.dev.leaves y.unit)
    (Dev.opened (s.dev.ctxOf .calibrate i slot y) (s.dev.leaves y.unit) (s.dev.taken i slot y))
  have hslot (t : Dev) := s.dev.slotTaken_opened t .calibrate i slot y (s.dev.leaves y.unit)
  have hopen := s.dev.opened_taken_frame .calibrate i slot y (s.dev.leaves y.unit)
  rw [← hdev] at hframe hin hout
  clear hdev
  generalize hd : Dev.dispatch .calibrate i slot y Dev.opCalibrate s.dev = d at hframe hin hout
  generalize Dev.opened (s.dev.ctxOf .calibrate i slot y) (s.dev.leaves y.unit) (s.dev.taken i slot y) = u at hframe hin hout hslot hopen
  have hmv : ∀ m, u.mv m = s.dev.mv m := fun m => by rw [hopen]; rfl
  refine ⟨d, ?_, hslot d (by rw [hframe]), fun n hn => ?_, fun m hm => (hout m hm).trans (hmv m), ?_⟩
  · rw [exec_calibrate, ← hy]
    exact s.onDev_eq hd
  · obtain ⟨hdone, hcal⟩ := hin n hn
    rw [hmv] at hcal
    exact ⟨hdone, hcal⟩
  · rw [hframe, hopen]

/-- Settles O23: each of the three puts its change on every leaf of its target, or on the leaf's movement. -/
theorem testAndAuxDescriptors : Obligations.TestAndAuxDescriptors :=
  ⟨exec_auxPwm_admitted, exec_offtest_admitted, exec_calibrate_admitted⟩

end Sys2Proof.Machine
end

section
/-! Proofs for FENCE (chapter 2). -/

namespace Sys2Proof.Machine.Dev

@[simp] theorem sq_modSq (d : Dev) (i : Nat) (f : Sq → Sq) : (d.modSq i f).sq i = f (d.sq i) := sq_setSq d i _
theorem sq_modSq_other (d : Dev) (f : Sq → Sq) {i j : Nat} (h : j ≠ i) : (d.modSq i f).sq j = d.sq j := sq_setSq_other d _ h
theorem modSq_frame (d : Dev) (i : Nat) (f : Sq → Sq) :
    d.modSq i f = { d with hif := { d.hif with sqs := (d.modSq i f).hif.sqs } } := rfl

/-- The unit that the records of a FENCE name: that of mode 2. -/
theorem recUnit_fence (x : Desc) : recUnit .fence x = if x.fenceMode = 2 then x.unit else 0 := by
  unfold recUnit addressesUnit
  simp only [beq_iff_eq]

/-! ## A FENCE leaves its ring (R67, R68) -/

/-- The block with the FENCE of ring i gone and its slot returned. -/
def fenceGone (i : Nat) (f : Fence) (d : Dev) : Dev := giveSlot i f.slot (d.modSq i fun q => { q with fence := none })

/-- The block with the record of the FENCE produced. -/
def fenceDone (i : Nat) (f : Fence) (st : Status) (d : Dev) : Dev := (fenceGone i f d).finish f.owner st (recUnit .fence f.desc) 0

/-- What the ring of a FENCE that has left takes from its mode and its halt. -/
def afterFence (f : Fence) (st : Status) (q : Sq) : Sq :=
  if st = .ok then (if f.desc.fenceMode = 0 then { q with out := true } else q)
  else if bit f.desc.w2 2 then { q with error := some .fenceHalt, fetched := [], fetchFail := false } else q

theorem sq_fenceGone (i : Nat) (f : Fence) (d : Dev) : (fenceGone i f d).sq i =
    { d.sq i with fence := none, cons := (f.slot.toNat + 1) % 2 ^ (d.sq i).size,
                  fetched := (d.sq i).fetched.filter fun e => e.1 ≠ f.slot.toNat, given := (d.sq i).given + 1 } := by
  unfold fenceGone
  rw [giveSlot_sq, sq_modSq]

theorem sq_fenceGone_other (f : Fence) (d : Dev) {i j : Nat} (h : j ≠ i) : (fenceGone i f d).sq j = d.sq j := by
  unfold fenceGone
  rw [giveSlot_sq_other _ _ h, sq_modSq_other _ _ h]

theorem fenceGone_frame (i : Nat) (f : Fence) (d : Dev) :
    fenceGone i f d = { d with hif := { d.hif with sqs := (fenceGone i f d).hif.sqs, total := d.hif.total + 1 } } := rfl

theorem fenceDone_frame (i : Nat) (f : Fence) (st : Status) (d : Dev) :
    fenceDone i f st d = { d with hif := (fenceDone i f st d).hif, regs := { d.regs with hw := (fenceDone i f st d).regs.hw } } := by
  have h := finish_frame (fenceGone i f d) f.owner st (recUnit .fence f.desc) 0
  unfold fenceDone
  generalize (fenceGone i f d).finish f.owner st (recUnit .fence f.desc) 0 = t at h
  rw [h, fenceGone_frame]

theorem fenceLeave_eq (i : Nat) (f : Fence) (st : Status) (d : Dev) :
    fenceLeave i f st d = fenceDone i f st d ∨ fenceLeave i f st d = (fenceDone i f st d).modSq i (afterFence f st) := by
  have hleave : fenceLeave i f st d =
      if st = .ok then (if f.desc.fenceMode = 0 then (fenceDone i f st d).modSq i fun q => { q with out := true } else fenceDone i f st d)
      else if bit f.desc.w2 2 then
        (fenceDone i f st d).modSq i fun q => { q with error := some .fenceHalt, fetched := [], fetchFail := false }
      else fenceDone i f st d := rfl
  rw [hleave]
  by_cases hst : st = .ok
  · rw [if_pos hst]
    by_cases hm : f.desc.fenceMode = 0
    · have hafter : afterFence f st = fun q => { q with out := true } := by
        funext q
        rw [afterFence, if_pos hst, if_pos hm]
      rw [if_pos hm, hafter]
      exact Or.inr rfl
    · rw [if_neg hm]
      exact Or.inl rfl
  · rw [if_neg hst]
    by_cases hb : bit f.desc.w2 2 = true
    · have hafter : afterFence f st = fun q => { q with error := some .fenceHalt, fetched := [], fetchFail := false } := by
        funext q
        rw [afterFence, if_neg hst, if_pos hb]
      rw [if_pos hb, hafter]
      exact Or.inr rfl
    · rw [if_neg hb]
      exact Or.inl rfl

/-- The ring of a FENCE that has left. -/
theorem sq_fenceLeave (i : Nat) (f : Fence) (st : Status) (d : Dev) :
    (fenceLeave i f st d).sq i = afterFence f st ((fenceGone i f d).sq i) := by
  have hdone : (fenceDone i f st d).sq i = (fenceGone i f d).sq i := finish_sq _ _ _ _ _ _
  unfold fenceLeave
  dsimp only
  unfold afterFence
  split
  · split
    · rw [sq_modSq]
      exact congrArg (fun q : Sq => { q with out := true }) hdone
    · exact hdone
  · split
    · rw [sq_modSq]
      exact congrArg (fun q : Sq => { q with error := some .fenceHalt, fetched := [], fetchFail := false }) hdone
    · exact hdone

theorem sq_fenceLeave_other (f : Fence) (st : Status) (d : Dev) {i j : Nat} (h : j ≠ i) : (fenceLeave i f st d).sq j = d.sq j := by
  have hdone : (fenceDone i f st d).sq j = d.sq j := (finish_sq _ _ _ _ _ _).trans (sq_fenceGone_other f d h)
  obtain he | he := fenceLeave_eq i f st d
  · rw [he, hdone]
  · rw [he, sq_modSq_other _ _ h, hdone]

theorem fenceLeave_frame (i : Nat) (f : Fence) (st : Status) (d : Dev) :
    fenceLeave i f st d = { d with hif := (fenceLeave i f st d).hif, regs := (fenceLeave i f st d).regs } := by
  have hdone := fenceDone_frame i f st d
  obtain he | he := fenceLeave_eq i f st d
  · rw [he]
    generalize fenceDone i f st d = t at hdone
    rw [hdone]
  · rw [he]
    generalize fenceDone i f st d = t at hdone
    rw [modSq_frame, hdone]

/-- An owner with a credit finds its record in its active completion ring. -/
theorem cq_fenceLeave (i : Nat) (f : Fence) (st : Status) (d : Dev) (hc : f.owner.credit = true) (ha : (d.cq f.owner.cq).active = true) :
    ((fenceLeave i f st d).cq f.owner.cq).queue = (d.cq f.owner.cq).queue ++
      [{ d.recOf f.owner .final st (recUnit .fence f.desc) 0 true with hidden := f.owner.silent && st == .ok }] := by
  have hdone : ((fenceDone i f st d).cq f.owner.cq).queue = (d.cq f.owner.cq).queue ++
      [{ d.recOf f.owner .final st (recUnit .fence f.desc) 0 true with hidden := f.owner.silent && st == .ok }] := by
    unfold fenceDone
    rw [finish_credit _ _ _ _ _ (show ((fenceGone i f d).cq f.owner.cq).active = true from ha) hc, cq_setCq]
    rfl
  obtain he | he := fenceLeave_eq i f st d
  · rw [he, hdone]
  · rw [he]
    exact hdone

/-! ## The condition and the timeout -/

/-- The condition of a FENCE does not see the rings. -/
theorem fenceHolds_hif (d : Dev) (h : Hif) (f : Fence) : ({ d with hif := h } : Dev).fenceHolds f = d.fenceHolds f := rfl

/-- The FENCE that x brings up in a slot of ring i. -/
def fenceOf (d : Dev) (i : Nat) (slot : BitVec 16) (x : Desc) : Fence :=
  { slot := slot, desc := x, since := d.time.tick, owner := d.ownerOf i slot x }

theorem bits_lt_four (w : Word) (lo : Nat) : bits w lo 2 < 4 := Nat.mod_lt _ (by decide)

/-- The condition of R67, as the model evaluates it. -/
theorem fenceHolds_iff (d : Dev) (i : Nat) (slot : BitVec 16) (x : Desc) : d.fenceHolds (d.fenceOf i slot x) = true ↔ d.fenceMet i x := by
  have hmode : x.fenceMode < 4 := bits_lt_four x.w2 0
  unfold fenceMet
  obtain h | h | h | h : x.fenceMode = 0 ∨ x.fenceMode = 1 ∨ x.fenceMode = 2 ∨ x.fenceMode = 3 := by omega
  · have hh : d.fenceHolds (d.fenceOf i slot x) = true := by
      unfold fenceHolds fenceOf
      dsimp only
      rw [h]
      rfl
    simp [h, hh]
  · unfold fenceHolds fenceOf
    dsimp only
    rw [h]
    simp [fromRing, ownerOf]
  · have hh : d.fenceHolds (d.fenceOf i slot x) = decide (d.stateOf x.unit ≠ .moving) := by
      unfold fenceHolds fenceOf
      dsimp only
      rw [h]
      rfl
    simp [h, hh]
  · have hh : d.fenceHolds (d.fenceOf i slot x) = decide (0 ≤ (d.tick32 - x.w3).toInt) := by
      unfold fenceHolds fenceOf
      dsimp only
      rw [h]
      rfl
    simp [h, hh]

/-! ## A FENCE comes up -/

/-- The count of the tick less the FENCE that waits. -/
def uncounted (d : Dev) : Dev := { d with hif := { d.hif with total := d.hif.total - 1 } }

theorem uncounted_frame (d : Dev) : d.uncounted = { d with hif := d.uncounted.hif } := rfl

/-- A ring with the FENCE of x at its head: the slot is the device's again. -/
def fencing (d : Dev) (i : Nat) (slot : BitVec 16) (x : Desc) (q : Sq) : Sq :=
  { q with cons := slot.toNat, given := q.given - 1, fence := some (d.fenceOf i slot x) }

/-- The block with the FENCE of x waiting at the head of its ring. -/
def fenceUp (d : Dev) (i : Nat) (slot : BitVec 16) (x : Desc) : Dev :=
  ((d.taken i slot x).modSq i (d.fencing i slot x)).uncounted

theorem fenceUp_frame (d : Dev) (i : Nat) (slot : BitVec 16) (x : Desc) :
    d.fenceUp i slot x = { d with hif := (d.fenceUp i slot x).hif } := by
  unfold fenceUp
  have h := modSq_frame (d.taken i slot x) i (d.fencing i slot x)
  generalize (d.taken i slot x).modSq i (d.fencing i slot x) = u at h
  rw [uncounted_frame, h, taken_frame]

theorem sq_uncounted (d : Dev) (j : Nat) : d.uncounted.sq j = d.sq j := rfl

theorem sq_fenceUp (d : Dev) (i : Nat) (slot : BitVec 16) (x : Desc) : ∃ l g, (d.fenceUp i slot x).sq i =
    { d.sq i with cons := slot.toNat, fence := some (d.fenceOf i slot x), fetched := l, given := g } := by
  unfold fenceUp
  rw [sq_uncounted, sq_modSq, taken, giveSlot_sq, reserve_sq]
  exact ⟨_, _, rfl⟩

theorem sq_fenceUp_other (d : Dev) (slot : BitVec 16) (x : Desc) {i j : Nat} (h : j ≠ i) : (d.fenceUp i slot x).sq j = d.sq j := by
  unfold fenceUp
  rw [sq_uncounted, sq_modSq_other _ _ h, taken, giveSlot_sq_other _ _ h, reserve_sq]

theorem cq_uncounted (d : Dev) (j : Nat) : d.uncounted.cq j = d.cq j := rfl

theorem cq_fenceUp (d : Dev) (i : Nat) (slot : BitVec 16) (x : Desc) (k : Nat) :
    ((d.fenceUp i slot x).cq k).active = (d.cq k).active ∧ ((d.fenceUp i slot x).cq k).queue = (d.cq k).queue := by
  unfold fenceUp
  rw [cq_uncounted, modSq, cq_setSq, taken, giveSlot_cq, reserve_active, reserve_queue]
  exact ⟨rfl, rfl⟩

theorem time_fenceUp (d : Dev) (i : Nat) (slot : BitVec 16) (x : Desc) : (d.fenceUp i slot x).time = d.time := by rw [fenceUp_frame]

theorem dispatch_fence (d : Dev) (i : Nat) (slot : BitVec 16) (x : Desc) (hadm : d.admits .fence i x) :
    dispatch .fence i slot x opFence d = fenceStep i (d.fenceUp i slot x) := dispatch_admits _ _ _ _ _ _ hadm

theorem fenceHolds_fenceUp (d : Dev) (i : Nat) (slot : BitVec 16) (x : Desc) (f : Fence) :
    (d.fenceUp i slot x).fenceHolds f = d.fenceHolds f := by
  rw [fenceUp_frame, fenceHolds_hif]

/-- A FENCE that comes up has waited no tick. -/
theorem fenceTimedOut_fresh (d t : Dev) (i : Nat) (slot : BitVec 16) (x : Desc) (h : t.time = d.time) :
    t.fenceTimedOut (d.fenceOf i slot x) = false := by
  unfold fenceTimedOut fenceOf
  dsimp only
  rw [h, BitVec.sub_self]
  cases bits x.w2 16 16 <;> rfl

theorem fenceRelease_none (i : Nat) (d : Dev) (h : (d.sq i).fence = none) : fenceRelease i d = d := by
  unfold fenceRelease
  rw [h]
theorem fenceTimeout_none (i : Nat) (d : Dev) (h : (d.sq i).fence = none) : fenceTimeout i d = d := by
  unfold fenceTimeout
  rw [h]
theorem fenceRelease_some (i : Nat) (d : Dev) (f : Fence) (h : (d.sq i).fence = some f) :
    fenceRelease i d = if d.fenceHolds f then fenceLeave i f .ok d else d := by
  unfold fenceRelease
  rw [h]
theorem fenceTimeout_some (i : Nat) (d : Dev) (f : Fence) (h : (d.sq i).fence = some f) :
    fenceTimeout i d = if !d.fenceHolds f && d.fenceTimedOut f then fenceLeave i f .fenceTimeout d else d := by
  unfold fenceTimeout
  rw [h]

theorem fence_afterFence (f : Fence) (st : Status) (q : Sq) : (afterFence f st q).fence = q.fence ∧
    (afterFence f st q).cons = q.cons := by
  unfold afterFence
  split
  · split <;> exact ⟨rfl, rfl⟩
  · split <;> exact ⟨rfl, rfl⟩

theorem out_afterFence (f : Fence) (q : Sq) : (afterFence f .ok q).out = (q.out || f.desc.fenceMode == 0) ∧
    (afterFence f .ok q).error = q.error := by
  unfold afterFence
  rw [if_pos rfl]
  split
  case isTrue h => exact ⟨by rw [h, beq_self_eq_true, Bool.or_true], rfl⟩
  case isFalse h => exact ⟨by rw [beq_eq_false_iff_ne.mpr h, Bool.or_false], rfl⟩

theorem error_afterFence (f : Fence) (q : Sq) :
    (afterFence f .fenceTimeout q).error = if bit f.desc.w2 2 then some .fenceHalt else q.error := by
  unfold afterFence
  rw [if_neg (by decide)]
  split <;> rfl

end Sys2Proof.Machine.Dev

namespace Sys2Proof.Machine

theorem exec_fence (s : State) (i : Fin 128) (slot : BitVec 16) (x : Desc) :
    exec (.fence i slot x) s = s.onDev (Dev.dispatch .fence i slot (withOpcode .fence x) Dev.opFence) := rfl
theorem exec_fenceRelease (s : State) (i : Fin 128) : exec (.fenceRelease i) s = s.onDev (Dev.fenceRelease i) := rfl
theorem exec_fenceTimeout (s : State) (i : Fin 128) : exec (.fenceTimeout i) s = s.onDev (Dev.fenceTimeout i) := rfl

/-- An admitted FENCE whose condition holds completes at once. -/
theorem exec_fence_met (s : State) (i : Fin 128) (slot : BitVec 16) (x y : Desc) (hy : y = withOpcode .fence x)
    (hadm : s.dev.admits .fence i y) (hmet : s.dev.fenceMet i y) :
    ∃ d, exec (.fence i slot x) s = .next { s with dev := d } ∧ (d.sq i).fence = none ∧
      (d.sq i).cons = (slot.toNat + 1) % 2 ^ (s.dev.sq i).size ∧ (d.sq i).out = ((s.dev.sq i).out || y.fenceMode == 0) ∧
      (s.dev.recorded i y → s.dev.recordAdded d i y (s.dev.finalOf i slot y .ok (if y.fenceMode = 2 then y.unit else 0) 0)) ∧
      (∀ j, j ≠ i.val → d.sq j = s.dev.sq j) ∧ d = { s.dev with hif := d.hif, regs := d.regs } := by
  have hholds := (s.dev.fenceHolds_fenceUp i slot y _).trans ((s.dev.fenceHolds_iff i slot y).mpr hmet)
  obtain ⟨l, g, hsq⟩ := s.dev.sq_fenceUp i slot y
  have hother := fun j (h : j ≠ i.val) => s.dev.sq_fenceUp_other slot y h
  have hcq := s.dev.cq_fenceUp i slot y
  have hframe := s.dev.fenceUp_frame i slot y
  have htick : (s.dev.fenceUp i slot y).tick32 = s.dev.tick32 := by rw [Dev.tick32, s.dev.time_fenceUp i slot y]; rfl
  have hdev := s.dev.dispatch_fence i slot y hadm
  generalize s.dev.fenceUp i slot y = u at hholds hsq hother hcq hframe htick hdev
  have hfence : (u.sq i).fence = some (s.dev.fenceOf i slot y) := by rw [hsq]
  have hgone := Dev.sq_fenceGone i (s.dev.fenceOf i slot y) u
  have hleft := Dev.sq_fenceLeave i (s.dev.fenceOf i slot y) .ok u
  obtain ⟨hf, hc⟩ := Dev.fence_afterFence (s.dev.fenceOf i slot y) .ok ((Dev.fenceGone i (s.dev.fenceOf i slot y) u).sq i)
  obtain ⟨ho, -⟩ := Dev.out_afterFence (s.dev.fenceOf i slot y) ((Dev.fenceGone i (s.dev.fenceOf i slot y) u).sq i)
  rw [← hleft, hgone] at hf hc ho
  have hstep : Dev.dispatch .fence i slot y Dev.opFence s.dev = Dev.fenceLeave i (s.dev.fenceOf i slot y) .ok u := by
    rw [hdev, Dev.fenceStep, Dev.fenceRelease_some _ _ _ hfence, if_pos hholds, Dev.fenceTimeout_none _ _ hf]
  refine ⟨_, by rw [exec_fence, ← hy]; exact s.onDev_eq hstep, hf, ?_, ?_, fun hr => ?_, fun j hj => ?_, ?_⟩
  · rw [hc, hsq]
    rfl
  · rw [ho, hsq]
    rfl
  · have hneed : 0 < s.dev.need (s.dev.sq i) y := by
      subst hy
      exact s.dev.need_pos i .fence x rfl hr
    have hq := Dev.cq_fenceLeave i (s.dev.fenceOf i slot y) .ok u (decide_eq_true hneed) ((hcq _).1.trans hr)
    unfold Dev.recordAdded
    refine hq.trans ?_
    rw [(hcq _).2, Dev.recUnit_fence, Dev.finalOf, decide_eq_true hneed]
    unfold Dev.recOf
    rw [htick]
    rfl
  · rw [Dev.sq_fenceLeave_other _ _ _ hj, hother j hj]
  · have hleave := Dev.fenceLeave_frame i (s.dev.fenceOf i slot y) .ok u
    generalize Dev.fenceLeave i (s.dev.fenceOf i slot y) .ok u = d at hleave
    rw [hleave, hframe]

/-- An admitted FENCE whose condition does not hold blocks its ring. -/
theorem exec_fence_waits (s : State) (i : Fin 128) (slot : BitVec 16) (x y : Desc) (hy : y = withOpcode .fence x)
    (hadm : s.dev.admits .fence i y) (hmet : ¬ s.dev.fenceMet i y) :
    ∃ d f, exec (.fence i slot x) s = .next { s with dev := d } ∧ (d.sq i).fence = some f ∧ f.desc = y ∧ f.slot = slot ∧
      f.since = s.dev.time.tick ∧ (d.sq i).cons = slot.toNat ∧ (∀ z, d.canGive i z = false) ∧
      (∀ j, j ≠ i.val → d.sq j = s.dev.sq j) ∧ d = { s.dev with hif := d.hif } := by
  have hholds : (s.dev.fenceUp i slot y).fenceHolds (s.dev.fenceOf i slot y) ≠ true := by
    rw [s.dev.fenceHolds_fenceUp i slot y]
    exact fun h => hmet ((s.dev.fenceHolds_iff i slot y).mp h)
  have hfresh : (s.dev.fenceUp i slot y).fenceTimedOut (s.dev.fenceOf i slot y) = false :=
    s.dev.fenceTimedOut_fresh _ i slot y (s.dev.time_fenceUp i slot y)
  obtain ⟨l, g, hsq⟩ := s.dev.sq_fenceUp i slot y
  have hfence : ((s.dev.fenceUp i slot y).sq i).fence = some (s.dev.fenceOf i slot y) := by rw [hsq]
  have hstep : Dev.dispatch .fence i slot y Dev.opFence s.dev = s.dev.fenceUp i slot y := by
    rw [s.dev.dispatch_fence i slot y hadm, Dev.fenceStep, Dev.fenceRelease_some _ _ _ hfence, if_neg hholds,
      Dev.fenceTimeout_some _ _ _ hfence, hfresh, Bool.and_false, if_neg Bool.false_ne_true]
  refine ⟨_, _, by rw [exec_fence, ← hy]; exact s.onDev_eq hstep, hfence, rfl, rfl, rfl, by rw [hsq], fun z => ?_,
    fun j hj => s.dev.sq_fenceUp_other slot y hj, s.dev.fenceUp_frame i slot y⟩
  unfold Dev.canGive
  dsimp only
  rw [hfence]
  simp

/-- The FENCE of a ring leaves it with a status. -/
theorem fenceLeave_ring (s : State) (i : Fin 128) (f : Fence) (st : Status) :
    ((Dev.fenceLeave i f st s.dev).sq i).fence = none ∧
      ((Dev.fenceLeave i f st s.dev).sq i).cons = (f.slot.toNat + 1) % 2 ^ (s.dev.sq i).size ∧
      (∀ j, j ≠ i.val → (Dev.fenceLeave i f st s.dev).sq j = s.dev.sq j) ∧
      Dev.fenceLeave i f st s.dev =
        { s.dev with hif := (Dev.fenceLeave i f st s.dev).hif, regs := (Dev.fenceLeave i f st s.dev).regs } := by
  obtain ⟨hf, hc⟩ := Dev.fence_afterFence f st ((Dev.fenceGone i f s.dev).sq i)
  rw [← Dev.sq_fenceLeave, Dev.sq_fenceGone] at hf hc
  exact ⟨hf, hc, fun j hj => Dev.sq_fenceLeave_other f st s.dev hj, Dev.fenceLeave_frame i f st s.dev⟩

/-- Settles O7: a FENCE leaves its ring as soon as its condition holds, or with its timeout. -/
theorem fenceBlocksItsRing : Obligations.FenceBlocksItsRing := by
  refine ⟨fun s i slot x y hy hadm => ⟨exec_fence_met s i slot x y hy hadm, exec_fence_waits s i slot x y hy hadm⟩,
    fun s i f hf hholds => ?_, fun s i h => ?_, fun s i h => ?_, fun s i f hf hholds htime => ?_⟩
  · obtain ⟨hgone, hcons, hother, hframe⟩ := fenceLeave_ring s i f .ok
    have hstep : Dev.fenceRelease i s.dev = Dev.fenceLeave i f .ok s.dev := by
      rw [Dev.fenceRelease_some _ _ _ hf, if_pos hholds]
    refine ⟨_, (exec_fenceRelease s i).trans (s.onDev_eq hstep), hgone, hcons, ?_, fun hc ha => ?_, hother, hframe⟩
    · rw [Dev.sq_fenceLeave, (Dev.out_afterFence f _).2, Dev.sq_fenceGone]
    · rw [Dev.cq_fenceLeave i f .ok s.dev hc ha, Dev.recUnit_fence]
      simp
  · rw [exec_fenceRelease]
    refine s.onDev_eq ?_
    cases hf : (s.dev.sq i).fence with
    | none => exact Dev.fenceRelease_none _ _ hf
    | some f => rw [Dev.fenceRelease_some _ _ _ hf, if_neg (by rw [h f hf]; exact Bool.false_ne_true)]
  · rw [exec_fenceTimeout]
    refine s.onDev_eq ?_
    cases hf : (s.dev.sq i).fence with
    | none => exact Dev.fenceTimeout_none _ _ hf
    | some f =>
      rw [Dev.fenceTimeout_some _ _ _ hf, if_neg]
      obtain h | h := h f hf
      · rw [h]; exact Bool.false_ne_true
      · rw [h, Bool.and_false]; exact Bool.false_ne_true
  · obtain ⟨hgone, -, hother, hframe⟩ := fenceLeave_ring s i f .fenceTimeout
    have hstep : Dev.fenceTimeout i s.dev = Dev.fenceLeave i f .fenceTimeout s.dev := by
      rw [Dev.fenceTimeout_some _ _ _ hf, if_pos (by rw [hholds, htime]; rfl)]
    refine ⟨_, (exec_fenceTimeout s i).trans (s.onDev_eq hstep), hgone, ?_, fun hc ha => ?_, hother, hframe⟩
    · rw [Dev.sq_fenceLeave, Dev.error_afterFence, Dev.sq_fenceGone]
    · rw [Dev.cq_fenceLeave i f .fenceTimeout s.dev hc ha, Dev.recUnit_fence]
      simp [Dev.recOf]

end Sys2Proof.Machine
end

section
/-! Proofs for the reads of the ring engine that complete (chapter 2): the host area and descriptors. -/

namespace Sys2Proof.Machine.Dev

/-! ## Reads that go out with a free tag (R43, R345) -/

/-- t is d but for reads that have gone out: which reads each ring, controller and signature has outstanding, and the ordered output. -/
structure readsOnly (d t : Dev) : Prop where
  hif : t.hif = { d.hif with sqs := t.hif.sqs, outq := t.hif.outq, msixPend := t.hif.msixPend }
  frame : t = { d with hif := t.hif, cans := t.cans, signs := t.signs, out := t.out }
  sqs : ∀ k, t.sq k = { d.sq k with asked := (t.sq k).asked }
  cans : ∀ c, { t.can c with reads := [] } = { d.can c with reads := [] }
  signs : ∀ n, { t.sign n with asked := [] } = { d.sign n with asked := [] }
  failed : ∀ k, (d.sq k).fetchFail = true → t.sq k = d.sq k

theorem readsOnly_refl (d : Dev) : readsOnly d d := ⟨rfl, rfl, fun _ => rfl, fun _ => rfl, fun _ => rfl, fun _ _ => rfl⟩

theorem readsOnly.trans {d t u : Dev} (h : readsOnly d t) (k : readsOnly t u) : readsOnly d u := by
  refine ⟨k.hif.trans (by rw [h.hif]), k.frame.trans (by rw [h.frame]), fun n => (k.sqs n).trans ?_,
    fun c => (k.cans c).trans (h.cans c), fun n => (k.signs n).trans (h.signs n), fun n hn => ?_⟩
  · rw [h.sqs n]
  · exact (k.failed n (by rw [h.failed n hn]; exact hn)).trans (h.failed n hn)

theorem readsOnly_each (f : Nat → Dev → Dev) (l : List Nat) (d : Dev) (h : ∀ n t, readsOnly t (f n t)) : readsOnly d (each l f d) :=
  each_keeps (fun t => readsOnly d t) f l d (fun n _ t ht => ht.trans (h n t)) (readsOnly_refl d)

/-- A fold of steps that only issue reads only issues reads. -/
theorem readsOnly_foldl {α : Type} (f : Dev → α → Dev) (l : List α) (d : Dev) (h : ∀ t a, readsOnly t (f t a)) :
    readsOnly d (l.foldl f d) := by
  induction l generalizing d with
  | nil => exact readsOnly_refl d
  | cons a l ih => exact (h d a).trans (ih (f d a))

theorem readsOnly_emit (d : Dev) (m : Msg) : readsOnly d (d.emit m) := ⟨rfl, rfl, fun _ => rfl, fun _ => rfl, fun _ => rfl, fun _ _ => rfl⟩
theorem readsOnly_post (d : Dev) (m : Msg) : readsOnly d (d.post m) := ⟨rfl, rfl, fun _ => rfl, fun _ => rfl, fun _ => rfl, fun _ _ => rfl⟩

theorem sq_asked (d : Dev) (i k : Nat) : (d.setSq i { d.sq i with asked := true }).sq k =
    { d.sq k with asked := ((d.setSq i { d.sq i with asked := true }).sq k).asked } := by
  by_cases h : k = i
  · subst h
    rw [sq_setSq]
  · rw [sq_setSq_other _ _ h]

/-- A ring asks for a slot only where its last fetch has not failed. -/
theorem wantFetch_readsOnly (i : Nat) (d : Dev) : readsOnly d (wantFetch i d) := by
  unfold wantFetch
  dsimp only
  split
  case isTrue h =>
    have hfail : (d.sq i).fetchFail = false := by
      simp only [Bool.and_eq_true, Bool.not_eq_true'] at h
      exact h.1.1.1.2
    have hset : readsOnly d (d.setSq i { d.sq i with asked := true }) := by
      refine ⟨rfl, rfl, fun k => sq_asked d i k, fun _ => rfl, fun _ => rfl, fun k hk => sq_setSq_other _ _ fun hki => ?_⟩
      rw [hki, hfail] at hk
      exact Bool.false_ne_true hk
    exact hset.trans (readsOnly_emit _ _)
  case isFalse => exact readsOnly_refl d

theorem can_setCan (d : Dev) (c : Nat) (x : CanCtl) : (d.setCan c x).can c = x := SMap.get_set_same _ _ _ _
theorem can_setCan_other (d : Dev) (x : CanCtl) {c k : Nat} (h : k ≠ c) : (d.setCan c x).can k = d.can k := SMap.get_set_other _ _ _ h
theorem sign_setSign (d : Dev) (n : Nat) (x : Sign) : (d.setSign n x).sign n = x := SMap.get_set_same _ _ _ _
theorem sign_setSign_other (d : Dev) (x : Sign) {n k : Nat} (h : k ≠ n) : (d.setSign n x).sign k = d.sign k := SMap.get_set_other _ _ _ h

theorem readsOnly_modCan (d : Dev) (c : Nat) (f : CanCtl → CanCtl) (hf : ∀ x, { f x with reads := [] } = { x with reads := [] }) :
    readsOnly d (d.modCan c f) := by
  refine ⟨rfl, rfl, fun _ => rfl, fun k => ?_, fun _ => rfl, fun _ _ => rfl⟩
  by_cases h : k = c
  · subst h
    rw [modCan, can_setCan, hf]
  · rw [modCan, can_setCan_other _ _ h]

theorem readsOnly_modSign (d : Dev) (n : Nat) (f : Sign → Sign) (hf : ∀ x, { f x with asked := [] } = { x with asked := [] }) :
    readsOnly d (d.modSign n f) := by
  refine ⟨rfl, rfl, fun _ => rfl, fun _ => rfl, fun k => ?_, fun _ _ => rfl⟩
  by_cases h : k = n
  · subst h
    rw [modSign, sign_setSign, hf]
  · rw [modSign, sign_setSign_other _ _ h]

theorem wantData_readsOnly (c : Nat) (d : Dev) : readsOnly d (wantData c d) := by
  unfold wantData
  refine readsOnly_foldl _ _ d fun t a => ?_
  split
  · exact readsOnly_refl t
  · exact (readsOnly_modCan t c (fun x => { x with reads := x.reads ++ [a.key] }) fun _ => rfl).trans (readsOnly_emit _ _)

theorem ask_readsOnly (n : Nat) (d : Dev) : readsOnly d (ask n d) := by
  unfold ask
  dsimp only
  split
  · exact readsOnly_refl d
  · split
    · exact readsOnly_refl d
    · exact (readsOnly_foldl _ _ d fun t a => readsOnly_post t _).trans (readsOnly_modSign _ n _ fun _ => rfl)

theorem remontoire_readsOnly (d : Dev) : readsOnly d d.remontoire := by
  unfold remontoire
  split
  · exact readsOnly_each _ _ d ask_readsOnly
  · exact readsOnly_refl d

theorem issue_readsOnly (m : Msg) (d : Dev) : readsOnly d (issue m d) := by
  have hpend (v : Nat) : readsOnly d (issue (.msix v) d) := by
    unfold issue
    dsimp only
    split
    · exact ⟨rfl, rfl, fun _ => rfl, fun _ => rfl, fun _ => rfl, fun _ _ => rfl⟩
    · exact readsOnly_emit d _
  cases m with
  | msix v => exact hpend v
  | _ => exact readsOnly_emit d _

theorem issueN_readsOnly (n : Nat) (d : Dev) : readsOnly d (issueN n d) := by
  induction n generalizing d with
  | zero => exact readsOnly_refl d
  | succ n ih =>
    unfold issueN
    split
    · exact readsOnly_refl d
    · rename_i m r _
      have hpop : readsOnly d { d with hif := { d.hif with outq := r } } :=
        ⟨rfl, rfl, fun _ => rfl, fun _ => rfl, fun _ => rfl, fun _ _ => rfl⟩
      exact (hpop.trans (issue_readsOnly m _)).trans (ih _)

theorem moreCells_readsOnly (d : Dev) : readsOnly d d.moreCells := by
  unfold moreCells
  dsimp only
  split
  · exact (remontoire_readsOnly d).trans (issueN_readsOnly _ _)
  · exact remontoire_readsOnly d

/-! ## A read of the page that waits -/

/-- The read of the page that waits for a tag goes out. -/
def pageAgain (d : Dev) : Dev := if d.hif.dbAgain && !d.hif.dbRead then d.readDoorbell else d

theorem moreReads_eq (d : Dev) : d.moreReads =
    each (span 0 4) wantData (each (d.pageAgain.hif.sqs.map (·.1)) wantFetch d.pageAgain) := rfl

theorem moreReads_readsOnly (d : Dev) : readsOnly d.pageAgain d.moreReads := by
  rw [moreReads_eq]
  exact (readsOnly_each _ _ _ wantFetch_readsOnly).trans (readsOnly_each _ _ _ wantData_readsOnly)

/-- t is d but for the state of the doorbell page's reads and what has been emitted. -/
def pageOnly (d t : Dev) : Prop :=
  t = { d with hif := { d.hif with dbRead := t.hif.dbRead, dbAgain := t.hif.dbAgain, dbTags := t.hif.dbTags }, out := t.out }

theorem emits_pageOnly (l : List Msg) (d t : Dev) (h : pageOnly d t) : pageOnly d (l.foldl emit t) := by
  induction l generalizing t with
  | nil => exact h
  | cons m l ih =>
    refine ih (t.emit m) ?_
    have hemit : t.emit m = { t with out := (t.emit m).out } := rfl
    unfold pageOnly at *
    rw [hemit, h]

theorem pageAgain_pageOnly (d : Dev) : pageOnly d d.pageAgain := by
  unfold pageAgain
  split
  · unfold readDoorbell
    split
    · rfl
    · split
      · rfl
      · exact emits_pageOnly _ _ _ rfl
  · rfl

/-- What the completion of a read leaves of the rest of the device. -/
theorem freed_reads (d : Dev) : ∃ u, pageOnly d u ∧ readsOnly u d.moreReads.moreCells ∧ (d.hif.dbAgain = false → u = d) :=
  ⟨d.pageAgain, pageAgain_pageOnly d, (moreReads_readsOnly d).trans (moreCells_readsOnly _), fun h => by
    unfold pageAgain
    rw [h]
    rfl⟩

/-! ## Descriptor reads (R33, R80) -/

/-- Beside ring i, t has the rings, controllers and signatures of d, but for the reads that they have outstanding. -/
structure fetchOnly (i : Nat) (d t : Dev) : Prop where
  sqs : ∀ j, j ≠ i → { t.sq j with asked := (d.sq j).asked } = d.sq j
  cans : ∀ c, { t.can c with reads := [] } = { d.can c with reads := [] }
  signs : ∀ n, { t.sign n with asked := [] } = { d.sign n with asked := [] }

theorem freed_fetchOnly (i : Nat) (d v : Dev) (h : fetchOnly i d v) : fetchOnly i d v.moreReads.moreCells := by
  obtain ⟨u, hpage, hreads, -⟩ := freed_reads v
  refine ⟨fun j hj => ?_, fun c => (hreads.cans c).trans ?_, fun n => (hreads.signs n).trans ?_⟩
  · rw [hreads.sqs j, hpage]
    exact h.sqs j hj
  · rw [hpage]
    exact h.cans c
  · rw [hpage]
    exact h.signs n

theorem readsOnly.fetch {i : Nat} {d t v : Dev} (h : fetchOnly i d t) (k : readsOnly t v) : fetchOnly i d v :=
  ⟨fun j hj => by rw [k.sqs j]; exact h.sqs j hj, fun c => (k.cans c).trans (h.cans c), fun n => (k.signs n).trans (h.signs n)⟩

/-- A change of ring i alone. -/
theorem fetchOnly_setSq (d : Dev) (i : Nat) (q : Sq) : fetchOnly i d (d.setSq i q) :=
  ⟨fun j hj => by rw [sq_setSq_other _ _ hj], fun _ => rfl, fun _ => rfl⟩

/-- Behind a completed read, ring i is as the completion left it, but for a read that has gone out. -/
theorem freed_sq (v : Dev) (i : Nat) :
    (v.moreReads.moreCells.sq i = { v.sq i with asked := (v.moreReads.moreCells.sq i).asked }) ∧
      ((v.sq i).fetchFail = true → v.moreReads.moreCells.sq i = v.sq i) := by
  obtain ⟨u, hpage, hreads, -⟩ := freed_reads v
  have husq : u.sq i = v.sq i := by rw [hpage]; rfl
  refine ⟨(hreads.sqs i).trans (by rw [husq]), fun h => (hreads.failed i (by rw [husq]; exact h)).trans husq⟩

theorem freed_frame (v : Dev) : v.moreReads.moreCells =
    { v with hif := v.moreReads.moreCells.hif, cans := v.moreReads.moreCells.cans, signs := v.moreReads.moreCells.signs,
             out := v.moreReads.moreCells.out } := by
  obtain ⟨u, hpage, hreads, -⟩ := freed_reads v
  have hframe := hreads.frame
  generalize v.moreReads.moreCells = t at hframe
  rw [hframe, hpage]

/-- The ring once a descriptor has come. -/
def sqFetched (x : Desc) (q : Sq) : Sq :=
  { q with asked := false, fetched := q.fetched ++ [(q.fetchAt, x)], fetchAt := (q.fetchAt + 1) % 2 ^ q.size }

/-- What the ring's outstanding read brings. -/
theorem descDone_eq (i : Nat) (r : Option Desc) (d : Dev) (ha : (d.sq i).asked = true) (hs : (d.sq i).stale = 0) :
    descDone i r d = (match r with
      | some x => (wantFetch i (d.setSq i (sqFetched x (d.sq i)))).moreReads
      | none =>
        if (d.sq i).fetched.isEmpty && (d.sq i).fence.isNone then ((d.setSq i { d.sq i with asked := false }).sqError i .fetchError).moreReads
        else (d.setSq i { d.sq i with asked := false, fetchFail := true }).moreReads).moreCells := by
  unfold descDone fetchDone
  rw [if_pos (by rw [ha, Bool.or_true])]
  dsimp only
  rw [if_neg (by rw [hs]; decide), if_neg (by rw [ha]; decide)]
  cases r with
  | some x => rfl
  | none => rfl

theorem descDone_some (i : Nat) (x : Desc) (d : Dev) (ha : (d.sq i).asked = true) (hs : (d.sq i).stale = 0) :
    descDone i (some x) d = (wantFetch i (d.setSq i (sqFetched x (d.sq i)))).moreReads.moreCells := descDone_eq i (some x) d ha hs

theorem descDone_kept (i : Nat) (d : Dev) (ha : (d.sq i).asked = true) (hs : (d.sq i).stale = 0)
    (h : (d.sq i).fetched ≠ [] ∨ (d.sq i).fence.isSome = true) :
    descDone i none d = (d.setSq i { d.sq i with asked := false, fetchFail := true }).moreReads.moreCells := by
  have hb : ((d.sq i).fetched.isEmpty && (d.sq i).fence.isNone) = false := by
    rw [Bool.and_eq_false_iff]
    refine h.imp (fun h => ?_) fun h => ?_
    · cases hf : (d.sq i).fetched with
      | nil => exact absurd hf h
      | cons a l => rfl
    · cases hf : (d.sq i).fence with
      | none => rw [hf] at h; exact absurd h (by decide)
      | some f => rfl
  rw [descDone_eq i none d ha hs]
  dsimp only
  rw [if_neg (by rw [hb]; exact Bool.false_ne_true)]

theorem descDone_stops (i : Nat) (d : Dev) (ha : (d.sq i).asked = true) (hs : (d.sq i).stale = 0) (hf : (d.sq i).fetched = [])
    (hn : (d.sq i).fence = none) :
    descDone i none d = ((d.setSq i { d.sq i with asked := false }).sqError i .fetchError).moreReads.moreCells := by
  rw [descDone_eq i none d ha hs]
  dsimp only
  rw [if_pos (by rw [hf, hn]; rfl)]

theorem sq_sqError (d : Dev) (i : Nat) (st : Status) :
    ((d.sqError i st).sq i) = { (d.sq i).orphan with error := some st, fetched := [], fetchFail := false } := by
  unfold sqError notice
  rw [produce_sq, sq_modSq]

theorem sq_sqError_other (d : Dev) (st : Status) {i j : Nat} (h : j ≠ i) : (d.sqError i st).sq j = d.sq j := by
  unfold sqError notice
  rw [produce_sq, sq_modSq_other _ _ h]

theorem sqError_frame (d : Dev) (i : Nat) (st : Status) :
    d.sqError i st = { d with hif := { d.hif with sqs := (d.sqError i st).hif.sqs, cqs := (d.sqError i st).hif.cqs },
                              regs := { d.regs with hw := (d.sqError i st).regs.hw } } := by
  unfold sqError notice
  have hmod := modSq_frame d i fun q => { q.orphan with error := some st, fetched := [], fetchFail := false }
  generalize d.modSq i (fun q => { q.orphan with error := some st, fetched := [], fetchFail := false }) = u at hmod
  dsimp only
  rw [produce_frame, hmod]

end Sys2Proof.Machine.Dev

namespace Sys2Proof.Machine

theorem exec_descriptorFetch (s : State) (i : Fin 128) (r : Option Desc) :
    exec (.descriptorFetch i r) s = s.onDev (Dev.descDone i r) := rfl

/-- A descriptor that has been read queues in its ring. -/
theorem exec_descriptorFetch_some (s : State) (i : Fin 128) (x : Desc) (hasked : (s.dev.sq i).asked = true)
    (hstale : (s.dev.sq i).stale = 0) :
    ∃ d, exec (.descriptorFetch i (some x)) s = .next { s with dev := d } ∧
      (d.sq i).fetched = (s.dev.sq i).fetched ++ [((s.dev.sq i).fetchAt, x)] ∧
      (d.sq i).fetchAt = ((s.dev.sq i).fetchAt + 1) % 2 ^ (s.dev.sq i).size ∧ Dev.fetchOnly i s.dev d ∧
      d = { s.dev with hif := d.hif, cans := d.cans, signs := d.signs, out := d.out } := by
  have hset := Dev.fetchOnly_setSq s.dev i (Dev.sqFetched x (s.dev.sq i))
  have hone : (s.dev.setSq i (Dev.sqFetched x (s.dev.sq i))).sq i = Dev.sqFetched x (s.dev.sq i) := Dev.sq_setSq _ _ _
  have hframe : s.dev.setSq i (Dev.sqFetched x (s.dev.sq i)) =
    { s.dev with hif := (s.dev.setSq i (Dev.sqFetched x (s.dev.sq i))).hif } := rfl
  have hstep := Dev.descDone_some i x s.dev hasked hstale
  generalize s.dev.setSq i (Dev.sqFetched x (s.dev.sq i)) = u at hset hone hframe hstep
  have hwant := Dev.wantFetch_readsOnly i u
  generalize Dev.wantFetch i u = v at hwant hstep
  have hv : v = { s.dev with hif := v.hif, cans := v.cans, signs := v.signs, out := v.out } := by rw [hwant.frame, hframe]
  have hfetch := Dev.freed_fetchOnly i s.dev v (hwant.fetch hset)
  obtain ⟨hsq, -⟩ := Dev.freed_sq v i
  have hw := Dev.freed_frame v
  rw [← hstep] at hfetch hsq hw
  have hend : ((Dev.descDone i (some x) s.dev).sq i).fetched = (Dev.sqFetched x (s.dev.sq i)).fetched ∧
      ((Dev.descDone i (some x) s.dev).sq i).fetchAt = (Dev.sqFetched x (s.dev.sq i)).fetchAt := by
    rw [hsq, hwant.sqs i, hone]
    exact ⟨rfl, rfl⟩
  obtain ⟨hfetched, hat⟩ := hend
  generalize hd : Dev.descDone i (some x) s.dev = d at hfetch hfetched hat hw
  exact ⟨d, (exec_descriptorFetch s i (some x)).trans (s.onDev_eq hd), hfetched, hat, hfetch, by rw [hw, hv]⟩

/-- A failed read behind descriptors or a FENCE is kept. -/
theorem exec_descriptorFetch_kept (s : State) (i : Fin 128) (hasked : (s.dev.sq i).asked = true) (hstale : (s.dev.sq i).stale = 0)
    (h : (s.dev.sq i).fetched ≠ [] ∨ (s.dev.sq i).fence.isSome = true) :
    ∃ d, exec (.descriptorFetch i none) s = .next { s with dev := d } ∧
      d.sq i = { s.dev.sq i with asked := false, fetchFail := true } ∧ Dev.fetchOnly i s.dev d ∧
      d = { s.dev with hif := d.hif, cans := d.cans, signs := d.signs, out := d.out } := by
  have hset := Dev.fetchOnly_setSq s.dev i { s.dev.sq i with asked := false, fetchFail := true }
  have hone := Dev.sq_setSq s.dev i { s.dev.sq i with asked := false, fetchFail := true }
  have hframe : s.dev.setSq i { s.dev.sq i with asked := false, fetchFail := true } =
    { s.dev with hif := (s.dev.setSq i { s.dev.sq i with asked := false, fetchFail := true }).hif } := rfl
  have hstep := Dev.descDone_kept i s.dev hasked hstale h
  generalize s.dev.setSq i { s.dev.sq i with asked := false, fetchFail := true } = v at hset hone hframe hstep
  have hfetch := Dev.freed_fetchOnly i s.dev v hset
  obtain ⟨-, hsq⟩ := Dev.freed_sq v i
  have hsq := (hsq (by rw [hone])).trans hone
  have hw := Dev.freed_frame v
  rw [← hstep] at hfetch hsq hw
  clear hstep
  generalize hd : Dev.descDone i none s.dev = d at hfetch hsq hw
  exact ⟨d, (exec_descriptorFetch s i none).trans (s.onDev_eq hd), hsq, hfetch, by rw [hw, hframe]⟩

/-- A failed read at the head of its ring stops the ring. -/
theorem exec_descriptorFetch_stops (s : State) (i : Fin 128) (hasked : (s.dev.sq i).asked = true) (hstale : (s.dev.sq i).stale = 0)
    (hf : (s.dev.sq i).fetched = []) (hn : (s.dev.sq i).fence = none) :
    ∃ d, exec (.descriptorFetch i none) s = .next { s with dev := d } ∧ (d.sq i).error = some .fetchError ∧ Dev.fetchOnly i s.dev d ∧
      d = { s.dev with hif := d.hif, cans := d.cans, signs := d.signs, out := d.out, regs := d.regs } := by
  have hset := Dev.fetchOnly_setSq s.dev i { s.dev.sq i with asked := false }
  have hframe : s.dev.setSq i { s.dev.sq i with asked := false } =
    { s.dev with hif := (s.dev.setSq i { s.dev.sq i with asked := false }).hif } := rfl
  have hstep := Dev.descDone_stops i s.dev hasked hstale hf hn
  generalize s.dev.setSq i { s.dev.sq i with asked := false } = u at hset hframe hstep
  have herr := Dev.sq_sqError u i .fetchError
  have hother : ∀ j, j ≠ i.val → (u.sqError i .fetchError).sq j = u.sq j := fun j hj => Dev.sq_sqError_other u .fetchError hj
  have huframe := Dev.sqError_frame u i .fetchError
  generalize u.sqError i .fetchError = v at herr hother huframe hstep
  have hfetch := Dev.freed_fetchOnly i s.dev v ⟨fun j hj => by rw [hother j hj]; exact hset.sqs j hj,
    fun c => by rw [huframe]; exact hset.cans c, fun n => by rw [huframe]; exact hset.signs n⟩
  have hv : v = { s.dev with hif := v.hif, regs := v.regs } := by rw [huframe, hframe]
  obtain ⟨hsq, -⟩ := Dev.freed_sq v i
  have hw := Dev.freed_frame v
  rw [← hstep] at hfetch hsq hw
  clear hstep
  generalize hd : Dev.descDone i none s.dev = d at hfetch hsq hw
  exact ⟨d, (exec_descriptorFetch s i none).trans (s.onDev_eq hd), by rw [hsq, herr], hfetch, by rw [hw, hv]⟩

/-- Settles O9: the ring takes what its read has brought, and the tag that has come free serves reads that wait. -/
theorem descriptorFetchQueues : Obligations.DescriptorFetchQueues := by
  intro s i hasked hstale
  refine ⟨fun x => ?_, fun h => ?_, fun hf hn => ?_⟩
  · obtain ⟨d, hexec, hfetched, hat, ⟨hsqs, hcans, hsigns⟩, hframe⟩ := exec_descriptorFetch_some s i x hasked hstale
    exact ⟨d, hexec, hfetched, hat, hsqs, hcans, hsigns, hframe⟩
  · obtain ⟨d, hexec, hsq, ⟨hsqs, -, -⟩, hframe⟩ := exec_descriptorFetch_kept s i hasked hstale h
    exact ⟨d, hexec, hsq, hsqs, hframe⟩
  · obtain ⟨d, hexec, herr, ⟨hsqs, hcans, hsigns⟩, hframe⟩ := exec_descriptorFetch_stops s i hasked hstale hf hn
    exact ⟨d, hexec, herr, hsqs, hcans, hsigns, hframe⟩

end Sys2Proof.Machine
end

section
/-! Proofs for a completed read of the host area (chapter 2). -/

namespace Sys2Proof.Machine.Dev

/-- A loop whose turns leave each other's part acts on each part as it was. -/
theorem each_at {β : Type} (g : Nat → Dev → β) (f : Nat → Dev → Dev) (l : List Nat) (hl : l.Nodup) (d : Dev)
    (h : ∀ n t k, k ≠ n → g k (f n t) = g k t) (n : Nat) (hn : n ∈ l) : ∃ t, g n t = g n d ∧ g n (each l f d) = g n (f n t) := by
  induction l generalizing d with
  | nil => exact absurd hn List.not_mem_nil
  | cons k l ih =>
    obtain ⟨hk, hl⟩ := List.nodup_cons.mp hl
    rw [each_cons]
    by_cases hnk : n = k
    · subst hnk
      exact ⟨d, rfl, each_same (g n) f l _ fun m hm t => h m t n fun e => hk (e ▸ hm)⟩
    · obtain ⟨t, ht, hend⟩ := ih hl (f k d) (List.mem_of_ne_of_mem hnk hn)
      exact ⟨t, ht.trans (h k d n hnk), hend⟩

/-! ## Producer indices (R78, R80) -/

theorem sq_wantFetch_other (d : Dev) {i k : Nat} (h : k ≠ i) : (wantFetch i d).sq k = d.sq k := by
  unfold wantFetch
  dsimp only
  split
  · exact sq_setSq_other d _ h
  · rfl

theorem cqs_wantFetch (i : Nat) (d : Dev) : (wantFetch i d).hif.cqs = d.hif.cqs ∧ (wantFetch i d).hif.bqs = d.hif.bqs := by
  have h := (wantFetch_readsOnly i d).hif
  rw [h]
  exact ⟨rfl, rfl⟩

/-- The state of the page's reads. -/
def pageState (d : Dev) : Bool × Bool × Nat × List Word := (d.hif.dbRead, d.hif.dbAgain, d.hif.dbTags, d.hif.dbLast)

theorem pageState_wantFetch (i : Nat) (d : Dev) : (wantFetch i d).pageState = d.pageState := by
  have h := (wantFetch_readsOnly i d).hif
  unfold pageState
  rw [h]

theorem pageState_sqError (i : Nat) (st : Status) (d : Dev) : (d.sqError i st).pageState = d.pageState := by
  unfold pageState
  rw [sqError_frame]

/-- A producer index as it comes to an active ring without error. -/
theorem takeProducer_eq (w : List Word) (i : Nat) (d : Dev) (ha : (d.sq i).active = true) (he : (d.sq i).error = none) :
    takeProducer w i d = if (d.sq i).oldPage then d.setSq i { d.sq i with oldPage := false }
      else if 2 ^ (d.sq i).size ≤ indexWord w i then d.sqError i .producerRange
      else wantFetch i (d.setSq i { d.sq i with prod := indexWord w i }) := by
  unfold takeProducer
  dsimp only
  rw [if_neg (by rw [ha, he]; decide)]

theorem takeProducer_keeps (P : Dev → Prop) (w : List Word) (i : Nat) (d : Dev) (hset : ∀ q, P (d.setSq i q))
    (herr : P (d.sqError i .producerRange)) (hwant : ∀ q, P (wantFetch i (d.setSq i q))) (hd : P d) : P (takeProducer w i d) := by
  unfold takeProducer
  dsimp only
  split
  · exact hd
  · split
    · exact hset _
    · split
      · exact herr
      · exact hwant _

theorem sq_takeProducer_other (w : List Word) (d : Dev) {i k : Nat} (h : k ≠ i) : (takeProducer w i d).sq k = d.sq k :=
  takeProducer_keeps (fun t => t.sq k = d.sq k) w i d (fun _ => sq_setSq_other _ _ h) (sq_sqError_other _ _ h)
    (fun _ => (sq_wantFetch_other _ h).trans (sq_setSq_other _ _ h)) rfl

theorem pageState_takeProducer (w : List Word) (i : Nat) (d : Dev) : (takeProducer w i d).pageState = d.pageState :=
  takeProducer_keeps (fun t => t.pageState = d.pageState) w i d (fun _ => rfl) (pageState_sqError _ _ _)
    (fun _ => pageState_wantFetch _ _) rfl

/-- A notice joins the queue of its completion ring, if anything. -/
theorem cq_sqError (i : Nat) (st : Status) (d : Dev) (k : Nat) :
    (d.sqError i st).cq k = { d.cq k with queue := ((d.sqError i st).cq k).queue } := by
  have hproduce (t : Dev) (j : Nat) (r : CRec) : (t.produce j r).cq k = { t.cq k with queue := ((t.produce j r).cq k).queue } := by
    unfold produce
    dsimp only
    split
    · split <;> rfl
    · split
      · split <;> rfl
      · by_cases h : k = j
        · subst h
          rw [cq_setCq]
        · rw [cq_setCq_other _ _ h]
  unfold sqError notice
  dsimp only
  rw [hproduce]
  rfl

theorem cq_takeProducer (w : List Word) (i : Nat) (d : Dev) (k : Nat) :
    (takeProducer w i d).cq k = { d.cq k with queue := ((takeProducer w i d).cq k).queue } :=
  takeProducer_keeps (fun t => t.cq k = { d.cq k with queue := (t.cq k).queue }) w i d (fun _ => rfl) (cq_sqError i _ d k)
    (fun q => by
      have h := (cqs_wantFetch i (d.setSq i q)).1
      unfold cq
      rw [h]
      rfl) rfl

theorem bqs_takeProducer (w : List Word) (i : Nat) (d : Dev) : (takeProducer w i d).hif.bqs = d.hif.bqs :=
  takeProducer_keeps (fun t => t.hif.bqs = d.hif.bqs) w i d (fun _ => rfl) (by rw [sqError_frame])
    (fun _ => (cqs_wantFetch _ _).2) rfl

/-! ## Consumer indices (R80) -/

theorem takeCqConsumer_keeps (P : Dev → Prop) (w : List Word) (i : Nat) (d : Dev) (hset : ∀ q, P (d.setCq i q)) (hd : P d) :
    P (takeCqConsumer w i d) := by
  unfold takeCqConsumer
  dsimp only
  split
  · exact hd
  · split
    · exact hset _
    · exact hset _

theorem takeBqConsumer_keeps (P : Dev → Prop) (w : List Word) (i : Nat) (d : Dev) (hset : ∀ q, P (d.setBq i q)) (hd : P d) :
    P (takeBqConsumer w i d) := by
  unfold takeBqConsumer
  dsimp only
  split
  · exact hd
  · split
    · exact hset _
    · exact hset _

theorem bq_setBq (d : Dev) (i : Nat) (x : Bq) : (d.setBq i x).bq i = x := SMap.get_set_same _ _ _ _
theorem bq_setBq_other (d : Dev) (x : Bq) {i k : Nat} (h : k ≠ i) : (d.setBq i x).bq k = d.bq k := SMap.get_set_other _ _ _ h

theorem cq_takeCqConsumer_other (w : List Word) (i : Nat) (d : Dev) (k : Nat) (h : k ≠ i) : (takeCqConsumer w i d).cq k = d.cq k :=
  takeCqConsumer_keeps (fun t => t.cq k = d.cq k) w i d (fun _ => cq_setCq_other _ _ h) rfl

theorem bq_takeBqConsumer_other (w : List Word) (i : Nat) (d : Dev) (k : Nat) (h : k ≠ i) : (takeBqConsumer w i d).bq k = d.bq k :=
  takeBqConsumer_keeps (fun t => t.bq k = d.bq k) w i d (fun _ => bq_setBq_other _ _ h) rfl

/-- What an index does to an active completion ring without error. -/
theorem cq_takeCqConsumer (w : List Word) (i : Nat) (d : Dev) (ha : (d.cq i).active = true) (he : (d.cq i).error = none) :
    (takeCqConsumer w i d).cq i = if consumerOk (d.cq i).size (d.cq i).prod (d.cq i).cons (indexWord w (128 + i)) then
      { d.cq i with cons := indexWord w (128 + i) } else { d.cq i with error := some .consumerRange, msgForce := true } := by
  unfold takeCqConsumer
  dsimp only
  rw [if_neg (by rw [ha, he]; decide)]
  split
  · rw [cq_setCq]
  · rw [cq_setCq]

theorem bq_takeBqConsumer (w : List Word) (i : Nat) (d : Dev) (ha : (d.bq i).active = true) (he : (d.bq i).error = none) :
    (takeBqConsumer w i d).bq i = if consumerOk (d.bq i).size (d.bq i).prod (d.bq i).cons (indexWord w (192 + i)) then
      { d.bq i with cons := indexWord w (192 + i) } else { d.bq i with error := some .consumerRange, msgForce := true } := by
  unfold takeBqConsumer
  dsimp only
  rw [if_neg (by rw [ha, he]; decide)]
  split
  · rw [bq_setBq]
  · rw [bq_setBq]

/-! ## The whole area -/

/-- The read of the page is over. -/
def pageOver (d : Dev) : Dev := { d with hif := { d.hif with dbRead := false, dbTags := 0 } }

/-- The words of the page are the last ones read; other indices than before are activity of the host. -/
def pageRead (w : List Word) (d : Dev) : Dev :=
  { d with hif := { d.hif with dbLast := w,
                               activity := d.hif.activity || (!d.hif.dbLast.isEmpty && !sameIndices w d.hif.dbLast) } }

/-- Every ring has taken its index. -/
def indicesTaken (w : List Word) (d : Dev) : Dev :=
  each (span 0 4) (takeBqConsumer w) (each (span 0 64) (takeCqConsumer w) (each (span 0 128) (takeProducer w) d))

theorem pageDone_some (w : List Word) (d : Dev) (h : d.hif.dbRead = true) :
    pageDone (some w) d = ((indicesTaken w (pageRead w d.pageOver)).moreReads).moreCells := by
  unfold pageDone doorbellDone
  rw [if_pos h, if_neg (by rw [h]; decide)]
  rfl

theorem pageDone_none (d : Dev) (h : d.hif.dbRead = true) :
    pageDone none d = ((d.pageOver.stick Fl.hifStatusDbReadFail 0).moreReads).moreCells := by
  unfold pageDone doorbellDone
  rw [if_pos h, if_neg (by rw [h]; decide)]
  rfl

theorem sq_takenIndices (w : List Word) (d : Dev) (k : Nat) :
    (indicesTaken w d).sq k = (each (span 0 128) (takeProducer w) d).sq k := by
  unfold indicesTaken
  rw [each_same (fun t => t.sq k) _ (span 0 4) _ fun n _ t => takeBqConsumer_keeps (fun u => u.sq k = t.sq k) w n t (fun _ => rfl) rfl]
  exact each_same (fun t => t.sq k) _ (span 0 64) _ fun n _ t => takeCqConsumer_keeps (fun u => u.sq k = t.sq k) w n t (fun _ => rfl) rfl

theorem cq_takenIndices (w : List Word) (d : Dev) (k : Nat) :
    (indicesTaken w d).cq k = (each (span 0 64) (takeCqConsumer w) (each (span 0 128) (takeProducer w) d)).cq k :=
  each_same (fun t => t.cq k) _ (span 0 4) _ fun n _ t => takeBqConsumer_keeps (fun u => u.cq k = t.cq k) w n t (fun _ => rfl) rfl

theorem pageState_takenIndices (w : List Word) (d : Dev) : (indicesTaken w d).pageState = d.pageState := by
  unfold indicesTaken
  rw [each_same pageState _ (span 0 4) _ fun n _ t => takeBqConsumer_keeps (fun u => u.pageState = t.pageState) w n t (fun _ => rfl) rfl,
    each_same pageState _ (span 0 64) _ fun n _ t => takeCqConsumer_keeps (fun u => u.pageState = t.pageState) w n t (fun _ => rfl) rfl]
  exact each_same pageState _ (span 0 128) _ fun n _ t => pageState_takeProducer w n t

/-- A submission ring after the indices. -/
theorem sq_indices (w : List Word) (d : Dev) (i : Nat) (hi : i < 128) (ha : (d.sq i).active = true) (he : (d.sq i).error = none) :
    if (d.sq i).oldPage = true then (indicesTaken w d).sq i = { d.sq i with oldPage := false }
    else if indexWord w i < 2 ^ (d.sq i).size then
      (indicesTaken w d).sq i = { d.sq i with prod := indexWord w i, asked := ((indicesTaken w d).sq i).asked }
    else ((indicesTaken w d).sq i).error = some .producerRange := by
  obtain ⟨t, ht, hend⟩ := each_at (fun k u => u.sq k) (takeProducer w) (span 0 128) (nodup_span 0 128) d
    (fun n t k h => sq_takeProducer_other w t h) i ((mem_span 0 128 i).mpr ⟨Nat.zero_le i, by omega⟩)
  have ht : t.sq i = d.sq i := ht
  have hend : (each (span 0 128) (takeProducer w) d).sq i = (takeProducer w i t).sq i := hend
  rw [sq_takenIndices, hend, takeProducer_eq w i t (by rw [ht]; exact ha) (by rw [ht]; exact he), ht]
  split
  · rw [sq_setSq]
  · split
    case isTrue h =>
      rw [if_neg (by omega), (wantFetch_readsOnly i _).sqs i, sq_setSq]
    case isFalse h =>
      rw [if_pos (by omega), sq_sqError]

/-- A completion ring after the indices. -/
theorem cq_indices (w : List Word) (d : Dev) (i : Nat) (hi : i < 64) (ha : (d.cq i).active = true) (he : (d.cq i).error = none) :
    if consumerOk (d.cq i).size (d.cq i).prod (d.cq i).cons (indexWord w (128 + i)) = true then
      ((indicesTaken w d).cq i).cons = indexWord w (128 + i) ∧ ((indicesTaken w d).cq i).error = none
    else ((indicesTaken w d).cq i).error = some .consumerRange ∧ ((indicesTaken w d).cq i).cons = (d.cq i).cons := by
  have hfirst : (each (span 0 128) (takeProducer w) d).cq i = { d.cq i with queue := ((each (span 0 128) (takeProducer w) d).cq i).queue } :=
    each_keeps (fun t => t.cq i = { d.cq i with queue := (t.cq i).queue }) _ (span 0 128) d
      (fun n _ t ht => (cq_takeProducer w n t i).trans (by rw [ht])) rfl
  rw [cq_takenIndices]
  generalize each (span 0 128) (takeProducer w) d = u at hfirst
  obtain ⟨t, ht, hend⟩ := each_at (fun k u => u.cq k) (takeCqConsumer w) (span 0 64) (nodup_span 0 64) u
    (fun n t k h => cq_takeCqConsumer_other w n t k h) i ((mem_span 0 64 i).mpr ⟨Nat.zero_le i, by omega⟩)
  have ht : t.cq i = u.cq i := ht
  have hend : (each (span 0 64) (takeCqConsumer w) u).cq i = (takeCqConsumer w i t).cq i := hend
  rw [hend, cq_takeCqConsumer w i t (by rw [ht, hfirst]; exact ha) (by rw [ht, hfirst]; exact he), ht, hfirst]
  split
  · exact ⟨rfl, he⟩
  · exact ⟨rfl, rfl⟩

/-- A bus ring after the indices. -/
theorem bq_indices (w : List Word) (d : Dev) (i : Nat) (hi : i < 4) (ha : (d.bq i).active = true) (he : (d.bq i).error = none) :
    if consumerOk (d.bq i).size (d.bq i).prod (d.bq i).cons (indexWord w (192 + i)) = true then
      ((indicesTaken w d).bq i).cons = indexWord w (192 + i) ∧ ((indicesTaken w d).bq i).error = none
    else ((indicesTaken w d).bq i).error = some .consumerRange ∧ ((indicesTaken w d).bq i).cons = (d.bq i).cons := by
  have hfirst : (each (span 0 64) (takeCqConsumer w) (each (span 0 128) (takeProducer w) d)).bq i = d.bq i := by
    rw [each_same (fun t => t.bq i) _ (span 0 64) _ fun n _ t => takeCqConsumer_keeps (fun u => u.bq i = t.bq i) w n t (fun _ => rfl) rfl]
    exact each_same (fun t => t.bq i) _ (span 0 128) _ fun n _ (t : Dev) => show SMap.get (takeProducer w n t).hif.bqs i {} = SMap.get t.hif.bqs i {} by rw [bqs_takeProducer]
  unfold indicesTaken
  generalize each (span 0 64) (takeCqConsumer w) (each (span 0 128) (takeProducer w) d) = u at hfirst
  obtain ⟨t, ht, hend⟩ := each_at (fun k u => u.bq k) (takeBqConsumer w) (span 0 4) (nodup_span 0 4) u
    (fun n t k h => bq_takeBqConsumer_other w n t k h) i ((mem_span 0 4 i).mpr ⟨Nat.zero_le i, by omega⟩)
  have ht : t.bq i = u.bq i := ht
  have hend : (each (span 0 4) (takeBqConsumer w) u).bq i = (takeBqConsumer w i t).bq i := hend
  rw [hend, bq_takeBqConsumer w i t (by rw [ht, hfirst]; exact ha) (by rw [ht, hfirst]; exact he), ht, hfirst]
  split
  · exact ⟨rfl, he⟩
  · exact ⟨rfl, rfl⟩

/-- Where no read of the page waits, a tag that has come free changes nothing of the page and of the rings but their reads. -/
theorem freed_page (v : Dev) (h : v.hif.dbAgain = false) : v.moreReads.moreCells.pageState = v.pageState ∧
    (∀ k, v.moreReads.moreCells.sq k = { v.sq k with asked := (v.moreReads.moreCells.sq k).asked }) ∧
    v.moreReads.moreCells.hif.cqs = v.hif.cqs ∧ v.moreReads.moreCells.hif.bqs = v.hif.bqs ∧
    v.moreReads.moreCells.regs = v.regs := by
  obtain ⟨u, -, hreads, hsame⟩ := freed_reads v
  obtain rfl := hsame h
  have hhif := hreads.hif
  have hframe := hreads.frame
  refine ⟨?_, hreads.sqs, ?_, ?_, ?_⟩
  · unfold pageState
    rw [hhif]
  · rw [hhif]
  · rw [hhif]
  · rw [hframe]

end Sys2Proof.Machine.Dev

namespace Sys2Proof.Machine

theorem exec_doorbellReadComplete (s : State) (r : Option (List Word)) :
    exec (.doorbellReadComplete r) s = s.onDev (Dev.pageDone r) := rfl

/-- Settles O8: each ring takes its index once, and the tags that come free change nothing but which reads are outstanding. -/
theorem doorbellReadMovesIndices : Obligations.DoorbellReadMovesIndices := by
  refine ⟨fun s w hread hagain => ?_, fun s hread hagain => ?_⟩
  · have hstep := Dev.pageDone_some w s.dev hread
    have hsq := Dev.sq_indices w (Dev.pageRead w s.dev.pageOver)
    have hcq := Dev.cq_indices w (Dev.pageRead w s.dev.pageOver)
    have hbq := Dev.bq_indices w (Dev.pageRead w s.dev.pageOver)
    have hpage : (Dev.indicesTaken w (Dev.pageRead w s.dev.pageOver)).pageState = (false, false, 0, w) :=
      (Dev.pageState_takenIndices w _).trans
        ((show (Dev.pageRead w s.dev.pageOver).pageState = (false, s.dev.hif.dbAgain, 0, w) from rfl).trans (by rw [hagain]))
    generalize Dev.indicesTaken w (Dev.pageRead w s.dev.pageOver) = v at hstep hsq hcq hbq hpage
    obtain ⟨hstate, hsqs, hcqs, hbqs, -⟩ := Dev.freed_page v (congrArg (fun p : Bool × Bool × Nat × List Word => p.2.1) hpage)
    rw [hpage] at hstate
    rw [← hstep] at hstate hsqs hcqs hbqs
    clear hstep
    generalize hd : Dev.pageDone (some w) s.dev = d at hstate hsqs hcqs hbqs
    have hdcq : ∀ k, d.cq k = v.cq k := fun k => by unfold Dev.cq; rw [hcqs]
    have hdbq : ∀ k, d.bq k = v.bq k := fun k => by unfold Dev.bq; rw [hbqs]
    refine ⟨d, (exec_doorbellReadComplete s (some w)).trans (s.onDev_eq hd),
      congrArg (fun p : Bool × Bool × Nat × List Word => p.1) hstate, congrArg (fun p : Bool × Bool × Nat × List Word => p.2.2.1) hstate,
      congrArg (fun p : Bool × Bool × Nat × List Word => p.2.2.2) hstate, fun i hi ha he => ?_, fun i hi ha he => ?_, fun i hi ha he => ?_⟩
    · have h : if (s.dev.sq i).oldPage = true then v.sq i = { s.dev.sq i with oldPage := false }
          else if Dev.indexWord w i < 2 ^ (s.dev.sq i).size then
            v.sq i = { s.dev.sq i with prod := Dev.indexWord w i, asked := (v.sq i).asked }
          else (v.sq i).error = some .producerRange := hsq i hi ha he
      rw [hsqs i]
      split
      case isTrue ho =>
        rw [if_pos ho] at h
        rw [h]
        exact ⟨rfl, rfl, he⟩
      case isFalse ho =>
        rw [if_neg ho] at h
        split
        case isTrue hp =>
          rw [if_pos hp] at h
          rw [h]
          exact ⟨rfl, he⟩
        case isFalse hp =>
          rw [if_neg hp] at h
          exact h
    · rw [hdcq]
      exact hcq i hi ha he
    · rw [hdbq]
      exact hbq i hi ha he
  · have hstep := Dev.pageDone_none s.dev hread
    have hflag : (s.dev.pageOver.stick Fl.hifStatusDbReadFail 0).hw Fl.hifStatusDbReadFail 0 = 1 := Dev.hw_stick_same _ _ _ (by decide) rfl
    have hpage : (s.dev.pageOver.stick Fl.hifStatusDbReadFail 0).pageState = (false, false, 0, s.dev.hif.dbLast) :=
      (show (s.dev.pageOver.stick Fl.hifStatusDbReadFail 0).pageState = (false, s.dev.hif.dbAgain, 0, s.dev.hif.dbLast) from rfl).trans (by rw [hagain])
    have hhif : (s.dev.pageOver.stick Fl.hifStatusDbReadFail 0).hif = s.dev.pageOver.hif := rfl
    generalize s.dev.pageOver.stick Fl.hifStatusDbReadFail 0 = v at hstep hflag hpage hhif
    obtain ⟨hstate, hsqs, hcqs, hbqs, hregs⟩ := Dev.freed_page v (congrArg (fun p : Bool × Bool × Nat × List Word => p.2.1) hpage)
    have hvsq : ∀ k, v.sq k = s.dev.sq k := fun k => by unfold Dev.sq; rw [hhif]; rfl
    rw [hpage] at hstate
    rw [hhif, ← hstep] at hcqs hbqs
    rw [← hstep] at hstate hsqs hregs
    clear hstep
    generalize hd : Dev.pageDone none s.dev = d at hstate hsqs hcqs hbqs hregs
    refine ⟨d, (exec_doorbellReadComplete s none).trans (s.onDev_eq hd),
      congrArg (fun p : Bool × Bool × Nat × List Word => p.1) hstate, congrArg (fun p : Bool × Bool × Nat × List Word => p.2.2.1) hstate,
      ?_, fun i => ?_, hcqs, hbqs⟩
    · unfold Dev.hw
      rw [hregs]
      exact hflag
    · rw [hsqs i, hvsq]

end Sys2Proof.Machine
end

section
/-! Refutation for CAN_TX (R43, R395): the tags in use are counted entry by entry over the table of the submission rings, while a ring's
entry is found by its first one. A table that lists two entries for a ring, or rings out of order, is no state that the block builds,
but the statement speaks of every state. -/

namespace Sys2Proof.Proofs

open Sys2Proof.Machine

/-- Ring 1 stands before ring 0 in the table, and 31 of the 32 tags are taken: 30 by the read of the host area, one by the descriptor read
of ring 0, which is active. CAN controller 0 is enabled. -/
def ringsOutOfOrder : State :=
  let d := operating.dev.setCfg Fl.canCfgEnable 0 1
  { operating with
    dev := { d with hif := { d.hif with dbTags := 30, sqs := [(1, {}), (0, { active := true, anyUnit := true, size := 4, asked := true })] } } }

/-- An indirect CAN_TX for controller 0. -/
def indirectTx : Desc := withOpcode .canTx { w0 := 0xFF1000, w1 := 0, w2 := 0, w3 := 8, w4 := 0, w5 := 0, w6 := 0, w7 := 0 }

/-- What the statement's clause on CAN_TX asks for. -/
theorem indirectTx_admitted :
    ringsOutOfOrder.dev.admits .canTx 0 indirectTx ∧ Dev.txCheck indirectTx = none ∧ indirectTx.opflag 0 = true ∧
      ringsOutOfOrder.dev.on Fl.canCfgEnable 0 = true ∧ (ringsOutOfOrder.dev.can 0).queue.length < 32 ∧
      ringsOutOfOrder.dev.busFree = true := by
  unfold Dev.admits
  decide +kernel

/-- The data reads of a controller that are outstanding after a command. -/
def readsAfter (c : Nat) (o : Host.Outcome State Fault Refusal) : List Nat :=
  match o with
  | .next t => (t.dev.can c).reads
  | _ => []

/-- The slot of the CAN_TX returns in a second entry for ring 0, which holds its tag twice: none is free, and no read goes out. -/
theorem readsAfter_indirectTx : readsAfter 0 (exec (.canTx 0 0 indirectTx) ringsOutOfOrder) = [] := by decide +kernel

/-- Refutes O52: the tag that was free before the CAN_TX is free no longer once its slot has returned, and its data is not asked for. -/
theorem not_canTraffic : ¬ Obligations.CanTraffic := by
  unfold Obligations.CanTraffic
  rintro ⟨htx, -⟩
  obtain ⟨hadmits, hcheck, hindirect, hon, hroom, hfree⟩ := indirectTx_admitted
  obtain ⟨d, hd, -, -, hread, -⟩ := htx ringsOutOfOrder 0 0 indirectTx indirectTx 0 rfl rfl hadmits hcheck hon hroom
  have hnone := readsAfter_indirectTx
  rw [hd] at hnone
  have hreads : (d.can 0).reads = (ringsOutOfOrder.dev.can 0).reads ++ [(ringsOutOfOrder.dev.can 0).nextKey] := (hread hindirect hfree).1
  have hreads' : (d.can 0).reads = [] := hnone
  rw [hreads'] at hreads
  exact List.append_ne_nil_of_right_ne_nil _ (List.cons_ne_nil _ _) hreads.symm

end Sys2Proof.Proofs
end

section
/-! Refutation for SIGN_LOAD (R58, R90, R350): the default completion ring of a submission ring is a number of any size in the state.
SQ_CFG gives it six bits, but the statement speaks of every state, and CQ_DROPPED of a ring that no device has lies on SIGN_TBL. -/

namespace Sys2Proof.Proofs

open Sys2Proof.Machine

/-- Ring 0 is active, and its default completion ring is 1872, which is not active. -/
def strayDefault : State :=
  { operating with dev := { operating.dev with hif := { operating.dev.hif with sqs := [(0, { active := true, anyUnit := true, defCq := 1872 })] } } }

/-- A SIGN_LOAD of five cells on axis 0 in direction 0, whose record goes to the default ring. -/
def fiveCells : Desc := withOpcode .signLoad { w0 := 0xFF0000, w1 := 0, w2 := 0, w3 := 0, w4 := 0, w5 := 5, w6 := 0, w7 := 0 }

/-- The record of that SIGN_LOAD is dropped, and the drop count of ring 1872 is SIGN_TBL of axis 0 in direction 0. -/
theorem cqDropped_signTbl : Reg.offset .cqDropped 1872 = Reg.offset .signTbl 0 := by decide

/-- What the statement's clause on SIGN_LOAD asks for. -/
theorem fiveCells_admitted :
    strayDefault.dev.admits .signLoad 0 fiveCells ∧
      axisFails (strayDefault.dev.leaves fiveCells.unit) (Dev.loadCheck fiveCells strayDefault.dev) = [] ∧
      fiveCells.opflag 0 = false ∧ 0 ∈ strayDefault.dev.leaves fiveCells.unit := by
  unfold Dev.admits
  decide +kernel

/-- The cells that SIGN_TBL of axis 0 shows in direction 0 after a command. -/
def cellsAfter (o : Host.Outcome State Fault Refusal) : Nat :=
  match o with
  | .next t => t.dev.hw Fl.signTblNcells 0
  | _ => 0

/-- The dropped record counts as a sixth cell. -/
theorem cellsAfter_fiveCells : cellsAfter (exec (.signLoad 0 0 fiveCells) strayDefault) = 6 := by decide +kernel

/-- Refutes O39: the table of five cells shows six in SIGN_TBL once the record of the SIGN_LOAD is dropped. -/
theorem not_signatureTablesAndEvents : ¬ Obligations.SignatureTablesAndEvents := by
  unfold Obligations.SignatureTablesAndEvents
  rintro ⟨hload, -⟩
  obtain ⟨hadmits, hpass, hdir, hleaf⟩ := fiveCells_admitted
  obtain ⟨d, hd, -, haxes, -⟩ := hload strayDefault 0 0 fiveCells fiveCells _ rfl hadmits hpass rfl
  have hsix := cellsAfter_fiveCells
  rw [hd] at hsix
  obtain ⟨-, hfive, -⟩ := haxes 0 hleaf
  obtain ⟨-, -, hcells⟩ := hfive hdir
  have hsix : d.hw Fl.signTblNcells 0 = 6 := hsix
  exact absurd (hsix.symm.trans hcells) (by decide +kernel)

end Sys2Proof.Proofs
end

section
/-! Proofs for the step of phase 5 in profile mode (chapter 4). -/

namespace Sys2Proof.Machine

/-! ## Sets and the deceleration that a profile needs (R114 to R116) -/

/-- A set is valid by R115. -/
theorem setFault_none_iff (x : ParamSet) (w : Writes) : setFault x w = none ↔
    x.vmax ≠ 0 ∧ x.vstart.toNat ≤ x.vmax.toNat ∧ x.vstop.toNat ≤ x.vmax.toNat ∧ x.a1 ≠ 0 ∧ x.a2 ≠ 0 ∧ x.d2 ≠ 0 ∧ x.d1 ≠ 0 := by
  have hif (c : Prop) [Decidable c] (l : List (Option Nat)) : (if c then [l] else []) = [] ↔ ¬ c := by
    split <;> simp [*]
  unfold setFault
  dsimp only
  simp only [List.isEmpty_iff, List.append_eq_nil_iff, hif, ite_eq_left_iff, reduceCtorEq, imp_false, not_not, Nat.not_lt, and_assoc, ne_eq]

/-- A quotient by a positive number stays below a bound of the dividend that is not negative. -/
theorem quot_le {a b c : Int} (hb : 0 < b) (hc : 0 ≤ c) (h : a ≤ c) : quot a b ≤ c := by
  unfold quot
  by_cases ha : 0 ≤ a
  · exact (Int.tdiv_le_self b ha).trans h
  · have hneg : 0 ≤ (-a).tdiv b := Int.tdiv_nonneg (by omega) hb.le
    rw [Int.neg_tdiv] at hneg
    omega

theorem prm_unlimited (x : ParamSet) : prm x 0 = prm x 0xFFFFFFFF := rfl

/-- Without a limit, no profile needs more than DMAX. -/
theorem need_le_unlimited (x : ParamSet) (v r : Int) (h0 : 0 ≤ v) (hv : v < 2 ^ 32) : (prm x 0).need v r ≤ (prm x 0).dmax := by
  have hk : ∀ k : Int, v * v - k * k ≤ 2 ^ 64 := fun k => by nlinarith [mul_self_nonneg k]
  show _ ≤ (2 ^ 80 : Int)
  unfold Prm.need
  dsimp only
  split
  case isTrue h => exact (quot_le (by omega) (by decide) (hk _)).trans (by decide)
  case isFalse =>
    split
    · decide
    · exact (quot_le (by omega) (by decide) (hk _)).trans (by decide)

/-! ## The step (R116) -/

/-- A profile whose next step would reach its target takes the target. -/
theorem profileStep_reaches (p : Prm) (m : Motion) (h : m.dir * (fine m.target - m.p) ≤ m.v) :
    profileStep p none m = { m with used := p.braking, p := fine m.target, v := 0, reached := some 0 } := by
  unfold profileStep
  dsimp only
  rw [if_pos h]

/-- A motion after a step of a profile that does not reach its target: at speed v, with `down`, and as an overshoot. -/
def stepped (p : Prm) (m : Motion) (r v : Int) (down : Bool) (ovs : Nat) (ovsDir : Int) : Motion :=
  { m with used := p.braking, raised := m.raised || p.tooLate m r, down := down, v := v, p := m.p + m.dir * v, ovs := ovs, ovsDir := ovsDir }

/-- The speed of a step that does not reach the target, by the four cases of R116. -/
theorem profileStep_runs (p : Prm) (m : Motion) (r : Int) (hr : r = m.dir * (fine m.target - m.p)) (h : m.v < r) :
    ∃ v down ovs dir, profileStep p none m = stepped p m r v down ovs dir ∧
      (p.vstop < m.v → r ≤ p.brake m.v + m.v → p.need m.v r ≤ p.dmax → v = max (m.v - max (p.need m.v r) (p.dec m.v)) p.vstop ∧ down = true) ∧
      (p.vstop < m.v → r ≤ p.brake m.v + m.v → p.dmax < p.need m.v r → v = max (m.v - p.dmax) 0 ∧ ovs = 1) ∧
      (¬ (p.vstop < m.v ∧ r ≤ p.brake m.v + m.v) → p.vmax < m.v → v = max (m.v - p.dec m.v) p.vmax) ∧
      (¬ (p.vstop < m.v ∧ r ≤ p.brake m.v + m.v) → m.v ≤ p.vmax →
        v = if m.down = false ∧ p.brake (min (m.v + p.acc m.v) p.vmax) + min (m.v + p.acc m.v) p.vmax < r
          then min (m.v + p.acc m.v) p.vmax else m.v) := by
  unfold profileStep
  dsimp only
  rw [← hr, if_neg (Int.not_le.mpr h)]
  split
  case isTrue hb =>
    obtain ⟨hfast, hnear⟩ := hb
    split
    case isTrue hn => exact ⟨_, _, _, _, rfl, fun _ _ hle => absurd hn (Int.not_lt.mpr hle), fun _ _ _ => ⟨rfl, rfl⟩,
      fun hno => absurd ⟨hfast, hnear⟩ hno, fun hno => absurd ⟨hfast, hnear⟩ hno⟩
    case isFalse hn => exact ⟨_, _, _, _, rfl, fun _ _ _ => ⟨rfl, rfl⟩, fun _ _ hlt => absurd hlt hn,
      fun hno => absurd ⟨hfast, hnear⟩ hno, fun hno => absurd ⟨hfast, hnear⟩ hno⟩
  case isFalse hb =>
    split
    case isTrue hv => exact ⟨_, _, _, _, rfl, fun hfast hnear => absurd ⟨hfast, hnear⟩ hb, fun hfast hnear => absurd ⟨hfast, hnear⟩ hb,
      fun _ _ => rfl, fun _ hle => absurd hv (Int.not_lt.mpr hle)⟩
    case isFalse hv =>
      refine ⟨_, _, _, _, rfl, fun hfast hnear => absurd ⟨hfast, hnear⟩ hb, fun hfast hnear => absurd ⟨hfast, hnear⟩ hb,
        fun _ hlt => absurd hlt hv, fun _ _ => ?_⟩
      simp

namespace Dev

/-! ## A profile that runs (R116, R122) -/

/-- A step of a motion depends on the axis's motion alone. -/
theorem modMot_congr (d : Dev) (n : Nat) {f g : Motion → Motion} (h : f (d.axis n).mot = g (d.axis n).mot) :
    d.modMot n f = d.modMot n g := by
  unfold modMot modAxis
  dsimp only
  rw [h]

/-- The end of a profile that is due. -/
def profileEnds (n : Nat) (d : Dev) : Dev := if d.moveEndDue n then finishProfile n d else d

/-- Phase 5 of an axis whose profile runs: the step, its end where it is due, and the setpoint of the tick. -/
theorem phase5Axis_runs (d : Dev) (n : Nat) (h : d.runsProfile n) :
    phase5Axis n d = publish n (profileEnds n (d.modMot n (profileStep (d.params n) none))) := by
  obtain ⟨-, -, hstop, hvlim, hpre, -, hsl, hmode, hrev, hwait, hreached, h1, h2⟩ := h
  have hwaits : slWaits n d = d := by
    unfold slWaits
    rw [hsl]
    rfl
  have hcap : d.vcap n = none := by
    unfold vcap
    rw [hvlim]
    rfl
  have hparams : d.vhandCap n (d.params n) = d.params n := by
    unfold vhandCap vhandLim
    rw [hsl]
    rfl
  have hstep : modeStep n d = d.modMot n (profileStep (d.params n) none) := by
    unfold modeStep
    dsimp only
    rw [hmode, hcap, hparams]
    refine modMot_congr d n ?_
    rw [hreached, if_neg (by exact Bool.false_ne_true), if_neg (by rintro (h | h); exacts [h1 h, h2 h])]
  unfold phase5Axis
  dsimp only
  rw [hwaits, hstop]
  rw [hrev, if_neg Bool.false_ne_true]
  dsimp only
  rw [hrev, if_neg Bool.false_ne_true, hwait, if_neg Bool.false_ne_true, hwait, if_neg (by
    rw [Bool.false_or]
    exact fun h => hpre (beq_iff_eq.mp h)), hstep]
  rfl

/-- The axis's part of the setpoint frame. -/
def published (x : HubAxis) : HubAxis := { x with spPos := coarse x.mot.p, spSpeed := coarseV (x.mot.dir * x.mot.v) }

/-- The setpoint of an armed axis in FIELD that does not wait is its profile's. -/
theorem axis_publish (n : Nat) (d : Dev) (ha : (d.axis n).armed = true) (hc : (d.axis n).cmd = .field) (hw : (d.axis n).mot.wait = false)
    (hh : (d.mva n).drive ≠ .halt) : (publish n d).axis n = published (d.axis n) := by
  unfold publish published
  rw [axis_modAxis]
  dsimp only
  rw [hc, hw, ha, beq_eq_false_iff_ne.mpr hh]
  rfl

theorem publish_frame (n : Nat) (d : Dev) : publish n d = { d with hax := (publish n d).hax } := rfl

theorem axis_publish_other (d : Dev) {n k : Nat} (h : k ≠ n) : (publish n d).axis k = d.axis k := axis_modAxis_other d _ h

theorem coarse_fine (p : Pos) : coarse (fine p) = p := by
  unfold coarse fine quot
  rw [Int.mul_tdiv_cancel _ (by decide)]
  exact BitVec.ofInt_toInt

end Dev
end Sys2Proof.Machine
end

section
/-! Proofs for the ends of a profile, of reversal braking, and for the settling time (chapters 4 and 6). -/

namespace Sys2Proof.Machine.Dev

/-! ## Phase 5 of a profile (R116, R122) -/

theorem axis_modMot (d : Dev) (n : Nat) (f : Motion → Motion) : (d.modMot n f).axis n = { d.axis n with mot := f (d.axis n).mot } :=
  axis_modAxis d n _

/-- A step that does not reach the target: the axis's motion and the setpoint of the tick, and nothing else. -/
theorem phase5Axis_steps (d : Dev) (n : Nat) (h : d.runsProfile n) (r v : Int) (down : Bool) (ovs : Nat) (dir : Int)
    (hstep : profileStep (d.params n) none (d.axis n).mot = stepped (d.params n) (d.axis n).mot r v down ovs dir) :
    (phase5Axis n d).axis n = published { d.axis n with mot := stepped (d.params n) (d.axis n).mot r v down ovs dir } ∧
      (∀ k, k ≠ n → (phase5Axis n d).axis k = d.axis k) ∧ phase5Axis n d = { d with hax := (phase5Axis n d).hax } := by
  obtain ⟨harmed, hcmd, -, -, -, hhalt, -, -, -, hwait, hreached, -, -⟩ := id h
  have he : (d.modMot n (profileStep (d.params n) none)).axis n =
      { d.axis n with mot := stepped (d.params n) (d.axis n).mot r v down ovs dir } := by rw [axis_modMot, hstep]
  have hother : ∀ k, k ≠ n → (d.modMot n (profileStep (d.params n) none)).axis k = d.axis k := fun k hk => axis_modAxis_other d _ hk
  have hframe : d.modMot n (profileStep (d.params n) none) = { d with hax := (d.modMot n (profileStep (d.params n) none)).hax } := rfl
  rw [phase5Axis_runs d n h]
  generalize d.modMot n (profileStep (d.params n) none) = e at he hother hframe
  have hdue : e.moveEndDue n = false := by
    have hnone : (e.axis n).mot.reached = none := by rw [he]; exact hreached
    unfold moveEndDue
    rw [hnone]
    simp
  have hends : profileEnds n e = e := if_neg (by rw [hdue]; exact Bool.false_ne_true)
  rw [hends]
  refine ⟨?_, fun k hk => (axis_publish_other e hk).trans (hother k hk), ?_⟩
  · rw [axis_publish n e (by rw [he]; exact harmed) (by rw [he]; exact hcmd) (by rw [he]; exact hwait) (by rw [hframe]; exact hhalt), he]
  · rw [publish_frame, hframe]

/-- A motion that has taken its target. -/
def reachedTarget (p : Prm) (m : Motion) : Motion := { m with used := p.braking, p := fine m.target, v := 0, reached := some 0 }

/-- A step that reaches the target ends the profile where the axis lies in its window. -/
theorem phase5Axis_reaches (d : Dev) (n : Nat) (h : d.runsProfile n)
    (hv : (d.axis n).mot.dir * (fine (d.axis n).mot.target - (d.axis n).mot.p) ≤ (d.axis n).mot.v) :
    (phase5Axis n d).axis n = published (if d.cfg Fl.motionInposWindow n = 0 ∨ d.inWindow n (d.toGo n) = true
      then { d.axis n with st := .idle, stop := none,
                           mot := { modeless (reachedTarget (d.params n) (d.axis n).mot) with act := none } }
      else { d.axis n with mot := reachedTarget (d.params n) (d.axis n).mot }) ∧
      ∀ k, k ≠ n → (phase5Axis n d).axis k = d.axis k := by
  obtain ⟨harmed, hcmd, hstop, -, -, hhalt, -, hmode, -, hwait, -, -, -⟩ := id h
  have he : (d.modMot n (profileStep (d.params n) none)).axis n = { d.axis n with mot := reachedTarget (d.params n) (d.axis n).mot } := by
    rw [axis_modMot, profileStep_reaches _ _ hv]
    rfl
  have hother : ∀ k, k ≠ n → (d.modMot n (profileStep (d.params n) none)).axis k = d.axis k := fun k hk => axis_modAxis_other d _ hk
  have hframe : d.modMot n (profileStep (d.params n) none) = { d with hax := (d.modMot n (profileStep (d.params n) none)).hax } := rfl
  rw [phase5Axis_runs d n h]
  generalize d.modMot n (profileStep (d.params n) none) = e at he hother hframe
  have hdue : e.moveEndDue n = true ↔ d.cfg Fl.motionInposWindow n = 0 ∨ d.inWindow n (d.toGo n) = true := by
    have hcfg : e.cfg Fl.motionInposWindow n = d.cfg Fl.motionInposWindow n := cfg_congr (by rw [hframe]) _ _
    have hwin : e.inWindow n (e.toGo n) = d.inWindow n (d.toGo n) := by
      rw [inWindow_congr (by rw [hframe])]
      unfold toGo
      rw [he]
      rfl
    unfold moveEndDue
    rw [hwin, hcfg, he]
    simp [reachedTarget, hmode, hstop]
  unfold profileEnds
  split
  case isTrue hend =>
    have hf := finishProfile_motion n e
    have hax := axis_finishProfile n e
    generalize finishProfile n e = f at hf hax
    have hdrive : (f.mva n).drive ≠ .halt := by
      rw [hf.frame, hframe]
      exact hhalt
    refine ⟨?_, fun k hk => ?_⟩
    · rw [axis_publish n f (by rw [hax, he]; exact harmed) (by rw [hax, he]; exact hcmd) (by rw [hax]; rfl) hdrive, hax, he,
        if_pos (hdue.mp hend)]
    · rw [axis_publish_other f hk, hf.other k (List.mem_singleton.not.mpr hk), hother k hk]
  case isFalse hend =>
    refine ⟨?_, fun k hk => (axis_publish_other e hk).trans (hother k hk)⟩
    rw [axis_publish n e (by rw [he]; exact harmed) (by rw [he]; exact hcmd) (by rw [he]; exact hwait) (by rw [hframe]; exact hhalt), he,
      if_neg fun h => hend (hdue.mpr h)]

/-! ## The end of reversal braking (R196) -/

/-- An axis back in FIELD at its latched position. -/
def braked (x : HubAxis) : HubAxis := { x with cmd := .field, mot := { x.mot with rev := false, p := fine x.lat.pos, v := 0 } }

/-- The new motion in its mode. -/
def revMode (n : Nat) (d : Dev) : Dev :=
  match (d.axis n).mot.mode with
  | .profile => startProfile n d
  | .streaming => d.modMot n fun m => { m with seg := m.seg.map fun r => { r with start := m.p, waiting := false } }
  | .velocity => d.modMot n fun m => { m with dir := if m.cmd < 0 then -1 else 1, v := (d.params n).vstart }
  | .hand => d.modMot n fun m => { m with dir := if m.cmd < 0 then -1 else 1 }
  | _ => d

/-- A sensorless axis in a mode begins its start. -/
def revSeq (n : Nat) (mode : Mode) (d : Dev) : Dev :=
  if d.sensorless n && mode ≠ .none then beginSeq n ⟨(d.axis n).mot.dir, false, false, false, false⟩ d else d

theorem revStart_eq (n : Nat) (d : Dev) : revStart n d =
    revSeq n (((d.modAxis n braked).setHw Fl.axisStatusRevBraking n 0).axis n).mot.mode
      (revMode n ((d.modAxis n braked).setHw Fl.axisStatusRevBraking n 0)) := by
  unfold revStart revSeq revMode
  dsimp only
  rfl

/-- The mode's part of a start touches the motion alone, and of it neither the mode, the position, nor the reversal. -/
theorem axis_revMode (n : Nat) (d : Dev) : ∃ m : Motion, (revMode n d).axis n = { d.axis n with mot := m } ∧ m.mode = (d.axis n).mot.mode ∧
    m.p = (d.axis n).mot.p ∧ m.rev = (d.axis n).mot.rev := by
  unfold revMode
  split
  · exact ⟨_, axis_startProfile n d, rfl, rfl, rfl⟩
  · exact ⟨_, axis_modMot d n _, rfl, rfl, rfl⟩
  · exact ⟨_, axis_modMot d n _, rfl, rfl, rfl⟩
  · exact ⟨_, axis_modMot d n _, rfl, rfl, rfl⟩
  · exact ⟨_, rfl, rfl, rfl, rfl⟩

theorem revMode_frame (n : Nat) (d : Dev) : revMode n d = { d with hax := (revMode n d).hax } := by
  unfold revMode
  split <;> rfl

theorem axis_revMode_other (d : Dev) {n k : Nat} (h : k ≠ n) : (revMode n d).axis k = d.axis k := by
  unfold revMode startProfile
  split
  · exact axis_modAxis_other d _ h
  · exact axis_modAxis_other d _ h
  · exact axis_modAxis_other d _ h
  · exact axis_modAxis_other d _ h
  · rfl

theorem revSeq_frame (n : Nat) (mode : Mode) (d : Dev) : revSeq n mode d = { d with hax := (revSeq n mode d).hax } := by
  unfold revSeq
  split <;> rfl

theorem axis_revSeq_other (mode : Mode) (d : Dev) {n k : Nat} (h : k ≠ n) : (revSeq n mode d).axis k = d.axis k := by
  unfold revSeq
  split
  · exact axis_modAxis_other d _ h
  · rfl

theorem axis_revSeq (n : Nat) (mode : Mode) (d : Dev) : (revSeq n mode d).axis n =
    if d.sensorless n && mode ≠ .none then sequenced ⟨(d.axis n).mot.dir, false, false, false, false⟩ (d.axis n) else d.axis n := by
  unfold revSeq
  split
  · exact axis_beginSeq n _ d
  · rfl

/-- An axis whose reversal braking has ended. -/
theorem axis_revStart (n : Nat) (d : Dev) : ∃ m : Motion, m.mode = (d.axis n).mot.mode ∧ m.p = fine (d.axis n).lat.pos ∧ m.rev = false ∧
    (revStart n d).axis n = if d.sensorless n && (d.axis n).mot.mode ≠ .none
      then sequenced ⟨m.dir, false, false, false, false⟩ { d.axis n with cmd := .field, mot := m }
      else { d.axis n with cmd := .field, mot := m } := by
  have hstart : ((d.modAxis n braked).setHw Fl.axisStatusRevBraking n 0).axis n = braked (d.axis n) := axis_modAxis d n _
  have hmode : (((d.modAxis n braked).setHw Fl.axisStatusRevBraking n 0).axis n).mot.mode = (d.axis n).mot.mode := by rw [hstart]; rfl
  have hsl : ((d.modAxis n braked).setHw Fl.axisStatusRevBraking n 0).sensorless n = d.sensorless n := rfl
  rw [revStart_eq, hmode]
  generalize (d.modAxis n braked).setHw Fl.axisStatusRevBraking n 0 = e at hstart hsl
  obtain ⟨m, hm, hmm, hp, hrev⟩ := axis_revMode n e
  have hframe := revMode_frame n e
  have hsl' : (revMode n e).sensorless n = d.sensorless n := by
    rw [← hsl]
    have hcfg : (revMode n e).cfg Fl.fbCfgMode n = e.cfg Fl.fbCfgMode n := cfg_congr (by rw [hframe]) _ _
    unfold sensorless
    rw [hcfg]
  rw [hstart] at hm hmm hp hrev
  exact ⟨m, hmm, hp, hrev, by rw [axis_revSeq, hsl', hm]; rfl⟩

theorem revStart_frame (n : Nat) (d : Dev) : revStart n d = { d.setHw Fl.axisStatusRevBraking n 0 with hax := (revStart n d).hax } := by
  rw [revStart_eq]
  have hstart : (d.modAxis n braked).setHw Fl.axisStatusRevBraking n 0 =
      { d.setHw Fl.axisStatusRevBraking n 0 with hax := ((d.modAxis n braked).setHw Fl.axisStatusRevBraking n 0).hax } := rfl
  generalize (d.modAxis n braked).setHw Fl.axisStatusRevBraking n 0 = e at hstart
  rw [revSeq_frame, revMode_frame, hstart]

theorem axis_revStart_other (d : Dev) {n k : Nat} (h : k ≠ n) : (revStart n d).axis k = d.axis k := by
  rw [revStart_eq, axis_revSeq_other _ _ h, axis_revMode_other _ h]
  exact axis_modAxis_other d _ h

/-! ## The settling time (R122) -/

/-- The motion of an action whose settling time has been reported. -/
def reportSettle (n : Nat) (d : Dev) : Dev := d.modMot n fun m => { m with settled := true }

theorem settleRaise_settle (n : Nat) (d : Dev) (h : d.settleDue n = true) :
    (settleRaise n d).settle = (reportSettle n d).raise1 .followError n 0 presMotion := by
  unfold settleRaise
  rw [if_pos h]
  rfl

end Sys2Proof.Machine.Dev

namespace Sys2Proof.Machine

theorem exec_moveEnd (s : State) (ax : Fin 64) :
    exec (.moveEnd ax) s = s.onDev fun d => if d.moveEndDue ax then Dev.finishProfile ax d else d := rfl
theorem exec_reversalBrakingEnd (s : State) (ax : Fin 64) : exec (.reversalBrakingEnd ax) s =
    s.onDev fun d => if (d.axis ax).stop.isNone && d.revDue ax then Dev.revStart ax d else d := rfl
theorem exec_settleTimeout (s : State) (ax : Fin 64) :
    exec (.settleTimeout ax) s = s.onDev fun d => (Dev.settleRaise ax d).settle := rfl

/-- A MOVE or RESUME that is due to end. -/
theorem exec_moveEnd_due (s : State) (ax : Fin 64) (hdue : s.dev.moveEndDue ax = true) :
    ∃ d, exec (.moveEnd ax) s = .next { s with dev := d } ∧ (d.axis ax).st = .idle ∧ (d.axis ax).mot.mode = .none ∧
      (d.axis ax).mot.act = none ∧ (d.axis ax).armed = (s.dev.axis ax).armed ∧ (d.axis ax).set = (s.dev.axis ax).set ∧
      (∀ n, n ≠ ax.val → d.axis n = s.dev.axis n) ∧
      d = { s.dev with hif := d.hif, acts := d.acts, hax := d.hax, signs := d.signs, regs := d.regs } := by
  have hmotion := Dev.finishProfile_motion ax s.dev
  have hax := Dev.axis_finishProfile ax s.dev
  have hd : (fun d : Dev => if d.moveEndDue ax then Dev.finishProfile ax d else d) s.dev = Dev.finishProfile ax s.dev := if_pos hdue
  generalize Dev.finishProfile ax s.dev = d at hmotion hax hd
  refine ⟨d, (exec_moveEnd s ax).trans (s.onDev_eq hd), ?_, ?_, ?_, ?_, ?_,
    fun n hn => hmotion.other n (List.mem_singleton.not.mpr hn), ?_⟩
  · rw [hax]
  · rw [hax]
    rfl
  · rw [hax]
  · rw [hax]
  · rw [hax]
  · rw [hmotion.frame]

/-- Reversal braking that is due to end. -/
theorem exec_reversalBrakingEnd_due (s : State) (ax : Fin 64) (hstop : (s.dev.axis ax).stop = none) (hdue : s.dev.revDue ax = true) :
    ∃ d, exec (.reversalBrakingEnd ax) s = .next { s with dev := d } ∧ (d.axis ax).mot.rev = false ∧
      (d.axis ax).mot.p = fine (s.dev.axis ax).lat.pos ∧ d.hw Fl.axisStatusRevBraking ax = 0 ∧
      (s.dev.sensorless ax = false → (d.axis ax).cmd = .field ∧ (d.axis ax).seq = (s.dev.axis ax).seq) ∧
      (s.dev.sensorless ax = true → (s.dev.axis ax).mot.mode ≠ .none →
        (d.axis ax).cmd = .openloop ∧ (d.axis ax).mot.wait = true ∧
          (d.axis ax).seq = some ⟨(d.axis ax).mot.dir, false, false, false, false⟩) ∧
      (d.axis ax).mot.mode = (s.dev.axis ax).mot.mode ∧ (d.axis ax).st = (s.dev.axis ax).st ∧
      (∀ n, n ≠ ax.val → d.axis n = s.dev.axis n) ∧
      d = { s.dev with hax := d.hax, regs := d.regs } ∧ s.dev.regsBut d [Reg.offset .axisStatus ax] := by
  have hd : (fun d : Dev => if (d.axis ax).stop.isNone && d.revDue ax then Dev.revStart ax d else d) s.dev = Dev.revStart ax s.dev :=
    if_pos (by rw [hstop, hdue]; rfl)
  obtain ⟨m, hmode, hp, hrev, hax⟩ := Dev.axis_revStart ax s.dev
  have hframe := Dev.revStart_frame ax s.dev
  have hother : ∀ n, n ≠ ax.val → (Dev.revStart ax s.dev).axis n = s.dev.axis n := fun n hn => Dev.axis_revStart_other s.dev hn
  generalize Dev.revStart ax s.dev = d at hd hax hframe hother
  have hregs : d.regs = (s.dev.setHw Fl.axisStatusRevBraking ax 0).regs := by rw [hframe]
  have hkept : (d.axis ax).mot.rev = false ∧ (d.axis ax).mot.p = fine (s.dev.axis ax).lat.pos ∧
      (d.axis ax).mot.mode = (s.dev.axis ax).mot.mode ∧ (d.axis ax).st = (s.dev.axis ax).st := by
    rw [hax]
    split
    · exact ⟨hrev, hp, hmode, rfl⟩
    · exact ⟨hrev, hp, hmode, rfl⟩
  obtain ⟨hrev', hp', hmode', hst'⟩ := hkept
  refine ⟨d, (exec_reversalBrakingEnd s ax).trans (s.onDev_eq hd), hrev', hp', ?_, fun hsl => ?_, fun hsl hm => ?_, hmode', hst', hother, ?_, ?_⟩
  · unfold Dev.hw
    rw [hregs]
    exact Dev.hw_setHw_same _ _ _ _ (by decide)
  · rw [hax, hsl, if_neg (by exact Bool.false_ne_true)]
    exact ⟨rfl, rfl⟩
  · rw [hax, hsl, if_pos (by simpa using hm)]
    exact ⟨rfl, rfl, rfl⟩
  · rw [hframe]
    rfl
  · exact ((Dev.regsBut_refl s.dev _).setHw Fl.axisStatusRevBraking ax 0 (List.mem_singleton.mpr rfl)).of_regs hregs

/-- A settling time that has passed outside the window. -/
theorem exec_settleTimeout_due (s : State) (ax : Fin 64) (hdue : s.dev.settleDue ax = true) :
    ∃ d, exec (.settleTimeout ax) s = .next { s with dev := d } ∧ s.dev.reacted d .followError ax 9 ∧
      (d.axis ax).st = (s.dev.axis ax).st ∧ (d.axis ax).mot.mode = (s.dev.axis ax).mot.mode ∧ d.settleDue ax = false ∧
      ∀ n, n ≠ ax.val → d.axis n = s.dev.axis n := by
  have hd := Dev.settleRaise_settle ax s.dev hdue
  have hreacted : s.dev.reacted ((Dev.reportSettle ax s.dev).raise1 .followError ax 0 presMotion) .followError ax 9 :=
    Dev.raise1_reacted (Dev.reportSettle ax s.dev) .followError ax 0 9
  have hhax := Dev.raise1_hax (Dev.reportSettle ax s.dev) .followError ax 0 presMotion
  generalize (Dev.reportSettle ax s.dev).raise1 .followError ax 0 presMotion = d at hd hreacted hhax
  have hax : ∀ n, d.axis n = (Dev.reportSettle ax s.dev).axis n := fun n => by unfold Dev.axis; rw [hhax]
  have hone : d.axis ax = { s.dev.axis ax with mot := { (s.dev.axis ax).mot with settled := true } } := (hax ax).trans (Dev.axis_modMot _ _ _)
  refine ⟨d, (exec_settleTimeout s ax).trans (s.onDev_eq hd), hreacted, by rw [hone], by rw [hone], ?_,
    fun n hn => (hax n).trans (Dev.axis_modAxis_other s.dev _ hn)⟩
  have hsettled : (d.axis ax).mot.settled = true := by rw [hone]
  unfold Dev.settleDue
  dsimp only
  rw [hsettled]
  simp

/-- Settles O17: the step of a profile by its four cases, and its ends. -/
theorem profileEventsEnd : Obligations.ProfileEventsEnd := by
  refine ⟨setFault_none_iff, fun x => ⟨prm_unlimited x, fun v r => need_le_unlimited x v r⟩, fun d n _ h => ?_, fun d n _ h => ?_,
    exec_moveEnd_due, exec_reversalBrakingEnd_due, exec_settleTimeout_due⟩
  · intro p m r t hv
    obtain ⟨v, down, ovs, dir, hstep, hbrake, hover, hslow, hfast⟩ := profileStep_runs p m r rfl hv
    obtain ⟨hax, hother, hframe⟩ := d.phase5Axis_steps n h r v down ovs dir hstep
    obtain ⟨harmed, -, -, -, -, -, -, hmode, -⟩ := h
    have hax : t.axis n = _ := hax
    rw [hax]
    exact ⟨hbrake, hover, hslow, hfast, rfl, rfl, hmode, rfl, rfl, rfl, rfl, harmed, rfl, hother, hframe⟩
  · intro m t hv
    obtain ⟨hax, hother⟩ := d.phase5Axis_reaches n h hv
    obtain ⟨harmed, -, -, -, -, -, -, hmode, -⟩ := h
    have hax : t.axis n = _ := hax
    rw [hax]
    split
    case isTrue hend => exact ⟨rfl, rfl, Dev.coarse_fine _, by simp [Dev.published, coarseV, quot, Dev.modeless, Dev.reachedTarget],
      ⟨rfl, rfl, rfl⟩, harmed, rfl, hother⟩
    case isFalse hend => exact ⟨rfl, rfl, Dev.coarse_fine _, by simp [Dev.published, coarseV, quot, Dev.reachedTarget],
      ⟨rfl, hmode, rfl, rfl⟩, harmed, rfl, hother⟩

end Sys2Proof.Machine
end

section
/-! Proofs for the strike table (chapter 5): STRIKE_ARM, STRIKE_DISARM and SNAPSHOT. -/

namespace Sys2Proof.Machine.Dev

/-! ## Entries of the table -/

/-- A produced record does not see the strikes. -/
theorem produce_strikes (d : Dev) (i : Nat) (r : CRec) (h : SMap Strike) :
    ({ d with strikes := h } : Dev).produce i r = { d.produce i r with strikes := h } := by
  have hcq : ({ d with strikes := h } : Dev).cq i = d.cq i := rfl
  unfold produce
  rw [hcq]
  dsimp only
  split_ifs <;> rfl

/-- The final record of an owner does not see the strikes. -/
theorem finish_strikes (d : Dev) (o : Owner) (st : Status) (unit : Nat) (w : Word) (h : SMap Strike) :
    ({ d with strikes := h } : Dev).finish o st unit w = { d.finish o st unit w with strikes := h } := by
  unfold finish
  dsimp only
  split
  · split
    · exact produce_strikes d _ _ h
    · rfl
  · exact produce_strikes d _ _ h

/-- A descriptor that leaves a strike table h and its final record. -/
theorem strikes_done (d : Dev) (i : Nat) (slot : BitVec 16) (x : Desc) (st : Status) (unit : Nat) (w : Word) (h : SMap Strike) (t : Dev)
    (ht : t = ({ d.taken i slot x with strikes := h } : Dev).finish (d.ownerOf i slot x) st unit w) :
    d.slotTaken t i slot ∧ t.strikes = h ∧ t = { d with hif := t.hif, strikes := t.strikes, regs := t.regs } ∧
      (d.recorded i x → 0 < d.need (d.sq i) x → d.recordAdded t i x (d.finalOf i slot x st unit w)) := by
  rw [finish_strikes] at ht
  have hslot := d.slotTaken_finish_taken i slot x st unit w
  have hframe := d.finish_taken_frame i slot x st unit w
  have hrec := d.recordAdded_finish_taken i slot x st unit w
  generalize (d.taken i slot x).finish (d.ownerOf i slot x) st unit w = u at ht hslot hframe hrec
  subst ht
  exact ⟨hslot, rfl, by rw [hframe], hrec⟩

/-! ## The base tick (R154, R156, R157) -/

/-- The axis of a unit's report depends on the unit table only. -/
theorem rep_units {d t : Dev} (h : t.units = d.units) (u : Nat) : t.rep u = d.rep u := by
  have hu : ∀ v, t.unit v = d.unit v := fun v => by unfold unit; rw [h]
  have hfuel : ∀ fuel v, t.repAxis fuel v = d.repAxis fuel v := by
    intro fuel
    induction fuel with
    | zero => intro v; rfl
    | succ f ih => intro v; simp only [repAxis, hu, ih]
  exact hfuel 512 u

/-- The base tick of a strike is a matter of the units, the axes and the time. -/
theorem baseStrike_congr {d t : Dev} (hu : t.units = d.units) (ha : t.hax = d.hax) (ht : t.time = d.time) (e : Strike) :
    t.baseStrike e = d.baseStrike e := by
  have hax : ∀ n, t.axis n = d.axis n := fun n => by unfold axis; rw [ha]
  have hnow : t.tick32 = d.tick32 := by unfold tick32; rw [ht]
  unfold baseStrike
  dsimp only
  rw [rep_units hu, hax, ht, hnow]

/-- The value of a strike from its base tick on. -/
def baseValue (d : Dev) (e : Strike) : BitVec 40 :=
  if e.key = 2 && bit (e.mode.setWidth 32) 0 then ((e.value.setWidth 32 + d.time.mainsLatch).setWidth 40)
  else if e.key = 3 && bit (e.mode.setWidth 32) 0 then ((e.value.setWidth 32 + d.tick32).setWidth 40) else e.value

theorem baseStrike_eq (d : Dev) (e : Strike) : (d.baseStrike e).2 =
    { e with st := .armed, value := d.baseValue e, prev := (d.axis (d.rep e.unit.toNat)).lat.pos, prevAx := d.rep e.unit.toNat,
             jump := false, since := d.time.tick, passed := (d.baseStrike e).1 && e.fip } := rfl

/-- A strike is behind by the value from its base tick on: only a position strike is, and its value stays. -/
theorem baseStrike_behind (d : Dev) (e : Strike) : (d.baseStrike e).1 = true ↔ d.strikeBehind (d.baseStrike e).2 := by
  have hvalue : e.key = 0 → d.baseValue e = e.value := fun h => by
    unfold baseValue
    rw [h]
    rfl
  rw [baseStrike_eq]
  unfold strikeBehind baseStrike
  dsimp only
  simp only [Bool.and_eq_true, Bool.or_eq_true, beq_iff_eq, decide_eq_true_eq]
  constructor
  · rintro ⟨hk, h⟩
    rw [hvalue hk]
    exact ⟨hk, h⟩
  · rintro ⟨hk, h⟩
    rw [hvalue hk] at h
    exact ⟨hk, h⟩

/-! ## STRIKE_ARM (R163, R164) -/

/-- The owner of a strike's records: they need no credit, and none is silent. -/
def strikeOwner (o : Owner) : Owner := { o with credit := false, silent := false }

/-- The entry that a STRIKE_ARM leaves in place of e. -/
def armedStrike (d : Dev) (o : Owner) (x : Desc) (e : Strike) : Strike :=
  if x.opflag 2 then strikeOf (strikeOwner o) x e.last e.firedAt else (d.baseStrike (strikeOf (strikeOwner o) x e.last e.firedAt)).2

/-- The status of a STRIKE_ARM. -/
def armStatus (d : Dev) (o : Owner) (x : Desc) (e : Strike) : Status :=
  if (d.baseStrike (strikeOf (strikeOwner o) x e.last e.firedAt)).1 && !x.opflag 2 then .armedBehind else .ok

/-- The result word of a STRIKE_ARM. -/
def armWord (x : Desc) (e : Strike) : Word :=
  BitVec.ofNat 32 (strikeIndex x + (if e.live then 1024 else 0) + if x.opflag 2 then 2048 else 0)

theorem armedStrike_hif (d : Dev) (h : Hif) (o : Owner) (x : Desc) (e : Strike) :
    ({ d with hif := h } : Dev).armedStrike o x e = d.armedStrike o x e := by
  unfold armedStrike
  rw [baseStrike_congr (d := d) (t := { d with hif := h }) rfl rfl rfl]

theorem armStatus_hif (d : Dev) (h : Hif) (o : Owner) (x : Desc) (e : Strike) :
    ({ d with hif := h } : Dev).armStatus o x e = d.armStatus o x e := by
  unfold armStatus
  rw [baseStrike_congr (d := d) (t := { d with hif := h }) rfl rfl rfl]

theorem opStrikeArm_loads (c : Ctx) (d : Dev) (hfield : strikeField c.x = none) (hbound : (d.unit (bits c.x.w4 4 9)).bound = true)
    (hring : d.inRing c.ring (bits c.x.w4 4 9) = true)
    (hfree : (d.strike (strikeIndex c.x)).live = false ∨
      (c.x.opflag 0 = true ∧ d.inRing c.ring (d.strike (strikeIndex c.x)).unit.toNat = true)) :
    opStrikeArm c d = c.done (d.armStatus c.owner c.x (d.strike (strikeIndex c.x))) (armWord c.x (d.strike (strikeIndex c.x)))
      (d.setStrike (strikeIndex c.x) (d.armedStrike c.owner c.x (d.strike (strikeIndex c.x)))) := by
  have hmay : ((d.strike (strikeIndex c.x)).live && !(c.x.opflag 0 && d.inRing c.ring (d.strike (strikeIndex c.x)).unit.toNat)) = false := by
    rcases hfree with h | ⟨h, hin⟩
    · rw [h]
      rfl
    · rw [h, hin]
      exact Bool.and_false _
  unfold opStrikeArm
  dsimp only
  rw [hfield]
  dsimp only
  rw [hbound, hring, hmay]
  rfl

theorem dispatch_strikeArm (d : Dev) (i : Nat) (slot : BitVec 16) (y : Desc) (hadm : d.admits .strikeArm i y) (hfield : strikeField y = none)
    (hbound : (d.unit (bits y.w4 4 9)).bound = true) (hring : d.inRing (d.sq i) (bits y.w4 4 9) = true)
    (hfree : (d.strike (strikeIndex y)).live = false ∨
      (y.opflag 0 = true ∧ d.inRing (d.sq i) (d.strike (strikeIndex y)).unit.toNat = true)) :
    dispatch .strikeArm i slot y opStrikeArm d =
      ({ d.taken i slot y with strikes := SMap.set d.strikes (strikeIndex y) (d.armedStrike (d.ownerOf i slot y) y (d.strike (strikeIndex y))) } :
        Dev).finish (d.ownerOf i slot y) (d.armStatus (d.ownerOf i slot y) y (d.strike (strikeIndex y))) y.unit
          (armWord y (d.strike (strikeIndex y))) := by
  rw [dispatch_admits _ _ _ _ _ _ hadm]
  have hframe := d.taken_frame i slot y
  generalize d.taken i slot y = u at hframe
  obtain ⟨h, rfl⟩ : ∃ h, u = { d with hif := h } := ⟨_, hframe⟩
  have hin : ∀ u, ({ d with hif := h } : Dev).inRing (d.sq i) u = d.inRing (d.sq i) u := inRing_units d { d with hif := h } rfl (d.sq i)
  have hop := opStrikeArm_loads (d.ctxOf .strikeArm i slot y) { d with hif := h } hfield hbound ((hin _).trans hring)
    (hfree.imp_right fun hmay => ⟨hmay.1, (hin _).trans hmay.2⟩)
  rw [armStatus_hif, armedStrike_hif] at hop
  exact hop

/-- The number of a two-bit field as its pattern. -/
theorem toNat_ofNat_bits (w : Word) (lo n : Nat) : (BitVec.ofNat n (bits w lo n)).toNat = bits w lo n := by
  rw [BitVec.toNat_ofNat, Nat.mod_eq_of_lt (bits_lt w lo n)]

/-- A key or mode of two bits below 4 is relative where its number is odd. -/
theorem relative_iff (m : Nat) (h : m < 4) : bit ((BitVec.ofNat 2 m).setWidth 32) 0 = decide (m % 2 = 1) := by
  interval_cases m <;> decide

/-- The value that a STRIKE_ARM loads, by its key. -/
def loadValue (d : Dev) (y : Desc) : BitVec 40 :=
  if bits y.w1 19 2 = 0 then y.pos 2 else if bits y.w1 19 2 = 1 then 0
  else (y.w2 + (if y.opflag 2 = true ∨ bits y.w1 21 2 % 2 = 0 then 0
    else if bits y.w1 19 2 = 2 then d.time.mainsLatch else d.tick32)).setWidth 40

theorem value_armedStrike (d : Dev) (o : Owner) (y : Desc) (e : Strike) : (d.armedStrike o y e).value = d.loadValue y := by
  have hk := bits_lt y.w1 19 2
  have hm := relative_iff (bits y.w1 21 2) (bits_lt y.w1 21 2)
  unfold armedStrike loadValue
  cases y.opflag 2 with
  | true =>
    rw [if_pos rfl]
    simp [strikeOf]
  | false =>
    rw [if_neg Bool.false_ne_true, baseStrike_eq]
    unfold baseValue strikeOf
    dsimp only
    rw [hm]
    have hmod : bits y.w1 21 2 % 2 = 0 ∨ bits y.w1 21 2 % 2 = 1 := Nat.mod_two_eq_zero_or_one _
    generalize bits y.w1 21 2 % 2 = r at hmod
    generalize bits y.w1 19 2 = k at hk
    rcases hmod with rfl | rfl <;> interval_cases k <;> simp

/-- What a STRIKE_ARM loads from its descriptor stays over the base tick. -/
theorem armedStrike_kept (d : Dev) (o : Owner) (x : Desc) (e : Strike) : d.armedStrike o x e =
    { strikeOf (strikeOwner o) x e.last e.firedAt with
        st := if x.opflag 2 then .held else .armed, value := (d.armedStrike o x e).value, prev := (d.armedStrike o x e).prev,
        passed := (d.armedStrike o x e).passed, since := (d.armedStrike o x e).since, jump := (d.armedStrike o x e).jump,
        prevAx := (d.armedStrike o x e).prevAx } := by
  unfold armedStrike
  split <;> rfl

/-- The base tick of a STRIKE_ARM that does not hold its entry. -/
theorem armedStrike_based (d : Dev) (o : Owner) (x : Desc) (e : Strike) (h : x.opflag 2 = false) :
    (d.armedStrike o x e).since = d.time.tick ∧ (d.armedStrike o x e).jump = false ∧ (d.armedStrike o x e).prevAx = d.rep x.unit ∧
      (d.armedStrike o x e).prev = (d.axis (d.rep x.unit)).lat.pos ∧
      ((d.armedStrike o x e).passed = true ↔ x.opflag 1 = true ∧ d.strikeBehind (d.armedStrike o x e)) := by
  have hunit : (strikeOf (strikeOwner o) x e.last e.firedAt).unit.toNat = x.unit := toNat_ofNat_bits x.w1 0 9
  have hbehind := d.baseStrike_behind (strikeOf (strikeOwner o) x e.last e.firedAt)
  have heq : d.armedStrike o x e = (d.baseStrike (strikeOf (strikeOwner o) x e.last e.firedAt)).2 := if_neg (by rw [h]; exact Bool.false_ne_true)
  rw [← heq] at hbehind
  rw [← hbehind, heq, baseStrike_eq, hunit]
  refine ⟨rfl, rfl, rfl, rfl, ?_⟩
  rw [Bool.and_eq_true, and_comm]
  rfl

/-- The status of a STRIKE_ARM tells whether its strike is behind. -/
theorem armStatus_eq (d : Dev) (o : Owner) (x : Desc) (e : Strike) :
    (x.opflag 2 = false ∧ d.strikeBehind (d.armedStrike o x e) → d.armStatus o x e = .armedBehind) ∧
      (¬ (x.opflag 2 = false ∧ d.strikeBehind (d.armedStrike o x e)) → d.armStatus o x e = .ok) := by
  have hiff : ((d.baseStrike (strikeOf (strikeOwner o) x e.last e.firedAt)).1 && !x.opflag 2) = true ↔
      x.opflag 2 = false ∧ d.strikeBehind (d.armedStrike o x e) := by
    rw [Bool.and_eq_true, Bool.not_eq_true', and_comm]
    refine and_congr_right fun h => ?_
    rw [baseStrike_behind]
    unfold armedStrike
    rw [if_neg (by rw [h]; exact Bool.false_ne_true)]
  exact ⟨fun h => if_pos (hiff.mpr h), fun h => if_neg fun hc => h (hiff.mp hc)⟩

/-! ## STRIKE_DISARM (R166) -/

/-- The result word of a STRIKE_DISARM of one entry. -/
def disarmWord (d : Dev) (k : Nat) : Word :=
  BitVec.ofNat 32 (SState.code (d.strike k).st + 8 * k + if (d.strike k).firedAt = some d.time.tick then 8192 else 0)

/-- The status of a STRIKE_DISARM of one entry. -/
def disarmStatus (d : Dev) (k : Nat) : Status :=
  if (d.strike k).st = .fired ∨ (d.strike k).firedAt = some d.time.tick then .alreadyFired else .ok

theorem opStrikeDisarm_one (c : Ctx) (d : Dev) (hone : bit c.x.w1 19 = false)
    (hunit : (d.strike (strikeIndex c.x)).live = true → (d.strike (strikeIndex c.x)).unit.toNat = c.x.unit) :
    opStrikeDisarm c d = c.done (d.disarmStatus (strikeIndex c.x)) (d.disarmWord (strikeIndex c.x))
      (d.setStrike (strikeIndex c.x) { d.strike (strikeIndex c.x) with st := .free, owner := none }) := by
  have hmine : ((d.strike (strikeIndex c.x)).live && decide ((d.strike (strikeIndex c.x)).unit.toNat ≠ c.x.unit)) = false := by
    cases hl : (d.strike (strikeIndex c.x)).live with
    | false => rfl
    | true =>
      rw [hunit hl]
      simp
  unfold opStrikeDisarm
  dsimp only
  rw [hone, if_neg (by exact Bool.false_ne_true), hmine, if_neg Bool.false_ne_true]
  unfold disarmStatus disarmWord
  generalize d.strike (strikeIndex c.x) = e
  simp only [beq_iff_eq, Bool.or_eq_true, decide_eq_true_eq, Nat.mul_comm, Nat.reducePow]

theorem dispatch_strikeDisarm_one (d : Dev) (i : Nat) (slot : BitVec 16) (y : Desc) (hadm : d.admits .strikeDisarm i y)
    (hone : bit y.w1 19 = false)
    (hunit : (d.strike (strikeIndex y)).live = true → (d.strike (strikeIndex y)).unit.toNat = y.unit) :
    dispatch .strikeDisarm i slot y opStrikeDisarm d =
      ({ d.taken i slot y with strikes := SMap.set d.strikes (strikeIndex y) { d.strike (strikeIndex y) with st := .free, owner := none } } :
        Dev).finish (d.ownerOf i slot y) (d.disarmStatus (strikeIndex y)) y.unit (d.disarmWord (strikeIndex y)) := by
  rw [dispatch_admits _ _ _ _ _ _ hadm]
  have hframe := d.taken_frame i slot y
  generalize d.taken i slot y = u at hframe
  obtain ⟨h, rfl⟩ : ∃ h, u = { d with hif := h } := ⟨_, hframe⟩
  exact opStrikeDisarm_one (d.ctxOf .strikeDisarm i slot y) { d with hif := h } hone hunit

/-- A live entry of unit u. -/
def liveOf (u : Nat) (e : Strike) : Bool := e.live && e.unit.toNat = u

/-- The table with every live entry of unit u free. -/
def freedOf (u : Nat) (l : SMap Strike) : SMap Strike :=
  l.map fun e => if liveOf u e.2 then (e.1, { e.2 with st := .free, owner := none }) else e

theorem find_freedOf (u : Nat) (l : SMap Strike) (j : Nat) : SMap.find (freedOf u l) j =
    (SMap.find l j).map fun e => if liveOf u e then { e with st := .free, owner := none } else e := by
  induction l with
  | nil => rfl
  | cons e l ih =>
    obtain ⟨k, e⟩ := e
    have hcons : freedOf u ((k, e) :: l) = (k, if liveOf u e then { e with st := .free, owner := none } else e) :: freedOf u l := by
      unfold freedOf
      rw [List.map_cons]
      congr 1
      dsimp only
      split <;> rfl
    rw [hcons]
    by_cases h : k = j
    · simp only [SMap.find, if_pos h, Option.map_some]
    · simp only [SMap.find, if_neg h]
      exact ih

/-- An entry of the table with every live entry of unit u free. -/
theorem get_freedOf (u : Nat) (l : SMap Strike) (j : Nat) : SMap.get (freedOf u l) j {} =
    if liveOf u (SMap.get l j {}) then { SMap.get l j {} with st := .free, owner := none } else SMap.get l j {} := by
  unfold SMap.get
  rw [find_freedOf]
  cases SMap.find l j <;> rfl

theorem dispatch_strikeDisarm_all (d : Dev) (i : Nat) (slot : BitVec 16) (y : Desc) (hadm : d.admits .strikeDisarm i y)
    (hall : bit y.w1 19 = true) : ∃ w, dispatch .strikeDisarm i slot y opStrikeDisarm d =
      ({ d.taken i slot y with strikes := freedOf y.unit d.strikes } : Dev).finish (d.ownerOf i slot y) .ok y.unit w := by
  have hop (c : Ctx) (t : Dev) (h : bit c.x.w1 19 = true) :
      ∃ w, opStrikeDisarm c t = c.done .ok w { t with strikes := freedOf c.x.unit t.strikes } := by
    unfold opStrikeDisarm
    dsimp only
    rw [h]
    exact ⟨_, rfl⟩
  rw [dispatch_admits _ _ _ _ _ _ hadm]
  have hframe := d.taken_frame i slot y
  generalize d.taken i slot y = u at hframe
  obtain ⟨h, rfl⟩ : ∃ h, u = { d with hif := h } := ⟨_, hframe⟩
  exact hop (d.ctxOf .strikeDisarm i slot y) { d with hif := h } hall

/-! ## SNAPSHOT (R70) -/

theorem length_snapshotWords (d : Dev) (u : Nat) : (d.snapshotWords u).length = 16 := by
  have htwo : ∀ p, (pos64 p).length = 2 := fun _ => rfl
  unfold snapshotWords
  simp only [List.length_append, htwo, List.length_cons, List.length_nil]

/-- A snapshot does not see the rings. -/
theorem snapshotWords_hif (d : Dev) (h : Hif) (u : Nat) : ({ d with hif := h } : Dev).snapshotWords u = d.snapshotWords u := by
  have hrep : ({ d with hif := h } : Dev).rep u = d.rep u := rep_units (d := d) (t := { d with hif := h }) rfl u
  have hrem : ({ d with hif := h } : Dev).remainder u = d.remainder u := by
    unfold remainder
    rw [hrep]
    generalize d.rep u = r
    rfl
  unfold snapshotWords
  dsimp only
  rw [hrep, hrem]
  generalize d.rep u = r
  generalize d.remainder u = w
  rfl

theorem dispatch_snapshot (d : Dev) (i : Nat) (slot : BitVec 16) (y : Desc) (hadm : d.admits .snapshot i y) :
    ∃ h : Hif, h = { (d.taken i slot y).hif with early := d.hif.early ++ [.write (y.addr 2) (d.snapshotWords y.unit)] } ∧
      dispatch .snapshot i slot y opSnapshot d = ({ d with hif := h } : Dev).finish (d.ownerOf i slot y) .ok y.unit 0 := by
  rw [dispatch_admits _ _ _ _ _ _ hadm]
  have hframe := d.taken_frame i slot y
  have hearly : (d.taken i slot y).hif.early = d.hif.early := rfl
  generalize d.taken i slot y = u at hframe hearly
  obtain ⟨h, rfl⟩ : ∃ h, u = { d with hif := h } := ⟨_, hframe⟩
  refine ⟨_, rfl, ?_⟩
  rw [← hearly, ← snapshotWords_hif d h]
  rfl

end Sys2Proof.Machine.Dev
end

section
/-! Proofs for the strike table (chapter 5): the descriptors, and the evaluation in phase 3. -/

namespace Sys2Proof.Machine

theorem exec_strikeArm (s : State) (i : Fin 128) (slot : BitVec 16) (x : Desc) :
    exec (.strikeArm i slot x) s = s.onDev (Dev.dispatch .strikeArm i slot (withOpcode .strikeArm x) Dev.opStrikeArm) := rfl
theorem exec_strikeDisarm (s : State) (i : Fin 128) (slot : BitVec 16) (x : Desc) :
    exec (.strikeDisarm i slot x) s = s.onDev (Dev.dispatch .strikeDisarm i slot (withOpcode .strikeDisarm x) Dev.opStrikeDisarm) := rfl
theorem exec_snapshot (s : State) (i : Fin 128) (slot : BitVec 16) (x : Desc) :
    exec (.snapshot i slot x) s = s.onDev (Dev.dispatch .snapshot i slot (withOpcode .snapshot x) Dev.opSnapshot) := rfl

/-- An admitted STRIKE_ARM that loads its entry. -/
theorem exec_strikeArm_loads (s : State) (i : Fin 128) (slot : BitVec 16) (x y : Desc) (k au : Nat) (hy : y = withOpcode .strikeArm x)
    (hk : k = Dev.strikeIndex y) (hau : au = bits y.w4 4 9) (hadm : s.dev.admits .strikeArm i y) (hfield : Dev.strikeField y = none)
    (hbound : (s.dev.unit au).bound = true) (hring : s.dev.inRing (s.dev.sq i) au = true)
    (hfree : (s.dev.strike k).live = false ∨ (y.opflag 0 = true ∧ s.dev.inRing (s.dev.sq i) (s.dev.strike k).unit.toNat = true)) :
    ∃ d, exec (.strikeArm i slot x) s = .next { s with dev := d } ∧ s.dev.slotTaken d i slot ∧
      d.strike k = s.dev.armedStrike (s.dev.ownerOf i slot y) y (s.dev.strike k) ∧
      (s.dev.recorded i y → s.dev.recordAdded d i y (s.dev.finalOf i slot y (s.dev.armStatus (s.dev.ownerOf i slot y) y (s.dev.strike k)) y.unit
        (Dev.armWord y (s.dev.strike k)))) ∧
      (∀ j, j ≠ k → d.strike j = s.dev.strike j) ∧ d = { s.dev with hif := d.hif, strikes := d.strikes, regs := d.regs } := by
  subst hk hau
  have hdev := s.dev.dispatch_strikeArm i slot y hadm hfield hbound hring hfree
  obtain ⟨hslot, htable, hframe, hrec⟩ := s.dev.strikes_done i slot y _ _ _ _ _ hdev
  generalize hd : Dev.dispatch .strikeArm i slot y Dev.opStrikeArm s.dev = d at hslot htable hframe hrec
  refine ⟨d, ?_, hslot, ?_, fun hr => hrec hr ?_, fun j hj => ?_, hframe⟩
  · rw [exec_strikeArm, ← hy]
    exact s.onDev_eq hd
  · unfold Dev.strike
    rw [htable]
    exact SMap.get_set_same _ _ _ _
  · subst hy
    exact s.dev.need_pos i .strikeArm x rfl hr
  · unfold Dev.strike
    rw [htable]
    exact SMap.get_set_other _ _ _ hj

/-- An admitted STRIKE_DISARM of one entry. -/
theorem exec_strikeDisarm_one (s : State) (i : Fin 128) (slot : BitVec 16) (x y : Desc) (hy : y = withOpcode .strikeDisarm x)
    (hadm : s.dev.admits .strikeDisarm i y) (hone : bit y.w1 19 = false)
    (hunit : (s.dev.strike (Dev.strikeIndex y)).live = true → (s.dev.strike (Dev.strikeIndex y)).unit.toNat = y.unit) :
    ∃ d, exec (.strikeDisarm i slot x) s = .next { s with dev := d } ∧ s.dev.slotTaken d i slot ∧
      d.strike (Dev.strikeIndex y) = { s.dev.strike (Dev.strikeIndex y) with st := .free, owner := none } ∧
      (∀ j, j ≠ Dev.strikeIndex y → d.strike j = s.dev.strike j) ∧
      (s.dev.recorded i y → s.dev.recordAdded d i y (s.dev.finalOf i slot y (s.dev.disarmStatus (Dev.strikeIndex y)) y.unit
        (s.dev.disarmWord (Dev.strikeIndex y)))) ∧
      d = { s.dev with hif := d.hif, strikes := d.strikes, regs := d.regs } := by
  have hdev := s.dev.dispatch_strikeDisarm_one i slot y hadm hone hunit
  obtain ⟨hslot, htable, hframe, hrec⟩ := s.dev.strikes_done i slot y _ _ _ _ _ hdev
  generalize hd : Dev.dispatch .strikeDisarm i slot y Dev.opStrikeDisarm s.dev = d at hslot htable hframe hrec
  refine ⟨d, ?_, hslot, ?_, fun j hj => ?_, fun hr => hrec hr ?_, hframe⟩
  · rw [exec_strikeDisarm, ← hy]
    exact s.onDev_eq hd
  · unfold Dev.strike
    rw [htable]
    exact SMap.get_set_same _ _ _ _
  · unfold Dev.strike
    rw [htable]
    exact SMap.get_set_other _ _ _ hj
  · subst hy
    exact s.dev.need_pos i .strikeDisarm x rfl hr

/-- An admitted STRIKE_DISARM of every live entry of its unit. -/
theorem exec_strikeDisarm_all (s : State) (i : Fin 128) (slot : BitVec 16) (x y : Desc) (hy : y = withOpcode .strikeDisarm x)
    (hadm : s.dev.admits .strikeDisarm i y) (hall : bit y.w1 19 = true) :
    ∃ d, exec (.strikeDisarm i slot x) s = .next { s with dev := d } ∧ s.dev.slotTaken d i slot ∧
      (∀ j, if (s.dev.strike j).live = true ∧ (s.dev.strike j).unit.toNat = y.unit then (d.strike j).st = .free
        else d.strike j = s.dev.strike j) ∧
      d = { s.dev with hif := d.hif, strikes := d.strikes, regs := d.regs } := by
  obtain ⟨w, hdev⟩ := s.dev.dispatch_strikeDisarm_all i slot y hadm hall
  obtain ⟨hslot, htable, hframe, -⟩ := s.dev.strikes_done i slot y _ _ _ _ _ hdev
  generalize hd : Dev.dispatch .strikeDisarm i slot y Dev.opStrikeDisarm s.dev = d at hslot htable hframe
  refine ⟨d, ?_, hslot, fun j => ?_, hframe⟩
  · rw [exec_strikeDisarm, ← hy]
    exact s.onDev_eq hd
  · have hj : d.strike j = if Dev.liveOf y.unit (s.dev.strike j) then { s.dev.strike j with st := .free, owner := none } else s.dev.strike j := by
      unfold Dev.strike
      rw [htable]
      exact Dev.get_freedOf _ _ _
    have hiff : Dev.liveOf y.unit (s.dev.strike j) = true ↔ (s.dev.strike j).live = true ∧ (s.dev.strike j).unit.toNat = y.unit := by
      unfold Dev.liveOf
      rw [Bool.and_eq_true, decide_eq_true_eq]
    rw [hj]
    split
    case isTrue h => rw [if_pos (hiff.mpr h)]
    case isFalse h => rw [if_neg (mt hiff.mp h)]

/-- An admitted SNAPSHOT. -/
theorem exec_snapshot_admitted (s : State) (i : Fin 128) (slot : BitVec 16) (x y : Desc) (hy : y = withOpcode .snapshot x)
    (hadm : s.dev.admits .snapshot i y) :
    ∃ d, exec (.snapshot i slot x) s = .next { s with dev := d } ∧ s.dev.slotTaken d i slot ∧
      d.hif.early = s.dev.hif.early ++ [.write (y.addr 2) (s.dev.snapshotWords y.unit)] ∧
      (s.dev.snapshotWords y.unit).length = 16 ∧ d = { s.dev with hif := d.hif, regs := d.regs } := by
  obtain ⟨h, hh, hdev⟩ := s.dev.dispatch_snapshot i slot y hadm
  have hfin := Dev.finish_frame { s.dev with hif := h } (s.dev.ownerOf i slot y) .ok y.unit 0
  rw [← hdev] at hfin
  clear hdev
  generalize hd : Dev.dispatch .snapshot i slot y Dev.opSnapshot s.dev = d at hfin
  have hsq : ∀ j, d.sq j = (s.dev.taken i slot y).sq j := fun j => by
    unfold Dev.sq
    rw [hfin, hh]
  refine ⟨d, ?_, ⟨?_, fun j hj => ?_⟩, ?_, s.dev.length_snapshotWords _, ?_⟩
  · rw [exec_snapshot, ← hy]
    exact s.onDev_eq hd
  · rw [hsq, Dev.taken, Dev.giveSlot_sq, Dev.reserve_sq]
  · rw [hsq, Dev.taken, Dev.giveSlot_sq_other _ _ hj, Dev.reserve_sq]
  · rw [hfin, hh]
  · rw [hfin]

namespace Dev

/-! ## Evaluation (R155, R156, R158) -/

theorem evalStrike_skips (d : Dev) (i : Nat) (e : Strike) (he : e = d.strike i)
    (h : (e.st ≠ .armed ∧ e.st ≠ .recoiling) ∨ e.since = d.time.tick) : evalStrike i d = d := by
  subst he
  unfold evalStrike
  dsimp only
  rw [if_pos (by simpa using h)]

/-- An entry that is armed or recoiling, beyond its base tick, is evaluated by its key. -/
theorem evalStrike_evaluates (d : Dev) (i : Nat) (hst : (d.strike i).st = .armed ∨ (d.strike i).st = .recoiling)
    (hsince : (d.strike i).since ≠ d.time.tick) : ¬ (((d.strike i).st ≠ .armed && (d.strike i).st ≠ .recoiling) || (d.strike i).since = d.time.tick) = true := by
  simp only [Bool.or_eq_true, Bool.and_eq_true, decide_eq_true_eq]
  rintro (⟨ha, hr⟩ | hs)
  · rcases hst with h | h
    · exact ha h
    · exact hr h
  · exact hsince hs

theorem evalStrike_pos (d : Dev) (i : Nat) (hst : (d.strike i).st = .armed ∨ (d.strike i).st = .recoiling)
    (hsince : (d.strike i).since ≠ d.time.tick) (hkey : (d.strike i).key = 0) : evalStrike i d = evalPos i (d.strike i) d := by
  have hno := evalStrike_evaluates d i hst hsince
  unfold evalStrike
  dsimp only
  rw [if_neg hno, hkey]
  rfl

theorem strikeSet_setStrike (d : Dev) (i : Nat) (x : Strike) : d.strikeSet (d.setStrike i x) i x :=
  ⟨strike_setStrike d i x, fun _ hj => strike_setStrike_other d x hj, rfl⟩

end Dev
end Sys2Proof.Machine
end

section
/-! Proofs for the strike table (chapter 5): keys and crossings in phase 3. -/

namespace Sys2Proof.Machine.Dev

/-! ## Position strikes (R155, R156) -/

/-- A mode of a position strike counts rising crossings. -/
theorem rising_iff (m : BitVec 2) : m.toNat % 2 = 1 ↔ m = 1 ∨ m = 3 := by revert m; decide
/-- A mode of a position strike counts falling crossings. -/
theorem falling_iff (m : BitVec 2) : 2 ≤ m.toNat ↔ m = 2 ∨ m = 3 := by revert m; decide

/-- An entry after its evaluation at the latched position of axis ax, before it fires. -/
def evaluated (d : Dev) (ax : Nat) (e : Strike) : Strike :=
  { e with prev := (d.axis ax).lat.pos, prevAx := ax, jump := false, passed := false }

/-- The position crosses the key in a direction of the mode. -/
def crosses (e : Strike) (a b k : Int) : Prop :=
  (e.mode = 1 ∨ e.mode = 3) ∧ a < k ∧ k ≤ b ∨ (e.mode = 2 ∨ e.mode = 3) ∧ k < a ∧ b ≤ k

theorem evalPos_stale (d : Dev) (i : Nat) (e : Strike) (h : (d.axis (d.rep e.unit.toNat)).stale = true) :
    evalPos i e d = d.setStrike i { e with jump := true } := by
  unfold evalPos
  dsimp only
  rw [if_pos h]

/-- An armed position strike on a good latch fires where it has been passed or its position crosses its key. -/
theorem evalPos_armed (d : Dev) (i ax : Nat) (e : Strike) (hst : e.st = .armed) (hax : ax = d.rep e.unit.toNat)
    (hstale : (d.axis ax).stale = false) (c : Bool)
    (hc : c = true ↔ crosses e e.prev.toInt (d.axis ax).lat.pos.toInt e.value.toInt) :
    evalPos i e d = if e.passed || c then fire i e.passed ((e.jump || decide (e.prevAx ≠ ax)) && c) (d.setStrike i (d.evaluated ax e))
      else d.setStrike i (d.evaluated ax e) := by
  subst hax
  have hcross : (((e.mode.toNat % 2 = 1) && decide (e.prev.toInt < e.value.toInt) &&
      decide (e.value.toInt ≤ (d.axis (d.rep e.unit.toNat)).lat.pos.toInt)) ||
      (decide (2 ≤ e.mode.toNat) && decide (e.value.toInt < e.prev.toInt) &&
        decide ((d.axis (d.rep e.unit.toNat)).lat.pos.toInt ≤ e.value.toInt))) = c := by
    rw [Bool.eq_iff_iff, hc]
    simp only [Bool.or_eq_true, Bool.and_eq_true, decide_eq_true_eq, rising_iff, falling_iff, and_assoc]
    rfl
  have hrecoils : ¬ e.st = .recoiling := by
    rw [hst]
    exact SState.noConfusion
  unfold evalPos
  dsimp only
  rw [hstale, if_neg (by exact Bool.false_ne_true), if_neg hrecoils]
  unfold Strike.keyPos
  rw [Bool.or_assoc, hcross]
  rfl

/-- A recoiling position strike is armed again beyond its hysteresis. -/
theorem evalPos_recoiling (d : Dev) (i ax : Nat) (e : Strike) (b k h : Int) (hst : e.st = .recoiling) (hax : ax = d.rep e.unit.toNat)
    (hstale : (d.axis ax).stale = false) (hb : b = (d.axis ax).lat.pos.toInt) (hk : k = e.value.toInt)
    (hh : h = ((e.hyst.toNat * 256 : Nat) : Int)) :
    evalPos i e d = d.setStrike i { e with
      prev := (d.axis ax).lat.pos, prevAx := ax, jump := false,
      st := if (e.mode = 1 ∧ b ≤ k - h) ∨ (e.mode = 2 ∧ k + h ≤ b) ∨ (e.mode = 3 ∧ h ≤ ((b - k).natAbs : Int)) then .armed
        else .recoiling } := by
  subst hax hb hk hh
  unfold evalPos
  dsimp only
  rw [hstale, if_neg (by exact Bool.false_ne_true), if_pos hst]
  unfold Strike.keyPos
  simp only [Bool.or_eq_true, Bool.and_eq_true, decide_eq_true_eq, or_assoc, Nat.cast_mul, Nat.cast_ofNat]

/-! ## The clauses on evaluation -/

theorem evalStrike_stale (d : Dev) (i : Nat) (e : Strike) (he : e = d.strike i) (hst : e.st = .armed ∨ e.st = .recoiling)
    (hsince : e.since ≠ d.time.tick) (hkey : e.key = 0) (hstale : (d.axis (d.rep e.unit.toNat)).stale = true) :
    d.strikeSet (evalStrike i d) i { e with jump := true } := by
  subst he
  rw [evalStrike_pos d i hst hsince hkey, evalPos_stale d i _ hstale]
  exact strikeSet_setStrike d i _

theorem evalStrike_armed (d : Dev) (i ax : Nat) (e e' : Strike) (a b k : Int) (he : e = d.strike i) (hst : e.st = .armed)
    (hsince : e.since ≠ d.time.tick) (hkey : e.key = 0) (hax : ax = d.rep e.unit.toNat) (hstale : (d.axis ax).stale = false)
    (ha : a = e.prev.toInt) (hb : b = (d.axis ax).lat.pos.toInt) (hk : k = e.value.toInt)
    (he' : e' = { e with prev := (d.axis ax).lat.pos, prevAx := ax, jump := false, passed := false }) :
    (¬ (e.passed = true ∨ ((e.mode = 1 ∨ e.mode = 3) ∧ a < k ∧ k ≤ b) ∨ ((e.mode = 2 ∨ e.mode = 3) ∧ k < a ∧ b ≤ k)) →
      d.strikeSet (evalStrike i d) i e') ∧
    ((e.mode = 1 ∨ e.mode = 3) ∧ a < k ∧ k ≤ b ∨ (e.mode = 2 ∨ e.mode = 3) ∧ k < a ∧ b ≤ k →
      evalStrike i d = fire i e.passed (e.jump || decide (e.prevAx ≠ ax)) (d.setStrike i e')) ∧
    (e.passed = true → ¬ ((e.mode = 1 ∨ e.mode = 3) ∧ a < k ∧ k ≤ b) → ¬ ((e.mode = 2 ∨ e.mode = 3) ∧ k < a ∧ b ≤ k) →
      evalStrike i d = fire i true false (d.setStrike i e')) := by
  subst he ha hb hk he'
  have heval (c : Bool) := evalPos_armed d i ax (d.strike i) hst hax hstale c
  rw [evalStrike_pos d i (Or.inl hst) hsince hkey]
  refine ⟨fun hno => ?_, fun hcross => ?_, fun hpassed hrise hfall => ?_⟩
  · obtain ⟨hpassed, hno⟩ := not_or.mp hno
    rw [heval false ⟨fun h => absurd h Bool.false_ne_true, fun h => absurd h hno⟩, eq_false_of_ne_true hpassed]
    exact strikeSet_setStrike d i _
  · rw [heval true ⟨fun _ => hcross, fun _ => rfl⟩, Bool.or_true, Bool.and_true]
    rfl
  · rw [heval false ⟨fun h => absurd h Bool.false_ne_true, fun h => absurd h (not_or.mpr ⟨hrise, hfall⟩)⟩, hpassed, Bool.and_false]
    rfl

theorem evalStrike_recoiling (d : Dev) (i ax : Nat) (e : Strike) (b k h : Int) (he : e = d.strike i) (hst : e.st = .recoiling)
    (hsince : e.since ≠ d.time.tick) (hkey : e.key = 0) (hax : ax = d.rep e.unit.toNat) (hstale : (d.axis ax).stale = false)
    (hb : b = (d.axis ax).lat.pos.toInt) (hk : k = e.value.toInt) (hh : h = ((e.hyst.toNat * 256 : Nat) : Int)) :
    d.strikeSet (evalStrike i d) i { e with
      prev := (d.axis ax).lat.pos, prevAx := ax, jump := false,
      st := if (e.mode = 1 ∧ b ≤ k - h) ∨ (e.mode = 2 ∧ k + h ≤ b) ∨ (e.mode = 3 ∧ h ≤ ((b - k).natAbs : Int)) then .armed
        else .recoiling } := by
  subst he
  rw [evalStrike_pos d i (Or.inr hst) hsince hkey, evalPos_recoiling d i ax _ b k h hst hax hstale hb hk hh]
  exact strikeSet_setStrike d i _

/-- Switch, mains and tick strikes. -/
theorem evalStrike_keys (d : Dev) (i : Nat) (e : Strike) (he : e = d.strike i) (hst : e.st = .armed) (hsince : e.since ≠ d.time.tick) :
    (e.key = 1 → evalStrike i d =
      if ((e.mode = 1 ∨ e.mode = 3) ∧ (d.axis (d.rep e.unit.toNat)).lat.swaNew = true) ∨
        ((e.mode = 2 ∨ e.mode = 3) ∧ (d.axis (d.rep e.unit.toNat)).lat.swbNew = true) then fire i false false d else d) ∧
    (e.key = 2 → evalStrike i d =
      if 0 ≤ (d.time.mainsLatch - e.value.setWidth 32).toInt then fire i false false d else d) ∧
    (e.key = 3 → evalStrike i d = if 0 ≤ (d.tick32 - e.value.setWidth 32).toInt then fire i false false d else d) := by
  subst he
  have hno := evalStrike_evaluates d i (Or.inl hst) hsince
  unfold evalStrike
  dsimp only
  rw [if_neg hno]
  refine ⟨fun hkey => ?_, fun hkey => ?_, fun hkey => ?_⟩
  · rw [hkey]
    simp only [Bool.or_eq_true, Bool.and_eq_true, decide_eq_true_eq, rising_iff, falling_iff]
    rfl
  · rw [hkey]
    rfl
  · rw [hkey]
    rfl

end Sys2Proof.Machine.Dev
end

section
/-! Proofs for the strike table (chapter 5): what a strike that fires does to the leaves of its action unit. -/

namespace Sys2Proof.Machine.Dev

/-! ## The action on one leaf (R160 to R162) -/

/-- The action of a strike on one leaf, and whether it acted. -/
def leafAct (e : Strike) (n : Nat) (d : Dev) : Bool × Dev :=
  match e.action.toNat with
  | 1 => stopStrike false e.param n d
  | 2 => stopStrike true 0 n d
  | 3 => vmaxAxis (e.param.setWidth 24) n d
  | 4 => auxStrike (e.param.setWidth 16) n d
  | _ => (true, d)

/-- A list of leaves on which each turn tells by the leaf alone whether it acts. -/
theorem actOnAll_eq (f : Nat → Dev → Bool × Dev) (ok : Nat → Dev → Bool) (l : List Nat) (hl : l.Nodup) (d : Dev)
    (hact : ∀ n t, (f n t).1 = ok n t) (hother : ∀ n t k, k ≠ n → ok k (f n t).2 = ok k t) :
    actOnAll f l d = (l.all (ok · d), each l (fun n t => (f n t).2) d) := by
  induction l generalizing d with
  | nil => rfl
  | cons n l ih =>
    obtain ⟨hn, hl⟩ := List.nodup_cons.mp hl
    have hrest : l.all (ok · (f n d).2) = l.all (ok · d) := by
      rw [Bool.eq_iff_iff, List.all_eq_true, List.all_eq_true]
      refine forall₂_congr fun k hk => ?_
      rw [hother n d k fun h => hn (h ▸ hk)]
    unfold actOnAll
    dsimp only
    rw [ih hl, hrest, hact, List.all_cons, each_cons]

/-- No action is the action of no leaf. -/
theorem actOnAll_none (l : List Nat) (d : Dev) : actOnAll (fun _ d => (true, d)) l d = (true, d) := by
  induction l with
  | nil => rfl
  | cons n l ih =>
    unfold actOnAll
    dsimp only
    rw [ih]
    rfl

theorem stopStrike_stopOnly (imm : Bool) (decel : Word) (n : Nat) (d : Dev) : d.stopOnly (stopStrike imm decel n d).2 := by
  unfold stopStrike
  dsimp only
  split
  · exact stopOnly_refl d
  · exact stop_stopOnly n imm decel .strike none d

/-- An axis with the vmax of a strike, which in velocity mode is its commanded speed too. -/
def vmaxTaken (v : BitVec 24) (x : HubAxis) : HubAxis :=
  { x with set := { x.set with vmax := v }
           mot := if x.mot.mode = .velocity then { x.mot with cmd := if x.mot.cmd < 0 then -(v.toNat : Int) else v.toNat } else x.mot }

theorem vmaxAxis_eq (v : BitVec 24) (n : Nat) (d : Dev) : vmaxAxis v n d =
    if (setFault { (d.axis n).set with vmax := v } {}).isSome then (false, d) else (true, d.modAxis n (vmaxTaken v)) := rfl

theorem vmaxAxis_motion (v : BitVec 24) (n : Nat) (d : Dev) : motionOnly [n] d (vmaxAxis v n d).2 := by
  rw [vmaxAxis_eq]
  split
  · exact motionOnly_refl _ d
  · exact motionOnly_modAxis d n (vmaxTaken v)

theorem auxStrike_motion (v : BitVec 16) (n : Nat) (d : Dev) : motionOnly [n] d (auxStrike v n d).2 := by
  unfold auxStrike
  dsimp only
  split
  · exact motionOnly_refl _ d
  · show motionOnly [n] d (xMerge n _ d)
    exact motionOnly_modAxis d n _

theorem vmaxAxis_stopOnly (v : BitVec 24) (n : Nat) (d : Dev) : d.stopOnly (vmaxAxis v n d).2 := by
  rw [vmaxAxis_eq]
  split <;> rfl

theorem auxStrike_stopOnly (v : BitVec 16) (n : Nat) (d : Dev) : d.stopOnly (auxStrike v n d).2 := by
  unfold auxStrike
  dsimp only
  split <;> rfl

theorem leafAct_stopOnly (e : Strike) (n : Nat) (d : Dev) : d.stopOnly (leafAct e n d).2 := by
  unfold leafAct
  split
  · exact stopStrike_stopOnly _ _ n d
  · exact stopStrike_stopOnly _ _ n d
  · exact vmaxAxis_stopOnly _ n d
  · exact auxStrike_stopOnly _ n d
  · exact stopOnly_refl d

/-- A strike's stop, by its leaf. -/
theorem stopStrike_acts (imm : Bool) (decel : Word) (n : Nat) (d : Dev) :
    (stopStrike imm decel n d).1 = ((d.axis n).st != .faulted && (d.axis n).st != .safe) := by
  unfold stopStrike
  dsimp only
  cases (d.axis n).st <;> rfl

theorem leafAct_acts (e : Strike) (n : Nat) (d : Dev) : (leafAct e n d).1 = d.strikeTakes e n := by
  unfold leafAct
  split
  case h_1 h =>
    unfold strikeTakes
    rw [h]
    exact stopStrike_acts _ _ n d
  case h_2 h =>
    unfold strikeTakes
    rw [h]
    exact stopStrike_acts _ _ n d
  case h_3 h =>
    unfold strikeTakes vmaxAxis
    rw [h]
    dsimp only
    cases setFault { (d.axis n).set with vmax := e.param.setWidth 24 } {} <;> rfl
  case h_4 h =>
    unfold strikeTakes auxStrike
    rw [h]
    dsimp only
    cases (d.axis n).st <;> cases (d.axis n).armed <;> rfl
  case h_5 h1 h2 h3 h4 =>
    unfold strikeTakes
    split
    · next h => exact absurd h h1
    · next h => exact absurd h h2
    · next h => exact absurd h h3
    · next h => exact absurd h h4
    · rfl

/-- Whether a strike acts on a leaf goes by three of its fields. -/
theorem strikeTakes_congr {d t : Dev} (e : Strike) (k : Nat) (hst : (t.axis k).st = (d.axis k).st) (harmed : (t.axis k).armed = (d.axis k).armed)
    (hset : (t.axis k).set = (d.axis k).set) : t.strikeTakes e k = d.strikeTakes e k := by
  unfold strikeTakes
  dsimp only
  rw [hst, harmed, hset]

/-- The action on a leaf leaves of the others what tells whether it acts on them. -/
theorem strikeTakes_leafAct (e : Strike) (n k : Nat) (d : Dev) (h : k ≠ n) : (leafAct e n d).2.strikeTakes e k = d.strikeTakes e k := by
  have hstop (imm : Bool) (decel : Word) : (stopStrike imm decel n d).2.strikeTakes e k = d.strikeTakes e k := by
    unfold stopStrike
    dsimp only
    split
    · rfl
    · have hb := stop_beyondStop n imm decel .strike none d
      have hset : ((stop n imm decel .strike none d).axis k).set = (d.axis k).set := by
        have hk := congrArg HubAxis.set (hb k)
        exact hk
      exact strikeTakes_congr e k (hb.st k) (hb.armed k) hset
  have hone {t : Dev} (ht : motionOnly [n] d t) : t.strikeTakes e k = d.strikeTakes e k := by
    have hk := ht.other k (List.mem_singleton.not.mpr h)
    exact strikeTakes_congr e k (by rw [hk]) (by rw [hk]) (by rw [hk])
  unfold leafAct
  split
  · exact hstop _ _
  · exact hstop _ _
  · exact hone (vmaxAxis_motion _ n d)
  · exact hone (auxStrike_motion _ n d)
  · rfl

/-- The action of a strike that releases none. -/
theorem strikeAct_eq (e : Strike) (d : Dev) (h : e.action ≠ 5) : strikeAct e d =
    ((d.leaves e.actUnit.toNat).all (d.strikeTakes e), each (d.leaves e.actUnit.toNat) (fun n t => (leafAct e n t).2) d) := by
  have h5 : e.action.toNat ≠ 5 := fun h5 => h (BitVec.eq_of_toNat_eq h5)
  have hact : strikeAct e d = actOnAll (leafAct e) (d.leaves e.actUnit.toNat) d := by
    unfold strikeAct
    dsimp only
    split
    case h_1 h1 =>
      congr 1
      funext n t
      unfold leafAct
      rw [h1]
      rfl
    case h_2 h2 =>
      congr 1
      funext n t
      unfold leafAct
      rw [h2]
      rfl
    case h_3 h3 =>
      congr 1
      funext n t
      unfold leafAct
      rw [h3]
      rfl
    case h_4 h4 =>
      congr 1
      funext n t
      unfold leafAct
      rw [h4]
      rfl
    case h_5 hfive => exact absurd hfive h5
    case h_6 h1 h2 h3 h4 _ =>
      rw [← actOnAll_none (d.leaves e.actUnit.toNat) d]
      congr 1
      funext n t
      unfold leafAct
      split
      · next h => exact absurd h h1
      · next h => exact absurd h h2
      · next h => exact absurd h h3
      · next h => exact absurd h h4
      · rfl
  rw [hact]
  exact actOnAll_eq (leafAct e) (fun n t => t.strikeTakes e n) _ (nodup_bitsSet 64 _) d (leafAct_acts e)
    fun n t k hk => strikeTakes_leafAct e n k t hk

end Sys2Proof.Machine.Dev
end

section
/-! Proofs for the strike table (chapter 5): a strike fires. -/

namespace Sys2Proof.Machine.Dev

/-! ## What an action leaves beside the axes -/

/-- The registers in front of those of the command pins are beyond the reach of a stop. -/
theorem find_hw_stop (n : Nat) (imm : Bool) (decel : Word) (cause : StopCause) (join : Option Nat) (d : Dev) {a : Nat} (h : a < 0x80) :
    SMap.find (stop n imm decel cause join d).regs.hw a = SMap.find d.regs.hw a := by
  have hone (n : Nat) (imm : Bool) (decel : Word) (cause : StopCause) (join : Option Nat) (t : Dev) :
      SMap.find (stopAxis n imm decel cause join t).regs.hw a = SMap.find t.regs.hw a :=
    stopAxis_keeps (fun u => SMap.find u.regs.hw a = SMap.find t.regs.hw a) n imm decel cause join t (fun _ _ hu => hu)
      (fun u hu => (find_hw_setHw u _ n 0 fun he => by unfold Reg.offset at he; dsimp only [Reg.place] at he; omega).trans hu) rfl
  have hpin (c : Nat) (t : Dev) : SMap.find (stopPin c t).regs.hw a = SMap.find t.regs.hw a := by
    refine (find_hw_setHw _ Fl.cmdCfgEngaged c 0 fun he => by unfold Reg.offset at he; dsimp only [Reg.place] at he; omega).trans ?_
    exact each_keeps (fun u => SMap.find u.regs.hw a = SMap.find t.regs.hw a) _ (t.cmd c).axes t
      (fun k _ u hu => (hone k false 0 .stop none u).trans hu) rfl
  unfold stop
  dsimp only
  split
  · split
    · exact (hpin _ _).trans (hone n imm decel cause join d)
    · exact hone n imm decel cause join d
  · exact hone n imm decel cause join d

theorem find_hw_leafAct (e : Strike) (n : Nat) (d : Dev) {a : Nat} (h : a < 0x80) :
    SMap.find (leafAct e n d).2.regs.hw a = SMap.find d.regs.hw a := by
  have hstop (imm : Bool) (decel : Word) : SMap.find (stopStrike imm decel n d).2.regs.hw a = SMap.find d.regs.hw a := by
    unfold stopStrike
    dsimp only
    split
    · rfl
    · exact find_hw_stop n imm decel .strike none d h
  have hone {t : Dev} (ht : motionOnly [n] d t) : SMap.find t.regs.hw a = SMap.find d.regs.hw a :=
    ht.apart a fun ha => by
      have he := List.mem_singleton.mp ha
      unfold Reg.offset at he
      dsimp only [Reg.place] at he
      omega
  unfold leafAct
  split
  · exact hstop _ _
  · exact hstop _ _
  · exact hone (vmaxAxis_motion _ n d)
  · exact hone (auxStrike_motion _ n d)
  · rfl

/-- Strike e releases entry j, which is held. -/
def releases (d : Dev) (e : Strike) (j : Nat) : Prop := e.action = 5 ∧ j = bits e.param 0 10 ∧ (d.strike j).st = .held

/-- The block u after the action of strike e, beside its axes. -/
structure struck (e : Strike) (d u : Dev) : Prop where
  hif : u.hif = d.hif
  time : u.time = d.time
  status : SMap.find u.regs.hw (Reg.offset .strikeStatus 0) = SMap.find d.regs.hw (Reg.offset .strikeStatus 0)
  kept : ∀ j, ¬ d.releases e j → u.strike j = d.strike j
  released : ∀ j, d.releases e j → (u.strike j).st = .armed ∧ (u.strike j).since = d.time.tick

/-- The action of a strike that releases another. -/
theorem strikeAct_release (e : Strike) (d : Dev) (h : e.action = 5) : strikeAct e d =
    if (d.strike (bits e.param 0 10)).st = .held then
      (true, d.setStrike (bits e.param 0 10) (d.baseStrike (d.strike (bits e.param 0 10))).2)
    else (false, d) := by
  unfold strikeAct
  dsimp only
  rw [h]
  rfl

theorem strikeAct_struck (e : Strike) (d : Dev) : struck e d (strikeAct e d).2 := by
  by_cases h : e.action = 5
  · rw [strikeAct_release e d h]
    split
    · next hheld =>
      refine ⟨rfl, rfl, rfl, fun j hj => ?_, fun j ⟨_, hj, _⟩ => ?_⟩
      · refine strike_setStrike_other d _ fun he => hj ⟨h, he, ?_⟩
        rw [he]
        exact hheld
      · rw [hj]
        dsimp only
        rw [strike_setStrike, baseStrike_eq]
        exact ⟨rfl, rfl⟩
    · next hheld =>
      refine ⟨rfl, rfl, rfl, fun _ _ => rfl, fun j ⟨_, hj, hst⟩ => absurd ?_ hheld⟩
      rw [← hj]
      exact hst
  · rw [strikeAct_eq e d h]
    dsimp only
    have hs : d.stopOnly (each (d.leaves e.actUnit.toNat) (fun n t => (leafAct e n t).2) d) :=
      stopOnly_each _ _ d fun n t => leafAct_stopOnly e n t
    have hfind := each_keeps (fun t => SMap.find t.regs.hw (Reg.offset .strikeStatus 0) = SMap.find d.regs.hw (Reg.offset .strikeStatus 0))
      (fun n t => (leafAct e n t).2) (d.leaves e.actUnit.toNat) d (fun n _ t ht => (find_hw_leafAct e n t (by decide)).trans ht) rfl
    generalize each (d.leaves e.actUnit.toNat) (fun n t => (leafAct e n t).2) d = u at hs hfind ⊢
    refine ⟨hs.hif, hs.time, hfind, fun j _ => ?_, fun j hj => absurd hj.1 h⟩
    unfold strike
    rw [hs.strikes]

theorem strikeAct_acts (e : Strike) (d : Dev) : (strikeAct e d).1 = d.strikeActs e := by
  by_cases h : e.action = 5
  · have hall : (d.leaves e.actUnit.toNat).all (d.strikeTakes e) = true := by
      refine List.all_eq_true.mpr fun n _ => ?_
      unfold strikeTakes
      dsimp only
      rw [h]
      rfl
    rw [strikeAct_release e d h]
    unfold strikeActs
    rw [hall, h]
    generalize (d.strike (bits e.param 0 10)).st = st
    cases st <;> rfl
  · have hne : (e.action.toNat != 5) = true := by
      refine bne_iff_ne.mpr fun h5 => h (BitVec.eq_of_toNat_eq h5)
    rw [strikeAct_eq e d h]
    unfold strikeActs
    rw [hne, Bool.true_or, Bool.and_true]

/-! ## The parts of a firing (R155, R159, R165) -/

/-- The counts of STRIKE_STATUS at a firing. -/
def counted (acted : Bool) (d : Dev) : Dev :=
  (if acted then d else d.stick Fl.strikeStatusSuppressed 0).bump Fl.strikeStatusFirings 0 1

/-- An entry that has fired. -/
def firedEntry (d : Dev) (e : Strike) : Strike :=
  { afterFire e with last := d.tick32, firedAt := some d.time.tick, passed := false }

/-- The result word of a firing. -/
def fireWord (i : Nat) (acted byPassed jump : Bool) : Word :=
  BitVec.ofNat 32 (i + (if acted then 0 else 1024) + (if byPassed then 2048 else 0) + if jump then 4096 else 0)

/-- The event record of a firing. -/
def fireReport (e : Strike) (w : Word) (d : Dev) : Dev :=
  match e.owner with
  | some o => if e.quiet then d else d.event o .strikeFired e.unit.toNat w
  | none => d

theorem fire_eq (i : Nat) (byPassed jump : Bool) (d u : Dev) (acted : Bool) (h : strikeAct (d.strike i) d = (acted, u)) :
    fire i byPassed jump d = fireReport (u.strike i) (fireWord i acted byPassed jump)
      ((counted acted u).setStrike i (firedEntry (counted acted u) (u.strike i))) := by
  unfold fire
  dsimp only
  rw [h]
  cases acted <;> rfl

theorem reported_frame (e : Strike) (w : Word) (d : Dev) :
    fireReport e w d = { d with hif := (fireReport e w d).hif, regs := { d.regs with hw := (fireReport e w d).regs.hw } } := by
  unfold fireReport
  split
  · split
    · rfl
    · unfold event
      rw [produce_frame]
  · rfl

theorem find_hw_reported (e : Strike) (w : Word) (d : Dev) :
    SMap.find (fireReport e w d).regs.hw (Reg.offset .strikeStatus 0) = SMap.find d.regs.hw (Reg.offset .strikeStatus 0) := by
  unfold fireReport
  split
  · split
    · rfl
    · exact find_hw_produce d _ _ fun he => by unfold Reg.offset at he; dsimp only [Reg.place] at he; omega
  · rfl

/-- What a record shows of the block is its time; where it goes is the host interface. -/
theorem hif_produce_congr {d t : Dev} (hh : t.hif = d.hif) (i : Nat) (r : CRec) : (t.produce i r).hif = (d.produce i r).hif := by
  have hcq : t.cq i = d.cq i := by unfold cq; rw [hh]
  unfold produce
  dsimp only
  rw [hcq]
  split
  · split <;> exact hh
  · split
    · split <;> exact hh
    · unfold setCq
      rw [hh]

theorem recOf_congr {d t : Dev} (ht : t.time = d.time) (o : Owner) (k : RecKind) (st : Status) (unit : Nat) (w : Word) (b : Bool) :
    t.recOf o k st unit w b = d.recOf o k st unit w b := by
  unfold recOf tick32
  rw [ht]

end Sys2Proof.Machine.Dev
end

section
/-! Proofs for the strike table (chapter 5): what a strike that fires leaves on each axis. -/

namespace Sys2Proof.Machine.Dev

/-! ## A strike's stop of one axis (R160) -/

theorem axis_stopAxis_strike (n : Nat) (imm : Bool) (decel : Word) (d : Dev) (h : (d.axis n).st = .moving) :
    ∃ p, ((stopAxis n imm decel .strike none d).axis n).stop = some p ∧ (imm = true → p.immediate = true) ∧
      ((d.axis n).stop = none → p.cause = .strike ∧ p.joined = [] ∧ p.decel = decel ∧ p.immediate = imm) := by
  obtain ⟨hst, -⟩ | ⟨s, -, hs, he⟩ | ⟨-, -, he⟩ := stopAxis_cases n imm decel .strike none d
  · exact absurd h hst
  · rw [he, axis_modAxis]
    refine ⟨_, rfl, fun hi => ?_, fun hn => absurd (hs.symm.trans hn) (by simp)⟩
    unfold joinedStop
    dsimp only
    rw [hi, Bool.or_true]
  · rw [he, setHw_axis, axis_modAxis]
    exact ⟨_, rfl, fun hi => hi, fun _ => ⟨rfl, rfl, rfl, rfl⟩⟩

theorem pin_stopAxis (n : Nat) (imm : Bool) (decel : Word) (cause : StopCause) (join : Option Nat) (d : Dev)
    (h : (d.axis n).mot.pin = none) : ((stopAxis n imm decel cause join d).axis n).mot.pin = none := by
  obtain ⟨-, he⟩ | ⟨s, -, -, he⟩ | ⟨-, -, he⟩ := stopAxis_cases n imm decel cause join d
  · rw [he]
    exact h
  · rw [he, axis_modAxis, axis_rampBrake]
    exact h
  · rw [he, setHw_axis, axis_modAxis]
    rfl

/-! ## One leaf -/

/-- A strike leaves a leaf on which it does not act, and everything with it. -/
theorem leafAct_refused (e : Strike) (n : Nat) (d : Dev) (h : d.strikeTakes e n = false) : (leafAct e n d).2 = d := by
  have hstop (imm : Bool) (decel : Word) (hs : (stopStrike imm decel n d).1 = false) : (stopStrike imm decel n d).2 = d := by
    unfold stopStrike at hs ⊢
    dsimp only at hs ⊢
    split at hs
    · next hc => rw [if_pos hc]
    · exact absurd hs.symm Bool.false_ne_true
  rw [← leafAct_acts] at h
  unfold leafAct at h ⊢
  split at h
  · exact hstop _ _ h
  · exact hstop _ _ h
  · rw [vmaxAxis_eq] at h ⊢
    split at h
    · next hc => rw [if_pos hc]
    · exact absurd h.symm Bool.false_ne_true
  · unfold auxStrike at h ⊢
    dsimp only at h ⊢
    split at h
    · next hc => rw [if_pos hc]
    · exact absurd h.symm Bool.false_ne_true
  · rfl

theorem strikeTakes_axis {d t : Dev} (e : Strike) (n : Nat) (h : t.axis n = d.axis n) : t.strikeTakes e n = d.strikeTakes e n :=
  strikeTakes_congr e n (by rw [h]) (by rw [h]) (by rw [h])

/-- The stop strikes by their action. -/
theorem leafAct_stops (e : Strike) (n : Nat) (d : Dev) (h : e.action = 1 ∨ e.action = 2) (htakes : d.strikeTakes e n = true) :
    (leafAct e n d).2 = stop n (decide (e.action = 2)) (if e.action = 1 then e.param else 0) .strike none d := by
  have hstop (imm : Bool) (decel : Word) (hs : (stopStrike imm decel n d).1 = true) :
      (stopStrike imm decel n d).2 = stop n imm decel .strike none d := by
    unfold stopStrike at hs ⊢
    dsimp only at hs ⊢
    split at hs
    · exact absurd hs Bool.false_ne_true
    · next hc => rw [if_neg hc]
  rw [← leafAct_acts] at htakes
  obtain h | h := h
  · unfold leafAct at htakes ⊢
    rw [h] at htakes ⊢
    exact hstop false e.param htakes
  · unfold leafAct at htakes ⊢
    rw [h] at htakes ⊢
    exact hstop true 0 htakes

theorem leafAct_vmax (e : Strike) (n : Nat) (d : Dev) (h : e.action = 3) (htakes : d.strikeTakes e n = true) :
    (leafAct e n d).2.axis n = vmaxTaken (e.param.setWidth 24) (d.axis n) := by
  rw [← leafAct_acts] at htakes
  unfold leafAct at htakes ⊢
  rw [h] at htakes ⊢
  show (vmaxAxis (e.param.setWidth 24) n d).2.axis n = _
  replace htakes : (vmaxAxis (e.param.setWidth 24) n d).1 = true := htakes
  rw [vmaxAxis_eq] at htakes ⊢
  split at htakes
  · exact absurd htakes Bool.false_ne_true
  · next hc =>
    rw [if_neg hc]
    exact axis_modAxis d n _

/-- An axis with the AUX value of a strike waiting for its setpoint frame. -/
def auxTaken (v : BitVec 16) (x : HubAxis) : HubAxis :=
  { x with xduty := some (match x.xduty with
      | none => { duty := some v, xk := none }
      | some o => { duty := some v, xk := o.xk }) }

theorem leafAct_aux (e : Strike) (n : Nat) (d : Dev) (h : e.action = 4) (htakes : d.strikeTakes e n = true) :
    (leafAct e n d).2.axis n = auxTaken (e.param.setWidth 16) (d.axis n) := by
  rw [← leafAct_acts] at htakes
  unfold leafAct at htakes ⊢
  rw [h] at htakes ⊢
  show (auxStrike (e.param.setWidth 16) n d).2.axis n = _
  replace htakes : (auxStrike (e.param.setWidth 16) n d).1 = true := htakes
  unfold auxStrike at htakes ⊢
  dsimp only at htakes ⊢
  split at htakes
  · exact absurd htakes Bool.false_ne_true
  · next hc =>
    rw [if_neg hc]
    refine (axis_modAxis d n _).trans ?_
    unfold auxTaken
    cases (d.axis n).xduty <;> rfl

theorem leafAct_motion (e : Strike) (n : Nat) (d : Dev) (h : e.action = 3 ∨ e.action = 4) : motionOnly [n] d (leafAct e n d).2 := by
  unfold leafAct
  obtain h | h := h
  · rw [h]
    exact vmaxAxis_motion _ n d
  · rw [h]
    exact auxStrike_motion _ n d

theorem leafAct_rest (e : Strike) (n : Nat) (d : Dev) (h : e.action ∉ [1, 2, 3, 4]) : (leafAct e n d).2 = d := by
  have hne (k : BitVec 3) (hk : k ∈ [1, 2, 3, 4]) (m : Nat) (hm : k.toNat = m) : e.action.toNat ≠ m := fun ha =>
    h (BitVec.eq_of_toNat_eq (ha.trans hm.symm) ▸ hk)
  unfold leafAct
  split
  · next ha => exact absurd ha (hne 1 (by decide) 1 rfl)
  · next ha => exact absurd ha (hne 2 (by decide) 2 rfl)
  · next ha => exact absurd ha (hne 3 (by decide) 3 rfl)
  · next ha => exact absurd ha (hne 4 (by decide) 4 rfl)
  · rfl

/-- The action on a leaf that no pin drives reaches that leaf alone. -/
theorem leafAct_pinless (e : Strike) (n : Nat) (d : Dev) (h : (d.axis n).mot.pin = none) :
    ((leafAct e n d).2.axis n).mot.pin = none ∧ (∀ k, k ≠ n → (leafAct e n d).2.axis k = d.axis k) ∧
      (leafAct e n d).2 = { d with hax := (leafAct e n d).2.hax, regs := (leafAct e n d).2.regs } := by
  have hstop (imm : Bool) (decel : Word) : ((stop n imm decel .strike none d).axis n).mot.pin = none ∧
      (∀ k, k ≠ n → (stop n imm decel .strike none d).axis k = d.axis k) ∧ stop n imm decel .strike none d =
        { d with hax := (stop n imm decel .strike none d).hax, regs := (stop n imm decel .strike none d).regs } := by
    rw [stop_of_no_pin _ _ _ _ _ _ h]
    exact ⟨pin_stopAxis n imm decel .strike none d h, fun k hk => axis_stopAxis_other _ _ _ _ _ hk,
      stopAxis_keeps (fun t => t = { d with hax := t.hax, regs := t.regs }) n imm decel .strike none d
        (fun f t ht => by unfold modAxis setAxis; rw [ht]) (fun t ht => by unfold setHw; rw [ht]) rfl⟩
  by_cases htakes : d.strikeTakes e n = true
  · by_cases hs : e.action = 1 ∨ e.action = 2
    · rw [leafAct_stops e n d hs htakes]
      exact hstop _ _
    · by_cases h3 : e.action = 3
      · refine ⟨?_, fun k hk => (leafAct_motion e n d (Or.inl h3)).other k (List.mem_singleton.not.mpr hk), ?_⟩
        · rw [leafAct_vmax e n d h3 htakes]
          unfold vmaxTaken
          dsimp only
          split <;> exact h
        · unfold leafAct
          rw [h3]
          show (vmaxAxis (e.param.setWidth 24) n d).2 = { d with hax := (vmaxAxis (e.param.setWidth 24) n d).2.hax, regs := _ }
          rw [vmaxAxis_eq]
          split <;> rfl
      · by_cases h4 : e.action = 4
        · refine ⟨?_, fun k hk => (leafAct_motion e n d (Or.inr h4)).other k (List.mem_singleton.not.mpr hk), ?_⟩
          · rw [leafAct_aux e n d h4 htakes]
            exact h
          · unfold leafAct
            rw [h4]
            show (auxStrike (e.param.setWidth 16) n d).2 = { d with hax := (auxStrike (e.param.setWidth 16) n d).2.hax, regs := _ }
            unfold auxStrike
            dsimp only
            split <;> rfl
        · have hrest := leafAct_rest e n d (by
            simp only [List.mem_cons, List.not_mem_nil, or_false, not_or]
            exact ⟨fun h1 => hs (Or.inl h1), fun h2 => hs (Or.inr h2), h3, h4⟩)
          rw [hrest]
          exact ⟨h, fun _ _ => rfl, rfl⟩
  · rw [leafAct_refused e n d (Bool.eq_false_iff.mpr htakes)]
    exact ⟨h, fun _ _ => rfl, rfl⟩

end Sys2Proof.Machine.Dev
end

section
/-! Proofs for the strike table (chapter 5): a strike that fires. -/

namespace Sys2Proof.Machine.Dev

/-! ## The leaves of an action unit (R160 to R162) -/

/-- Where no pin drives a leaf, the leaves on which the strike acts have its action, and nothing else changes but registers. -/
theorem strikeAct_pinless (e : Strike) (d : Dev) (hpin : pinless (d.leaves e.actUnit.toNat) d) :
    (∀ n, n ∉ d.leaves e.actUnit.toNat ∨ d.strikeTakes e n = false → (strikeAct e d).2.axis n = d.axis n) ∧
      (∀ n ∈ d.leaves e.actUnit.toNat, e.action ≠ 5 → ∃ t, t.axis n = d.axis n ∧ (strikeAct e d).2.axis n = (leafAct e n t).2.axis n) ∧
      (strikeAct e d).2 = { d with hax := (strikeAct e d).2.hax, strikes := (strikeAct e d).2.strikes, regs := (strikeAct e d).2.regs } := by
  by_cases h5 : e.action = 5
  · rw [strikeAct_release e d h5]
    split
    · exact ⟨fun _ _ => rfl, fun _ _ h => absurd h5 h, rfl⟩
    · exact ⟨fun _ _ => rfl, fun _ _ h => absurd h5 h, rfl⟩
  · rw [strikeAct_eq e d h5]
    dsimp only
    obtain ⟨hout, hin⟩ := axis_each_pinless (fun _ => True) (fun n t => (leafAct e n t).2) (d.leaves e.actUnit.toNat) (nodup_bitsSet 64 _) d
      hpin trivial (fun _ _ _ => trivial) (fun n t ht => (leafAct_pinless e n t ht).1)
      (fun n t k ht hk => (leafAct_pinless e n t ht).2.1 k hk)
    have hframe := each_keeps
      (fun t => pinless (d.leaves e.actUnit.toNat) t ∧ t = { d with hax := t.hax, regs := t.regs })
      (fun n t => (leafAct e n t).2) (d.leaves e.actUnit.toNat) d
      (fun n hn t ⟨hp, ht⟩ => by
        obtain ⟨hown, hother, hfr⟩ := leafAct_pinless e n t (hp n hn)
        refine ⟨fun k hk => ?_, hfr.trans (by rw [ht])⟩
        by_cases hkn : k = n
        · rw [hkn]
          exact hown
        · rw [hother k hkn]
          exact hp k hk) ⟨hpin, rfl⟩
    generalize each (d.leaves e.actUnit.toNat) (fun n t => (leafAct e n t).2) d = u at hout hin hframe ⊢
    refine ⟨fun n hn => ?_, fun n hn _ => ?_, by rw [hframe.2]⟩
    · by_cases hmem : n ∈ d.leaves e.actUnit.toNat
      · obtain hnot | hno := hn
        · exact absurd hmem hnot
        · obtain ⟨t, -, ht, hu⟩ := hin n hmem
          rw [hu, leafAct_refused e n t ((strikeTakes_axis e n ht).trans hno), ht]
      · exact hout n hmem
    · obtain ⟨t, -, ht, hu⟩ := hin n hn
      exact ⟨t, ht, hu⟩

/-- A leaf after a stop strike. -/
theorem strikeAct_stops (e : Strike) (d : Dev) (n : Nat) (hn : n ∈ d.leaves e.actUnit.toNat) (htakes : d.strikeTakes e n = true)
    (h : e.action = 1 ∨ e.action = 2) (hpin : pinless (d.leaves e.actUnit.toNat) d) :
    ((d.axis n).st ≠ .moving → (strikeAct e d).2.axis n = d.axis n) ∧
      ((d.axis n).st = .moving → ∃ p, ((strikeAct e d).2.axis n).stop = some p ∧ (e.action = 2 → p.immediate = true) ∧
        ((d.axis n).stop = none → p.cause = .strike ∧ p.joined = [] ∧ p.decel = (if e.action = 1 then e.param else 0) ∧
          p.immediate = decide (e.action = 2))) := by
  have h5 : e.action ≠ 5 := by
    obtain h | h := h
    · rw [h]
      decide
    · rw [h]
      decide
  obtain ⟨t, ht, hu⟩ := (strikeAct_pinless e d hpin).2.1 n hn h5
  rw [leafAct_stops e n t h ((strikeTakes_axis e n ht).trans htakes), stop_of_no_pin _ _ _ _ _ _ (by rw [ht]; exact hpin n hn)] at hu
  rw [hu, ← ht]
  refine ⟨fun hst => axis_stopAxis_still _ _ _ _ _ _ hst, fun hst => ?_⟩
  obtain ⟨p, hp, himm, hbegins⟩ := axis_stopAxis_strike n (decide (e.action = 2)) (if e.action = 1 then e.param else 0) t hst
  exact ⟨p, hp, fun h2 => himm (decide_eq_true h2), hbegins⟩

/-- A leaf after a strike that writes vmax or the auxiliary leg. -/
theorem strikeAct_writes (e : Strike) (d : Dev) (n : Nat) (hn : n ∈ d.leaves e.actUnit.toNat) (h : e.action = 3 ∨ e.action = 4) :
    ∃ t, t.axis n = d.axis n ∧ (strikeAct e d).2.axis n = (leafAct e n t).2.axis n := by
  have h5 : e.action ≠ 5 := by
    obtain h | h := h
    · rw [h]
      decide
    · rw [h]
      decide
  rw [strikeAct_eq e d h5]
  obtain ⟨t, -, ht, hu⟩ := axis_each (fun n t => (leafAct e n t).2) (d.leaves e.actUnit.toNat) (nodup_bitsSet 64 _) d
    (fun n t => leafAct_motion e n t h) n hn
  exact ⟨t, ht, hu⟩

theorem strikeAct_vmax (e : Strike) (d : Dev) (n : Nat) (hn : n ∈ d.leaves e.actUnit.toNat) (htakes : d.strikeTakes e n = true)
    (h : e.action = 3) : (strikeAct e d).2.axis n = vmaxTaken (e.param.setWidth 24) (d.axis n) := by
  obtain ⟨t, ht, hu⟩ := strikeAct_writes e d n hn (Or.inl h)
  rw [hu, leafAct_vmax e n t h ((strikeTakes_axis e n ht).trans htakes), ht]

theorem strikeAct_aux (e : Strike) (d : Dev) (n : Nat) (hn : n ∈ d.leaves e.actUnit.toNat) (htakes : d.strikeTakes e n = true)
    (h : e.action = 4) : (strikeAct e d).2.axis n = auxTaken (e.param.setWidth 16) (d.axis n) := by
  obtain ⟨t, ht, hu⟩ := strikeAct_writes e d n hn (Or.inr h)
  rw [hu, leafAct_aux e n t h ((strikeTakes_axis e n ht).trans htakes), ht]

/-- Any other action leaves every axis. -/
theorem strikeAct_rest (e : Strike) (d : Dev) (n : Nat) (h : e.action ∉ [1, 2, 3, 4]) : (strikeAct e d).2.axis n = d.axis n := by
  by_cases h5 : e.action = 5
  · rw [strikeAct_release e d h5]
    split <;> rfl
  · rw [strikeAct_eq e d h5]
    exact each_keeps (fun t => t.axis n = d.axis n) (fun n t => (leafAct e n t).2) (d.leaves e.actUnit.toNat) d
      (fun k _ t ht => by rw [leafAct_rest e k t h]; exact ht) rfl

/-! ## The whole firing (R155, R159, R165) -/

theorem afterFire_eq (e : Strike) (h : e.st = .armed) : afterFire e = { e with
    st := if e.rep = false then .fired else if e.key = 0 then .recoiling else .armed,
    value := if e.rep = true ∧ 2 ≤ e.key.toNat then (e.value.setWidth 32 + e.hyst.setWidth 32).setWidth 40 else e.value } := by
  have hkey : e.key = 0 ∨ e.key = 1 ∨ 2 ≤ e.key.toNat := by
    generalize e.key = k
    revert k
    decide
  obtain ⟨st, unit, key, mode, rep, fip, action, actUnit, param, value, hyst, quiet, owner, prev, passed, since, jump, prevAx, last, firedAt⟩ := e
  dsimp only at h hkey ⊢
  subst h
  unfold afterFire
  dsimp only
  cases rep
  · rfl
  · obtain rfl | rfl | hk := hkey
    · rfl
    · rfl
    · have h0 : key ≠ 0 := fun h => by subst h; exact absurd hk (by decide)
      have h1 : key ≠ 1 := fun h => by subst h; exact absurd hk (by decide)
      rw [if_neg (by decide : ¬ (!true) = true), if_neg h0, if_neg h1, if_neg (by decide : ¬ true = false), if_neg h0,
        if_pos ⟨rfl, hk⟩]

/-- The event record of a firing. -/
theorem hif_fireReport {d t : Dev} (hh : t.hif = d.hif) (ht : t.time = d.time) (e : Strike) (w : Word) :
    (e.owner = none ∨ e.quiet = true → (fireReport e w t).hif = d.hif) ∧
      ∀ o, e.owner = some o → e.quiet = false → (fireReport e w t).hif = (d.produce o.cq
        (d.recOf o .event .strikeFired e.unit.toNat w false)).hif := by
  unfold fireReport
  refine ⟨fun h => ?_, fun o ho hq => ?_⟩
  · split
    · next o ho =>
      rw [if_pos (h.resolve_left (by rw [ho]; simp))]
      exact hh
    · exact hh
  · rw [ho, hq]
    show (t.produce o.cq (t.recOf o .event .strikeFired e.unit.toNat w false)).hif = _
    rw [recOf_congr ht, hif_produce_congr hh]

/-- STRIKE_STATUS after a firing (R165, R170). -/
theorem counted_status (acted : Bool) (d : Dev) :
    (counted acted d).hw Fl.strikeStatusFirings 0 = min (2 ^ Fl.strikeStatusFirings.width - 1) (d.hw Fl.strikeStatusFirings 0 + 1) ∧
      (counted acted d).hw Fl.strikeStatusSuppressed 0 = if acted = true then d.hw Fl.strikeStatusSuppressed 0 else 1 := by
  have hbump (t : Dev) : (t.bump Fl.strikeStatusFirings 0 1).hw Fl.strikeStatusSuppressed 0 = t.hw Fl.strikeStatusSuppressed 0 :=
    hw_setHw_beside t Fl.strikeStatusFirings Fl.strikeStatusSuppressed 0 _ rfl (by decide) (by decide)
  have hstick : (d.stick Fl.strikeStatusSuppressed 0).hw Fl.strikeStatusFirings 0 = d.hw Fl.strikeStatusFirings 0 :=
    hw_setHw_beside d Fl.strikeStatusSuppressed Fl.strikeStatusFirings 0 _ rfl (by decide) (by decide)
  unfold counted
  rw [hw_bump_same _ _ _ _ (by decide), hbump]
  cases acted
  · refine ⟨?_, hw_stick_same d Fl.strikeStatusSuppressed 0 (by decide) rfl⟩
    show min _ ((d.stick Fl.strikeStatusSuppressed 0).hw Fl.strikeStatusFirings 0 + 1) = _
    rw [hstick]
  · exact ⟨rfl, rfl⟩

/-- The block after a firing, by the block after its action. -/
structure afterFiring (i : Nat) (e : Strike) (w : Word) (acted : Bool) (u t : Dev) : Prop where
  frame : t = { u with hif := t.hif, strikes := t.strikes, regs := t.regs }
  entry : t.strike i = firedEntry u e
  other : ∀ j, j ≠ i → t.strike j = u.strike j
  quiet : e.owner = none ∨ e.quiet = true → t.hif = u.hif
  record : ∀ o, e.owner = some o → e.quiet = false →
    t.hif = (u.produce o.cq (u.recOf o .event .strikeFired e.unit.toNat w false)).hif
  firings : t.hw Fl.strikeStatusFirings 0 = min (2 ^ Fl.strikeStatusFirings.width - 1) (u.hw Fl.strikeStatusFirings 0 + 1)
  suppressed : t.hw Fl.strikeStatusSuppressed 0 = if acted = true then u.hw Fl.strikeStatusSuppressed 0 else 1

theorem counted_regs (acted : Bool) (d : Dev) : counted acted d = { d with regs := (counted acted d).regs } := by
  cases acted <;> rfl

theorem afterFiring_report (i : Nat) (e : Strike) (w : Word) (acted : Bool) (u : Dev) :
    afterFiring i e w acted u (fireReport e w ((counted acted u).setStrike i (firedEntry (counted acted u) e))) := by
  have hc := counted_regs acted u
  obtain ⟨hfirings, hsupp⟩ := counted_status acted u
  have hentry : firedEntry (counted acted u) e = firedEntry u e := by rw [hc]; rfl
  rw [hentry]
  generalize counted acted u = c at hc hfirings hsupp
  have hframe := reported_frame e w (c.setStrike i (firedEntry u e))
  have hfind := find_hw_reported e w (c.setStrike i (firedEntry u e))
  obtain ⟨hquiet, hrecord⟩ := hif_fireReport (d := u) (t := c.setStrike i (firedEntry u e)) (by rw [hc]; rfl) (by rw [hc]; rfl) e w
  generalize fireReport e w (c.setStrike i (firedEntry u e)) = t at hframe hfind hquiet hrecord ⊢
  have hstrikes : t.strikes = (c.setStrike i (firedEntry u e)).strikes := by rw [hframe]
  refine ⟨?_, ?_, fun j hj => ?_, hquiet, hrecord, ?_, ?_⟩
  · rw [hframe, hc]
    rfl
  · unfold strike
    rw [hstrikes]
    exact strike_setStrike c i _
  · unfold strike
    rw [hstrikes]
    refine (strike_setStrike_other c _ hj).trans ?_
    unfold strike
    rw [hc]
  · rw [← hfirings]
    exact hw_congr _ _ Fl.strikeStatusFirings 0 hfind
  · rw [← hsupp]
    exact hw_congr _ _ Fl.strikeStatusSuppressed 0 hfind

/-- A strike that is armed fires: its action, and what the firing leaves. -/
theorem fire_after (d : Dev) (i : Nat) (byPassed jump : Bool) (h : (d.strike i).st = .armed) :
    afterFiring i (d.strike i) (fireWord i (d.strikeActs (d.strike i)) byPassed jump) (d.strikeActs (d.strike i))
      (strikeAct (d.strike i) d).2 (fire i byPassed jump d) := by
  have hkept : (strikeAct (d.strike i) d).2.strike i = d.strike i :=
    (strikeAct_struck (d.strike i) d).kept i fun hr => by
      obtain ⟨-, -, hheld⟩ := hr
      exact absurd (h.symm.trans hheld) (by decide)
  rw [fire_eq i byPassed jump d (strikeAct (d.strike i) d).2 (d.strikeActs (d.strike i))
    (Prod.ext (strikeAct_acts (d.strike i) d) rfl), hkept]
  exact afterFiring_report i _ _ _ _

end Sys2Proof.Machine.Dev
end

section
/-! Proofs for the strike table (chapter 5): STRIKE_ARM, STRIKE_DISARM, evaluation, firing, and SNAPSHOT together. -/

namespace Sys2Proof.Machine

namespace Dev

/-- What a STRIKE_ARM has loaded from its descriptor. -/
structure loadedFrom (d : Dev) (i : Fin 128) (slot : BitVec 16) (y : Desc) (e : Strike) : Prop where
  st : e.st = (if y.opflag 2 then .held else .armed)
  unit : e.unit.toNat = y.unit
  key : e.key.toNat = bits y.w1 19 2
  mode : e.mode.toNat = bits y.w1 21 2
  action : e.action.toNat = bits y.w4 0 3
  actUnit : e.actUnit.toNat = bits y.w4 4 9
  param : e.param = y.w5
  rep : e.rep = bit y.w1 23
  fip : e.fip = y.opflag 1
  quiet : e.quiet = y.opflag 3
  hyst : e.hyst.toNat = bits y.w3 16 16
  owner : e.owner = some { d.ownerOf i slot y with credit := false, silent := false }

theorem armedStrike_loaded (d : Dev) (i : Fin 128) (slot : BitVec 16) (y : Desc) (e : Strike) :
    d.loadedFrom i slot y (d.armedStrike (d.ownerOf i slot y) y e) := by
  rw [armedStrike_kept]
  unfold strikeOf
  exact ⟨rfl, toNat_ofNat_bits _ _ _, toNat_ofNat_bits _ _ _, toNat_ofNat_bits _ _ _, toNat_ofNat_bits _ _ _, toNat_ofNat_bits _ _ _,
    rfl, rfl, rfl, rfl, toNat_ofNat_bits _ _ _, rfl⟩

/-- The value that a STRIKE_ARM loads, key by key. -/
theorem loadValue_keys (d : Dev) (y : Desc) :
    (bits y.w1 19 2 = 0 → d.loadValue y = y.pos 2) ∧ (bits y.w1 19 2 = 1 → d.loadValue y = 0) ∧
      (2 ≤ bits y.w1 19 2 → d.loadValue y = (y.w2 + (if y.opflag 2 = true ∨ bits y.w1 21 2 % 2 = 0 then 0
        else if bits y.w1 19 2 = 2 then d.time.mainsLatch else d.tick32)).setWidth 40) := by
  unfold loadValue
  refine ⟨fun h => if_pos h, fun h => ?_, fun h => ?_⟩
  · rw [if_neg (by omega), if_pos h]
  · rw [if_neg (by omega), if_neg (by omega)]

/-- An entry that has fired and was armed. -/
theorem firedEntry_armed (d : Dev) (e : Strike) (h : e.st = .armed) : firedEntry d e = { e with
    st := if e.rep = false then .fired else if e.key = 0 then .recoiling else .armed
    value := if e.rep = true ∧ 2 ≤ e.key.toNat then (e.value.setWidth 32 + e.hyst.setWidth 32).setWidth 40 else e.value
    last := d.tick32, firedAt := some d.time.tick, passed := false } := by
  unfold firedEntry
  rw [afterFire_eq e h]

/-- The speed that a VMAX strike commands. -/
theorem vmaxTaken_motion (v : BitVec 24) (x : HubAxis) :
    (x.mot.mode ≠ .velocity → (vmaxTaken v x).mot = x.mot) ∧
      (x.mot.mode = .velocity → (vmaxTaken v x).mot = { x.mot with cmd := (if x.mot.cmd < 0 then -1 else 1) * (v.toNat : Int) }) := by
  unfold vmaxTaken
  refine ⟨fun h => if_neg h, fun h => (if_pos h).trans ?_⟩
  split
  · rw [neg_one_mul]
  · rw [one_mul]

theorem auxTaken_duty (v : BitVec 16) (x : HubAxis) :
    auxTaken v x = { x with xduty := (auxTaken v x).xduty } ∧ (auxTaken v x).xduty.bind (·.duty) = some v := by
  refine ⟨rfl, ?_⟩
  unfold auxTaken
  cases x.xduty <;> rfl

end Dev

/-- Settles O38: what each descriptor leaves in the table, evaluation entry by entry, a firing as its action and what follows it. -/
theorem strikesAndSnapshot : Obligations.StrikesAndSnapshot := by
  unfold Obligations.StrikesAndSnapshot
  refine ⟨?_, ?_, ?_, Dev.evalStrike_skips, ?_, ?_, ?_, Dev.evalStrike_keys, ?_, ?_⟩
  · intro s i slot x y k au hy hk hau hadm hfield hbound hring hfree
    obtain ⟨d, hd, hslot, hload, hrec, hother, hframe⟩ := exec_strikeArm_loads s i slot x y k au hy hk hau hadm hfield hbound hring hfree
    have hfrom := s.dev.armedStrike_loaded i slot y (s.dev.strike k)
    obtain ⟨hv0, hv1, hv2⟩ := s.dev.loadValue_keys y
    have hvalue := s.dev.value_armedStrike (s.dev.ownerOf i slot y) y (s.dev.strike k)
    have hbased := s.dev.armedStrike_based (s.dev.ownerOf i slot y) y (s.dev.strike k)
    have hstatus := s.dev.armStatus_eq (s.dev.ownerOf i slot y) y (s.dev.strike k)
    rw [← hload] at hfrom hvalue hbased hstatus
    obtain ⟨hst, hunit, hkey, hmode, haction, hact, hparam, hrep, hfip, hquiet, hhyst, howner⟩ := hfrom
    refine ⟨d, hd, hslot, hst, hunit, hkey, hmode, haction, hact.trans hau.symm, hparam, hrep, hfip, hquiet, hhyst, howner,
      fun h => hvalue.trans (hv0 h), fun h => hvalue.trans (hv1 h), fun h => hvalue.trans (hv2 h), hbased, fun hr w hw => ?_, hother, hframe⟩
    have hadded := hrec hr
    have hword : Dev.armWord y (s.dev.strike k) = w := by
      rw [hw, hk]
      rfl
    rw [hword] at hadded
    exact ⟨fun h => hstatus.1 h ▸ hadded, fun h => hstatus.2 h ▸ hadded⟩
  · exact fun s i slot x y hy hadm hone hunit => exec_strikeDisarm_one s i slot x y hy hadm hone hunit
  · exact fun s i slot x y hy hadm hall => exec_strikeDisarm_all s i slot x y hy hadm hall
  · exact fun d i e he hst hsince hkey hstale => Dev.evalStrike_stale d i e he hst hsince hkey hstale
  · exact fun d i ax e e' a b k he hst hsince hkey hax hstale ha hb hk he' =>
      Dev.evalStrike_armed d i ax e e' a b k he hst hsince hkey hax hstale ha hb hk he'
  · exact fun d i ax e b k h he hst hsince hkey hax hstale hb hk hh =>
      Dev.evalStrike_recoiling d i ax e b k h he hst hsince hkey hax hstale hb hk hh
  · intro d t i byPassed jump e he hst ht
    subst he
    have hfire := Dev.fire_after d i byPassed jump hst
    rw [← ht] at hfire
    clear ht
    have hu := Dev.strikeAct_struck (d.strike i) d
    have hpinless := Dev.strikeAct_pinless (d.strike i) d
    have hstops := Dev.strikeAct_stops (d.strike i) d
    have hvmax := Dev.strikeAct_vmax (d.strike i) d
    have haux := Dev.strikeAct_aux (d.strike i) d
    have hrest := Dev.strikeAct_rest (d.strike i) d
    generalize (Dev.strikeAct (d.strike i) d).2 = u at hfire hu hpinless hstops hvmax haux hrest
    obtain ⟨hframe, hentry, hother, hquiet, hrecord, hfirings, hsupp⟩ := hfire
    obtain ⟨huhif, hutime, hustatus, hukept, hureleased⟩ := hu
    have haxis : ∀ n, t.axis n = u.axis n := fun n => by unfold Dev.axis; rw [hframe]
    have hreleased : ∀ j, d.releases (d.strike i) j → j ≠ i := fun j hj hji => by
      obtain ⟨-, -, hheld⟩ := hj
      rw [hji, hst] at hheld
      exact absurd hheld (by decide)
    refine ⟨?_, ?_, ?_, fun j hj hrel => (hother j hj).trans (hukept j hrel), fun h5 hheld => ?_, fun h => (hquiet h).trans huhif,
      fun o ho hq => ?_, fun hpin => ?_, fun n hn htakes => ⟨fun h hpin => ?_, fun h => ?_, fun h => ?_, fun h => ?_⟩⟩
    · rw [hfirings, Dev.hw_congr d u Fl.strikeStatusFirings 0 hustatus]
    · rw [hsupp, Dev.hw_congr d u Fl.strikeStatusSuppressed 0 hustatus]
    · rw [hentry, Dev.firedEntry_armed u _ hst]
      unfold Dev.tick32
      rw [hutime]
    · have hrel : d.releases (d.strike i) (bits (d.strike i).param 0 10) := ⟨h5, rfl, hheld⟩
      rw [hother _ (hreleased _ hrel)]
      exact hureleased _ hrel
    · rw [hrecord o ho hq, Dev.recOf_congr hutime, Dev.hif_produce_congr huhif]
      rfl
    · obtain ⟨hstay, -, huframe⟩ := hpinless hpin
      exact ⟨fun n hn => (haxis n).trans (hstay n hn), by rw [hframe, huframe]⟩
    · rw [haxis]
      exact hstops n hn htakes h hpin
    · rw [haxis, hvmax n hn htakes h]
      exact ⟨rfl, Dev.vmaxTaken_motion _ _⟩
    · rw [haxis, haux n hn htakes h]
      exact Dev.auxTaken_duty _ _
    · rw [haxis]
      exact hrest n h
  · exact fun s i slot x y hy hadm => exec_snapshot_admitted s i slot x y hy hadm

end Sys2Proof.Machine
end

section
/-! What a PWM boundary leaves of one axis (chapters 6 to 9): the sequence, the monitors, the converters and the loop each change that axis
and its own status registers alone. -/

namespace Sys2Proof.Machine.Dev

/-! ## Steps on one axis -/

variable {n : Nat} {d t : Dev}

theorem axesOnly.mva (h : axesOnly [n] d t) (f : MvAxis → MvAxis) : axesOnly [n] d (t.modMva n f) := h.trans (axesOnly_modMva n t f)

theorem axesOnly.shown (h : axesOnly [n] d t) (f : Fld) (i v : Nat) (hp : ownPage (f.reg.offset i)) : axesOnly [n] d (t.setHw f i v) :=
  h.trans (axesOnly_setHw [n] t f i v hp)

theorem axesOnly_foldl {α : Type} (f : Dev → α → Dev) (l : List α) (d : Dev) (h : ∀ a ∈ l, ∀ t, axesOnly [n] t (f t a)) :
    axesOnly [n] d (l.foldl f d) := by
  induction l generalizing d with
  | nil => exact axesOnly_refl _ d
  | cons a l ih => exact (h a List.mem_cons_self d).trans (ih (f d a) fun b hb => h b (List.mem_cons_of_mem a hb))

theorem ownPage_isenseStatus (n : Nat) : ownPage (Reg.offset .isenseStatus n) := by
  simp only [ownPage, Reg.offset, Reg.place]
  omega
theorem ownPage_isenseTrack (n : Nat) : ownPage (Reg.offset .isenseTrack n) := by
  simp only [ownPage, Reg.offset, Reg.place]
  omega
theorem ownPage_isenseExtra (n : Nat) : ownPage (Reg.offset .isenseExtra n) := by
  simp only [ownPage, Reg.offset, Reg.place]
  omega
theorem ownPage_pwmStatus (n : Nat) : ownPage (Reg.offset .pwmStatus n) := by
  simp only [ownPage, Reg.offset, Reg.place]
  omega

theorem modFoc_axesOnly (n : Nat) (d : Dev) (f : Foc → Foc) : axesOnly [n] d (d.modFoc n f) := axesOnly_modMva n d _

theorem setCounter_axesOnly (n : Nat) (p : Int) (d : Dev) : axesOnly [n] d (setCounter n p d) := modFb_axesOnly n d _

/-! ## The monitors (R452 to R456) -/

theorem watchPhases_axesOnly (n t : Nat) (high : Fin 3 → Option Bool) (d : Dev) : axesOnly [n] d (watchPhases n t high d) := by
  unfold watchPhases
  split
  · exact modWatch_axesOnly n d _
  · refine axesOnly_foldl _ _ d fun p _ u => ?_
    split
    · exact modWatch_axesOnly n u _
    · dsimp only
      split
      · exact (watchCross_axesOnly n p t u).trans (modWatch_axesOnly n _ _)
      · exact modWatch_axesOnly n u _

theorem watchSpan_axesOnly (n : Nat) (sp : Span) (es : List LegEnd) (d : Dev) : axesOnly [n] d (watchSpan n sp es d) := by
  unfold watchSpan watchSamples
  exact (watchPhases_axesOnly n _ _ d).trans (modWatch_axesOnly n _ _)

/-! ## The sequence (R213 to R228) -/

theorem toCatch_axesOnly (n : Nat) (ph : BitVec 4) (d : Dev) : axesOnly [n] d (toCatch n ph d) := by
  unfold toCatch
  exact (setDrive_axesOnly n .catching d).mva _

theorem toBrake_axesOnly (n : Nat) (ph : BitVec 4) (d : Dev) : axesOnly [n] d (toBrake n ph d) := by
  unfold toBrake
  exact (setDrive_axesOnly n .brake d).mva _

theorem endSeq_axesOnly (n : Nat) (k : Drive) (ph : BitVec 4) (e : SeqEnd) (d : Dev) : axesOnly [n] d (endSeq n k ph e d) := by
  unfold endSeq
  exact (setDrive_axesOnly n k d).mva _

theorem toCoast_axesOnly (n : Nat) (d : Dev) : axesOnly [n] d (toCoast n d) := (toCoast_enters n d).1

theorem toObserver_axesOnly (n : Nat) (v : Speed) (forced caught : Bool) (d : Dev) : axesOnly [n] d (toObserver n v forced caught d) := by
  unfold toObserver
  exact ((setCounter_axesOnly n _ d).trans (setDrive_axesOnly n .field _)).mva _

theorem startFailed_axesOnly (n : Nat) (d : Dev) : axesOnly [n] d (startFailed n d) := by
  unfold startFailed
  exact (((loseAngle_axesOnly n d).shown Fl.slStatusStartRetried n _ (ownPage_slStatus n)).trans (toBrake_axesOnly n phRetry _)).mva _

theorem rotorLost_axesOnly (n : Nat) (d : Dev) : axesOnly [n] d (rotorLost n d) := by
  have hseen := ((loseAngle_axesOnly n d).shown Fl.slStatusLossSeen n (2 ^ Fl.slStatusLossSeen.width - 1) (ownPage_slStatus n)).mva
    fun x => { x with fb := { x.fb with quiet := 0 } }
  unfold rotorLost
  dsimp only
  split
  · exact hseen.trans (toCoast_axesOnly n _)
  · exact (hseen.mva _).trans (toCatch_axesOnly n phResync _)

theorem catchFound_axesOnly (n : Nat) (d : Dev) : axesOnly [n] d (catchFound n d) := by
  have hbrake := toBrake_axesOnly n phCatchBrake d
  have hslow := modSl_axesOnly n d fun s => { s with slow := true }
  have hcaught := toObserver_axesOnly n (d.crossSpeed n) false true d
  unfold catchFound
  dsimp only
  split
  · exact axesOnly_refl _ d
  · next r _ =>
    by_cases halign : r.alignOnly = true
    · rw [if_pos halign]
      split
      · split
        · exact hbrake
        · exact endSeq_axesOnly n .float phNone .turning d
      · exact hslow
    rw [if_neg halign]
    by_cases honly : r.catchOnly = true
    · rw [if_pos honly]
      split
      · exact hcaught
      · split
        · exact hbrake
        · exact endSeq_axesOnly n .float phNone .floated d
    rw [if_neg honly]
    split
    · exact hcaught
    split
    · exact hbrake
    split
    · exact hbrake
    split
    · split
      · exact (axesOnly_setHw [n] d Fl.axisStatusRevBraking n 1 (ownPage_axisStatus n)).trans (toBrake_axesOnly n phCatchBrake _)
      · exact endSeq_axesOnly n .float phNone .refused d
    · exact hslow

theorem resyncFound_axesOnly (n : Nat) (d : Dev) : axesOnly [n] d (resyncFound n d) := by
  unfold resyncFound
  dsimp only
  split
  · exact toObserver_axesOnly n _ false true d
  · exact axesOnly_refl _ d

theorem slBoundary_axesOnly (n : Nat) (d : Dev) : axesOnly [n] d (slBoundary n d) := by
  have hnext := modSl_axesOnly n d fun s => { s with next := none }
  unfold slBoundary
  dsimp only
  split
  · split
    · exact hnext.trans (toObserver_axesOnly n _ true false _)
    split
    · exact hnext.trans (catchFound_axesOnly n _)
    split
    · exact hnext.trans (resyncFound_axesOnly n _)
    · exact hnext
  · split
    · exact hnext.trans (startFailed_axesOnly n _)
    · exact hnext
  · exact hnext.trans (rotorLost_axesOnly n _)
  · exact hnext

theorem probeEnd_axesOnly (n : Nat) (d : Dev) : axesOnly [n] d (probeEnd n d) := by
  unfold probeEnd
  exact (modSl_axesOnly n d _).mva _

theorem probeStep_axesOnly (n : Nat) (d : Dev) : axesOnly [n] d (probeStep n d) := by
  unfold probeStep
  dsimp only
  split
  · exact axesOnly_refl _ d
  split
  · exact probeEnd_axesOnly n d
  · exact modLegs_axesOnly n d _

theorem forcedStep_axesOnly (n i K : Nat) (d : Dev) : axesOnly [n] d (forcedStep n i K d) := by
  unfold forcedStep
  dsimp only
  split
  · exact axesOnly_refl _ d
  · exact ((modSl_axesOnly n d _).trans (setCounter_axesOnly n _ _)).trans (wrapCheck_axesOnly n _)

theorem newSector_axesOnly (n : Nat) (d : Dev) : axesOnly [n] d (newSector n d) := by
  unfold newSector
  exact modSl_axesOnly n d _

theorem commutate_axesOnly (n : Nat) (was : Sl) (d : Dev) : axesOnly [n] d (commutate n was d) := by
  unfold commutate
  dsimp only
  split
  · exact newSector_axesOnly n d
  · exact axesOnly_refl _ d

theorem handSwitch_axesOnly (n i K : Nat) (d : Dev) : axesOnly [n] d (handSwitch n i K d) := by
  unfold handSwitch
  dsimp only
  split
  · exact modSl_axesOnly n d _
  split
  · exact (setCounter_axesOnly n _ d).mva _
  · exact axesOnly_refl _ d

theorem coastEnd_axesOnly (n : Nat) (d : Dev) : axesOnly [n] d (coastEnd n d) := by
  unfold coastEnd
  dsimp only
  split
  · exact axesOnly_refl _ d
  split
  · exact endSeq_axesOnly n .brake phNone .lost d
  · exact axesOnly_refl _ d

theorem shortStep_axesOnly (n : Nat) (low : Bool) (d : Dev) : axesOnly [n] d (shortStep n low d) := by
  unfold shortStep
  dsimp only
  split
  · exact axesOnly_refl _ d
  · exact modLegs_axesOnly n d _

theorem windowStep_axesOnly (n K : Nat) (d : Dev) : axesOnly [n] d (windowStep n K d) := by
  have hcond := modSl_axesOnly n d fun s => { s with wcond := d.windowsOn n, wdone := if d.windowsOn n then s.wdone else none }
  have hclosed := hcond.mva fun x => { x with legs := { x.legs with wphase := none, wleft := 0 } }
  unfold windowStep
  dsimp only
  split
  · exact hcond.mva _
  split
  · split
    · exact hclosed.shown Fl.slStatusWskip n _ (ownPage_slStatus n)
    · exact hclosed
  split
  · exact hclosed
  · exact (hclosed.mva _).shown Fl.slStatusWskip n _ (ownPage_slStatus n)
  · exact hclosed.mva _
  · exact (hclosed.mva _).mva _

theorem seqPeriod_axesOnly (n i K : Nat) (q : Meas) (d : Dev) : axesOnly [n] d (seqPeriod n i K q d) := by
  have hbegun := ((forcedStep_axesOnly n i K d).trans (slBoundary_axesOnly n _)).trans (commutate_axesOnly n (d.mva n).sl _)
  have hdone := ((hbegun.trans (handSwitch_axesOnly n i K _)).trans (coastEnd_axesOnly n _)).trans (probeStep_axesOnly n _)
  unfold seqPeriod
  exact (hdone.trans (shortStep_axesOnly n _ _)).trans (windowStep_axesOnly n K _)

end Sys2Proof.Machine.Dev
end

section
/-! What the converters and the loop leave of one axis, and a period start of a movement (chapters 8 and 9). -/

namespace Sys2Proof.Machine.Dev

/-! ## The converters (R244 to R255) -/

theorem clipMark_axesOnly (n : Nat) (b : Bool) (t : Nat) (x : Cur) (d : Dev) : axesOnly [n] d (clipMark n b t x d) := by
  unfold clipMark
  split
  · exact axesOnly_setHw [n] d Fl.isenseStatusClip n _ (ownPage_isenseStatus n)
  · exact axesOnly_refl _ d

theorem windowValue_axesOnly (n ph : Nat) (t : Option Nat) (g : Int) (b : Bool) (x : Cur) (d : Dev) :
    axesOnly [n] d (windowValue n ph t g b x d).2 := by
  unfold windowValue
  split
  · exact (clipMark_axesOnly n b _ x d).trans (modFoc_axesOnly n _ fun f => f.setLast ph _)
  · exact axesOnly_setHw [n] d Fl.isenseStatusNarrow n _ (ownPage_isenseStatus n)

theorem addPair_axesOnly (n : Nat) (c : PairCur) (late : Bool) (d : Dev) : axesOnly [n] d (addPair n c late d) :=
  modFoc_axesOnly n d _

theorem threePair_axesOnly (n p r : Nat) (ta tb : Option Nat) (a b : Cur) (late : Bool) (d : Dev) :
    axesOnly [n] d (threePair n p r ta tb a b late d) := by
  unfold threePair
  exact ((windowValue_axesOnly n p ta 1 false a d).trans (windowValue_axesOnly n r tb (-1) true b _)).trans (addPair_axesOnly n _ late _)

theorem twoPair_axesOnly (n c e : Nat) (t : Option Nat) (b : Bool) (x : Cur) (late : Bool) (d : Dev) :
    axesOnly [n] d (twoPair n c e t b x late d) := by
  unfold twoPair
  exact (windowValue_axesOnly n c t 1 b x d).trans (addPair_axesOnly n _ late _)

theorem addVolts_axesOnly (n : Nat) (h : Half) (d : Dev) : axesOnly [n] d (addVolts n h d) := by
  unfold addVolts
  exact axesOnly_foldl _ _ d fun _ _ t => modFoc_axesOnly n t _

theorem usePairs_axesOnly (n u : Nat) (two : Bool) (blank notBefore : Nat) (hs : List Half) (d : Dev) :
    axesOnly [n] d (usePairs n u two blank notBefore hs d) := by
  induction hs generalizing d with
  | nil => exact axesOnly_refl _ d
  | cons h hs ih =>
    unfold usePairs
    dsimp only
    refine axesOnly.trans ?_ (ih _)
    split
    · exact (addVolts_axesOnly n h d).trans (twoPair_axesOnly n _ _ _ _ _ _ _)
    · exact (addVolts_axesOnly n h d).trans (threePair_axesOnly n _ _ _ _ _ _ _ _)

theorem trackSample_axesOnly (n : Nat) (b : Bool) (tc t : Nat) (x : Cur) (d : Dev) : axesOnly [n] d (trackSample n b tc t x d) := by
  have htrack (v : Nat) : axesOnly [n] d (d.setHw (if b then Fl.isenseTrackTrkB else Fl.isenseTrackTrkA) n v) := by
    refine axesOnly_setHw [n] d _ n v ?_
    cases b
    · exact ownPage_isenseTrack n
    · exact ownPage_isenseTrack n
  unfold trackSample
  dsimp only
  split
  · exact (htrack _).shown Fl.isenseStatusOfsDrift n _ (ownPage_isenseStatus n)
  · exact htrack _

theorem extraOne_axesOnly (n : Nat) (g : SpanSet) (b : Bool) (u : Nat) (auto : List Win) (ls : List WLeg) (x : Cur) (d : Dev) :
    axesOnly [n] d (extraOne n g b u auto ls x d) := by
  unfold extraOne
  dsimp only
  split
  · exact axesOnly_refl _ d
  · exact axesOnly_setHw [n] d Fl.isenseStatusTrigSkip n _ (ownPage_isenseStatus n)
  · next w _ =>
    have hextra : axesOnly [n] d ((clipMark n b (w.stop - w.start) x d).setHw
        (if b then Fl.isenseExtraExtraB else Fl.isenseExtraExtraA) n (BitVec.ofInt 16 (d.current n b (w.stop - w.start) x)).toNat) := by
      refine (clipMark_axesOnly n b _ x d).shown _ n _ ?_
      cases b
      · exact ownPage_isenseExtra n
      · exact ownPage_isenseExtra n
    generalize (clipMark n b (w.stop - w.start) x d).setHw (if b then Fl.isenseExtraExtraB else Fl.isenseExtraExtraA) n _ = v at hextra ⊢
    split
    · exact hextra.trans (trackSample_axesOnly n b _ _ x v)
    · exact hextra

theorem countPulses_axesOnly (n : Nat) (ps : List Pulse) (d : Dev) : axesOnly [n] d (countPulses n ps d) :=
  (axesOnly_setHw [n] d Fl.pwmStatusMpDrop n _ (ownPage_pwmStatus n)).shown Fl.pwmStatusMpStretch n _ (ownPage_pwmStatus n)

theorem endLegs_axesOnly (n : Nat) (sp : Span) (g : SpanSet) (es : List LegEnd) (d : Dev) (h : ∀ e ∈ es, e.ph < 4) :
    axesOnly [n] d (endLegs n sp g es d) := by
  unfold endLegs
  exact (axesOnly_foldl _ es d fun e he t =>
    axesOnly_setHw [n] t Fl.gateStatusIlLate (4 * n + e.ph) _ (ownPage_gateStatus n e.ph (h e he))).mva _

theorem converters_axesOnly (n : Nat) (sp : Span) (g : SpanSet) (force : Duty) (q : Meas) (es : List LegEnd) (d : Dev) :
    axesOnly [n] d (converters n sp g force q es d) := by
  have hclip : axesOnly [n] d (if q.clip then d.stick Fl.isenseStatusClip n else d) := by
    split
    · exact axesOnly_setHw [n] d Fl.isenseStatusClip n _ (ownPage_isenseStatus n)
    · exact axesOnly_refl _ d
  unfold converters
  extract_lets _ _ _ _ _ _ _ _ _ u v _
  have hpairs : axesOnly [n] d v := hclip.trans (usePairs_axesOnly n _ _ _ _ _ _)
  split
  · exact (hpairs.trans (extraOne_axesOnly n g false _ _ _ _ _)).trans (extraOne_axesOnly n g true _ _ _ _ _)
  · exact hpairs

theorem measure_axesOnly (n : Nat) (q : Meas) (old : Legs) (next : Nat → Option Pulse) (d : Dev) : axesOnly [n] d (measure n q old next d) := by
  unfold measure
  dsimp only
  split
  · exact modLegs_axesOnly n d _
  · next g _ =>
    have hlegs : ∀ e ∈ (span 0 4).map (fun ph => d.legEnd n old.span g old q (next ph) ph), e.ph < 4 := fun e he => by
      obtain ⟨ph, hph, rfl⟩ := List.mem_map.mp he
      exact ((mem_span 0 4 ph).mp hph).2
    generalize (span 0 4).map (fun ph => d.legEnd n old.span g old q (next ph) ph) = es at hlegs ⊢
    refine (axesOnly.trans ?_ (watchSpan_axesOnly n old.span es _)).trans (endLegs_axesOnly n old.span g es _ hlegs)
    split
    · exact (countPulses_axesOnly n _ d).trans (converters_axesOnly n old.span g old.force q es _)
    · exact countPulses_axesOnly n _ d

/-! ## The period that begins, and the loop (R174 to R177, R222, R248, R272) -/

theorem beginSpan_axesOnly (n : Nat) (sp : Span) (d : Dev) : axesOnly [n] d (beginSpan n sp d) := by
  unfold beginSpan
  extract_lets u xs v
  have hu : axesOnly [n] d u := modLegs_axesOnly n d _
  have hv : axesOnly [n] d v := by
    refine hu.trans (axesOnly_foldl _ _ u fun ph hph t => ?_)
    have hlt : ph < 4 := by
      obtain h | h := List.mem_append.mp hph
      · exact lt_trans ((mem_bitsSet _ _ _).mp h).1 (by decide)
      · obtain ⟨_, _, rfl⟩ := List.mem_map.mp h
        decide
    exact (axesOnly_setHw [n] t Fl.gateStatusBstRefreshed (4 * n + ph) _ (ownPage_gateStatus n ph hlt)).shown
      Fl.gateStatusRefresh (4 * n + ph) _ (ownPage_gateStatus n ph hlt)
  split
  · split
    · exact hv.shown Fl.pwmStatusCompareBeyondPeriod n _ (ownPage_pwmStatus n)
    · exact hv
  · exact hv

theorem observe_axesOnly (n : Nat) (d : Dev) : axesOnly [n] d (observe n d) := by
  unfold observe
  extract_lets x par f a u e k
  have hu : axesOnly [n] d u := modSl_axesOnly n d _
  have he : axesOnly [n] d e := (hu.mva _).trans (addSteps_axesOnly n _ _)
  split
  · exact axesOnly_refl _ d
  split
  · split
    · exact he
    · exact he.trans (watchEdge_axesOnly n k _ e)
  · exact hu

theorem loopDone_axesOnly (n : Nat) (limited : Bool) (v : Int × Int) (intD intQ : Int) (duty : Duty) (d : Dev) :
    axesOnly [n] d (loopDone n limited v intD intQ duty d) := by
  have hflag (f : MvAxis → MvAxis) : axesOnly [n] d ((d.modMva n f).setFlag Fl.axisStatusVoltageLimited n limited) :=
    (axesOnly_modMva n d f).shown Fl.axisStatusVoltageLimited n _ (ownPage_axisStatus n)
  unfold loopDone
  dsimp only
  split
  · exact (hflag _).shown Fl.axisStatusVlimSeen n _ (ownPage_axisStatus n)
  · exact hflag _

theorem currentRun_axesOnly (n delta M ahead : Nat) (speed : Speed) (now : Nat) (d : Dev) :
    axesOnly [n] d (currentRun n delta M ahead speed now d) := by
  unfold currentRun
  dsimp only
  split
  · unfold pairRun
    exact loopDone_axesOnly n _ _ _ _ _ d
  · split
    · exact axesOnly_refl _ d
    · unfold vectorRun
      exact loopDone_axesOnly n _ _ _ _ _ d

theorem filterIq_axesOnly (n : Nat) (speed : Speed) (now : Nat) (d : Dev) : axesOnly [n] d (filterIq n speed now d) := by
  unfold filterIq
  dsimp only
  split
  · exact axesOnly_refl _ d
  · exact axesOnly_refl _ d
  · exact axesOnly_modMva n d _
  · exact axesOnly_modMva n d _
  · exact axesOnly_modMva n d _

theorem loopRun_axesOnly (n delta M K i : Nat) (d : Dev) : axesOnly [n] d (loopRun n delta M K i d) := by
  have hpairs : axesOnly [n] d (takePairs n d) := modFoc_axesOnly n d _
  unfold loopRun
  exact ((hpairs.trans (observe_axesOnly n _)).trans (currentRun_axesOnly n _ _ _ _ _ _)).trans (filterIq_axesOnly n _ _ _)

theorem axisPeriod_axesOnly (n i K : Nat) (q : Meas) (d : Dev) : axesOnly [n] d (axisPeriod n i K q d) := by
  have htransfer : axesOnly [n] d (transfer n (lateReady n d)) := by
    unfold transfer lateReady
    exact (modFoc_axesOnly n d _).mva _
  unfold axisPeriod
  extract_lets rate M old u sp v w y
  have hu : axesOnly [n] d u := (htransfer.trans (seqPeriod_axesOnly n i K q _)).trans (modLegs_axesOnly n _ _)
  have hv : axesOnly [n] d v := hu.trans (measure_axesOnly n q old (nextPulse sp) u)
  have hw : axesOnly [n] d w := by
    dsimp only [w]
    split
    · exact hv
    · exact hv
    · exact hv
    · exact hv
    · unfold zeroCurrents
      exact hv.mva _
  have hy : axesOnly [n] d y := hw.trans (beginSpan_axesOnly n sp w)
  split
  · exact hy
  · exact hy.trans (loopRun_axesOnly n _ M K i y)

end Sys2Proof.Machine.Dev
end

section
/-! A period start and a period centre of a movement (chapters 8 and 9): what each leaves of the block. -/

namespace Sys2Proof.Machine

/-! ## Registers of an axis page (R536) -/

/-- A register that an offset is found at stands there. -/
theorem atOffset_of_findReg {a i : Nat} {r : Reg} (l : List Reg) (h : findReg a l = some (r, i)) : r.atOffset a = some i := by
  induction l with
  | nil => cases h
  | cons g l ih =>
    unfold findReg at h
    split at h
    · next k hk =>
      cases h
      exact hk
    · exact ih h

/-- A register of the axis pages that has one word for each axis. -/
theorem axis_of_atOffset {r : Reg} {a i : Nat} (c : Nat) (hbase : r.place.base = 0x10000 + c) (hs : r.place.stride1 = 0x400)
    (hone : r.place.n2 = 1) (h : r.atOffset a = some i) : a = 0x10000 + c + 0x400 * i := by
  unfold Reg.atOffset at h
  dsimp only at h
  rw [hbase, hs, hone] at h
  split at h
  · cases h
  · split at h
    · next hlt hcond =>
      obtain ⟨-, hmod, hdiv⟩ := hcond
      injection h with hi
      have hz : (a - (0x10000 + c)) % 0x400 / r.place.stride2 = 0 := Nat.lt_one_iff.mp hdiv
      have hr : (a - (0x10000 + c)) % 0x400 = 0 := by
        have := Nat.div_add_mod ((a - (0x10000 + c)) % 0x400) r.place.stride2
        rw [hz, hmod] at this
        simpa using this.symm
      rw [hz] at hi
      omega
    · cases h

namespace Dev

theorem movement_of_page {m a i c : Nat} (h : pageMv a = some m) (ha : a = 0x10000 + c + 0x400 * i) (hc : c < 0x400) : i / 8 = m := by
  unfold pageMv at h
  rw [if_neg (by omega)] at h
  by_cases hlt : 0x10000 ≤ a ∧ a < 0x20000
  · rw [if_pos hlt] at h
    have hm : (a - 0x10000) / 0x2000 = m := Option.some.inj h
    omega
  · rw [if_neg hlt] at h
    cases h

/-- The axis of a register of an axis page is one of the movement whose page holds it. -/
theorem axis_of_page {m a i : Nat} {r : Reg} (hr : r = .fbCfg ∨ r = .elecCfg ∨ r = .isenseCfg) (hdec : decodeOffset a = some (r, i))
    (hm : inMv m a = true) : i / 8 = m := by
  have hat := atOffset_of_findReg Reg.all hdec
  have hpage : pageMv a = some m := by
    unfold inMv at hm
    exact beq_iff_eq.mp (Bool.and_eq_true_iff.mp hm).1
  obtain rfl | rfl | rfl := hr
  · exact movement_of_page hpage (axis_of_atOffset 0x180 rfl rfl rfl hat) (by decide)
  · exact movement_of_page hpage (axis_of_atOffset 0x50 rfl rfl rfl hat) (by decide)
  · exact movement_of_page hpage (axis_of_atOffset 0xC0 rfl rfl rfl hat) (by decide)

/-! ## Waiting writes of a movement (R11, R255, R365) -/

/-- t is d but for the movement's side of its axes, values accepted and in force, and device-driven registers of axis pages. -/
structure moveOnly (m : Nat) (d t : Dev) : Prop where
  frame : t = { d with mvax := t.mvax, regs := t.regs }
  other : ∀ n, n / 8 ≠ m → t.mva n = d.mva n
  hub : ∀ a, ¬ ownPage a → SMap.find t.regs.hw a = SMap.find d.regs.hw a

theorem moveOnly_refl (m : Nat) (d : Dev) : moveOnly m d d := ⟨rfl, fun _ _ => rfl, fun _ _ => rfl⟩

theorem moveOnly.trans {m : Nat} {d t u : Dev} (h : moveOnly m d t) (k : moveOnly m t u) : moveOnly m d u :=
  ⟨k.frame.trans (by rw [h.frame]), fun n hn => (k.other n hn).trans (h.other n hn), fun a ha => (k.hub a ha).trans (h.hub a ha)⟩

theorem axesOnly.page {l : List Nat} {d t : Dev} (h : axesOnly l d t) {m : Nat} (hl : ∀ n ∈ l, n / 8 = m) : moveOnly m d t :=
  ⟨h.mvax_regs, fun n hn => h.other n fun hmem => hn (hl n hmem), h.hub⟩

theorem axesOnly.page_one {n m : Nat} {d t : Dev} (h : axesOnly [n] d t) (hn : n / 8 = m) : moveOnly m d t :=
  h.page fun _ hk => (List.mem_singleton.mp hk) ▸ hn

theorem moveOnly_regs (m : Nat) (d : Dev) (r : Regs) (h : r.hw = d.regs.hw) : moveOnly m d { d with regs := r } :=
  ⟨rfl, fun _ _ => rfl, fun _ _ => by rw [← h]⟩

theorem fbForce_page (r : Reg) (n : Nat) (mask v : Word) (t : Nat) (d : Dev) : moveOnly (n / 8) d (fbForce r n mask v t d) := by
  unfold fbForce
  extract_lets e p kept₁ new kept₂ kept₃
  have he : moveOnly (n / 8) d e := moveOnly_regs _ d _ rfl
  have h1 : moveOnly (n / 8) d kept₁ := by
    dsimp only [kept₁]
    split
    · exact he
    · exact he.trans ((setCounter_axesOnly n p e).page_one rfl)
  have h2 : moveOnly (n / 8) d kept₂ := by
    have hnew := h1.trans (((modFb_axesOnly n kept₁ fun f => { f with zref := none, sector := none }).trans
      (unverified_axesOnly n _)).page_one rfl)
    dsimp only [kept₂]
    split
    · exact h1
    · split
      · exact hnew.trans ((takeSector_axesOnly n _).page_one rfl)
      · exact hnew
  have h3 : moveOnly (n / 8) d kept₃ := by
    dsimp only [kept₃]
    split
    · exact h2.trans ((modFb_axesOnly n kept₂ _).page_one rfl)
    · exact h2
  exact h3.trans ((modFb_axesOnly n kept₃ _).page_one rfl)

theorem mvTake_page {m : Nat} (t : Nat) (w : PendW) (d : Dev) (h : inMv m w.off = true) : moveOnly m d (mvTake t w d) := by
  unfold mvTake
  split
  · exact moveOnly_refl m d
  · next r i hdec =>
    have haxis (hr : r = .fbCfg ∨ r = .elecCfg ∨ r = .isenseCfg) : i / 8 = m := axis_of_page hr hdec h
    unfold mvForce
    split
    · rw [← haxis (Or.inl rfl)]
      exact fbForce_page _ i _ _ t d
    · rw [← haxis (Or.inr (Or.inl rfl))]
      exact fbForce_page _ i _ _ t d
    · dsimp only
      split
      · refine ⟨rfl, fun _ _ => rfl, fun a ha => ?_⟩
        have hne : a ≠ Reg.offset .isenseTrack i := fun he => ha (he ▸ ownPage_isenseTrack i)
        exact (find_hw_setHw _ Fl.isenseTrackTrkB i 0 hne).trans (find_hw_setHw _ Fl.isenseTrackTrkA i 0 hne)
      · exact moveOnly_regs m d _ rfl
    · exact moveOnly_regs m d _ rfl

theorem takeWrites_page {m : Nat} (t : Nat) (l : List PendW) (d : Dev) (h : ∀ w ∈ l, inMv m w.off = true) :
    moveOnly m d (l.foldl (fun d w => mvTake t w d) d) := by
  induction l generalizing d with
  | nil => exact moveOnly_refl m d
  | cons w l ih =>
    exact (mvTake_page t w d (h w List.mem_cons_self)).trans (ih (mvTake t w d) fun v hv => h v (List.mem_cons_of_mem w hv))

theorem takePend_page {m : Nat} (p : PendW → Bool) (t : Nat) (d : Dev) (hp : ∀ w, p w = true → inMv m w.off = true) :
    moveOnly m d (takePend p (mvTake t) d) := by
  have hpend (l : List PendW) : moveOnly m d { d with regs := { d.regs with pend := l } } := moveOnly_regs m d _ rfl
  unfold takePend
  exact (hpend _).trans
    (takeWrites_page t _ _ fun w hw => hp w (Bool.and_eq_true_iff.mp (List.mem_filter.mp hw).2).1)

/-! ## The axes of a period start -/

theorem axesPeriod_axesOnly (i K n : Nat) (l : List Meas) (d : Dev) :
    axesOnly (span n l.length) d (axesPeriod i K n l d) := by
  induction l generalizing n d with
  | nil => exact axesOnly_refl _ d
  | cons q l ih =>
    unfold axesPeriod
    exact ((axisPeriod_axesOnly n i K q d).mono fun k hk => by
        rw [List.mem_singleton.mp hk]
        exact (mem_span _ _ _).mpr ⟨le_refl n, by simp⟩).trans
      ((ih (n + 1) _).mono fun k hk => by
        obtain ⟨h1, h2⟩ := (mem_span _ _ _).mp hk
        exact (mem_span _ _ _).mpr ⟨by omega, by simp only [List.length_cons]; omega⟩)

/-! ## The fast readings (R313, R487) -/

/-- A reading of VDRV leaves the registers at other offsets. -/
theorem find_hw_vdrvRead (m : Nat) (v : BitVec 8) (d : Dev) {a : Nat} (h : a ≠ Reg.offset .gateMvstatus m) :
    SMap.find (vdrvRead m v d).regs.hw a = SMap.find d.regs.hw a := by
  unfold vdrvRead setFlag
  rw [find_hw_setHw _ Fl.gateMvstatusVdrvOk m _ h, find_hw_setHw _ Fl.gateMvstatusVdrv m _ h]

theorem vdrvRead_shown (m : Nat) (v : BitVec 8) (d : Dev) : (vdrvRead m v d).hw Fl.gateMvstatusVdrv m = v.toNat := by
  unfold vdrvRead setFlag
  rw [hw_setHw_beside _ Fl.gateMvstatusVdrvOk Fl.gateMvstatusVdrv m _ rfl (by decide) (by decide), hw_setHw_same _ _ _ _ (by decide)]
  exact Nat.mod_eq_of_lt v.isLt

theorem vbsRead_shown (m : Nat) (pin : BitVec 12) (d : Dev) : (vbsRead m pin d).hw Fl.vbusStatusVbs m = d.vbsOf m pin := by
  have hset : (d.setHw Fl.vbusStatusVbs m (d.vbsOf m pin)).hw Fl.vbusStatusVbs m = d.vbsOf m pin := by
    rw [hw_setHw_same _ _ _ _ (by decide)]
    exact Nat.mod_eq_of_lt (d.vbsOf_lt m pin)
  have hov (t : Dev) : (t.setHw Fl.vbusStatusOvNow m 0).hw Fl.vbusStatusVbs m = t.hw Fl.vbusStatusVbs m :=
    hw_setHw_beside t Fl.vbusStatusOvNow Fl.vbusStatusVbs m 0 rfl (by decide) (by decide)
  have huv (t : Dev) : (t.setHw Fl.vbusStatusUvNow m 0).hw Fl.vbusStatusVbs m = t.hw Fl.vbusStatusVbs m :=
    hw_setHw_beside t Fl.vbusStatusUvNow Fl.vbusStatusVbs m 0 rfl (by decide) (by decide)
  unfold vbsRead
  extract_lets v u fs ov uv w
  have hw : w.hw Fl.vbusStatusVbs m = d.vbsOf m pin := by
    dsimp only [w]
    split
    · exact (hov u).trans hset
    · exact hset
  split
  · exact (huv w).trans hw
  · exact hw

/-- The readings are shown in registers in front of the axis pages. -/
theorem readings_regs (m : Nat) (vbs : BitVec 12) (vdrv : BitVec 8) (d : Dev) :
    vdrvRead m vdrv (vbsRead m vbs d) = { d with regs := { d.regs with hw := (vdrvRead m vdrv (vbsRead m vbs d)).regs.hw } } := by
  have hv : vbsRead m vbs d = { d with regs := { d.regs with hw := (vbsRead m vbs d).regs.hw } } := by
    unfold vbsRead
    dsimp only
    split
    · split <;> rfl
    · split <;> rfl
  generalize vbsRead m vbs d = u at hv ⊢
  rw [hv]
  rfl

end Dev
end Sys2Proof.Machine
end

section
/-! Proofs for PWM_BOUNDARY: a period start and a period centre of a movement (chapters 7 to 9). -/

namespace Sys2Proof.Machine

namespace Dev

/-! ## A period start (R18, R269, R313, R487) -/

/-- The axes at a period start: all legs off where the PWM frequency is too high, else each axis's own period. -/
def axesStart (m i K : Nat) (meas : List Meas) (d : Dev) : Dev :=
  if !d.kOk m then each (localAxes m) (fun n d => modesAt (32 * (d.mva n).legs.span.len) n d) d
  else axesPeriod i K (8 * m) (meas.take 8) d

theorem axesStart_axesOnly (m i K : Nat) (meas : List Meas) (d : Dev) : axesOnly (localAxes m) d (axesStart m i K meas d) := by
  unfold axesStart
  split
  · exact axesOnly_each (fun n t => modesAt_axesOnly _ n t) (localAxes m) d
  · exact (axesPeriod_axesOnly i K (8 * m) (meas.take 8) d).mono fun n hn => by
      obtain ⟨h1, h2⟩ := (mem_span _ _ _).mp hn
      have hlen : (meas.take 8).length ≤ 8 := List.length_take_le 8 meas
      exact (mem_localAxes m n).mpr (by omega)

/-- The waiting writes of a movement at a period start, where it is not that of the tick. -/
def startWrites (m i : Nat) (d : Dev) : Dev :=
  if i = 0 then d else takePend (fun w => inMv m w.off && !w.tick) (mvTake (d.periodAt m i)) d

theorem startWrites_page (m i : Nat) (d : Dev) : moveOnly m d (startWrites m i d) := by
  unfold startWrites
  split
  · exact moveOnly_refl m d
  · exact takePend_page _ _ d fun w hw => (Bool.and_eq_true_iff.mp hw).1

theorem periodStart_eq (m : Nat) (meas : List Meas) (vbs : BitVec 12) (vdrv : BitVec 8) (d : Dev) (hruns : d.mvRuns m = true)
    (hlt : (d.mv m).period < d.kOf m) : periodStart m meas vbs vdrv d =
      axesStart m (d.mv m).period (d.kOf m) meas
        (vdrvRead m vdrv (vbsRead m vbs ((startWrites m (d.mv m).period d).modMv m fun x => { x with period := (d.mv m).period + 1 }))) := by
  unfold periodStart
  dsimp only
  rw [if_neg (by simp only [hruns]; simpa using hlt)]
  rfl

theorem periodStart_idle (m : Nat) (meas : List Meas) (vbs : BitVec 12) (vdrv : BitVec 8) (d : Dev)
    (h : d.mvRuns m = false ∨ d.kOf m ≤ (d.mv m).period) : periodStart m meas vbs vdrv d = d := by
  unfold periodStart
  dsimp only
  rw [if_pos (by simpa using h)]

/-- What a period start that takes place leaves. -/
theorem periodStart_leaves (m : Fin 8) (meas : List Meas) (vbs : BitVec 12) (vdrv : BitVec 8) (d : Dev) (hruns : d.mvRuns m = true)
    (hlt : (d.mv m).period < d.kOf m) (t : Dev) (ht : t = periodStart m meas vbs vdrv d) :
    t.hax = d.hax ∧ (t.mv m).period = (d.mv m).period + 1 ∧ t.hw Fl.gateMvstatusVdrv m = vdrv.toNat ∧
      t.hw Fl.vbusStatusVbs m = t.vbsOf m vbs ∧ (∀ n, n / 8 ≠ m.val → t.mva n = d.mva n) ∧ ∀ k, k ≠ m.val → t.mv k = d.mv k := by
  rw [periodStart_eq m meas vbs vdrv d hruns hlt] at ht
  have hu := startWrites_page m (d.mv m).period d
  generalize startWrites m (d.mv m).period d = u at hu ht
  have hperiod : ((u.modMv m fun x => { x with period := (d.mv m).period + 1 }).mv m).period = (d.mv m).period + 1 := by
    rw [mv_modMv_same]
  have hothers : ∀ k, k ≠ m.val → (u.modMv m fun x => { x with period := (d.mv m).period + 1 }).mv k = d.mv k := fun k hk => by
    rw [mv_modMv_other _ _ hk]
    unfold mv
    rw [hu.frame]
  have haxes : (u.modMv m fun x => { x with period := (d.mv m).period + 1 }).hax = d.hax := by
    show u.hax = d.hax
    rw [hu.frame]
  have hmva : ∀ n, n / 8 ≠ m.val → (u.modMv m fun x => { x with period := (d.mv m).period + 1 }).mva n = d.mva n := hu.other
  generalize u.modMv m (fun x => { x with period := (d.mv m).period + 1 }) = w at ht hperiod hothers haxes hmva
  have hvbs := vbsRead_shown m vbs w
  have hvdrv := vdrvRead_shown m vdrv (vbsRead m vbs w)
  have hframe := readings_regs m vbs vdrv w
  have hkept := find_hw_vdrvRead m vdrv (vbsRead m vbs w) (a := Reg.offset .vbusStatus m) (by
    simp only [Reg.offset, Reg.place]
    omega)
  generalize vbsRead m vbs w = r at ht hvbs hvdrv hframe hkept
  generalize vdrvRead m vdrv r = v at ht hvdrv hframe hkept
  have honly := axesStart_axesOnly m (d.mv m).period (d.kOf m) meas v
  rw [← ht] at honly
  have hforce : t.regs.force = w.regs.force := honly.force.trans (by rw [hframe])
  have hhub (f : Fld) (hf : f.reg = .gateMvstatus ∨ f.reg = .vbusStatus) : t.hw f m = v.hw f m := by
    refine honly.hw f m fun hp => ?_
    obtain ⟨hlow, -⟩ := hp
    have hm := m.isLt
    obtain hf | hf := hf
    · rw [hf] at hlow
      simp only [Reg.offset, Reg.place] at hlow
      omega
    · rw [hf] at hlow
      simp only [Reg.offset, Reg.place] at hlow
      omega
  have hmv : ∀ k, t.mv k = w.mv k := fun k => (honly.mv k).trans (by unfold mv; rw [hframe])
  refine ⟨?_, ?_, ?_, ?_, fun n hn => ?_, fun k hk => ?_⟩
  · rw [honly.frame]
    exact (congrArg Dev.hax hframe).trans haxes
  · rw [hmv]
    exact hperiod
  · rw [hhub _ (Or.inl rfl)]
    exact hvdrv
  · rw [hhub _ (Or.inr rfl), hw_congr _ _ Fl.vbusStatusVbs m hkept, hvbs]
    unfold vbsOf
    rw [cfg_congr hforce]
  · rw [honly.other n fun hmem => hn ((mem_localAxes m n).mp hmem)]
    refine Eq.trans ?_ (hmva n hn)
    unfold mva
    rw [hframe]
  · rw [hmv]
    exact hothers k hk

/-! ## A period centre (R275, R276) -/

theorem transfer_axesOnly (n : Nat) (d : Dev) : axesOnly [n] d (transfer n d) := modLegs_axesOnly n d _

theorem axisCentre_axesOnly (centre n : Nat) (d : Dev) : axesOnly [n] d (axisCentre centre n d) := by
  unfold axisCentre
  dsimp only
  split
  · exact axesOnly_refl _ d
  split
  · exact (transfer_axesOnly n d).trans (modLegs_axesOnly n _ _)
  split
  · exact axesOnly_setHw [n] d Fl.pwmStatusLateCommit n _ (ownPage_pwmStatus n)
  · exact axesOnly_refl _ d

/-- An axis whose commit buffer is empty stays at the centre. -/
theorem axisCentre_idle (centre n : Nat) (d : Dev) (h : (d.mva n).legs.buf = none) : axisCentre centre n d = d := by
  unfold axisCentre
  dsimp only
  rw [h]
  rfl

/-- A commit in time comes into force at the centre. -/
theorem axisCentre_commits (centre n : Nat) (d : Dev) (b : Duty) (h : (d.mva n).legs.buf = some b) (hc : 305 + 200 * (n % 8) ≤ centre) :
    ((axisCentre centre n d).mva n).legs.force = b ∧ ((axisCentre centre n d).mva n).legs.buf = none := by
  have hin : commitAt (n % 8) + 5 ≤ centre := by
    unfold commitAt
    omega
  unfold axisCentre
  dsimp only
  rw [h, if_neg (by simp), if_pos hin]
  unfold transfer modLegs
  rw [mva_modMva, mva_modMva]
  dsimp only
  rw [h]
  exact ⟨rfl, rfl⟩

theorem periodCentre_eq (m : Nat) (d : Dev) (hruns : d.mvRuns m = true) (hi : (d.mv m).period ≠ 0) (hmid : d.on Fl.pwmMvcfgMidupd m = true)
    (hedge : d.edgeAligned m = false) : periodCentre m d =
      each (localAxes m) (axisCentre (periodLen (mvClocks (d.mv m).rate) (d.kOf m) ((d.mv m).period - 1) / 2)) d := by
  unfold periodCentre
  dsimp only
  rw [if_neg (by simp [hruns, hi, hmid, hedge])]

theorem periodCentre_idle (m : Nat) (d : Dev) (h : d.mvRuns m = false ∨ (d.mv m).period = 0 ∨ d.on Fl.pwmMvcfgMidupd m = false ∨
    d.edgeAligned m = true) : periodCentre m d = d := by
  unfold periodCentre
  dsimp only
  rw [if_pos (by simpa using h)]

theorem periodCentre_hax (m : Nat) (d : Dev) : (periodCentre m d).hax = d.hax := by
  unfold periodCentre
  dsimp only
  split
  · rfl
  · generalize periodLen (mvClocks (d.mv m).rate) (d.kOf m) ((d.mv m).period - 1) / 2 = c
    have honly := axesOnly_each (axisCentre_axesOnly c) (localAxes m) d
    rw [honly.frame]

end Dev

theorem exec_pwmStart (s : State) (m : Fin 8) (meas : List Meas) (vbs : BitVec 12) (vdrv : BitVec 8) :
    exec (.pwmBoundary m false meas vbs vdrv) s = s.onDev fun d => (Dev.periodStart m meas vbs vdrv d).settle := rfl
theorem exec_pwmCentre (s : State) (m : Fin 8) (meas : List Meas) (vbs : BitVec 12) (vdrv : BitVec 8) :
    exec (.pwmBoundary m true meas vbs vdrv) s = s.onDev (Dev.periodCentre m) := rfl

theorem periodStart_hax (s : State) (m : Fin 8) (meas : List Meas) (vbs : BitVec 12) (vdrv : BitVec 8) :
    (Dev.periodStart m meas vbs vdrv s.dev).hax = s.dev.hax := by
  by_cases h : s.dev.mvRuns m = true ∧ (s.dev.mv m).period < s.dev.kOf m
  · exact (Dev.periodStart_leaves m meas vbs vdrv s.dev h.1 h.2 _ rfl).1
  · rw [Dev.periodStart_idle]
    by_cases hr : s.dev.mvRuns m = true
    · exact Or.inr (not_lt.mp fun hlt => h ⟨hr, hlt⟩)
    · exact Or.inl (Bool.eq_false_iff.mpr hr)

/-- Settles O32: the waiting writes, the readings and the axes of a period start each keep to the movement, and at the centre each axis
to itself. -/
theorem pwmBoundaryCountsPeriods : Obligations.PwmBoundaryCountsPeriods := by
  unfold Obligations.PwmBoundaryCountsPeriods
  refine ⟨fun s m mid meas vbs vdrv => ?_, fun s m meas vbs vdrv hruns hlt => ?_, fun s m meas vbs vdrv hraised hruns hle => ?_,
    fun s m meas vbs vdrv hruns hi hmid hedge => ?_, fun s m meas vbs vdrv h => ?_⟩
  · cases mid
    · refine ⟨_, (exec_pwmStart s m meas vbs vdrv).trans (s.onDev_eq rfl), ?_⟩
      rw [Dev.settle_frame]
      exact periodStart_hax s m meas vbs vdrv
    · exact ⟨_, (exec_pwmCentre s m meas vbs vdrv).trans (s.onDev_eq rfl), Dev.periodCentre_hax m s.dev⟩
  · have hleaves := Dev.periodStart_leaves m meas vbs vdrv s.dev hruns hlt
    refine ⟨_, (exec_pwmStart s m meas vbs vdrv).trans (s.onDev_eq rfl), ?_⟩
    generalize Dev.periodStart m meas vbs vdrv s.dev = t at hleaves
    obtain ⟨-, hperiod, hvdrv, hvbs, hmva, hmv⟩ := hleaves t rfl
    rw [Dev.settle_frame]
    exact ⟨hperiod, hvdrv, hvbs, hmva, hmv⟩
  · refine (exec_pwmStart s m meas vbs vdrv).trans (s.onDev_eq ?_)
    rw [Dev.periodStart_idle _ _ _ _ _ (Or.inr hle), Dev.settle_none _ hraised]
  · have hcentre := Dev.periodCentre_eq m s.dev hruns hi hmid hedge
    generalize periodLen (Dev.mvClocks (s.dev.mv m).rate) (s.dev.kOf m) ((s.dev.mv m).period - 1) / 2 = c at hcentre ⊢
    have honly := Dev.axesOnly_each (Dev.axisCentre_axesOnly c) (Dev.localAxes m) s.dev
    have heach : ∀ n ∈ Dev.localAxes m, ∃ t, Dev.axesOnly (Dev.localAxes m) s.dev t ∧ t.mva n = s.dev.mva n ∧
        (each (Dev.localAxes m) (Dev.axisCentre c) s.dev).mva n = (Dev.axisCentre c n t).mva n := fun n hn =>
      Dev.mva_each (Dev.axisCentre_axesOnly c) (Dev.nodup_span _ _) s.dev hn
    rw [← hcentre] at honly heach
    have hloc (j : Fin 8) : 8 * m.val + j.val ∈ Dev.localAxes m := (Dev.mem_localAxes _ _).mpr (by omega)
    refine ⟨_, (exec_pwmCentre s m meas vbs vdrv).trans (s.onDev_eq rfl), fun n hn => honly.other n fun hmem =>
      hn ((Dev.mem_localAxes _ _).mp hmem), honly.mvax_regs, fun j hnone => ?_, fun j b hb hc => ?_⟩
    · obtain ⟨t, -, hsame, heq⟩ := heach _ (hloc j)
      rw [heq, Dev.axisCentre_idle _ _ t (by rw [hsame]; exact hnone), hsame]
    · obtain ⟨t, -, hsame, heq⟩ := heach _ (hloc j)
      rw [heq]
      refine Dev.axisCentre_commits _ _ t b (by rw [hsame]; exact hb) ?_
      have hj : (8 * m.val + j.val) % 8 = j.val := by omega
      rw [hj]
      exact hc
  · refine (exec_pwmCentre s m meas vbs vdrv).trans (s.onDev_eq ?_)
    exact Dev.periodCentre_idle m s.dev h

end Sys2Proof.Machine
end

section
/-! What the steps of a movement's tick boundary leave (chapter 1): each keeps to the movement. -/

namespace Sys2Proof.Machine.Dev

/-! ## Steps within a movement -/

/-- t is d but within movement m: its axes, its record, registers and faults; its link is trained as before. -/
structure moves (m : Fin 8) (d t : Dev) : Prop where
  hax : t.hax = d.hax
  time : t.time = d.time
  mv : ∀ k, k ≠ m.val → t.mv k = d.mv k
  mva : ∀ n, n / 8 ≠ m.val → t.mva n = d.mva n
  trained : t.trained m = d.trained m

/-- A step within movement m inside its tick: its periods go on, and a frame that has been used up stays so. -/
structure ticks (m : Fin 8) (d t : Dev) : Prop extends moves m d t where
  period : (t.mv m).period = (d.mv m).period
  taken : (d.mv m).spTaken = none → (t.mv m).spTaken = none

variable {m : Fin 8} {d t u : Dev}

theorem moves_refl (m : Fin 8) (d : Dev) : moves m d d := ⟨rfl, rfl, fun _ _ => rfl, fun _ _ => rfl, rfl⟩

theorem moves.trans (h : moves m d t) (k : moves m t u) : moves m d u :=
  ⟨k.hax.trans h.hax, k.time.trans h.time, fun i hi => (k.mv i hi).trans (h.mv i hi), fun n hn => (k.mva n hn).trans (h.mva n hn),
    k.trained.trans h.trained⟩

theorem ticks_refl (m : Fin 8) (d : Dev) : ticks m d d := ⟨moves_refl m d, rfl, fun h => h⟩

theorem ticks.trans (h : ticks m d t) (k : ticks m t u) : ticks m d u :=
  ⟨h.tomoves.trans k.tomoves, k.period.trans h.period, fun hn => k.taken (h.taken hn)⟩

theorem moves_modMv (m : Fin 8) (d : Dev) (f : Mv → Mv) : moves m d (d.modMv m f) :=
  ⟨rfl, rfl, fun _ hk => mv_modMv_other d f hk, fun _ _ => rfl, rfl⟩

theorem ticks_modMv (m : Fin 8) (d : Dev) (f : Mv → Mv) (hperiod : ∀ x, (f x).period = x.period)
    (htaken : ∀ x, x.spTaken = none → (f x).spTaken = none) : ticks m d (d.modMv m f) := by
  refine ⟨moves_modMv m d f, ?_, fun h => ?_⟩
  · rw [mv_modMv_same]
    exact hperiod _
  · rw [mv_modMv_same]
    exact htaken _ h

theorem ticks_setHw (m : Fin 8) (d : Dev) (f : Fld) (i v : Nat) (h : fieldApart f i Fl.linkStatusTrained m) : ticks m d (d.setHw f i v) := by
  refine ⟨⟨rfl, rfl, fun _ _ => rfl, fun _ _ => rfl, ?_⟩, rfl, fun h => h⟩
  unfold Dev.trained flag
  rw [hw_setHw_of_apart d f Fl.linkStatusTrained i m v h]

theorem ticks_flt (m : Fin 8) (d : Dev) (f : Flt) : ticks m d { d with flt := f } :=
  ⟨⟨rfl, rfl, fun _ _ => rfl, fun _ _ => rfl, rfl⟩, rfl, fun h => h⟩

theorem ticks_sys (m : Fin 8) (d : Dev) (x : Sys) : ticks m d { d with sys := x } :=
  ⟨⟨rfl, rfl, fun _ _ => rfl, fun _ _ => rfl, rfl⟩, rfl, fun h => h⟩

theorem moveOnly.ticks (h : moveOnly m d t) : ticks m d t := by
  have hmv : ∀ k, t.mv k = d.mv k := fun k => by
    unfold Dev.mv
    rw [h.frame]
  refine ⟨⟨?_, ?_, fun k _ => hmv k, h.other, ?_⟩, by rw [hmv], fun hn => by rw [hmv]; exact hn⟩
  · rw [h.frame]
  · rw [h.frame]
  · unfold Dev.trained flag
    rw [hw_congr d t Fl.linkStatusTrained m (h.hub _ fun hp => ?_)]
    have hlt := (linkStatus_range m).1
    exact absurd hp.1 (not_le.mpr hlt)

theorem axesOnly.ticks {l : List Nat} (h : axesOnly l d t) (hl : ∀ n ∈ l, n / 8 = m.val) : ticks m d t := (h.page hl).ticks

theorem axesOnly.ticks_one {n : Nat} (h : axesOnly [n] d t) (hn : n / 8 = m.val) : Dev.ticks m d t := (h.page_one hn).ticks

/-- One step on each axis of the movement. -/
theorem ticks_each (f : Nat → Dev → Dev) (d : Dev) (h : ∀ n t, axesOnly [n] t (f n t)) : ticks m d (each (localAxes m) f d) :=
  (axesOnly_each h (localAxes m) d).ticks fun n hn => (mem_localAxes m n).mp hn

/-- A field of a register of an axis page is apart from the link's. -/
theorem apart_of_range {f : Fld} {i : Nat} (m : Fin 8) (h : f.reg.offset i < 0xE000 ∨ 0x10000 ≤ f.reg.offset i) :
    fieldApart f i Fl.linkStatusTrained m := by
  refine Or.inl fun he => ?_
  have hm := m.isLt
  rw [← he] at h
  simp only [Reg.offset, Reg.place] at h
  omega

theorem apart_of_movement {f : Fld} (m : Fin 8) (h : f.reg = .escMvstatus ∨ f.reg = .isenseCalStatus) :
    fieldApart f m Fl.linkStatusTrained m := by
  refine Or.inl fun he => ?_
  obtain h | h := h
  · rw [h] at he
    simp only [Reg.offset, Reg.place] at he
    omega
  · rw [h] at he
    simp only [Reg.offset, Reg.place] at he
    omega

/-! ## Before the boundary: mirror, beats, orphans (R144, R445, R446) -/

theorem loadCount_axesOnly (n : Nat) (d : Dev) : axesOnly [n] d (loadCount n d) := by
  unfold loadCount
  exact (setCounter_axesOnly n _ d).trans (modFb_axesOnly n _ _)

theorem loadMirror_ticks (m : Fin 8) (d : Dev) : ticks m d (loadMirror m d) := by
  unfold loadMirror
  split
  · exact ticks_each loadCount d loadCount_axesOnly
  · exact ticks_refl m d

theorem bump_beatMiss (m : Fin 8) (d : Dev) : ticks m d (d.bump Fl.escMvstatusBeatMiss m 1) :=
  ticks_setHw m d Fl.escMvstatusBeatMiss m _ (apart_of_movement m (Or.inl rfl))

theorem beatStep_ticks (m : Fin 8) (d : Dev) : ticks m d (beatStep m d) := by
  unfold beatStep
  dsimp only
  split
  · exact ticks_refl m d
  split
  · exact bump_beatMiss m d
  split
  · exact ticks_modMv m d _ (fun _ => rfl) fun _ h => h
  · exact (ticks_modMv m d _ (fun _ => by rfl) fun _ h => by exact h).trans (bump_beatMiss m _)

/-- The source of an orphan entry, whose class is fixed, acts on the axes of the movement. -/
theorem raise1_orphan_ticks (m : Fin 8) (d : Dev) : ticks m d (d.raise1 .orphan m m m) := by
  have hfault := raise1_faultOnly d .orphan m m m
  have hclass : d.classOf .orphan = 4 := rfl
  refine ⟨⟨raise1_hax _ _ _ _ _, by rw [hfault], fun k hk => mv_raise1_other _ _ _ _ _ _ hk, fun n hn => ?_, ?_⟩, ?_, fun h => ?_⟩
  · refine mva_raise1_other _ _ _ _ _ _ (Or.inr fun hmem => hn ?_)
    rw [hclass] at hmem
    have hset : reactionSet .orphan m = span (8 * m) 8 := by
      unfold reactionSet
      simp [Src.row]
    rw [hset] at hmem
    obtain ⟨-, hany⟩ := List.mem_filter.mp hmem
    obtain ⟨a, ha, he⟩ := List.any_eq_true.mp hany
    have hdiv := of_decide_eq_true he
    have hspan := (mem_span _ _ _).mp ha
    omega
  · unfold Dev.trained flag
    rw [hw_raise1 _ _ _ _ _ Fl.linkStatusTrained m (offRaise_linkStatus m)]
  · obtain ⟨q, i, hmv⟩ := mv_raise1 d .orphan m m m m
    rw [hmv]
  · obtain ⟨q, i, hmv⟩ := mv_raise1 d .orphan m m m m
    rw [hmv]
    exact h

theorem orphanRaised_ticks (m : Fin 8) (byMonitor : Bool) (d : Dev) : ticks m d (orphanRaised m byMonitor d) :=
  ((ticks_setHw m d Fl.escMvstatusOrphan m _ (apart_of_movement m (Or.inl rfl))).trans
    (ticks_setHw m _ Fl.escMvstatusByMonitor m _ (apart_of_movement m (Or.inl rfl)))).trans (raise1_orphan_ticks m _)

theorem orphanFrame_ticks (m : Fin 8) (d : Dev) : ticks m d (orphanFrame m d) := by
  have hcal : ticks m d (calAbandon m d) := by
    unfold calAbandon
    exact (ticks_setHw m d Fl.isenseCalStatusRunning m _ (apart_of_movement m (Or.inr rfl))).trans
      (ticks_modMv m _ _ (fun _ => by rfl) fun _ h => by exact h)
  unfold orphanFrame
  refine Dev.ticks.trans (t := if (d.mv m).cal.isSome then calAbandon m d else d) ?_ (ticks_modMv m _ _ (fun _ => rfl) fun _ _ => rfl)
  split
  · exact hcal
  · exact ticks_refl m d

theorem orphanRule_ticks (m : Fin 8) (byMonitor : Bool) (d : Dev) : ticks m d (orphanRule m byMonitor d) := by
  unfold orphanRule
  split
  · exact ticks_refl m d
  · rw [orphanEnter_eq]
    refine ((orphanRaised_ticks m byMonitor d).trans (Dev.ticks.trans ?_ (orphanFrame_ticks m _)))
    refine (toOrphans_axesOnly _ _).ticks fun n hn => ?_
    obtain ⟨e, he, rfl⟩ := List.mem_map.mp hn
    obtain ⟨k, hk, rfl⟩ := List.mem_map.mp he
    exact (mem_localAxes m k).mp hk

/-! ## The axes of the tick (R23, R144, R193, R214 to R228) -/

theorem speedStill_axesOnly (n : Nat) (d : Dev) : axesOnly [n] d (speedStill n d) := by
  unfold speedStill
  split
  · exact (modFb_axesOnly n d _).trans (axesOnly_modMva n _ _)
  · exact axesOnly_refl _ d

theorem toAlign_axesOnly (n : Nat) (d : Dev) : axesOnly [n] d (toAlign n d) := (toAlign_enters n d).1
theorem toRamp_axesOnly (n : Nat) (d : Dev) : axesOnly [n] d (toRamp n d) := (toRamp_enters n d).1

theorem alignEnd_axesOnly (n : Nat) (d : Dev) : axesOnly [n] d (alignEnd n d) := by
  have hknown : axesOnly [n] d (if (d.mva n).sl.known then d else unverified n d) := by
    split
    · exact axesOnly_refl _ d
    · exact unverified_axesOnly n d
  unfold alignEnd
  split
  · exact axesOnly_refl _ d
  · dsimp only
    split
    · exact (hknown.trans (modSl_axesOnly n _ _)).trans (endSeq_axesOnly n .field phHold .aligned _)
    · exact (hknown.trans (modSl_axesOnly n _ _)).trans (toRamp_axesOnly n _)

theorem windowEnd_axesOnly (n : Nat) (d : Dev) : axesOnly [n] d (windowEnd n d) := by
  unfold windowEnd
  dsimp only
  split
  · exact axesOnly_refl _ d
  split
  · split
    · exact (modSl_axesOnly n d _).trans (toCatch_axesOnly n phResync _)
    · exact toCoast_axesOnly n d
  split
  · exact endSeq_axesOnly n .float phNone .floated d
  split
  · exact toBrake_axesOnly n phCatchBrake d
  split
  · split
    · exact toBrake_axesOnly n phCatchBrake d
    · exact endSeq_axesOnly n .float phNone .floated d
  split
  · exact toRamp_axesOnly n d
  · exact toAlign_axesOnly n d

theorem retryEnd_axesOnly (n : Nat) (d : Dev) : axesOnly [n] d (retryEnd n d) := by
  unfold retryEnd
  split
  · exact toAlign_axesOnly n d
  · exact axesOnly_refl _ d

theorem catchBrakeEnd_axesOnly (n : Nat) (d : Dev) : axesOnly [n] d (catchBrakeEnd n d) := by
  unfold catchBrakeEnd
  dsimp only
  split
  · exact axesOnly_refl _ d
  split
  · exact endSeq_axesOnly n .float phNone .braked d
  · exact (axesOnly_setHw [n] d Fl.axisStatusRevBraking n 0 (ownPage_axisStatus n)).trans (toAlign_axesOnly n _)

theorem slTick_axesOnly (n : Nat) (d : Dev) : axesOnly [n] d (slTick n d) := by
  unfold slTick
  split
  · exact axesOnly_refl _ d
  · exact ((((modSl_axesOnly n d _).trans (alignEnd_axesOnly n _)).trans (windowEnd_axesOnly n _)).trans (retryEnd_axesOnly n _)).trans
      (catchBrakeEnd_axesOnly n _)

theorem probeBegin_axesOnly (n : Nat) (d : Dev) : axesOnly [n] d (probeBegin n d) := by
  unfold probeBegin
  exact ((modSl_axesOnly n d _).trans (modLegs_axesOnly n _ _)).mva _

theorem axisTick_axesOnly (b n : Nat) (d : Dev) : axesOnly [n] d (axisTick b n d) := by
  unfold axisTick
  extract_lets u v w x
  have hu : axesOnly [n] d u := (modFb_axesOnly n d _).trans (speedStill_axesOnly n _)
  have hv : axesOnly [n] d v := by
    dsimp only [v]
    split
    · exact hu.mva _
    · exact hu
  have hw : axesOnly [n] d w := hv.trans (slTick_axesOnly n v)
  have hx : axesOnly [n] d x := by
    dsimp only [x]
    split
    · exact hw.trans (probeBegin_axesOnly n w)
    · exact hw
  exact hx.trans (modFb_axesOnly n x _)

/-! ## After the setpoint (R174, R253, R281, R318) -/

theorem offtBegin_axesOnly (n : Nat) (d : Dev) : axesOnly [n] d (offtBegin n d) := by
  unfold offtBegin
  dsimp only
  split
  · exact (axesOnly_modMva n d _).shown Fl.offtStatusRunning n _ (ownPage_offtStatus n)
  · exact axesOnly_refl _ d

theorem tickLoops_axesOnly (n : Nat) (speed : Speed) (d : Dev) : axesOnly [n] d (tickLoops n speed d) := by
  unfold tickLoops
  dsimp only
  split
  · exact axesOnly_refl _ d
  · split
    · exact axesOnly_modMva n d _
    · exact axesOnly_modMva n d _

theorem predictedTick_axesOnly (n : Nat) (d : Dev) : axesOnly [n] d (predictedTick n d) :=
  (modFoc_axesOnly n d _).shown Fl.isenseStatusPredicted n _ (ownPage_isenseStatus n)

theorem axisLoops_axesOnly (n : Nat) (d : Dev) : axesOnly [n] d (axisLoops n d) := by
  unfold axisLoops
  exact (((offtBegin_axesOnly n d).trans (tickLoops_axesOnly n _ _)).trans (predictedTick_axesOnly n _)).trans (modLegs_axesOnly n _ _)

end Sys2Proof.Machine.Dev
end

section
/-! What a movement's tick boundary leaves (chapter 1): the setpoints take effect, and the movement's latch frame goes out. -/

namespace Sys2Proof.Machine.Dev

/-! ## Drive commands (R172, R182, R186, R213) -/

theorem seqBegin_axesOnly (n : Nat) (r : SeqReq) (d : Dev) : axesOnly [n] d (seqBegin n r d) := by
  unfold seqBegin
  dsimp only
  split
  · split
    · exact (modSl_axesOnly n d _).trans (toAlign_axesOnly n _)
    · exact (modSl_axesOnly n d _).trans (toRamp_axesOnly n _)
  · exact (modSl_axesOnly n d _).trans (toCatch_axesOnly n phCatch _)

theorem dropTo_axesOnly (k : Drive) (n : Nat) (d : Dev) : axesOnly [n] d (dropTo k n d) :=
  (setDrive_axesOnly n k d).trans (seqDrop_axesOnly n _)

theorem fieldOrFloat_axesOnly (n : Nat) (d : Dev) : axesOnly [n] d (fieldOrFloat n d) := by
  unfold fieldOrFloat
  split
  · exact (setDrive_axesOnly n .float d).mva _
  · exact setDrive_axesOnly n .field d

theorem seqGoesOn_axesOnly (n : Nat) (sp : AxisSp) (d : Dev) : axesOnly [n] d (seqGoesOn n sp d) := by
  unfold seqGoesOn
  dsimp only
  split
  · exact (setDrive_axesOnly n .field d).mva _
  split
  · exact (seqDrop_axesOnly n d).trans (setDrive_axesOnly n _ _)
  split
  · split
    · exact (dropTo_axesOnly .float n d).mva _
    split
    · exact seqDrop_axesOnly n d
    split
    · exact modSl_axesOnly n d _
    · exact axesOnly_refl _ d
  split
  · exact modSl_axesOnly n d _
  · exact axesOnly_refl _ d

theorem driveCmd_axesOnly (n : Nat) (sp : AxisSp) (d : Dev) : axesOnly [n] d (driveCmd n sp d) := by
  unfold driveCmd
  split
  · exact dropTo_axesOnly .off n d
  · exact (dropTo_axesOnly .float n d).mva _
  · exact dropTo_axesOnly .brake n d
  · split
    · exact setDrive_axesOnly n .field d
    · split
      · split
        · exact fieldOrFloat_axesOnly n d
        · exact seqBegin_axesOnly n _ d
      · split
        · exact seqGoesOn_axesOnly n sp d
        · split
          · exact axesOnly_refl _ d
          · exact fieldOrFloat_axesOnly n d

variable {m : Fin 8} {n : Nat}

theorem prechargeMeets_ticks (hn : n / 8 = m.val) (sp : AxisSp) (d : Dev) : ticks m d (prechargeMeets n sp d) := by
  unfold prechargeMeets
  extract_lets k x u v
  have hu : ticks m d u := by
    dsimp only [u]
    split
    · exact (axesOnly_setHw [n] d Fl.axisStatusPrechargeCut n _ (ownPage_axisStatus n)).ticks_one hn
    · exact ticks_refl m d
  have hv : ticks m d v := by
    dsimp only [v]
    split
    · exact hu.trans (ticks_setHw m u Fl.pwrEvtWakeLate 0 _ (apart_of_range m (Or.inl (by decide))))
    · exact hu
  split
  · exact (axesOnly_modMva n d _).ticks_one hn
  · exact hv.trans (((axesOnly_modMva n v _).trans (driveCmd_axesOnly n sp _)).ticks_one hn)

theorem driveMeets_ticks (hn : n / 8 = m.val) (sp : AxisSp) (d : Dev) : ticks m d (driveMeets n sp d) := by
  unfold driveMeets
  split
  · exact ticks_refl m d
  · exact ticks_refl m d
  · exact ticks_refl m d
  · exact ticks_refl m d
  · exact ticks_refl m d
  · exact prechargeMeets_ticks hn sp d
  · exact (driveCmd_axesOnly n sp d).ticks_one hn

/-! ## A setpoint (R28, R35, R282, R441, R449) -/

theorem watchSs1_axesOnly (n t : Nat) (d : Dev) : axesOnly [n] d (watchSs1 n t d) :=
  (modWatch_axesOnly n d _).shown Fl.escAxstatusSs1 n _ (ownPage_escAxstatus n)

theorem safeSense_ticks (m : Fin 8) (d : Dev) : ticks m d d.safeSense := by
  unfold safeSense
  split
  · exact ticks_sys m d _
  · exact ticks_refl m d

theorem frameExtras_ticks (hn : n / 8 = m.val) (sp old : AxisSp) (d : Dev) : ticks m d (frameExtras n sp old d) := by
  unfold frameExtras
  extract_lets u v begins w
  have hu : axesOnly [n] d u := by
    dsimp only [u]
    split
    · exact modFoc_axesOnly n d _
    · exact axesOnly_refl _ d
  have hv : axesOnly [n] d v := by
    dsimp only [v]
    split
    · exact hu.mva _
    · exact hu
  have hw : axesOnly [n] d w := by
    dsimp only [w]
    split
    · exact hv.trans (watchSs1_axesOnly n _ v)
    · exact hv
  split
  · exact ((hw.ticks_one hn).trans (safeSense_ticks m w)).trans
      ((axesOnly_setHw [n] _ Fl.escAxstatusHold n 0 (ownPage_escAxstatus n)).ticks_one hn)
  · exact hw.ticks_one hn

theorem spTake_ticks (hn : n / 8 = m.val) (sp : AxisSp) (d : Dev) : ticks m d (spTake n sp d) := by
  unfold spTake
  exact (((axesOnly_modMva n d _).ticks_one hn).trans (frameExtras_ticks hn sp _ _)).trans (driveMeets_ticks hn sp _)

/-- One step on each of the axes that a frame serves. -/
theorem overAxes_ticks (f : Nat → AxisSp → Dev → Dev) (hf : ∀ n, n / 8 = m.val → ∀ sp t, ticks m t (f n sp t)) (l : List AxisSp) (d : Dev)
    (h : 8 * m.val ≤ n) (hl : n + l.length ≤ 8 * m.val + 8) : ticks m d (overAxes f n l d) := by
  induction l generalizing n d with
  | nil => exact ticks_refl m d
  | cons a l ih =>
    rw [List.length_cons] at hl
    unfold overAxes
    exact (hf n (by omega) a d).trans (ih (f n a d) (by omega) (by omega))

theorem stickMissed_ticks (m : Fin 8) (d : Dev) : ticks m d (d.stick Fl.linkStatusSetpointMissed m) :=
  ticks_setHw m d Fl.linkStatusSetpointMissed m _ (Or.inr ⟨rfl, rfl, by decide, by decide⟩)

theorem spStep_ticks (m : Fin 8) (d : Dev) : ticks m d (spStep m d) ∧ ((spStep m d).mv m).spTaken = none := by
  have hused : ticks m d (d.modMv m fun x => { x with spWay := none, spTaken := none }) :=
    ticks_modMv m d _ (fun _ => by rfl) fun _ _ => by rfl
  have hnone : ((d.modMv m fun x => { x with spWay := none, spTaken := none }).mv m).spTaken = none := by rw [mv_modMv_same]
  unfold spStep
  dsimp only
  generalize d.modMv m (fun x => { x with spWay := none, spTaken := none }) = u at hused hnone ⊢
  suffices h : ticks m u (if u.orphan m || !u.trained m then u
      else match d.spNow m with
        | some f => (overAxes spTake (8 * m) (f.axes.take 8) u).modMv m fun x => { x with marks := f.marks }
        | none => if (u.mv m).load then u else each (localAxes m) spExtend (u.stick Fl.linkStatusSetpointMissed m)) from
    ⟨hused.trans h, h.taken hnone⟩
  split
  · exact ticks_refl m u
  split
  · next f _ =>
    refine (overAxes_ticks spTake (fun n hn sp t => spTake_ticks hn sp t) (f.axes.take 8) u (le_refl _) ?_).trans
      (ticks_modMv m _ _ (fun _ => by rfl) fun _ h => by exact h)
    exact Nat.add_le_add_left (List.length_take_le 8 f.axes) _
  · split
    · exact ticks_refl m u
    · exact (stickMissed_ticks m u).trans (ticks_each spExtend _ fun n t => axesOnly_modMva n t _)

/-! ## Calibration, park, and the latch frame (R28, R258, R513) -/

theorem calBegin_ticks (m : Fin 8) (d : Dev) : ticks m d (calBegin m d) := by
  unfold calBegin
  split
  · exact (ticks_modMv m d _ (fun _ => by rfl) fun _ h => by exact h).trans
      (ticks_setHw m _ Fl.isenseCalStatusRunning m 1 (apart_of_movement m (Or.inr rfl)))
  · exact ticks_refl m d

theorem park_ticks (m : Fin 8) (d : Dev) : ticks m d (park m d) := by
  unfold park
  split
  · exact ticks_setHw m d Fl.pwrStatusParked 0 _ (apart_of_range m (Or.inl (by decide)))
  · exact ticks_refl m d

theorem latSent_ticks (m : Fin 8) (d : Dev) : ticks m d (latSent m d) := by
  unfold latSent
  exact ((ticks_each _ d fun n t => axesOnly_modMva n t _).trans (ticks_flt m _ _)).trans
    (ticks_modMv m _ _ (fun _ => by rfl) fun _ h => by exact h)

theorem latSend_ticks (m : Fin 8) (b : Nat) (d : Dev) : ticks m d (latSend m b d) ∧ ((latSend m b d).mv m).latWay.isSome = true := by
  unfold latSend
  refine ⟨(latSent_ticks m d).trans (ticks_modMv m _ _ (fun _ => by rfl) fun _ h => by exact h), ?_⟩
  dsimp only
  rw [mv_modMv_same]
  rfl

/-! ## The boundary (R16, R18) -/

theorem mvClock_moves (m : Fin 8) (d : Dev) : moves m d (mvClock m d) ∧ ((mvClock m d).mv m).period = 0 := by
  unfold mvClock
  refine ⟨moves_modMv m d _, ?_⟩
  dsimp only
  rw [mv_modMv_same]

/-- The movement's boundary before its instant: the mirror, waiting writes, beats and the orphan rule. -/
def beforeTick (m : Nat) (d : Dev) : Dev :=
  let d := loadMirror m d
  let d := beatStep m (takePend (fun w => inMv m w.off) (mvTake (d.mvEdge m)) d)
  if d.beatGone m then orphanRule m false d else d

/-- The movement's boundary between its instant and its latch frame. -/
def insideTick (m : Nat) (d : Dev) : Dev :=
  park m (each (localAxes m) axisLoops (calBegin m (spStep m (each (localAxes m) (axisTick (d.mv m).start) d))))

theorem mvTick_eq (m : Nat) (d : Dev) (hticking : d.sys.ticking = true) (hpll : d.flag Fl.clkStatusPllLock 0 = true) (hruns : d.mvRuns m = true)
    (u : Dev) (hu : u = mvClock m (beforeTick m d)) (v : Dev) (hv : v = insideTick m u) :
    mvTick m d = (if v.trained m then (latSend m (u.mv m).start v).modMv m fun x => { x with load := false } else v).settle := by
  have hon : d.mvOn m = true := by
    unfold mvRuns at hruns
    rw [Bool.and_eq_true, Bool.and_eq_true] at hruns
    exact hruns.1.1
  unfold mvTick
  rw [hticking, hpll, hon, hruns, if_neg (by decide), if_neg (by decide), hv, hu]
  rfl

theorem beforeTick_ticks (m : Fin 8) (d : Dev) : ticks m d (beforeTick m d) := by
  unfold beforeTick
  extract_lets u v
  have hv : ticks m d v := ((loadMirror_ticks m d).trans (takePend_page _ _ u fun _ h => h).ticks).trans (beatStep_ticks m _)
  split
  · exact hv.trans (orphanRule_ticks m false v)
  · exact hv

theorem insideTick_ticks (m : Fin 8) (d : Dev) : ticks m d (insideTick m d) ∧ ((insideTick m d).mv m).spTaken = none := by
  unfold insideTick
  have haxes : ticks m d (each (localAxes m) (axisTick (d.mv m).start) d) := ticks_each _ d (axisTick_axesOnly _)
  generalize each (localAxes m) (axisTick (d.mv m).start) d = u at haxes ⊢
  obtain ⟨hstep, hnone⟩ := spStep_ticks m u
  generalize spStep m u = v at hstep hnone ⊢
  have hend : ticks m v (park m (each (localAxes m) axisLoops (calBegin m v))) :=
    ((calBegin_ticks m v).trans (ticks_each axisLoops _ axisLoops_axesOnly)).trans (park_ticks m _)
  exact ⟨(haxes.trans hstep).trans hend, hend.taken hnone⟩

/-- What the boundary of a movement whose link is trained leaves. -/
theorem mvTick_leaves (m : Fin 8) (d : Dev) (hticking : d.sys.ticking = true) (hpll : d.flag Fl.clkStatusPllLock 0 = true)
    (hruns : d.mvRuns m = true) (htrained : d.trained m = true) (t : Dev) (ht : t = mvTick m d) :
    (t.mv m).period = 0 ∧ (t.mv m).spTaken = none ∧ (t.mv m).latWay.isSome = true ∧ (t.mv m).load = false ∧ moves m d t := by
  have heq := mvTick_eq m d hticking hpll hruns _ rfl _ rfl
  have hbefore := beforeTick_ticks m d
  generalize beforeTick m d = c at heq hbefore
  obtain ⟨hclock, hperiod⟩ := mvClock_moves m c
  generalize mvClock m c = u at heq hclock hperiod
  obtain ⟨hinside, hnone⟩ := insideTick_ticks m u
  generalize insideTick m u = v at heq hinside hnone
  have hv : v.trained m = true := by rw [hinside.trained, hclock.trained, hbefore.trained, htrained]
  rw [if_pos hv] at heq
  obtain ⟨hsend, hway⟩ := latSend_ticks m (u.mv m).start v
  generalize latSend m (u.mv m).start v = w at heq hsend hway
  have hload : ticks m w (w.modMv m fun x => { x with load := false }) := ticks_modMv m w _ (fun _ => by rfl) fun _ h => by exact h
  have hall := (hinside.trans hsend).trans hload
  have hw : (w.modMv m fun x => { x with load := false }).mv m = { w.mv m with load := false } := mv_modMv_same w m _
  generalize w.modMv m (fun x => { x with load := false }) = y at heq hall hload hw
  have hsettle : ticks m y y.settle := by
    rw [settle_frame]
    exact ticks_flt m y _
  have hmv : t.mv m = y.mv m := by rw [ht, heq, settle_mv]
  refine ⟨?_, ?_, ?_, ?_, ?_⟩
  · rw [hmv, hall.period, hperiod]
  · rw [hmv]
    exact (hsend.trans hload).taken hnone
  · rw [hmv, hw]
    exact hway
  · rw [hmv, hw]
  · rw [ht, heq]
    exact ((hbefore.tomoves.trans hclock).trans hall.tomoves).trans hsettle.tomoves

end Sys2Proof.Machine.Dev
end

section
/-! Proofs for the frames of the cluster link and the movement's boundary (chapters 1 and 15). -/

namespace Sys2Proof.Machine

namespace Dev

/-! ## Tick marks (R16) -/

/-- A tick mark with its boundary more than two movement clocks off raises LINK_SKEW in the movement. -/
def markRaised (m : Nat) (diff : Int) (d : Dev) : Dev := if 2 < diff.natAbs then d.raise .linkSkew m m m else d

theorem tickMark_eq (m : Nat) (diff : Int) (skew : BitVec 8) (d : Dev) (hruns : d.mvRuns m = true) (htrained : d.trained m = true) :
    tickMark m diff skew d = (setSkew m skew (markRaised m diff d)).settle := by
  unfold tickMark markRaised
  exact if_neg (by rw [hruns, htrained]; decide)

theorem markRaised_force (m : Nat) (diff : Int) (d : Dev) : (markRaised m diff d).regs.force = d.regs.force := by
  unfold markRaised raise
  split
  · rw [raiseAs_faultOnly]
  · rfl

/-- An axis's flags at one presenter's place stay where a source of the other place sets its flags. -/
theorem flagsAt_stickAxis_apart (p pres b c n : Nat) (t : Dev) (h : t.flagsAtMv pres n ≠ t.flagsAtMv p n) :
    (stickAxis pres b c n t).flagsAt p n = t.flagsAt p n := by
  by_cases hpres : t.flagsAtMv pres n = true
  · have hp : ¬ t.flagsAtMv p n = true := fun hp => h (hpres.trans hp.symm)
    have hu : stickAxis pres b c n t =
        { t with flt := { t.flt with mvFlags := SMap.set t.flt.mvFlags n (flagWord b c (t.flagsAt pres n)) } } := if_pos hpres
    rw [hu]
    exact (if_neg hp).trans (if_neg hp).symm
  · have hp : t.flagsAtMv p n = true := by
      cases hq : t.flagsAtMv p n
      · exact absurd ((Bool.not_eq_true _ ▸ hpres : t.flagsAtMv pres n = false).trans hq.symm) h
      · rfl
    have hu : stickAxis pres b c n t =
        { t with regs := { t.regs with hw := SMap.set t.regs.hw (Reg.offset .fltSticky n) (flagWord b c (t.flagsAt pres n)) } } :=
      if_neg hpres
    have hm : (stickAxis pres b c n t).flagsAtMv p n = true := by
      rw [hu, ← hp]
      unfold flagsAtMv mvOn hw fldOf regWord
      rw [SMap.find_set_other _ _ (by simp [Reg.offset, Reg.place]; omega)]
    rw [hu] at hm ⊢
    exact (if_pos hm).trans (if_pos hp).symm

/-- A sticky flag that another presenter sets keeps a reaction: it stands at the same place, or leaves the flags as they are. -/
theorem keepsReaction_stickAxis_of (p pres b c n : Nat) (t : Dev) : keepsReaction p t (stickAxis pres b c n t) := by
  by_cases hsame : t.flagsAtMv pres n = t.flagsAtMv p n
  · have heq : stickAxis pres b c n t = stickAxis p b c n t := by unfold stickAxis flagsAt; rw [hsame]
    rw [heq]
    exact keepsReaction_stickAxis p b c n t
  · have hstays := keepsReaction_stickAxis pres b c n t
    refine ⟨fun k j hj h => ?_, fun q h => ?_, hstays.reacts, hstays.drives⟩
    · by_cases hk : k = n
      · subst hk
        rw [flagsAt_stickAxis_apart p pres b c k t hsame]
        exact h
      · rw [flagsAt_stickAxis_elsewhere p pres b c t hk]
        exact h
    · rw [stickAxis_frame]
      exact h

/-- A source that another presenter raises leaves what has reacted. -/
theorem keepsReaction_raised (p : Nat) (d : Dev) (s : Src) (place sub pres cls : Nat) (st : Status) :
    keepsReaction p d (d.raiseAs s place sub pres cls st) := by
  obtain ⟨f, hf, hflags, hreacts⟩ := raiseAs_stages d s place sub pres cls st
  have hraise : keepsReaction p d (d.raiseFlags s place pres cls) := by
    unfold raiseFlags
    exact (keepsReaction.each _ _ d fun n _ t => keepsReaction_stickAxis_of p pres _ _ n t).trans
      (keepsReaction.each _ _ _ fun n _ t => keepsReaction_stickAxis_of p pres _ _ n t)
  rw [hf]
  exact ((hraise.trans (keepsReaction_reactNow p _ _ _)).trans (keepsReaction_sendReact p pres _ _)).trans
    (keepsReaction_flt p _ f hflags hreacts)

theorem keepsReaction_setSkew (p : Nat) (m : Fin 8) (skew : BitVec 8) (d : Dev) : keepsReaction p d (setSkew m skew d) := by
  have hset := keepsReaction_setHw p d Fl.linkStatusSkew m skew.toNat (offFlags_linkStatus m)
  unfold setSkew
  dsimp only
  split
  · exact hset.trans (keepsReaction_raised p _ .linkSkew m m presLink _ _)
  · exact hset

/-! ## Setpoint frames (R186, R412, R447, R514) -/

/-- t is d but for movement m, whose frames and requests stay: its axes, its record and registers. -/
structure armsOnly (m : Fin 8) (d t : Dev) : Prop where
  frame : t = { d with mvs := t.mvs, mvax := t.mvax, regs := t.regs }
  mv : ∀ k, k ≠ m.val → t.mv k = d.mv k
  mva : ∀ n, n / 8 ≠ m.val → t.mva n = d.mva n
  spWay : (t.mv m).spWay = (d.mv m).spWay
  spTaken : (t.mv m).spTaken = (d.mv m).spTaken
  reqs : (t.mv m).reqs = (d.mv m).reqs

variable {m : Fin 8} {n : Nat} {d t u : Dev}

theorem armsOnly_refl (m : Fin 8) (d : Dev) : armsOnly m d d := ⟨rfl, fun _ _ => rfl, fun _ _ => rfl, rfl, rfl, rfl⟩

theorem armsOnly.trans (h : armsOnly m d t) (k : armsOnly m t u) : armsOnly m d u :=
  ⟨k.frame.trans (by rw [h.frame]), fun i hi => (k.mv i hi).trans (h.mv i hi), fun n hn => (k.mva n hn).trans (h.mva n hn),
    k.spWay.trans h.spWay, k.spTaken.trans h.spTaken, k.reqs.trans h.reqs⟩

theorem axesOnly.arms (h : axesOnly [n] d t) (hn : n / 8 = m.val) : armsOnly m d t := by
  have hmv : ∀ k, t.mv k = d.mv k := h.mv
  refine ⟨?_, fun k _ => hmv k, (h.page_one hn).other, by rw [hmv], by rw [hmv], by rw [hmv]⟩
  rw [h.mvax_regs]

theorem armsOnly_waking (m : Fin 8) (d : Dev) : armsOnly m d (d.modMv m fun x => { x with waking := true }) := by
  have hmv : (d.modMv m fun x => { x with waking := true }).mv m = { d.mv m with waking := true } := mv_modMv_same d m _
  exact ⟨rfl, fun _ hk => mv_modMv_other d _ hk, fun _ _ => rfl, by rw [hmv], by rw [hmv], by rw [hmv]⟩

theorem armsOnly_uvNew (m : Fin 8) (d : Dev) : armsOnly m d (d.modMv m fun x => { x with uvNew := true }) := by
  have hmv : (d.modMv m fun x => { x with uvNew := true }).mv m = { d.mv m with uvNew := true } := mv_modMv_same d m _
  exact ⟨rfl, fun _ hk => mv_modMv_other d _ hk, fun _ _ => rfl, by rw [hmv], by rw [hmv], by rw [hmv]⟩

theorem armArrives_arms (hn : n / 8 = m.val) (sp : AxisSp) (d : Dev) : armsOnly m d (armArrives n sp d) := by
  unfold armArrives
  split
  · exact armsOnly_refl m d
  · extract_lets k u v wake w
    have hu : armsOnly m d u := (offtAbandon_axesOnly n d).arms hn
    have hv : armsOnly m d v := by
      dsimp only [v, k]
      split
      · rw [hn]
        exact hu.trans (armsOnly_waking m u)
      · exact hu
    have hw : armsOnly m d w := by
      dsimp only [w, k]
      rw [hn]
      exact hv.trans (armsOnly_uvNew m v)
    exact hw.trans ((((setDrive_axesOnly n .precharge w).mva _).trans (modesAt_axesOnly _ n _)).arms hn)

theorem overAxes_arms (l : List AxisSp) (d : Dev) (h : 8 * m.val ≤ n) (hl : n + l.length ≤ 8 * m.val + 8) :
    armsOnly m d (overAxes armArrives n l d) := by
  induction l generalizing n d with
  | nil => exact armsOnly_refl m d
  | cons a l ih =>
    rw [List.length_cons] at hl
    unfold overAxes
    exact (armArrives_arms (by omega) a d).trans (ih (armArrives n a d) (by omega) (by omega))

/-- A frame that has come, before its axes take note of it. -/
def frameTaken (m : Nat) (f : SpFrame) (d : Dev) : Dev :=
  (d.modMv m fun x => { x with spWay := none }).modMv m fun x =>
    { x with spTaken := some f, reqs := x.reqs.filter fun r => decide (f.ack < r.serial) }

theorem frameArrives_orphan (m : Nat) (f : SpFrame) (d : Dev) (hon : d.mvOn m = true) (htrained : d.trained m = true)
    (hway : (d.mv m).spWay = some f) (horphan : d.orphan m = true) :
    frameArrives m d = d.modMv m fun x => { x with spWay := none } := by
  unfold frameArrives
  rw [hon, htrained, hway]
  exact if_pos horphan

theorem frameArrives_taken (m : Nat) (f : SpFrame) (d : Dev) (hon : d.mvOn m = true) (htrained : d.trained m = true)
    (hway : (d.mv m).spWay = some f) (horphan : d.orphan m = false) :
    frameArrives m d = if !(frameTaken m f d).mvRuns m then frameTaken m f d
      else overAxes armArrives (8 * m) (f.axes.take 8) (frameTaken m f d) := by
  have hstays : ¬ (d.modMv m fun x => { x with spWay := none }).orphan m = true := by
    show ¬ d.orphan m = true
    rw [horphan]
    exact Bool.false_ne_true
  unfold frameArrives
  rw [hon, htrained, hway]
  exact if_neg hstays

/-- A frame that is kept for the boundary, with the requests that it acknowledges dropped. -/
theorem frameArrives_keeps (m : Fin 8) (f : SpFrame) (d : Dev) (hon : d.mvOn m = true) (htrained : d.trained m = true)
    (hway : (d.mv m).spWay = some f) (horphan : d.orphan m = false) (t : Dev) (ht : t = frameArrives m d) :
    (t.mv m).spWay = none ∧ (t.mv m).spTaken = some f ∧ (t.mv m).reqs = ((d.mv m).reqs.filter fun r => decide (f.ack < r.serial)) ∧
      (∀ k, k ≠ m.val → t.mv k = d.mv k) ∧ (∀ n, n / 8 ≠ m.val → t.mva n = d.mva n) ∧
      t = { d with mvs := t.mvs, mvax := t.mvax, regs := t.regs } := by
  rw [frameArrives_taken m f d hon htrained hway horphan] at ht
  have hmv : (frameTaken m f d).mv m = { d.mv m with
      spWay := none, spTaken := some f, reqs := (d.mv m).reqs.filter fun r => decide (f.ack < r.serial) } := by
    unfold frameTaken
    rw [mv_modMv_same, mv_modMv_same]
  have hother : ∀ k, k ≠ m.val → (frameTaken m f d).mv k = d.mv k := fun k hk =>
    (mv_modMv_other _ _ hk).trans (mv_modMv_other d _ hk)
  have hframe : frameTaken m f d = { d with mvs := (frameTaken m f d).mvs } := rfl
  generalize frameTaken m f d = u at ht hmv hother hframe
  have harms : armsOnly m u t := by
    rw [ht]
    split
    · exact armsOnly_refl m u
    · exact overAxes_arms (f.axes.take 8) u (le_refl _) (Nat.add_le_add_left (List.length_take_le 8 f.axes) _)
  refine ⟨?_, ?_, ?_, fun k hk => (harms.mv k hk).trans (hother k hk), fun n hn => (harms.mva n hn).trans ?_, ?_⟩
  · rw [harms.spWay, hmv]
  · rw [harms.spTaken, hmv]
  · rw [harms.reqs, hmv]
  · unfold Dev.mva
    rw [hframe]
  · exact harms.frame.trans (by rw [hframe])

/-! ## A frame that is missing (R35, R40) -/

theorem frameMissed_eq (m : Nat) (crc : Bool) (d : Dev) (hon : d.mvOn m = true) (htrained : d.trained m = true) (hnow : d.spNow m = none) :
    frameMissed m crc d =
      if crc then ((d.modMv m fun x => { x with spWay := none, spTaken := none }).stick Fl.linkStatusSetpointMissed m).bump
          Fl.linkStatusCrcErrors m 1
      else (d.modMv m fun x => { x with spWay := none, spTaken := none }).stick Fl.linkStatusSetpointMissed m := by
  unfold frameMissed
  exact if_neg (by rw [hon, htrained, hnow]; decide)

/-! ## A latch frame that is missing (R34) -/

/-- What the missing latch frame carried is the movement's again, and a bad CRC is counted. -/
def latLost (m : Nat) (crc : Bool) (d : Dev) : Dev :=
  let d := match (d.mv m).latWay with
    | some f => latBack m f d
    | none => d
  if crc then d.bump Fl.linkStatusCrcErrors m 1 else d

theorem latMissed_eq (m : Nat) (crc : Bool) (d : Dev) (hon : d.mvOn m = true) (htrained : d.trained m = true)
    (hmissed : (d.mv m).missed = false) :
    latMissed m crc d = (latCount m ((latLost m crc d).modMv m fun x => { x with missed := true })).settle := by
  unfold latMissed latLost
  exact if_neg (by rw [hon, htrained, hmissed]; decide)

theorem latBack_leaves (m : Nat) (f : LatFrame) (d : Dev) : (latBack m f d).hax = d.hax ∧ (latBack m f d).regs = d.regs ∧
    ((latBack m f d).mv m).latWay = none ∧ ((latBack m f d).mv m).latMiss = (d.mv m).latMiss := by
  have hflags : each (span 0 8) (fun j d => flagsBack (8 * m + j) (f.flags.getD j 0) d) d =
      { d with flt := (each (span 0 8) (fun j d => flagsBack (8 * m + j) (f.flags.getD j 0) d) d).flt } :=
    each_keeps (fun t => t = { d with flt := t.flt }) _ (span 0 8) d (fun j _ t ht => by
      unfold flagsBack
      split
      · exact ht
      · rw [ht]) rfl
  unfold latBack
  dsimp only
  generalize each (span 0 8) (fun j d => flagsBack (8 * m + j) (f.flags.getD j 0) d) d = u at hflags ⊢
  have haxes (g : Nat → MvAxis → MvAxis) : each (span 0 8) (fun j d => d.modMva (8 * m + j) (g j)) u =
      { u with mvax := (each (span 0 8) (fun j d => d.modMva (8 * m + j) (g j)) u).mvax } :=
    each_keeps (fun t => t = { u with mvax := t.mvax }) _ (span 0 8) u (fun j _ t ht => by
      unfold modMva setMva
      rw [ht]) rfl
  rw [haxes]
  generalize (each (span 0 8) _ u).mvax = x
  rw [mv_modMv_same]
  refine ⟨?_, ?_, rfl, ?_⟩
  · show u.hax = d.hax
    rw [hflags]
  · show u.regs = d.regs
    rw [hflags]
  · show (u.mv m).latMiss = (d.mv m).latMiss
    rw [hflags]
    rfl

theorem latLost_leaves (m : Nat) (crc : Bool) (d : Dev) : (latLost m crc d).hax = d.hax ∧ (latLost m crc d).regs.force = d.regs.force ∧
    ((latLost m crc d).mv m).latWay = none ∧ ((latLost m crc d).mv m).latMiss = (d.mv m).latMiss := by
  have hback : ∃ u : Dev, (u.hax = d.hax ∧ u.regs = d.regs ∧ (u.mv m).latWay = none ∧ (u.mv m).latMiss = (d.mv m).latMiss) ∧
      latLost m crc d = if crc then u.bump Fl.linkStatusCrcErrors m 1 else u := by
    unfold latLost
    split
    · next f _ => exact ⟨_, latBack_leaves m f d, rfl⟩
    · next hway => exact ⟨d, ⟨rfl, rfl, hway, rfl⟩, rfl⟩
  obtain ⟨u, ⟨hhax, hregs, hway, hmiss⟩, hu⟩ := hback
  rw [hu]
  split
  · refine ⟨hhax, ?_, hway, hmiss⟩
    show u.regs.force = d.regs.force
    rw [hregs]
  · exact ⟨hhax, congrArg Regs.force hregs, hway, hmiss⟩

/-- The count of a missing latch frame, which the second in a row reports. -/
theorem settle_latCount (m : Nat) (d : Dev) (u : Dev)
    (hu : u = (d.modMv m fun x => { x with latMiss := (d.mv m).latMiss + 1 }).stick Fl.linkStatusLatchMiss m) :
    (latCount m d).settle = if (d.mv m).latMiss + 1 = 2 then u.raise1 .linkLatchLost m m presLink else u.settle := by
  rw [hu]
  unfold latCount
  dsimp only
  split <;> rfl

end Dev

theorem exec_tickMark (s : State) (m : Fin 8) (diff : Int) (skew : BitVec 8) :
    exec (.tickMark m diff skew) s = s.onDev (Dev.tickMark m diff skew) := rfl
theorem exec_movementTickBoundary (s : State) (m : Fin 8) : exec (.movementTickBoundary m) s = s.onDev (Dev.mvTick m) := rfl
theorem exec_setpointFrame (s : State) (m : Fin 8) : exec (.setpointFrame m) s = s.onDev (Dev.frameArrives m) := rfl
theorem exec_setpointFrameMiss (s : State) (m : Fin 8) (crc : Bool) :
    exec (.setpointFrameMiss m crc) s = s.onDev (Dev.frameMissed m crc) := rfl
theorem exec_latchFrameMiss (s : State) (m : Fin 8) (crc : Bool) : exec (.latchFrameMiss m crc) s = s.onDev (Dev.latMissed m crc) := rfl

theorem tickMark_shows (s : State) (m : Fin 8) (diff : Int) (skew : BitVec 8) (hruns : s.dev.mvRuns m = true)
    (htrained : s.dev.trained m = true) :
    ∃ d, exec (.tickMark m diff skew) s = .next { s with dev := d } ∧ d.hw Fl.linkStatusSkew m = skew.toNat ∧
      (diff.natAbs ≤ 2 → skew.toInt.natAbs ≤ 16 → d = { s.dev with regs := d.regs, flt := d.flt } ∧
        s.dev.regsBut d [Reg.offset .linkStatus m]) ∧
      (2 < diff.natAbs → s.dev.reacted d .linkSkew m m) ∧ (16 < skew.toInt.natAbs → s.dev.reacted d .linkSkew m 8) := by
  have heq := Dev.tickMark_eq m diff skew s.dev hruns htrained
  obtain ⟨hskew, -, -, hhub, hquiet⟩ := Dev.skewShown m skew (Dev.markRaised m diff s.dev)
  refine ⟨_, (exec_tickMark s m diff skew).trans (s.onDev_eq heq), hskew, fun hdiff hle => ?_, fun hgt => ?_, fun hgt => ?_⟩
  · have hnone : Dev.markRaised m diff s.dev = s.dev := if_neg (not_lt.mpr hdiff)
    obtain ⟨f, hf⟩ := hquiet hle
    rw [hf, hnone]
    exact ⟨rfl, ((Dev.regsBut_refl s.dev _).setHw Fl.linkStatusSkew m _ (List.mem_singleton_self _)).of_regs rfl⟩
  · have hraised : Dev.markRaised m diff s.dev = s.dev.raise .linkSkew m m m := if_pos hgt
    have hreact : s.dev.reacted (Dev.markRaised m diff s.dev) .linkSkew m m := by
      rw [hraised]
      exact Dev.raiseAs_reacted s.dev .linkSkew m m m .stoppedFault
    exact hreact.keep ((Dev.keepsReaction_setSkew m m skew _).trans (Dev.keepsReaction_settle m _))
  · exact (hhub hgt).from (Dev.markRaised_force m diff s.dev)

theorem setpointFrame_arrives (s : State) (m : Fin 8) (f : SpFrame) (hon : s.dev.mvOn m = true) (htrained : s.dev.trained m = true)
    (hway : (s.dev.mv m).spWay = some f) :
    ∃ d, exec (.setpointFrame m) s = .next { s with dev := d } ∧ (d.mv m).spWay = none ∧
      (s.dev.orphan m = false → (d.mv m).spTaken = some f ∧
        (d.mv m).reqs = (s.dev.mv m).reqs.filter fun r => decide (f.ack < r.serial)) ∧
      (s.dev.orphan m = true → d.mv m = { s.dev.mv m with spWay := none } ∧ d.mvax = s.dev.mvax ∧ d.regs = s.dev.regs) ∧
      (∀ k, k ≠ m.val → d.mv k = s.dev.mv k) ∧ (∀ n, n / 8 ≠ m.val → d.mva n = s.dev.mva n) ∧
      d = { s.dev with mvs := d.mvs, mvax := d.mvax, regs := d.regs } := by
  by_cases horphan : s.dev.orphan m = true
  · have heq := Dev.frameArrives_orphan m f s.dev hon htrained hway horphan
    have hmv : (s.dev.modMv m fun x => { x with spWay := none }).mv m = { s.dev.mv m with spWay := none } := Dev.mv_modMv_same s.dev m _
    exact ⟨_, (exec_setpointFrame s m).trans (s.onDev_eq heq), by rw [hmv], fun h => absurd (h.symm.trans horphan) Bool.false_ne_true,
      fun _ => ⟨hmv, rfl, rfl⟩, fun k hk => Dev.mv_modMv_other s.dev _ hk, fun _ _ => rfl, rfl⟩
  · obtain ⟨hnone, htaken, hreqs, hmv, hmva, hframe⟩ :=
      Dev.frameArrives_keeps m f s.dev hon htrained hway (Bool.eq_false_iff.mpr horphan) _ rfl
    exact ⟨_, (exec_setpointFrame s m).trans (s.onDev_eq rfl), hnone, fun _ => ⟨htaken, hreqs⟩, fun h => absurd h horphan, hmv, hmva, hframe⟩

theorem setpointFrame_missing (s : State) (m : Fin 8) (crc : Bool) (hon : s.dev.mvOn m = true) (htrained : s.dev.trained m = true)
    (hnow : s.dev.spNow m = none) :
    ∃ d, exec (.setpointFrameMiss m crc) s = .next { s with dev := d } ∧ d.hw Fl.linkStatusSetpointMissed m = 1 ∧
      d.mv m = { s.dev.mv m with spWay := none, spTaken := none } ∧ (∀ k, k ≠ m.val → d.mv k = s.dev.mv k) ∧
      d = { s.dev with mvs := d.mvs, regs := d.regs } ∧ s.dev.regsBut d [Reg.offset .linkStatus m] := by
  have heq := Dev.frameMissed_eq m crc s.dev hon htrained hnow
  have hmv : (s.dev.modMv m fun x => { x with spWay := none, spTaken := none }).mv m = { s.dev.mv m with spWay := none, spTaken := none } :=
    Dev.mv_modMv_same s.dev m _
  have hother : ∀ k, k ≠ m.val → (s.dev.modMv m fun x => { x with spWay := none, spTaken := none }).mv k = s.dev.mv k := fun k hk =>
    Dev.mv_modMv_other s.dev _ hk
  have hframe : (s.dev.modMv m fun x => { x with spWay := none, spTaken := none }) =
    { s.dev with mvs := (s.dev.modMv m fun x => { x with spWay := none, spTaken := none }).mvs } := rfl
  generalize s.dev.modMv m (fun x => { x with spWay := none, spTaken := none }) = u at heq hmv hother hframe
  have hshown : (u.stick Fl.linkStatusSetpointMissed m).hw Fl.linkStatusSetpointMissed m = 1 := Dev.hw_stick_same u _ m (by decide) rfl
  have hregs : s.dev.regsBut (u.stick Fl.linkStatusSetpointMissed m) [Reg.offset .linkStatus m] :=
    ((Dev.regsBut_refl s.dev _).of_regs (by rw [hframe])).setHw Fl.linkStatusSetpointMissed m _ (List.mem_singleton_self _)
  cases crc
  · refine ⟨_, (exec_setpointFrameMiss s m false).trans (s.onDev_eq heq), hshown, hmv, hother, ?_, hregs⟩
    rw [hframe]
    rfl
  · refine ⟨_, (exec_setpointFrameMiss s m true).trans (s.onDev_eq heq), ?_, hmv, hother, ?_,
      hregs.setHw Fl.linkStatusCrcErrors m _ (List.mem_singleton_self _)⟩
    · exact (Dev.hw_setHw_beside _ Fl.linkStatusCrcErrors Fl.linkStatusSetpointMissed m _ rfl (by decide) (by decide)).trans hshown
    · rw [hframe]
      rfl

theorem latchFrame_missing (s : State) (m : Fin 8) (crc : Bool) (hon : s.dev.mvOn m = true) (htrained : s.dev.trained m = true)
    (hmissed : (s.dev.mv m).missed = false) :
    ∃ d, exec (.latchFrameMiss m crc) s = .next { s with dev := d } ∧ (d.mv m).missed = true ∧ (d.mv m).latWay = none ∧
      (d.mv m).latMiss = (s.dev.mv m).latMiss + 1 ∧ d.hw Fl.linkStatusLatchMiss m = 1 ∧
      ((s.dev.mv m).latMiss = 1 → s.dev.reacted d .linkLatchLost m 8) ∧ d.hax = s.dev.hax := by
  have heq := Dev.latMissed_eq m crc s.dev hon htrained hmissed
  obtain ⟨hhax, hforce, hway, hmiss⟩ := Dev.latLost_leaves m crc s.dev
  generalize Dev.latLost m crc s.dev = c at heq hhax hforce hway hmiss
  have hmv : (c.modMv m fun x => { x with missed := true }).mv m = { c.mv m with missed := true } := Dev.mv_modMv_same c m _
  have hkept : (c.modMv m fun x => { x with missed := true }).hax = s.dev.hax ∧
      (c.modMv m fun x => { x with missed := true }).regs.force = s.dev.regs.force := ⟨hhax, hforce⟩
  generalize c.modMv m (fun x => { x with missed := true }) = v at heq hmv hkept
  obtain ⟨hvhax, hvforce⟩ := hkept
  have hcount := Dev.settle_latCount m v _ rfl
  have hu : ((v.modMv m fun x => { x with latMiss := (v.mv m).latMiss + 1 }).stick Fl.linkStatusLatchMiss m).mv m =
      { v.mv m with latMiss := (v.mv m).latMiss + 1 } :=
    Dev.mv_modMv_same v m fun x => { x with latMiss := (v.mv m).latMiss + 1 }
  have hshown : ((v.modMv m fun x => { x with latMiss := (v.mv m).latMiss + 1 }).stick Fl.linkStatusLatchMiss m).hw Fl.linkStatusLatchMiss m = 1 :=
    Dev.hw_stick_same _ _ m (by decide) rfl
  have huforce : ((v.modMv m fun x => { x with latMiss := (v.mv m).latMiss + 1 }).stick Fl.linkStatusLatchMiss m).regs.force =
    s.dev.regs.force := hvforce
  have huhax : ((v.modMv m fun x => { x with latMiss := (v.mv m).latMiss + 1 }).stick Fl.linkStatusLatchMiss m).hax = s.dev.hax := hvhax
  generalize (v.modMv m fun x => { x with latMiss := (v.mv m).latMiss + 1 }).stick Fl.linkStatusLatchMiss m = u at hcount hu hshown huforce huhax
  have hlat : (v.mv m).latMiss = (s.dev.mv m).latMiss := by rw [hmv, ← hmiss]
  rw [hcount, hlat] at heq
  have hfields : ∀ t : Dev, t.mv m = u.mv m → (t.mv m).missed = true ∧ (t.mv m).latWay = none ∧
      (t.mv m).latMiss = (s.dev.mv m).latMiss + 1 := fun t ht => by
    rw [ht, hu, hmv]
    exact ⟨rfl, hway, by rw [hmiss]⟩
  by_cases htwo : (s.dev.mv m).latMiss + 1 = 2
  · rw [if_pos htwo] at heq
    obtain ⟨hm, hw, hl⟩ := hfields _ (Dev.mv_raise1_hub u .linkLatchLost m m presLink m (by decide))
    refine ⟨_, (exec_latchFrameMiss s m crc).trans (s.onDev_eq heq), hm, hw, hl, ?_, fun _ => ?_, ?_⟩
    · rw [Dev.hw_raise1 _ _ _ _ _ Fl.linkStatusLatchMiss m (Dev.offRaise_linkStatus m), hshown]
    · exact (Dev.raise1_reacted u .linkLatchLost m m presLink).from huforce
    · rw [Dev.raise1_hax, huhax]
  · rw [if_neg htwo] at heq
    obtain ⟨hm, hw, hl⟩ := hfields _ (Dev.settle_mv u m)
    refine ⟨_, (exec_latchFrameMiss s m crc).trans (s.onDev_eq heq), hm, hw, hl, ?_, fun h => absurd (by rw [h]) htwo, ?_⟩
    · rw [Dev.settle_hw, hshown]
    · rw [Dev.settle_frame]
      exact huhax

/-- Settles O41: each step of the movement's boundary keeps to the movement, and each frame to its link. -/
theorem movementFrames : Obligations.MovementFrames := by
  unfold Obligations.MovementFrames
  refine ⟨fun s m hticking hpll hruns htrained => ?_, tickMark_shows, setpointFrame_arrives, setpointFrame_missing, latchFrame_missing⟩
  obtain ⟨hperiod, htaken, hway, hload, hmoves⟩ := Dev.mvTick_leaves m s.dev hticking hpll hruns htrained _ rfl
  exact ⟨_, (exec_movementTickBoundary s m).trans (s.onDev_eq rfl), hperiod, htaken, hway, hload, hmoves.mv, hmoves.mva, hmoves.hax,
    hmoves.time⟩

end Sys2Proof.Machine
end

section
/-! The clock of the block, and the operations on its parts, on records and on fault sources, which leave it (O34).

One rule for each function of the tick, in the order of the model: it leaves the clock. A rule of a function that only sets parts of the
state holds by unfolding; the others follow from the rules before them, which `simp` finds. -/

namespace Sys2Proof.Machine

/-- What the tick boundary settles of the block. -/
structure Clock where
  tick : BitVec 48
  start : Nat
  first : Bool
  total : Nat
  detects : List Detect

namespace Dev

/-- The clock of the block. -/
def clock (d : Dev) : Clock := ⟨d.time.tick, d.time.start, d.sys.first, d.hif.total, d.detects⟩

@[simp] theorem clock_ite (c : Prop) [Decidable c] (a b : Dev) : (if c then a else b).clock = if c then a.clock else b.clock := by
  split <;> rfl

@[simp] theorem clock_mk (time : Time) (regs : Regs) (hif : Hif) (units : SMap UnitEnt) (acts : Acts) (hax : SMap HubAxis)
    (mvax : SMap MvAxis) (mvs : SMap Mv) (strikes : SMap Strike) (cmds : SMap CmdPin) (flt : Flt) (signs : SMap Sign)
    (detects : List Detect) (reopens : SMap ReopenRun) (signSerial : Nat) (cans : SMap CanCtl) (objs : SMap (List Word)) (lock : Lock)
    (nvs : Option NvsRun) (therm : Therm) (mons : SMap MonCtl) (sys : Sys) (out : List Msg) (fresh : Nat) :
    clock ⟨time, regs, hif, units, acts, hax, mvax, mvs, strikes, cmds, flt, signs, detects, reopens, signSerial, cans, objs, lock,
      nvs, therm, mons, sys, out, fresh⟩ = ⟨time.tick, time.start, sys.first, hif.total, detects⟩ := rfl

@[simp] theorem clock_eta (d : Dev) : (⟨d.time.tick, d.time.start, d.sys.first, d.hif.total, d.detects⟩ : Clock) = d.clock := rfl

@[simp] theorem clock_foldl {α : Type} (f : Dev → α → Dev) (l : List α) (d : Dev) (h : ∀ t a, (f t a).clock = t.clock) :
    (l.foldl f d).clock = d.clock := by
  induction l generalizing d with
  | nil => rfl
  | cons a r ih => exact (ih _).trans (h d a)

@[simp] theorem clock_each (l : List Nat) (f : Nat → Dev → Dev) (d : Dev) (h : ∀ n t, (f n t).clock = t.clock) :
    (each l f d).clock = d.clock :=
  clock_foldl _ l d fun t n => h n t

@[simp] theorem clock_setHw (d : Dev) (f : Fld) (i v : Nat) : (setHw d f i v).clock = d.clock := rfl

@[simp] theorem clock_setCfg (d : Dev) (f : Fld) (i v : Nat) : (setCfg d f i v).clock = d.clock := rfl

@[simp] theorem clock_modAxis (d : Dev) (n : Nat) (f : HubAxis → HubAxis) : (modAxis d n f).clock = d.clock := rfl

@[simp] theorem clock_modMot (d : Dev) (n : Nat) (f : Motion → Motion) : (modMot d n f).clock = d.clock := rfl

@[simp] theorem clock_modMva (d : Dev) (n : Nat) (f : MvAxis → MvAxis) : (modMva d n f).clock = d.clock := rfl

@[simp] theorem clock_modMv (d : Dev) (m : Nat) (f : Mv → Mv) : (modMv d m f).clock = d.clock := rfl

@[simp] theorem clock_setSq (d : Dev) (i : Nat) (x : Sq) : (setSq d i x).clock = d.clock := rfl

@[simp] theorem clock_modSq (d : Dev) (i : Nat) (f : Sq → Sq) : (modSq d i f).clock = d.clock := rfl

@[simp] theorem clock_setCq (d : Dev) (i : Nat) (x : Cq) : (setCq d i x).clock = d.clock := rfl

@[simp] theorem clock_setBq (d : Dev) (i : Nat) (x : Bq) : (setBq d i x).clock = d.clock := rfl

@[simp] theorem clock_modBq (d : Dev) (i : Nat) (f : Bq → Bq) : (modBq d i f).clock = d.clock := rfl

@[simp] theorem clock_setUnit (d : Dev) (u : Nat) (x : UnitEnt) : (setUnit d u x).clock = d.clock := rfl

@[simp] theorem clock_modUnit (d : Dev) (u : Nat) (f : UnitEnt → UnitEnt) : (modUnit d u f).clock = d.clock := rfl

@[simp] theorem clock_setStrike (d : Dev) (i : Nat) (x : Strike) : (setStrike d i x).clock = d.clock := rfl

@[simp] theorem clock_setCmd (d : Dev) (c : Nat) (x : CmdPin) : (setCmd d c x).clock = d.clock := rfl

@[simp] theorem clock_post (d : Dev) (m : Msg) : (post d m).clock = d.clock := rfl

@[simp] theorem clock_emit (d : Dev) (m : Msg) : (emit d m).clock = d.clock := rfl

@[simp] theorem clock_unarm (d : Dev) (n : Nat) : (unarm d n).clock = d.clock := by simp [unarm]

@[simp] theorem clock_dropReopen (d : Dev) (n : Nat) : (dropReopen d n).clock = d.clock := by
  unfold dropReopen
  split <;> simp

@[simp] theorem clock_takePend (p : PendW → Bool) (act : PendW → Dev → Dev) (d : Dev) (h : ∀ w t, (act w t).clock = t.clock) :
    (takePend p act d).clock = d.clock :=
  (clock_foldl _ _ _ fun t w => h w t).trans rfl

@[simp] theorem clock_enforce (r : Reg) (i : Nat) (mask v : Word) (d : Dev) : (enforce r i mask v d).clock = d.clock := rfl

@[simp] theorem clock_countDrop (d : Dev) (f : Fld) (i : Nat) (n : Nat) : (countDrop d f i n).clock = d.clock := rfl

@[simp] theorem clock_produce (d : Dev) (i : Nat) (r : CRec) : (produce d i r).clock = d.clock := by simp [produce]

@[simp] theorem clock_finish (d : Dev) (o : Owner) (st : Status) (unit : Nat) (result : Word) :
    (finish d o st unit result).clock = d.clock := by simp [finish]

@[simp] theorem clock_event (d : Dev) (o : Owner) (st : Status) (unit : Nat) (result : Word) : (event d o st unit result).clock = d.clock := by
  simp [event]

@[simp] theorem clock_openAct (d : Dev) (o : Owner) (unit : Nat) (axes : List Nat) : (openAct d o unit axes).2.clock = d.clock := rfl

@[simp] theorem clock_endAct (d : Dev) (n : Nat) (ax : Nat) (st : Status) (result : Word) : (endAct d n ax st result).clock = d.clock := by
  unfold endAct
  split <;> simp

@[simp] theorem clock_endAct_opt (d : Dev) (n : Option Nat) (ax : Nat) (st : Status) (result : Word) :
    (endAct? d n ax st result).clock = d.clock := by
  unfold endAct?
  split <;> simp

@[simp] theorem clock_stick (d : Dev) (f : Fld) (i : Nat) : (stick d f i).clock = d.clock := rfl

@[simp] theorem clock_setFlag (d : Dev) (f : Fld) (i : Nat) (b : Bool) : (setFlag d f i b).clock = d.clock := rfl

@[simp] theorem clock_bump (d : Dev) (f : Fld) (i : Nat) (n : Nat) : (bump d f i n).clock = d.clock := rfl

@[simp] theorem clock_stickAxis (pres bitNo cls : Nat) (n : Nat) (d : Dev) : (stickAxis pres bitNo cls n d).clock = d.clock := by
  simp [stickAxis]

@[simp] theorem clock_stoAxis (n : Nat) (d : Dev) : (stoAxis n d).clock = d.clock := rfl

@[simp] theorem clock_latchSto (cls : Nat) (axes : List Nat) (d : Dev) : (latchSto cls axes d).clock = d.clock := by
  unfold latchSto
  split
  · exact clock_foldl _ _ _ fun _ _ => rfl
  · split <;> rfl

@[simp] theorem clock_reactNow (cls : Nat) (axes : List Nat) (d : Dev) : (reactNow cls axes d).clock = d.clock := by
  unfold reactNow
  split
  · rfl
  · rw [clock_latchSto, clock_each _ _ _ clock_stoAxis]

@[simp] theorem clock_addReq (d : Dev) (m : Nat) (r : React) : (addReq d m r).clock = d.clock := rfl

@[simp] theorem clock_addReact (d : Dev) (r : React) : (addReact d r).clock = d.clock := rfl

@[simp] theorem clock_raiseAs (d : Dev) (s : Src) (place sub pres cls : Nat) (status : Status) :
    (raiseAs d s place sub pres cls status).clock = d.clock := by simp [raiseAs]

@[simp] theorem clock_raise (d : Dev) (s : Src) (place sub pres : Nat) : (raise d s place sub pres).clock = d.clock := by simp [raise]

@[simp] theorem clock_settleOne (p : Nat) (d : Dev) : (settleOne p d).clock = d.clock := by
  unfold settleOne
  split <;> simp

@[simp] theorem clock_settle (d : Dev) : (settle d).clock = d.clock := by simp [settle]

@[simp] theorem clock_raise1 (d : Dev) (s : Src) (place sub pres : Nat) : (raise1 d s place sub pres).clock = d.clock := by simp [raise1]

@[simp] theorem clock_safeSense (d : Dev) : (safeSense d).clock = d.clock := by simp [safeSense]

@[simp] theorem clock_upLeaf (f : BitVec 64 → BitVec 64) (u fuel : Nat) (d : Dev) : (upLeaf f u fuel d).clock = d.clock := by
  induction fuel generalizing u d with
  | zero => rfl
  | succ k ih =>
    unfold upLeaf
    dsimp only
    split <;> simp [ih]

end Dev

end Sys2Proof.Machine
end

section
/-! Units, rings, the doorbell page, records and the completion window leave the clock. -/

namespace Sys2Proof.Machine

namespace Dev

@[simp] theorem clock_formRefs (d : Dev) : (formRefs d).clock = d.clock := clock_foldl _ _ d fun _ _ => rfl

@[simp] theorem clock_setRef (d : Dev) (g v : Nat) : (setRef d g v).clock = d.clock := by simp [setRef]

@[simp] theorem clock_attach (p u : Nat) (d : Dev) : (attach p u d).clock = d.clock := by simp [attach]

@[simp] theorem clock_bindDo (x : Desc) (d : Dev) : (bindDo x d).2.clock = d.clock := by
  unfold bindDo
  dsimp only
  rw [clock_ite, clock_setRef, ite_self, clock_each _ _ _ (clock_attach (bindParent x)), clock_ite, clock_setUnit, ite_self]

@[simp] theorem clock_freeStrikes (g : Nat) (d : Dev) : (freeStrikes g d).clock = d.clock := rfl

@[simp] theorem clock_cease (g : Nat) (d : Dev) : (cease g d).clock = d.clock := by simp [cease]

@[simp] theorem clock_detach (p u : Nat) (d : Dev) : (detach p u d).clock = d.clock := by
  unfold detach
  dsimp only
  split <;> simp

@[simp] theorem clock_prune (p fuel : Nat) (d : Dev) : (prune p fuel d).2.clock = d.clock := by
  induction fuel generalizing p d with
  | zero => rfl
  | succ k ih =>
    unfold prune
    split
    · rfl
    · split
      · simp
      · simp [ih]

theorem clock_unbindDo {x : Desc} {d t : Dev} {w : Word} (h : unbindDo x d = .ok (w, t)) : t.clock = d.clock := by
  have hloose (l : List Nat) (t : Dev) : (each l (fun m d => d.modUnit m fun e => { e with parent := none }) t).clock = t.clock :=
    clock_each l _ t fun _ _ => by rfl
  unfold unbindDo at h
  dsimp only at h
  split at h
  · split at h
    · cases h
    · rw [Except.ok.injEq, Prod.mk.injEq] at h
      rw [← h.2, clock_prune, clock_detach]
  · split at h
    · cases h
    · split at h
      · rw [Except.ok.injEq, Prod.mk.injEq] at h
        rw [← h.2, clock_cease, hloose]
      · rw [Except.ok.injEq, Prod.mk.injEq] at h
        rw [← h.2, clock_prune, clock_cease, hloose, clock_detach]

@[simp] theorem clock_refTake (g v : Nat) (d : Dev) : (refTake g v d).clock = d.clock := by simp [refTake]

@[simp] theorem clock_notice (d : Dev) (i : Nat) (st : Status) : (notice d i st).clock = d.clock := by simp [notice]

@[simp] theorem clock_sqError (d : Dev) (i : Nat) (st : Status) : (sqError d i st).clock = d.clock := by simp [sqError]

@[simp] theorem clock_setCan (d : Dev) (c : Nat) (x : CanCtl) : (setCan d c x).clock = d.clock := rfl

@[simp] theorem clock_modCan (d : Dev) (c : Nat) (f : CanCtl → CanCtl) : (modCan d c f).clock = d.clock := rfl

@[simp] theorem clock_readDoorbell (d : Dev) : (readDoorbell d).clock = d.clock := by
  unfold readDoorbell
  split
  · rfl
  · split
    · rfl
    · exact (clock_foldl _ _ _ clock_emit).trans rfl

@[simp] theorem clock_wantFetch (i : Nat) (d : Dev) : (wantFetch i d).clock = d.clock := by simp [wantFetch]

@[simp] theorem clock_wantData (c : Nat) (d : Dev) : (wantData c d).clock = d.clock := by simp [wantData]

@[simp] theorem clock_moreReads (d : Dev) : (moreReads d).clock = d.clock := by simp [moreReads]

@[simp] theorem clock_takeProducer (w : List Word) (i : Nat) (d : Dev) : (takeProducer w i d).clock = d.clock := by simp [takeProducer]

@[simp] theorem clock_takeCqConsumer (w : List Word) (i : Nat) (d : Dev) : (takeCqConsumer w i d).clock = d.clock := by
  simp [takeCqConsumer]

@[simp] theorem clock_takeBqConsumer (w : List Word) (i : Nat) (d : Dev) : (takeBqConsumer w i d).clock = d.clock := by
  simp [takeBqConsumer]

@[simp] theorem clock_doorbellDone (r : Option (List Word)) (d : Dev) : (doorbellDone r d).clock = d.clock := by
  unfold doorbellDone
  split
  · simp
  · split <;> simp

@[simp] theorem clock_fetchDone (i : Nat) (r : Option Desc) (d : Dev) : (fetchDone i r d).clock = d.clock := by
  unfold fetchDone
  split <;> simp

@[simp] theorem clock_kick (d : Dev) : (kick d).clock = d.clock := by simp [kick]

@[simp] theorem clock_silentRaise (d : Dev) : (silentRaise d).clock = d.clock := by simp [silentRaise]

@[simp] theorem clock_silentTick (d : Dev) : (silentTick d).clock = d.clock := by simp [silentTick]

@[simp] theorem clock_sqEnable (i : Nat) (d : Dev) : (sqEnable i d).clock = d.clock := by simp [sqEnable]

@[simp] theorem clock_sqDisable (i : Nat) (d : Dev) : (sqDisable i d).clock = d.clock := by
  unfold sqDisable
  dsimp only
  split <;> simp

@[simp] theorem clock_dropCredits (p : Nat → Bool) (d : Dev) : (dropCredits p d).clock = d.clock := rfl

@[simp] theorem clock_cqEnable (i : Nat) (d : Dev) : (cqEnable i d).clock = d.clock := by simp [cqEnable]

@[simp] theorem clock_cqDisable (i : Nat) (d : Dev) : (cqDisable i d).clock = d.clock := rfl

@[simp] theorem clock_bqEnable (i : Nat) (d : Dev) : (bqEnable i d).clock = d.clock := by simp [bqEnable]

@[simp] theorem clock_bqDisable (i : Nat) (d : Dev) : (bqDisable i d).clock = d.clock := rfl

@[simp] theorem clock_devRefuse (d : Dev) (o : Owner) (extra : Bool) (st : Status) (unit : Nat) (result : Nat) :
    (d.refuse o extra st unit result).clock = d.clock := by simp [refuse]

@[simp] theorem clock_refuse (c : Ctx) (st : Status) (result : Nat) (d : Dev) : (Ctx.refuse c st result d).clock = d.clock := by
  simp [Ctx.refuse]

@[simp] theorem clock_done (c : Ctx) (st : Status) (result : Word) (d : Dev) : (Ctx.done c st result d).clock = d.clock := by
  simp [Ctx.done]

@[simp] theorem clock_accepted (c : Ctx) (d : Dev) : (Ctx.accepted c d).clock = d.clock := by simp [Ctx.accepted]

@[simp] theorem clock_opNop (c : Ctx) (d : Dev) : (opNop c d).clock = d.clock := by simp [opNop]

@[simp] theorem clock_opBind (c : Ctx) (d : Dev) : (opBind c d).clock = d.clock := by
  unfold opBind
  split <;> simp

@[simp] theorem clock_opUnbind (c : Ctx) (d : Dev) : (opUnbind c d).clock = d.clock := by
  unfold opUnbind
  split
  · simp
  · next h => exact (clock_done _ _ _ _).trans (clock_unbindDo h)

@[simp] theorem clock_opSnapshot (c : Ctx) (d : Dev) : (opSnapshot c d).clock = d.clock := by simp [opSnapshot]

theorem clock_writeOne {i : Nat} {d t : Dev} (h : writeOne i d = some t) : t.clock = d.clock := by
  unfold writeOne at h
  dsimp only at h
  split at h
  · cases h
  · split at h
    · cases h
    · split at h
      · rw [← Option.some.inj h]; rfl
      · rw [Option.ite_none_left_eq_some] at h
        rw [← Option.some.inj h.2]; rfl

@[simp] theorem clock_writeRecords (i n : Nat) (d : Dev) : (writeRecords i n d).clock = d.clock := by
  induction n generalizing d with
  | zero => rfl
  | succ k ih =>
    unfold writeRecords
    split
    · rfl
    · next t h => exact (ih t).trans (clock_writeOne h)

@[simp] theorem clock_addLost (i n : Nat) (d : Dev) : (addLost i n d).clock = d.clock := rfl

@[simp] theorem clock_writeEntries (i : Nat) (l : List (List Word × Nat)) (d : Dev) : (writeEntries i l d).clock = d.clock := by
  induction l generalizing d with
  | nil => rfl
  | cons e r ih =>
    unfold writeEntries
    dsimp only
    split <;> simp [ih]

@[simp] theorem clock_ringMessage (v : Nat) (d : Dev) : (ringMessage v d).clock = d.clock := by simp [ringMessage]

@[simp] theorem clock_issue (m : Msg) (d : Dev) : (issue m d).clock = d.clock := by
  unfold issue
  split <;> simp

@[simp] theorem clock_issueN (n : Nat) (d : Dev) : (issueN n d).clock = d.clock := by
  induction n generalizing d with
  | zero => rfl
  | succ k ih =>
    unfold issueN
    split
    · rfl
    · exact (ih _).trans (clock_issue _ _)

@[simp] theorem clock_windowWrites (d : Dev) : (windowWrites d).clock = d.clock := by
  unfold windowWrites
  split
  · rfl
  · extract_lets _ early records entries area messages _ acked
    have hearly : early.clock = d.clock := (clock_foldl _ _ _ clock_post).trans rfl
    have hrecords : records.clock = early.clock := clock_each _ _ _ fun i t => clock_writeRecords i _ t
    have hentries : entries.clock = records.clock := clock_each _ _ _ fun i t => by simp
    have harea : area.clock = entries.clock := (clock_ite _ _ _).trans (by rw [clock_post, ite_self])
    have hmessages : messages.clock = area.clock := clock_each _ _ _ clock_ringMessage
    have hacked : acked.clock = messages.clock := (clock_each _ _ _ fun _ t => clock_post t _).trans rfl
    have hlast : ∀ t : Dev, t.clock = acked.clock → t.clock = d.clock := fun t ht =>
      ht.trans (hacked.trans (hmessages.trans (harea.trans (hentries.trans (hrecords.trans hearly)))))
    exact hlast _ ((clock_each _ _ _ fun _ t => clock_post t _).trans rfl)

@[simp] theorem clock_endMot (d : Dev) (n : Nat) (st : Status) (result : Word) : (endMot d n st result).clock = d.clock := by simp [endMot]

end Dev

end Sys2Proof.Machine
end

section
/-! Motion, its descriptors and the strikes leave the clock. -/

namespace Sys2Proof.Machine

namespace Dev

@[simp] theorem clock_beginSeq (n : Nat) (r : SeqReq) (d : Dev) : (beginSeq n r d).clock = d.clock := rfl

@[simp] theorem clock_signResume (n : Nat) (d : Dev) : (signResume n d).clock = d.clock := by
  unfold signResume
  split <;> simp

@[simp] theorem clock_learnMotion (n : Nat) (st : Status) (d : Dev) : (learnMotion n st d).clock = d.clock := by
  unfold learnMotion
  split
  · split
    · split <;> rfl
    · rfl
  · rfl

@[simp] theorem clock_enter (n : Nat) (mode : Mode) (dir : Int) (act : Option Nat) (d : Dev) : (enter n mode dir act d).clock = d.clock := by
  simp [enter]

@[simp] theorem clock_brakeFirst (n : Nat) (d : Dev) : (brakeFirst n d).clock = d.clock := rfl

@[simp] theorem clock_clearMode (n : Nat) (d : Dev) : (clearMode n d).clock = d.clock := rfl

@[simp] theorem clock_startProfile (n : Nat) (d : Dev) : (startProfile n d).clock = d.clock := rfl

@[simp] theorem clock_releasePin (c : Nat) (d : Dev) : (releasePin c d).clock = d.clock := rfl

@[simp] theorem clock_torqueSpeed (n : Nat) (d : Dev) : (torqueSpeed n d).clock = d.clock := by simp [torqueSpeed]

@[simp] theorem clock_stopAxis (n : Nat) (immediate : Bool) (decel : Word) (cause : StopCause) (join : Option Nat) (d : Dev) :
    (stopAxis n immediate decel cause join d).clock = d.clock := by
  unfold stopAxis
  dsimp only
  split
  · simp
  · split <;> simp

@[simp] theorem clock_stopPin (c : Nat) (d : Dev) : (stopPin c d).clock = d.clock := by simp [stopPin]

@[simp] theorem clock_stop (n : Nat) (immediate : Bool) (decel : Word) (cause : StopCause) (join : Option Nat) (d : Dev) :
    (stop n immediate decel cause join d).clock = d.clock := by
  unfold stop
  dsimp only
  split <;> simp

@[simp] theorem clock_endMode (n : Nat) (d : Dev) : (endMode n d).clock = d.clock := by
  unfold endMode
  dsimp only
  split <;> simp

@[simp] theorem clock_finishProfile (n : Nat) (d : Dev) : (finishProfile n d).clock = d.clock := by simp [finishProfile]

@[simp] theorem clock_standstill (n : Nat) (d : Dev) : (standstill n d).clock = d.clock := by
  unfold standstill
  extract_lets x rem halted
  split
  · rfl
  · next s _ =>
    extract_lets rested cleared
    have hrested : rested.clock = d.clock := by simp [rested, halted]
    have hcleared : cleared.clock = d.clock := (clock_clearMode n rested).trans hrested
    clear_value rested cleared
    dsimp only
    rw [clock_foldl _ _ _ fun t a => clock_endAct t a n .ok _]
    split
    · simp [hrested]
    · split
      · split <;> simp [hrested, hcleared]
      · simp [hcleared]

@[simp] theorem clock_stopStep (n : Nat) (s : Stop) (d : Dev) : (stopStep n s d).clock = d.clock := by simp [stopStep]

@[simp] theorem clock_nextSeg (n : Nat) (d : Dev) : (nextSeg n d).clock = d.clock := by
  unfold nextSeg
  split <;> simp

@[simp] theorem clock_streamStep (n : Nat) (d : Dev) : (streamStep n d).clock = d.clock := by
  unfold streamStep
  extract_lets e _
  have he : e.clock = d.clock := by simp [e]
  split
  · exact he
  · split
    · exact he
    · extract_lets _ _ _ _ _ moved done cleared
      have hmoved : moved.clock = d.clock := he
      have hdone : done.clock = d.clock := he
      have hcleared : cleared.clock = d.clock := (clock_clearMode n done).trans hdone
      clear_value moved done cleared
      split
      · exact hmoved
      · split
        · simp [hcleared]
        · split
          · simp [hdone]
          · exact hdone

@[simp] theorem clock_revStart (n : Nat) (d : Dev) : (revStart n d).clock = d.clock := by
  unfold revStart
  dsimp only
  split <;> simp

@[simp] theorem clock_waitStep (n : Nat) (d : Dev) : (waitStep n d).clock = d.clock := by simp [waitStep]

@[simp] theorem clock_slWaits (n : Nat) (d : Dev) : (slWaits n d).clock = d.clock := by simp [slWaits]

@[simp] theorem clock_modeStep (n : Nat) (d : Dev) : (modeStep n d).clock = d.clock := by
  unfold modeStep
  split <;> simp

@[simp] theorem clock_publish (n : Nat) (d : Dev) : (publish n d).clock = d.clock := rfl

@[simp] theorem clock_phase5Axis (n : Nat) (d : Dev) : (phase5Axis n d).clock = d.clock := by
  unfold phase5Axis
  dsimp only
  split <;> simp

@[simp] theorem clock_enterOrBrake (n : Nat) (dir : Int) (d : Dev) : (enterOrBrake n dir d).clock = d.clock := by simp [enterOrBrake]

@[simp] theorem clock_refuseAxes (c : Ctx) (fails : List (Nat × Status × Nat)) (d : Dev) : (Ctx.refuseAxes c fails d).clock = d.clock := by
  unfold Ctx.refuseAxes
  split <;> simp

@[simp] theorem clock_okAxes (c : Ctx) (result : Word) (d : Dev) : (Ctx.okAxes c result d).clock = d.clock := by simp [Ctx.okAxes]

@[simp] theorem clock_doneWorst (c : Ctx) (sts : List (Nat × Status)) (d : Dev) : (Ctx.doneWorst c sts d).clock = d.clock := by
  simp [Ctx.doneWorst]

@[simp] theorem clock_settleP (n : Nat) (d : Dev) : (settleP n d).clock = d.clock := by simp [settleP]

@[simp] theorem clock_goTo (act : Nat) (t : Pos) (n : Nat) (d : Dev) : (goTo act t n d).clock = d.clock := by simp [goTo]

@[simp] theorem clock_opMove (c : Ctx) (d : Dev) : (opMove c d).clock = d.clock := by
  unfold opMove
  dsimp only
  split <;> simp

@[simp] theorem clock_opResume (c : Ctx) (d : Dev) : (opResume c d).clock = d.clock := by
  unfold opResume
  dsimp only
  split <;> simp

@[simp] theorem clock_opStop (c : Ctx) (d : Dev) : (opStop c d).clock = d.clock := by simp [opStop]

@[simp] theorem clock_opSetprofile (c : Ctx) (d : Dev) : (opSetprofile c d).clock = d.clock := by
  unfold opSetprofile
  dsimp only
  split
  · exact clock_refuseAxes _ _ _
  · exact (clock_okAxes _ _ _).trans (clock_each _ _ _ fun _ _ => rfl)

@[simp] theorem clock_goVelocity (act : Option Nat) (v : Int) (n : Nat) (d : Dev) : (goVelocity act v n d).clock = d.clock := by
  simp [goVelocity]

@[simp] theorem clock_newSpeed (v : Int) (n : Nat) (d : Dev) : (newSpeed v n d).clock = d.clock := by simp [newSpeed]

@[simp] theorem clock_speedAxis (x : Desc) (n : Nat) (d : Dev) : (speedAxis x n d).clock = d.clock := by simp [speedAxis]

@[simp] theorem clock_opSpeed (c : Ctx) (d : Dev) : (opSpeed c d).clock = d.clock := by
  unfold opSpeed
  dsimp only
  split <;> simp

@[simp] theorem clock_queueSeg (x : Desc) (n : Nat) (d : Dev) : (queueSeg x n d).clock = d.clock := by simp [queueSeg]

@[simp] theorem clock_opSetpoint (c : Ctx) (d : Dev) : (opSetpoint c d).clock = d.clock := by
  unfold opSetpoint
  dsimp only
  split <;> simp

@[simp] theorem clock_followCheck (n : Nat) (d : Dev) : (followCheck n d).clock = d.clock := by simp [followCheck]

@[simp] theorem clock_settleRaise (n : Nat) (d : Dev) : (settleRaise n d).clock = d.clock := by simp [settleRaise]

@[simp] theorem clock_phase1Axis (n : Nat) (d : Dev) : (phase1Axis n d).clock = d.clock := by simp [phase1Axis]

@[simp] theorem clock_xMerge (n : Nat) (c : XCmd) (d : Dev) : (xMerge n c d).clock = d.clock := rfl

@[simp] theorem clock_vmaxAxis (v : BitVec 24) (n : Nat) (d : Dev) : (vmaxAxis v n d).2.clock = d.clock := by
  unfold vmaxAxis
  dsimp only
  split <;> rfl

@[simp] theorem clock_actOnAll (f : Nat → Dev → Bool × Dev) (l : List Nat) (d : Dev) (h : ∀ n t, (f n t).2.clock = t.clock) :
    (actOnAll f l d).2.clock = d.clock := by
  induction l generalizing d with
  | nil => rfl
  | cons n r ih => exact (ih _).trans (h n d)

@[simp] theorem clock_stopStrike (imm : Bool) (decel : Word) (n : Nat) (d : Dev) : (stopStrike imm decel n d).2.clock = d.clock := by
  unfold stopStrike
  dsimp only
  split <;> simp

@[simp] theorem clock_auxStrike (v : BitVec 16) (n : Nat) (d : Dev) : (auxStrike v n d).2.clock = d.clock := by
  unfold auxStrike
  dsimp only
  split <;> simp

@[simp] theorem clock_strikeAct (e : Strike) (d : Dev) : (strikeAct e d).2.clock = d.clock := by
  unfold strikeAct
  dsimp only
  split
  case h_5 => split <;> rfl
  all_goals simp

@[simp] theorem clock_fire (i : Nat) (byPassed jump : Bool) (d : Dev) : (fire i byPassed jump d).clock = d.clock := by
  unfold fire
  dsimp only
  split <;> simp

@[simp] theorem clock_evalPos (i : Nat) (e : Strike) (d : Dev) : (evalPos i e d).clock = d.clock := by simp [evalPos]

@[simp] theorem clock_evalStrike (i : Nat) (d : Dev) : (evalStrike i d).clock = d.clock := by
  unfold evalStrike
  dsimp only
  split
  · simp
  · split <;> simp

@[simp] theorem clock_phase3 (d : Dev) : (phase3 d).clock = d.clock := by simp [phase3]

@[simp] theorem clock_opStrikeArm (c : Ctx) (d : Dev) : (opStrikeArm c d).clock = d.clock := by
  unfold opStrikeArm
  dsimp only
  split <;> simp

@[simp] theorem clock_opStrikeDisarm (c : Ctx) (d : Dev) : (opStrikeDisarm c d).clock = d.clock := by simp [opStrikeDisarm]

@[simp] theorem clock_rebaseStrikes (n : Nat) (d : Dev) : (rebaseStrikes n d).clock = d.clock := rfl

end Dev

end Sys2Proof.Machine
end

section
/-! Fault reactions, the drive, calibration and the off-state test leave the clock. -/

namespace Sys2Proof.Machine

namespace Dev

@[simp] theorem clock_endFault (n : Nat) (st : Status) (d : Dev) : (endFault n st d).clock = d.clock := by simp [endFault]

@[simp] theorem clock_unitStop (n : Nat) (st : Status) (d : Dev) : (unitStop n st d).clock = d.clock := by simp [unitStop]

@[simp] theorem clock_unitSafe (n : Nat) (st : Status) (d : Dev) : (unitSafe n st d).clock = d.clock := by simp [unitSafe]

@[simp] theorem clock_reactAxis (n cls : Nat) (st : Status) (d : Dev) : (reactAxis n cls st d).clock = d.clock := by simp [reactAxis]

@[simp] theorem clock_rollMark (g cls : Nat) (d : Dev) : (rollMark g cls d).clock = d.clock := by simp [rollMark]

@[simp] theorem clock_applyReacts (d : Dev) : (applyReacts d).clock = d.clock := by simp [applyReacts]

@[simp] theorem clock_clearAxis (n : Nat) (d : Dev) : (clearAxis n d).clock = d.clock := by simp [clearAxis]

@[simp] theorem clock_applyClear (d : Dev) : (applyClear d).clock = d.clock := by
  unfold applyClear
  split
  · rfl
  · dsimp only
    split
    · simp
    · split <;> simp

@[simp] theorem clock_phase2End (d : Dev) : (phase2End d).clock = d.clock := by simp [phase2End]

@[simp] theorem clock_modFb (d : Dev) (n : Nat) (f : Fb → Fb) : (modFb d n f).clock = d.clock := rfl

@[simp] theorem clock_unverified (n : Nat) (d : Dev) : (unverified n d).clock = d.clock := rfl

@[simp] theorem clock_setCounter (n : Nat) (p : Int) (d : Dev) : (setCounter n p d).clock = d.clock := rfl

@[simp] theorem clock_takeSector (n : Nat) (d : Dev) : (takeSector n d).clock = d.clock := rfl

@[simp] theorem clock_seqIdle (n : Nat) (st : Status) (res : Word) (cmd : DriveCmd) (d : Dev) : (seqIdle n st res cmd d).clock = d.clock := by
  simp [seqIdle]

@[simp] theorem clock_seqEnded (n : Nat) (e : SeqEnd) (d : Dev) : (seqEnded n e d).clock = d.clock := by
  unfold seqEnded
  split <;> simp

@[simp] theorem clock_seqFault (n : Nat) (src : Src) (st : Status) (d : Dev) : (seqFault n src st d).clock = d.clock := by simp [seqFault]

@[simp] theorem clock_seqFaults (n : Nat) (d : Dev) : (seqFaults n d).clock = d.clock := by
  unfold seqFaults
  split <;> simp

@[simp] theorem clock_startAxis (x : Desc) (a : Nat) (n : Nat) (d : Dev) : (startAxis x a n d).clock = d.clock := by simp [startAxis]

@[simp] theorem clock_opStart (c : Ctx) (d : Dev) : (opStart c d).clock = d.clock := by
  unfold opStart
  dsimp only
  split <;> simp

@[simp] theorem clock_catchAxis (x : Desc) (a : Nat) (n : Nat) (d : Dev) : (catchAxis x a n d).clock = d.clock := by simp [catchAxis]

@[simp] theorem clock_opCatch (c : Ctx) (d : Dev) : (opCatch c d).clock = d.clock := by
  unfold opCatch
  dsimp only
  split <;> simp

@[simp] theorem clock_armAxis (n : Nat) (d : Dev) : (armAxis n d).clock = d.clock := by simp [armAxis]

@[simp] theorem clock_opArm (c : Ctx) (d : Dev) : (opArm c d).clock = d.clock := by
  unfold opArm
  dsimp only
  split <;> simp

@[simp] theorem clock_disarmAxis (ramp : Bool) (n : Nat) (d : Dev) : (disarmAxis ramp n d).clock = d.clock := by simp [disarmAxis]

@[simp] theorem clock_opDisarm (c : Ctx) (d : Dev) : (opDisarm c d).clock = d.clock := by simp [opDisarm]

@[simp] theorem clock_holdAxis (brake opt : Bool) (n : Nat) (d : Dev) : (holdAxis brake opt n d).clock = d.clock := by simp [holdAxis]

@[simp] theorem clock_opFloat (c : Ctx) (d : Dev) : (opFloat c d).clock = d.clock := by simp [opFloat]

@[simp] theorem clock_opBrake (c : Ctx) (d : Dev) : (opBrake c d).clock = d.clock := by simp [opBrake]

@[simp] theorem clock_opCalibrate (c : Ctx) (d : Dev) : (opCalibrate c d).clock = d.clock := by
  unfold opCalibrate
  dsimp only
  split
  · exact clock_refuseAxes _ _ _
  · exact (clock_each _ _ _ fun _ _ => by rfl).trans ((clock_openAct _ _ _ _).trans (clock_accepted c d))

@[simp] theorem clock_clearTrack (n : Nat) (d : Dev) : (clearTrack n d).clock = d.clock := rfl

@[simp] theorem clock_calFinish (m : Nat) (st : Status) (failed : Nat) (acts : List (Nat × Nat × Bool)) (d : Dev) :
    (calFinish m st failed acts d).clock = d.clock := by simp [calFinish]

@[simp] theorem clock_calClose (m : Nat) (st : Status) (failed : Nat) (d : Dev) : (calClose m st failed d).clock = d.clock := by
  simp [calClose]

@[simp] theorem clock_calPhase1 (m : Nat) (e : Option (BitVec 8)) (d : Dev) : (calPhase1 m e d).clock = d.clock := by simp [calPhase1]

@[simp] theorem clock_calRaise (m : Nat) (e : Option (BitVec 8)) (d : Dev) : (calRaise m e d).clock = d.clock := by
  unfold calRaise
  split <;> simp

@[simp] theorem clock_calPhase2 (m : Nat) (e : Option (BitVec 8)) (d : Dev) : (calPhase2 m e d).clock = d.clock := by
  unfold calPhase2
  split <;> simp

@[simp] theorem clock_opAuxPwm (c : Ctx) (d : Dev) : (opAuxPwm c d).clock = d.clock := by
  unfold opAuxPwm
  dsimp only
  split
  · exact clock_refuseAxes _ _ _
  · rw [clock_okAxes, clock_ite, clock_each _ _ _ fun n t => clock_xMerge n _ t, ite_self]

@[simp] theorem clock_fbForce (r : Reg) (n : Nat) (mask v : Word) (t : Nat) (d : Dev) : (fbForce r n mask v t d).clock = d.clock := by
  simp [fbForce]

@[simp] theorem clock_mvForce (r : Reg) (i : Nat) (mask v : Word) (t : Nat) (d : Dev) : (mvForce r i mask v t d).clock = d.clock := by
  unfold mvForce
  split <;> simp

@[simp] theorem clock_setBit (d : Dev) (f : Fld) (m : Nat) (b : Bool) : (setBit d f m b).clock = d.clock := rfl

@[simp] theorem clock_opOfftest (c : Ctx) (d : Dev) : (opOfftest c d).clock = d.clock := by
  unfold opOfftest
  dsimp only
  split
  · exact clock_refuseAxes _ _ _
  · exact (clock_each _ _ _ fun _ _ => by rfl).trans ((clock_openAct _ _ _ _).trans (clock_accepted c d))

@[simp] theorem clock_offtDrop (n : Nat) (d : Dev) : (offtDrop n d).clock = d.clock := rfl

@[simp] theorem clock_offtGone (n : Nat) (d : Dev) : (offtGone n d).clock = d.clock := by simp [offtGone]

@[simp] theorem clock_offtClose (n : Nat) (st : Status) (f : BitVec 13) (d : Dev) : (offtClose n st f d).clock = d.clock := by
  simp [offtClose]

@[simp] theorem clock_offtPhase1 (ends : List (Nat × BitVec 13)) (d : Dev) : (offtPhase1 ends d).clock = d.clock := by simp [offtPhase1]

@[simp] theorem clock_offtPhase2 (ends : List (Nat × BitVec 13)) (d : Dev) : (offtPhase2 ends d).clock = d.clock := by simp [offtPhase2]

end Dev

end Sys2Proof.Machine
end

section
/-! The signature engine, CAN, temperatures, power, pins and the frames of the tick leave the clock. -/

namespace Sys2Proof.Machine

namespace Dev

@[simp] theorem clock_modSign (d : Dev) (n : Nat) (f : Sign → Sign) : (modSign d n f).clock = d.clock := rfl

@[simp] theorem clock_notHeld (n : Nat) (d : Dev) : (notHeld n d).clock = d.clock := by simp [notHeld]

@[simp] theorem clock_breakHold (n : Nat) (d : Dev) : (breakHold n d).clock = d.clock := by simp [breakHold]

@[simp] theorem clock_learnTick (n : Nat) (d : Dev) : (learnTick n d).clock = d.clock := by
  unfold learnTick
  dsimp only
  split <;> simp

@[simp] theorem clock_signEvent (n : Nat) (dir : Nat) (st : Status) (w : Word) (d : Dev) : (signEvent n dir st w d).clock = d.clock := by
  unfold signEvent
  split <;> simp

@[simp] theorem clock_suspend (n : Nat) (d : Dev) : (suspend n d).clock = d.clock := rfl

@[simp] theorem clock_reactLeaf (code serial : Nat) (n : Nat) (d : Dev) : (reactLeaf code serial n d).2.clock = d.clock := by
  unfold reactLeaf
  dsimp only
  split
  · rfl
  · split
    · split <;> simp
    · split
      · rfl
      · split <;> simp

@[simp] theorem clock_reactAll (code serial : Nat) (l : List Nat) (d : Dev) : (reactAll code serial l d).2.clock = d.clock := by
  induction l generalizing d with
  | nil => rfl
  | cons n r ih => exact (ih _).trans (clock_reactLeaf code serial n d)

@[simp] theorem clock_signReact (d : Dev) (e : Detect) : (signReact d e).clock = d.clock := by simp [signReact]

@[simp] theorem clock_starvedRaise (n : Nat) (d : Dev) : (starvedRaise n d).clock = d.clock := by simp [starvedRaise]

@[simp] theorem clock_reopen (n : Nat) (d : Dev) : (reopen n d).clock = d.clock := by
  unfold reopen
  split <;> simp

@[simp] theorem clock_reopenOver (n : Nat) (d : Dev) : (reopenOver n d).clock = d.clock := by
  unfold reopenOver
  split <;> simp

@[simp] theorem clock_reopenClose (e : Nat × ReopenRun) (d : Dev) : (reopenClose e d).clock = d.clock := by simp [reopenClose]

@[simp] theorem clock_reopenEnds (d : Dev) : (reopenEnds d).clock = d.clock := by simp [reopenEnds]

@[simp] theorem clock_writeBack (t : SignTbl) (b : SignBlk) (d : Dev) : (writeBack t b d).clock = d.clock := by simp [writeBack]

@[simp] theorem clock_writeBackAll (n : Nat) (d : Dev) : (writeBackAll n d).clock = d.clock := by
  unfold writeBackAll
  dsimp only
  split <;> simp

@[simp] theorem clock_discard (n : Nat) (d : Dev) : (discard n d).clock = d.clock := by simp [discard]

@[simp] theorem clock_windowFollow (n : Nat) (d : Dev) : (windowFollow n d).clock = d.clock := by
  unfold windowFollow
  dsimp only
  split <;> simp

@[simp] theorem clock_ask (n : Nat) (d : Dev) : (ask n d).clock = d.clock := by
  unfold ask
  dsimp only
  split
  · rfl
  · split
    · rfl
    · exact (clock_modSign _ _ _).trans (clock_foldl _ _ _ fun _ _ => rfl)

@[simp] theorem clock_windowsFollow (d : Dev) : (windowsFollow d).clock = d.clock := by simp [windowsFollow]

@[simp] theorem clock_remontoire (d : Dev) : (remontoire d).clock = d.clock := by simp [remontoire]

@[simp] theorem clock_window (n : Nat) (d : Dev) : (window n d).clock = d.clock := by simp [window]

@[simp] theorem clock_loadAxis (o : Owner) (x : Desc) (n : Nat) (d : Dev) : (loadAxis o x n d).clock = d.clock := by simp [loadAxis]

@[simp] theorem clock_opSignLoad (c : Ctx) (d : Dev) : (opSignLoad c d).clock = d.clock := by
  unfold opSignLoad
  dsimp only
  split <;> simp

@[simp] theorem clock_learnAxis (a : Nat) (o : Owner) (x : Desc) (n : Nat) (d : Dev) : (learnAxis a o x n d).clock = d.clock := by
  simp [learnAxis]

@[simp] theorem clock_learnEnd (n : Nat) (st : Status) (d : Dev) : (learnEnd n st d).clock = d.clock := by
  unfold learnEnd
  split <;> simp

@[simp] theorem clock_opLearn (c : Ctx) (d : Dev) : (opLearn c d).clock = d.clock := by
  unfold opLearn
  dsimp only
  split <;> simp

@[simp] theorem clock_learnCycle (n : Nat) (d : Dev) : (learnCycle n d).clock = d.clock := by
  unfold learnCycle
  split <;> simp

@[simp] theorem clock_learnFault (starved : List Nat) (n : Nat) (d : Dev) : (learnFault starved n d).clock = d.clock := by simp [learnFault]

@[simp] theorem clock_canLeave (c : Nat) (d : Dev) : (canLeave c d).clock = d.clock := rfl

@[simp] theorem clock_canEnter (c : Nat) (d : Dev) : (canEnter c d).clock = d.clock := by simp [canEnter]

@[simp] theorem clock_canExit (c : Nat) (d : Dev) : (canExit c d).clock = d.clock := by simp [canExit]

@[simp] theorem clock_writeObject (c : Nat) (f : Frame) (d : Dev) : (writeObject c f d).clock = d.clock := rfl

@[simp] theorem clock_takeOver (c : Nat) (e : Frame × Bool × Bool) (d : Dev) : (takeOver c e d).clock = d.clock := by simp [takeOver]

@[simp] theorem clock_takeSpill (c n : Nat) (d : Dev) : (takeSpill c n d).clock = d.clock := by
  unfold takeSpill
  split
  · simp
  · split <;> simp

@[simp] theorem clock_canPhase1 (c : Nat) (d : Dev) : (canPhase1 c d).clock = d.clock := by simp [canPhase1]

@[simp] theorem clock_opCanTx (k : Ctx) (d : Dev) : (opCanTx k d).clock = d.clock := by
  unfold opCanTx
  split <;> simp

@[simp] theorem clock_busOffEnter (c : Nat) (d : Dev) : (busOffEnter c d).clock = d.clock := by simp [busOffEnter]

@[simp] theorem clock_mark (f : Fld) (s : Nat) (d : Dev) : (mark f s d).clock = d.clock := by simp [mark]

@[simp] theorem clock_takeReading (s : Nat) (v : BitVec 16) (bad : Bool) (d : Dev) : (takeReading s v bad d).clock = d.clock := by
  simp [takeReading]

@[simp] theorem clock_setRun (k n : Nat) (d : Dev) : (setRun k n d).clock = d.clock := rfl

@[simp] theorem clock_evaluate (s : Nat) (d : Dev) : (evaluate s d).clock = d.clock := by
  unfold evaluate
  dsimp only
  split <;> simp

@[simp] theorem clock_crossCheck (d : Dev) : (crossCheck d).clock = d.clock := by simp [crossCheck]

@[simp] theorem clock_setMon (d : Dev) (c : Nat) (x : MonCtl) : (setMon d c x).clock = d.clock := rfl

@[simp] theorem clock_monStart (c lo t : Nat) (d : Dev) : (monStart c lo t d).clock = d.clock := by
  unfold monStart
  split <;> simp

@[simp] theorem clock_monWake (c : Nat) (d : Dev) : (monWake c d).clock = d.clock := by simp [monWake]

@[simp] theorem clock_wipeMv (m : Nat) (d : Dev) : (wipeMv m d).clock = d.clock := rfl

@[simp] theorem clock_pinsActive (m : Nat) (d : Dev) : (pinsActive m d).clock = d.clock := rfl

@[simp] theorem clock_axisOff (n : Nat) (d : Dev) : (axisOff n d).clock = d.clock := rfl

@[simp] theorem clock_mvDown (m : Nat) (d : Dev) : (mvDown m d).clock = d.clock := by
  unfold mvDown
  split
  · rfl
  · extract_lets held mask _ kept gone tested wiped off _ flags
    have htested : tested.clock = kept.clock := (clock_setHw _ _ _ _).trans (clock_each _ _ _ clock_offtGone)
    have hwiped : wiped.clock = tested.clock := (clock_each _ _ _ fun _ _ => by rfl).trans (clock_wipeMv m tested)
    have hoff : off.clock = wiped.clock := clock_each _ _ _ fun n t => (clock_axisOff n _).trans (clock_modMva _ _ _)
    have hkept : kept.clock = d.clock := rfl
    have hall := hoff.trans (hwiped.trans (htested.trans hkept))
    clear_value off
    exact hall

@[simp] theorem clock_mvSwitch (m : Nat) (d : Dev) : (mvSwitch m d).clock = d.clock := by simp [mvSwitch]

@[simp] theorem clock_hubOff (k : Nat) (d : Dev) : (hubOff k d).clock = d.clock := by
  unfold hubOff
  dsimp only
  split
  · exact (clock_each _ _ _ fun c t => by simp).trans rfl
  · exact (clock_each _ _ _ fun _ _ => by rfl).trans rfl
  · rfl

@[simp] theorem clock_hubStart (k : Nat) (left : Nat) (d : Dev) : (hubStart k left d).clock = d.clock := rfl

@[simp] theorem clock_hubSwitch (k : Nat) (on : Bool) (left : Nat) (d : Dev) : (hubSwitch k on left d).clock = d.clock := by
  simp [hubSwitch]

@[simp] theorem clock_hubReady (t : Nat) (d : Dev) : (hubReady t d).clock = d.clock := by
  unfold hubReady
  dsimp only
  split
  · rfl
  · rw [clock_ite, clock_each _ _ _ clock_discard, ite_self]
    exact (clock_foldl _ _ _ fun _ _ => by rfl).trans rfl

@[simp] theorem clock_doorbellOn (d : Dev) : (doorbellOn d).clock = d.clock := rfl

@[simp] theorem clock_doorbellOff (d : Dev) : (doorbellOff d).clock = d.clock := rfl

@[simp] theorem clock_shiftAxis (n : Nat) (new : Pos) (d : Dev) : (shiftAxis n new d).clock = d.clock := rfl

@[simp] theorem clock_rebase (n : Nat) (d : Dev) : (rebase n d).clock = d.clock := by simp [rebase]

@[simp] theorem clock_comeIn (r : Reg) (i : Nat) (mask v : Word) (left : Nat) (d : Dev) : (comeIn r i mask v left d).clock = d.clock := by
  unfold comeIn
  split
  · simp
  · split <;> simp

@[simp] theorem clock_hubTake (w : PendW) (d : Dev) : (hubTake w d).clock = d.clock := by
  unfold hubTake
  split <;> simp

@[simp] theorem clock_lostStep (c : Nat) (d : Dev) : (lostStep c d).clock = d.clock := by simp [lostStep]

@[simp] theorem clock_engageAxis (c n : Nat) (d : Dev) : (engageAxis c n d).clock = d.clock := by simp [engageAxis]

@[simp] theorem clock_engage (c : Nat) (d : Dev) : (engage c d).clock = d.clock := by simp [engage]

@[simp] theorem clock_stepRelease (c : Nat) (d : Dev) : (stepRelease c d).clock = d.clock := by simp [stepRelease]

@[simp] theorem clock_stepFollow (delta : Int) (n : Nat) (d : Dev) : (stepFollow delta n d).clock = d.clock := rfl

@[simp] theorem clock_pinSample (c : Nat) (d : Dev) : (pinSample c d).clock = d.clock := by
  unfold pinSample
  have hfollow (delta : Int) (l : List Nat) (t : Dev) : (each l (stepFollow delta) t).clock = t.clock :=
    clock_each _ _ _ (clock_stepFollow delta)
  dsimp only
  split
  · split
    · rw [clock_ite, hfollow, ite_self]
    · exact (hfollow _ _ _).trans rfl
  · split
    · rfl
    · refine (clock_each _ _ _ fun _ _ => by rfl).trans ?_
      split
      · split <;> rfl
      · rfl

@[simp] theorem clock_mainsGone (t : Nat) (d : Dev) : (mainsGone t d).clock = d.clock := by simp [mainsGone]

@[simp] theorem clock_latCount (m : Nat) (d : Dev) : (latCount m d).clock = d.clock := by simp [latCount]

@[simp] theorem clock_escTick (d : Dev) : (escTick d).clock = d.clock := by simp [escTick]

@[simp] theorem clock_clearTick (d : Dev) : (clearTick d).clock = d.clock := rfl

@[simp] theorem clock_takeLatch (unver : Bool) (n : Nat) (l : Latch) (d : Dev) : (takeLatch unver n l d).clock = d.clock := by
  simp [takeLatch]

@[simp] theorem clock_takeLatches (unver : BitVec 8) (n : Nat) (l : List Latch) (d : Dev) : (takeLatches unver n l d).clock = d.clock := by
  induction l generalizing n d with
  | nil => rfl
  | cons a r ih => exact (ih _ _).trans (clock_takeLatch _ _ _ _)

@[simp] theorem clock_keepLatch (stale : Bool) (n : Nat) (d : Dev) : (keepLatch stale n d).clock = d.clock := rfl

@[simp] theorem clock_takeFlags (n : Nat) (l : List Word) (d : Dev) : (takeFlags n l d).clock = d.clock := by
  induction l generalizing n d with
  | nil => rfl
  | cons w r ih => exact (ih _ _).trans ((clock_ite _ _ _).trans (ite_self _))

@[simp] theorem clock_latchMv (m : Nat) (d : Dev) : (latchMv m d).clock = d.clock := by
  have hkept (stale : Bool) : (each (localAxes m) (keepLatch stale) d).clock = d.clock := clock_each _ _ _ (clock_keepLatch stale)
  unfold latchMv
  split
  · rw [clock_takeLatches, clock_takeFlags, clock_modMv]
  · dsimp only
    split
    · exact hkept _
    · split
      · exact (clock_modMv _ _ _).trans (hkept _)
      · exact (clock_latCount _ _).trans (hkept _)

@[simp] theorem clock_takeTemps (f : LatFrame) (d : Dev) : (takeTemps f d).clock = d.clock := by simp [takeTemps]

@[simp] theorem clock_takeEnding (n : Nat) (d : Dev) : (takeEnding n d).clock = d.clock := by
  unfold takeEnding
  split <;> simp

@[simp] theorem clock_phase1Rest (fs : List (Nat × LatFrame)) (d : Dev) : (phase1Rest fs d).clock = d.clock := by simp [phase1Rest]

@[simp] theorem clock_takeReqs (m : Nat) (f : LatFrame) (d : Dev) : (takeReqs m f d).clock = d.clock :=
  (clock_modMv _ _ _).trans (clock_foldl _ _ _ fun _ _ => rfl)

@[simp] theorem clock_detectEvent (after : Dev) (d : Dev) (e : Detect) : (detectEvent after d e).clock = d.clock := by simp [detectEvent]

@[simp] theorem clock_earlyEvent (d : Dev) (e : Early) : (earlyEvent d e).clock = d.clock := by
  cases e <;> simp [earlyEvent]

@[simp] theorem clock_comeTo (i : Nat) (d : Dev) : (comeTo i d).clock = d.clock := by simp [comeTo]

@[simp] theorem clock_dropOut (i : Nat) (d : Dev) : (dropOut i d).clock = d.clock := rfl

@[simp] theorem clock_setPtr (c i : Nat) (d : Dev) : (setPtr c i d).clock = d.clock := by
  unfold setPtr
  split
  · simp
  · split <;> simp

@[simp] theorem clock_phase5 (d : Dev) : (phase5 d).clock = d.clock := by simp [phase5]

@[simp] theorem clock_frameSent (n : Nat) (d : Dev) : (frameSent n d).clock = d.clock := rfl

@[simp] theorem clock_sendFrame (m : Nat) (d : Dev) : (sendFrame m d).clock = d.clock := by
  unfold sendFrame
  split
  · rfl
  · exact (clock_modMv _ _ _).trans (clock_each _ _ _ clock_frameSent)

@[simp] theorem clock_phase6 (d : Dev) : (phase6 d).clock = d.clock := by simp [phase6]

end Dev

end Sys2Proof.Machine
end

section
/-! Proof of the tick boundary (O34): what its phases make of the clock. -/

namespace Sys2Proof.Machine

/-- The clock without detections. -/
def Clock.cleared (c : Clock) : Clock := { c with detects := [] }

/-- The clock with n dispatches counted. -/
def Clock.counted (c : Clock) (n : Nat) : Clock := { c with total := n }

@[simp] theorem Clock.total_counted (c : Clock) (n : Nat) : (c.counted n).total = n := rfl
@[simp] theorem Clock.counted_counted (c : Clock) (n k : Nat) : (c.counted n).counted k = c.counted k := rfl
@[simp] theorem Clock.counted_total (c : Clock) : c.counted c.total = c := rfl

namespace Dev

variable {d t u : Dev}

/-! ## The signature engine adds detections only (R334 to R338) -/

/-- The clock of the block without the detections of the tick. -/
def timed (d : Dev) : Clock := d.clock.cleared

theorem timed_of_clock (h : t.clock = d.clock) : t.timed = d.timed := congrArg Clock.cleared h

theorem timed_detect (n : Nat) (slack ceil last : Bool) (v : Int) (d : Dev) : (detect n slack ceil last v d).timed = d.timed := rfl

theorem timed_countRuns (n : Nat) (c : Word) (last : Bool) (d : Dev) : (countRuns n c last d).timed = d.timed := by
  unfold countRuns
  extract_lets v o s oHit sHit shown first
  have hfirst : first.timed = d.timed := by
    simp only [first]
    split <;> rfl
  clear_value first
  split
  · exact (timed_detect _ _ _ _ _ _).trans hfirst
  · exact hfirst

theorem timed_compareCell (n : Nat) (c : Word) (d : Dev) : (compareCell n c d).timed = d.timed := by
  unfold compareCell
  dsimp only
  split
  · rfl
  · exact (timed_countRuns _ _ _ _).trans rfl

theorem timed_compareHold (n : Nat) (d : Dev) : (compareHold n d).timed = d.timed := by
  unfold compareHold
  dsimp only
  split
  · rfl
  · exact (timed_countRuns _ _ _ _).trans rfl

theorem timed_compare (n : Nat) (d : Dev) : (compare n d).timed = d.timed := by
  unfold compare
  dsimp only
  split
  · exact timed_of_clock (by simp)
  · split
    · exact timed_of_clock (by simp)
    · split
      · exact timed_compareCell _ _ _
      · exact timed_compareHold _ _

theorem timed_ceiling (n : Nat) (d : Dev) : (ceiling n d).timed = d.timed := by
  unfold ceiling
  extract_lets x v run
  split
  · rfl
  · split
    · split <;> rfl
    · split <;> rfl

theorem timed_signAxis (n : Nat) (d : Dev) : (signAxis n d).timed = d.timed := by
  unfold signAxis
  refine (timed_ceiling n _).trans ?_
  split
  · exact timed_of_clock (clock_notHeld n d)
  · split
    · exact timed_of_clock (by simp)
    · split
      · exact timed_of_clock (by simp)
      · exact timed_compare n d

theorem timed_signPhase1 (d : Dev) : (signPhase1 d).timed = d.timed := by
  unfold signPhase1
  split
  · exact each_keeps (fun t => t.timed = d.timed) signAxis _ d (fun n _ t ht => (timed_signAxis n t).trans ht) rfl
  · rfl

/-! ## Phases 1 and 2 -/

theorem timed_phase1Latch (d : Dev) : (phase1Latch d).timed = d.timed := by
  unfold phase1Latch
  extract_lets kept latched _ shown
  have hkept : kept.clock = d.clock := clock_each _ _ _ fun n t => clock_modAxis t n _
  have hlatched : latched.clock = d.clock := (clock_settle _).trans ((clock_each _ _ _ clock_latchMv).trans hkept)
  clear_value latched
  have hshown : shown.clock = d.clock := hlatched
  clear_value shown
  exact (timed_signPhase1 _).trans (timed_of_clock ((clock_formRefs _).trans ((clock_each _ _ _ clock_pinSample).trans hshown)))

/-- Phase 2 deals with the detections of the tick, and leaves the rest of the clock. -/
theorem clock_phase2 (fs : List (Nat × LatFrame)) (d : Dev) : (phase2 fs d).clock = d.timed := by
  unfold phase2
  extract_lets ds starved faults reqs reacted signed learnt cals closed
  have hfaults : faults.clock = d.clock := (clock_each _ _ _ clock_seqFaults).trans (clock_each _ _ _ clock_lostStep)
  have hreqs : reqs.clock = faults.clock := clock_foldl _ _ _ fun t e => (clock_takeReqs _ _ _).trans (clock_calRaise _ _ _)
  have hreacted : reacted.clock = reqs.clock :=
    (clock_phase2End _).trans ((clock_settle _).trans (clock_each _ _ _ clock_starvedRaise))
  have hsigned : signed.clock = reacted.clock := clock_foldl _ _ _ clock_signReact
  have hlearnt : learnt.clock = signed.clock := clock_each _ _ _ (clock_learnFault starved)
  have hcals : cals.clock = learnt.clock := clock_each _ _ _ fun m t => clock_calPhase2 m _ t
  have hall : closed.clock = d.clock :=
    (clock_offtPhase2 _ _).trans (hcals.trans (hlearnt.trans (hsigned.trans (hreacted.trans (hreqs.trans hfaults)))))
  clear_value closed
  have hclosed := timed_of_clock hall
  exact hclosed

theorem clock_phases12 (d : Dev) : (phases12 d).clock = d.timed := by
  unfold phases12
  dsimp only
  have hrest (fs : List (Nat × LatFrame)) (t : Dev) (ht : t.timed = d.timed) : (phase2 fs (phase1Rest fs t)).clock = d.timed :=
    (clock_phase2 _ _).trans ((timed_of_clock (clock_phase1Rest _ _)).trans ht)
  split
  · exact hrest _ _ (timed_phase1Latch d)
  · exact hrest _ _ ((timed_of_clock (clock_foldl _ _ _ (clock_detectEvent _))).trans (timed_phase1Latch d))

/-! ## The count of dispatches (R26) -/

/-- t has the clock of d but for the count of dispatches. -/
def counts (d t : Dev) : Prop := t.clock = d.clock.counted t.clock.total

theorem counts_of_clock (h : t.clock = d.clock) : counts d t := by rw [counts, h, Clock.counted_total]

theorem counts_of_counted {n : Nat} (h : t.clock = d.clock.counted n) : counts d t := by rw [counts, h, Clock.total_counted]

theorem counts.trans (h : counts d t) (k : counts t u) : counts d u := by
  unfold counts at *
  rw [k, h, Clock.counted_counted, Clock.total_counted]

theorem clock_giveSlot (i : Nat) (slot : BitVec 16) (d : Dev) :
    (giveSlot i slot d).clock = d.clock.counted (d.clock.total + 1) := rfl

theorem clock_fenceLeave (i : Nat) (f : Fence) (st : Status) (d : Dev) :
    (fenceLeave i f st d).clock = d.clock.counted (d.clock.total + 1) := by
  have hdone : (fenceDone i f st d).clock = d.clock.counted (d.clock.total + 1) := clock_finish _ _ _ _ _
  obtain h | h := fenceLeave_eq i f st d
  · rw [h, hdone]
  · rw [h, clock_modSq, hdone]

/-- A FENCE that is looked at leaves its ring once or stays. -/
theorem clock_fenceStep (i : Nat) (d : Dev) :
    (fenceStep i d).clock = d.clock ∨ (fenceStep i d).clock = d.clock.counted (d.clock.total + 1) := by
  unfold fenceStep
  cases hf : (d.sq i).fence with
  | none => rw [fenceRelease_none i d hf, fenceTimeout_none i d hf]; exact .inl rfl
  | some f =>
    rw [fenceRelease_some i d f hf]
    split
    · have hgone : ((fenceLeave i f .ok d).sq i).fence = none := by
        rw [sq_fenceLeave, (fence_afterFence f .ok _).1, sq_fenceGone]
      rw [fenceTimeout_none _ _ hgone]
      exact .inr (clock_fenceLeave i f .ok d)
    · rw [fenceTimeout_some i d f hf]
      split
      · exact .inr (clock_fenceLeave i f .fenceTimeout d)
      · exact .inl rfl

/-- A FENCE that comes up gives its count back, and takes it again where it leaves at once. -/
theorem counts_opFence (c : Ctx) (d : Dev) (hd : 0 < d.clock.total) :
    counts d (opFence c d) ∧ (opFence c d).clock.total ≤ d.clock.total := by
  unfold opFence
  extract_lets f waiting _
  generalize hless : ({ waiting with hif := { waiting.hif with total := waiting.hif.total - 1 } } : Dev) = less
  have hclock : less.clock = d.clock.counted (d.clock.total - 1) := by rw [← hless]; rfl
  obtain h | h := clock_fenceStep c.sq less
  · exact ⟨counts_of_counted (h.trans hclock), by rw [h, hclock, Clock.total_counted]; omega⟩
  · rw [hclock, Clock.counted_counted, Clock.total_counted] at h
    exact ⟨counts_of_counted h, by rw [h, Clock.total_counted]; omega⟩

end Dev

open Dev

/-- The meaning of a descriptor leaves the clock, but that a FENCE may give its count back. -/
theorem counts_act (o : Op) (c : Ctx) (d : Dev) (hd : 0 < d.clock.total) :
    counts d (o.act c d) ∧ (o.act c d).clock.total ≤ d.clock.total := by
  by_cases hfence : o = .fence
  · rw [hfence]
    exact counts_opFence c d hd
  · have hclock : (o.act c d).clock = d.clock := by
      cases o
      case fence => exact absurd rfl hfence
      all_goals simp [Op.act]
    exact ⟨counts_of_clock hclock, by rw [hclock]⟩

namespace Dev

variable {d t u : Dev}

/-- A dispatch counts one at most. -/
theorem counts_dispatch (o : Op) (i : Nat) (slot : BitVec 16) (x : Desc) (d : Dev) :
    counts d (dispatch o i slot x o.act d) ∧ (dispatch o i slot x o.act d).clock.total ≤ d.clock.total + 1 := by
  unfold dispatch
  split
  · exact ⟨rfl, Nat.le_succ _⟩
  · extract_lets q own extra taken
    have htaken : taken.clock = d.clock.counted (d.clock.total + 1) := rfl
    clear_value taken
    have hcounts : counts d taken := counts_of_counted htaken
    have hrefused (e : Bool) (st : Status) (v w : Nat) :
        counts d (taken.refuse own e st v w) ∧ (taken.refuse own e st v w).clock.total ≤ d.clock.total + 1 := by
      rw [counts, clock_devRefuse, htaken]
      exact ⟨rfl, Nat.le_refl _⟩
    split
    · exact hrefused _ _ _ _
    · split
      · exact hrefused _ _ _ _
      · split
        · exact hrefused _ _ _ _
        · obtain ⟨hact, hle⟩ := counts_act o { sq := i, ring := q, slot := slot, x := x, op := o, owner := own } taken
            (by rw [htaken]; exact Nat.succ_pos _)
          exact ⟨hcounts.trans hact, by rw [htaken] at hle; exact hle⟩

theorem counts_badOpcode (i : Nat) (slot : BitVec 16) (x : Desc) (d : Dev) :
    counts d (badOpcode i slot x d) ∧ (badOpcode i slot x d).clock.total ≤ d.clock.total + 1 := by
  unfold badOpcode
  split
  · exact ⟨rfl, Nat.le_succ _⟩
  · dsimp only
    rw [counts, clock_devRefuse, clock_giveSlot]
    exact ⟨rfl, Nat.le_refl _⟩

theorem counts_dispatchOne (i slot : Nat) (x : Desc) (d : Dev) :
    counts d (dispatchOne i slot x d) ∧ (dispatchOne i slot x d).clock.total ≤ d.clock.total + 1 := by
  unfold dispatchOne
  split
  · exact counts_badOpcode _ _ _ _
  · exact counts_dispatch _ _ _ _ _

/-! ## Turns and rounds stay within the budget of the tick -/

/-- t has the clock of d but for the count of dispatches, which stays within 512. -/
structure budgeted (d t : Dev) : Prop where
  counts : counts d t
  bound : d.clock.total ≤ 512 → t.clock.total ≤ 512

theorem budgeted_of_clock (h : t.clock = d.clock) : budgeted d t := ⟨counts_of_clock h, fun hd => by rw [h]; exact hd⟩

theorem budgeted.trans (h : budgeted d t) (k : budgeted t u) : budgeted d u := ⟨h.counts.trans k.counts, fun hd => k.bound (h.bound hd)⟩

theorem budgeted_of_next (h : counts d t) (hle : t.clock.total ≤ d.clock.total + 1) (hd : d.clock.total < 512) : budgeted d t :=
  ⟨h, fun _ => by omega⟩

theorem budgeted_turn (i : Nat) (d : Dev) : budgeted d (turn i d) := by
  have hafter (t : Dev) (ht : budgeted d t) : budgeted d (if (t.sq i).fence.isSome then dropOut i t else comeTo i t) := by
    split
    · exact ht.trans (budgeted_of_clock (clock_dropOut i t))
    · exact ht.trans (budgeted_of_clock (clock_comeTo i t))
  unfold turn
  dsimp only
  split
  · exact budgeted_of_clock rfl
  · next hgo =>
    have hroom : d.clock.total < 512 := by
      have hless : ¬ 512 ≤ d.hif.total := fun h => hgo (by simp [h])
      exact Nat.lt_of_not_le hless
    split
    · exact budgeted_of_clock (clock_dropOut i d)
    · split
      · refine hafter _ ?_
        obtain h | h := clock_fenceStep i d
        · exact budgeted_of_clock h
        · exact budgeted_of_next (counts_of_counted h) (by rw [h, Clock.total_counted]) hroom
      · split
        · exact budgeted_of_clock ((clock_dropOut _ _).trans (clock_comeTo i d))
        · next slot x _ _ =>
          split
          · exact budgeted_of_clock (clock_dropOut i d)
          · obtain ⟨hcounts, hle⟩ := counts_dispatchOne i slot x d
            exact hafter _ (budgeted_of_next hcounts hle hroom)

theorem budgeted_round (order : List Nat) (first : Option Nat) (d : Dev) : budgeted d (round order first d).2 := by
  induction order generalizing first d with
  | nil => exact budgeted_of_clock rfl
  | cons i r ih => exact (budgeted_turn i d).trans (ih _ _)

theorem budgeted_rounds (order : List Nat) (n : Nat) (first : Option Nat) (d : Dev) : budgeted d (rounds order n first d).2 := by
  induction n generalizing first d with
  | zero => exact budgeted_of_clock rfl
  | succ k ih =>
    unfold rounds
    dsimp only
    split
    · exact budgeted_round order first d
    · exact (budgeted_round order first d).trans (ih _ _)

theorem budgeted_serveClass (c : Nat) (d : Dev) : budgeted d (serveClass c d) := by
  have hserved := budgeted_rounds (d.classOrder c (d.ptrOf c)) 33 none d
  unfold serveClass
  dsimp only
  split
  · exact hserved.trans (budgeted_of_clock (clock_setPtr _ _ _))
  · exact hserved

theorem clock_newBudget (d : Dev) : (newBudget d).clock = d.clock.counted 0 := rfl

/-- Phase 4 counts anew, 512 dispatches at most. -/
theorem counts_phase4 (d : Dev) : counts d (phase4 d) ∧ (phase4 d).clock.total ≤ 512 := by
  unfold phase4
  extract_lets opened anew
  have hopened : opened.clock = d.clock := by
    simp only [opened]
    split
    · exact clock_each _ _ _ clock_reopen
    · rfl
  have hengaged : (each (span 0 8) engage opened).clock = d.clock := (clock_each _ _ _ clock_engage).trans hopened
  have hanew : anew.clock = d.clock.counted 0 :=
    (clock_newBudget _).trans (congrArg (·.counted 0) hengaged)
  have hserved : budgeted anew (each (span 0 3) serveClass anew) :=
    each_keeps (budgeted anew) serveClass _ anew (fun c _ t ht => ht.trans (budgeted_serveClass c t)) (budgeted_of_clock rfl)
  have hcounts : counts d anew := counts_of_counted hanew
  have hzero : anew.clock.total ≤ 512 := by rw [hanew]; exact Nat.zero_le _
  split
  · exact ⟨hcounts.trans hserved.counts, hserved.bound hzero⟩
  · exact ⟨hcounts, hzero⟩

/-! ## The tick -/

theorem clock_advance (d : Dev) : (advance { d with out := [], detects := [] }).clock = (advance d).timed := by
  unfold advance
  dsimp only
  split <;> rfl

theorem clock_boundary (d : Dev) : (boundary d).clock = (advance d).timed := by
  unfold boundary
  extract_lets silent ready taken gone read woken
  have hsilent : silent.clock = (advance d).timed := (clock_silentTick _).trans (clock_advance d)
  have hready : ready.clock = silent.clock := clock_hubReady _ _
  have htaken : taken.clock = ready.clock := clock_takePend _ _ _ clock_hubTake
  have hgone : gone.clock = taken.clock := (clock_mainsGone _ _).trans (clock_each _ _ _ clock_mvSwitch)
  have hread : read.clock = gone.clock := clock_readDoorbell _
  have hwoken : woken.clock = read.clock := clock_each _ _ _ clock_monWake
  calc _ = woken.clock := (clock_clearTick _).trans ((clock_escTick _).trans (clock_each _ _ _ clock_busOffEnter))
    _ = (advance d).timed :=
      hwoken.trans (hread.trans (hgone.trans (htaken.trans (hready.trans hsilent))))

/-- The phases of a tick deal with its detections, count its dispatches, and leave the rest of the clock. -/
theorem clock_phases (early : List Early) (room : Nat) (d : Dev) :
    ∃ n, n ≤ 512 ∧ (phases early room d).clock = d.timed.counted n := by
  unfold phases
  extract_lets latched fired served stepped
  have hlatched : latched.clock = d.timed := clock_phases12 d
  have hfired : fired.clock = d.timed := by
    simp only [fired]
    split
    · exact (clock_phase3 _).trans hlatched
    · exact hlatched
  have hearly : (early.foldl earlyEvent fired).clock = d.timed := (clock_foldl _ _ _ clock_earlyEvent).trans hfired
  obtain ⟨hserved, hbound⟩ := counts_phase4 (early.foldl earlyEvent fired)
  have hstepped : stepped.clock = served.clock := by
    simp only [stepped]
    split
    · exact clock_phase5 _
    · rfl
  refine ⟨_, hbound, ?_⟩
  calc _ = stepped.clock := (clock_window _ _).trans ((clock_settle _).trans ((clock_windowsFollow _).trans (clock_phase6 _)))
    _ = served.clock := hstepped
    _ = d.timed.counted served.clock.total := by rw [← hearly]; exact hserved

/-- The tick boundary of a running tick generator. -/
theorem clock_tickBoundary (early : List Early) (room : Nat) (d : Dev) (hruns : d.tickRuns = true) :
    ∃ n, n ≤ 512 ∧ (tickBoundary early room d).clock = (advance d).timed.counted n := by
  obtain ⟨n, hn, h⟩ := clock_phases early room (boundary d)
  refine ⟨n, hn, ?_⟩
  unfold tickBoundary
  rw [if_pos hruns]
  dsimp only
  rw [clock_hubReady, h, timed, clock_boundary]
  rfl

theorem tickBoundary_idle (early : List Early) (room : Nat) (d : Dev) (hruns : d.tickRuns = false) : tickBoundary early room d = d := by
  unfold tickBoundary
  exact if_neg (by rw [hruns]; decide)

/-- The instant that a boundary begins: the next tick, or tick 0. -/
theorem advance_first (d : Dev) (h : d.sys.first = true) : advance d = { d with sys := { d.sys with first := false } } := if_pos h

theorem advance_next (d : Dev) (h : d.sys.first = false) :
    advance d = { d with time := { d.time with tick := d.time.tick + 1, start := d.time.start + d.tickLen } } :=
  if_neg (by rw [h]; decide)

end Dev

theorem exec_tickBoundary (early : List Early) (room : Nat) (s : State) :
    exec (.tickBoundary early room) s = s.onDev (Dev.tickBoundary early room) := rfl

/-- Settles O34: no function of the tick but the boundary itself moves the clock, phase 2 clears the detections, and each turn of a ring
counts one dispatch at most while fewer than 512 stand. -/
theorem tickBoundaryAdvances : Obligations.TickBoundaryAdvances := by
  unfold Obligations.TickBoundaryAdvances
  refine ⟨fun s early room hruns => ?_, fun s early room hruns => ?_⟩
  · obtain ⟨n, hn, hclock⟩ := Dev.clock_tickBoundary early room s.dev hruns
    refine ⟨_, exec_tickBoundary early room s, ?_⟩
    generalize Dev.tickBoundary early room s.dev = d at hclock
    have htotal : d.hif.total = n := congrArg Clock.total hclock
    have hdetects : d.detects = [] := congrArg Clock.detects hclock
    have htick := congrArg Clock.tick hclock
    have hstart := congrArg Clock.start hclock
    have hfirst := congrArg Clock.first hclock
    refine ⟨?_, by rw [htotal]; exact hn, hdetects, fun h => ?_, fun h => ?_⟩
    · cases h : s.dev.sys.first
      · rw [Dev.advance_next _ h] at hfirst; exact hfirst.trans h
      · rw [Dev.advance_first _ h] at hfirst; exact hfirst
    · rw [Dev.advance_next _ h] at htick hstart; exact ⟨htick, hstart⟩
    · rw [Dev.advance_first _ h] at htick hstart; exact ⟨htick, hstart⟩
  · exact (exec_tickBoundary early room s).trans (s.onDev_eq (Dev.tickBoundary_idle early room s.dev hruns))

end Sys2Proof.Machine
end
